-- ==== Sys2Proof/Word.lean ====
section
/-! DEFINITION. The word types of the register map and of host memory, and little-endian byte lists (R3, R5). -/

namespace Sys2Proof

/-- A register word of BAR0 (R5). -/
abbrev Word := BitVec 32

/-- A byte of host memory, of a frame or of a bank. -/
abbrev Byte := BitVec 8

/-- `n` bytes of `v`, least significant first (R3). -/
def leBytes : Nat → Nat → List Byte
  | 0, _ => []
  | n + 1, v => BitVec.ofNat 8 v :: leBytes n (v / 256)

/-- The number that a list of bytes spells, least significant first (R3). -/
def leNat : List Byte → Nat
  | [] => 0
  | b :: bs => b.toNat + 256 * leNat bs

/-- The number in `n` bytes from byte `i` of a record, least significant first. -/
def leAt (bs : List Byte) (i n : Nat) : Nat := leNat ((bs.drop i).take n)

/-- `n` zero bytes. -/
def zeros (n : Nat) : List Byte := List.replicate n 0

end Sys2Proof
end

