-- ==== Sys2Proof/Config.lean ====
section
/-! DEFINITION. What the spec leaves open: free values, each an opaque function of a counter that the machine advances at
every use, so that nothing can be proved of it but what holds of every value. -/

namespace Sys2Proof

/-- A free bit string of `w` bits for the `n`-th open value of a run: the random words of the nonce and of the
challenge (R505), and every result that the spec calls undefined or does not state (log entry 3). -/
opaque Config.free (w n : Nat) : BitVec w

/-- The public keys of Yunaver (R494, R498), X then Y: 0 the release key of the boot ROM, 1 the factory test key, 2 the key of tokens. The spec gives no value
(log entry 3). -/
opaque Config.romKey (n : Nat) : List Byte

/-- What the device identity's private key derives from (R503): a number of the fused device secret, and Yunaver's signature of the certificate for the public key.
The spec gives neither value nor derivation (log entry 3). -/
opaque Config.identityScalar : BitVec 384
opaque Config.certificateSig : BitVec 768

/-- The fused device identifier (R505). The spec gives no value (log entry 3). -/
opaque Config.deviceId : BitVec 128

/-- The fused stepping word GLB_VERSION (R539). The spec gives no value (log entry 3). -/
opaque Config.version : BitVec 32

/-- The mean path delay of a sample formed from an edge of PPS_IN, in 1/256 ns (R377, SRC 1). The spec gives no value (log entry 121). -/
opaque Config.ppsDelay : BitVec 32

end Sys2Proof
end

