-- ==== Sys2Proof/Syntax.lean ====
section
/-! DEFINITION. The commands of the block: one constructor of Instr for each row of the table of operations and events, with
the operands that a step takes from outside: who sends it, what was measured, what was read from host memory or received. -/

namespace Sys2Proof

/-- The two shepherds (R16). -/
inductive Shep where
  | A | B
  deriving DecidableEq, Repr

/-- The other shepherd. -/
def Shep.other : Shep → Shep
  | .A => .B
  | .B => .A

/-- 0 for Shepherd A and 1 for Shepherd B, as every field of the spec codes them. -/
def Shep.num : Shep → Nat
  | .A => 0
  | .B => 1

/-- The bank of the register table that holds a shepherd's copies (bank 0 is device-wide). -/
def Shep.bank : Shep → Nat
  | .A => 1
  | .B => 2

/-- A descriptor as fetched (R336), with the payload that the read of ADDR returned. `ring` 16 is the ring NET (R386).
`payload` none: the read of the payload failed (R354). The payload of a SURVEY is followed by the prior image that its request names (R278). -/
structure Desc where
  ring : Nat
  index : Nat
  op : Nat
  flags : Nat
  rsv2 : Nat
  tag : Nat
  addr : Nat
  len : Nat
  rsv20 : Nat
  outAddr : Nat
  inl : List Byte
  payload : Option (List Byte)
  deriving DecidableEq, Repr

/-- The aligned word that an atomic acts on: all 64 bits of a data word, or one half (R436). -/
inductive WordPart where
  | whole | low | high
  deriving DecidableEq, Repr

/-- What a port of a bank does in a cycle (R434 to R436): a read, a write of the bytes whose mask bits are set, or an atomic. -/
inductive PortOp where
  | read
  | write (mask : Nat) (data : BitVec 64)
  | add (part : WordPart) (v : BitVec 64)
  | swap (part : WordPart) (v : BitVec 64)
  deriving DecidableEq, Repr

/-- A cycle of a bank in which a port, or both, access one 64-bit word (R433, R435): the shepherd, the bank, the word and the accesses of ports 0 and 1. -/
structure BankCycle where
  sh : Shep
  bank : Nat
  word : Nat
  p0 : Option PortOp
  p1 : Option PortOp
  deriving DecidableEq, Repr

/-- What happens to a transaction in a shepherd's matrix (R451, R454): a master issues it with an ID to a target, a read of so many beats of 32 bytes or a write of
beats with their byte strobes; the target accepts the oldest one of a master and ID that waits for it; a beat of the oldest accepted one passes; it is answered. -/
inductive BusEvent where
  | read (sh : Shep) (master id target addr beats : Nat)
  | write (sh : Shep) (master id target addr : Nat) (data : List (Nat × BitVec 256))
  | accept (sh : Shep) (master id : Nat)
  | beat (sh : Shep) (master id : Nat)
  | respond (sh : Shep) (master id : Nat)
  deriving DecidableEq, Repr

/-- What the host does over the DOE mailbox of a function in an SPDM session (R503): it opens one, whose transcript's digest the shepherd signs; it sets the keys of
the link's IDE stream with IDE_KM; it ends the session. -/
inductive DoeEvent where
  | session (sh : Shep) (transcript : List Byte)
  | ideKeys (sh : Shep) (keys : List Byte)
  | endSession (sh : Shep)
  deriving DecidableEq, Repr

/-- What the converters, monitors and clocks deliver in the tick that a boundary ends (R99, R67, R163, R306, R516): raw ADC results
(sense channel, result, saturation detector), pad voltages of current-span channels (drive channel, VLOAD) and the
sum of their delivered currents over the tick (drive channel, units of 1 nA); a channel that is not listed keeps its last
value. The voltages on REFV_P and REFV_N that changed (paddock, difference in units of 100 uV; R65). The heartbeats of A and B at the boundary, the hottest junction temperature and the junction temperatures
of paddocks (paddock, temperature), in units of 0.1 degrees. What firmware and the engines did at the ports of the banks
and in the matrices in the tick, in order (R435, R451), and the host over the DOE mailboxes (R503). -/
structure TickInput where
  raws : List (Nat × Nat × Bool)
  vloads : List (Nat × Nat)
  amps : List (Nat × Nat)
  beatA : Bool
  beatB : Bool
  temp : Int
  temps : List (Nat × Int)
  refvs : List (Nat × Nat)
  sram : List BankCycle
  bus : List BusEvent
  doe : List DoeEvent
  deriving DecidableEq, Repr

/-- What a paddock link does to a frame (R288): the bytes that arrive changed, each with its place in the frame and what it is XORed with. -/
abbrev Noise := List (Nat × Byte)

/-- A failing column that a march found (R445): bank, sub-array, column, first failing element, and whether it was repaired. -/
structure MarchFail where
  bank : Nat
  sub : Nat
  col : Nat
  element : Nat
  repaired : Bool
  deriving DecidableEq, Repr

/-- The unit of the fold that a read found in error (R423): a descriptor or payload of a ring, a library record, an event of the event log,
a fit-log record or a recorder frame by its place from the oldest, or none of these. -/
inductive FoldUnit where
  | other
  | descriptor (ring index : Nat)
  | library (planId : Nat)
  | event (i : Nat)
  | fitLog (i : Nat)
  | frame (i : Nat)
  deriving DecidableEq, Repr

/-- An item of converter calibration that has a trim (R259): the offset and the gain of an ADC, the TIA gain of a range, and the offset and gain of a drive
channel on a span. -/
inductive CalItem where
  | adcOffset (adc : Nat)
  | adcGain (adc : Nat)
  | tia (range : Nat)
  | dac (ch span : Nat)
  deriving DecidableEq, Repr

/-- What was measured of an item (R259): its pairs of measurements in order. A reading is the sum of the conversions or ticks that R259 averages, in counts
or in LSBs of the span; a measurement of a DAC has a reading for each of its two codes, and every other one reading. -/
structure CalMeas where
  item : CalItem
  pairs : List (List Int × List Int)
  deriving DecidableEq, Repr

/-- What the converter calibration of a paddock measured (R259). An item that is not listed agreed in its first pair. -/
structure PdkCal where
  pdk : Nat
  meas : List CalMeas
  deriving DecidableEq, Repr

/-- A message that the PTP instance receives (R372): an Announce with the portState that the best master clock algorithm then gives, a Sync with its
origin time and the local time of its reception, the times of a Delay_Req and of its reception that its Delay_Resp completes, the mean path delay of
a finished Pdelay exchange, a Delay_Req or Pdelay_Req with its port identity (10 octets), sequence number and correctionField, the first with its time of
reception, or a message that is not supported. Times are in 1/256 ns, corrected as R374 states. In HSR it is the first copy of the message (R373). -/
inductive PtpMsg where
  | announce (state : Nat)
  | sync (t1 t2 : Int)
  | delayResp (t3 t4 : Int)
  | pdelay (delay : Nat)
  | delayReq (src : List Byte) (seq corr : Nat) (t4 : Int)
  | pdelayReq (src : List Byte) (seq corr : Nat)
  | unsupported
  deriving DecidableEq, Repr

/-- A rail that the device monitors (R482). -/
inductive Rail where
  | aon
  | vddA
  | vddB
  | vddq
  | pdk (p : Nat)
  | vdr (p : Nat)
  | vhtr (p : Nat)
  | serdes
  deriving DecidableEq, Repr

/-- What a shepherd's boot finds (R415, R441, R443, R490, R496, R498): the columns that fuses repaired, those that the start-up march repaired, whether it left an
unrepaired column, the population fault of its fold (0 none), DIMMs per channel and capacity in GiB, and whether the firmware store could not be read and the owner
key store opened. -/
structure BootInfo where
  fused : Nat
  soft : Nat
  unrepaired : Bool
  pop : Nat
  dpc : Nat
  cap : Nat
  storeErr : Bool
  keysOk : Bool
  deriving DecidableEq, Repr

/-- An Ethernet frame without its FCS (R362, R383): addresses of 6 octets, the tag control information of its VLAN tag, the Ethertype, the sequence number and
the LAN or path identifier of a PRP trailer or HSR tag, and the body. -/
structure EthFrame where
  dst : List Byte
  src : List Byte
  vlan : Option Nat
  etype : Nat
  red : Option (Nat × Nat)
  body : List Byte
  deriving DecidableEq, Repr

/-- A read of host memory that failed (R354): the doorbell line, descriptors of a ring, or the payload of a descriptor. -/
inductive HostRead where
  | doorbell
  | descriptors (ring : Nat)
  | payload (ring index : Nat)
  deriving DecidableEq, Repr

/-- The commands, in the order of the table. -/
inductive Instr where
  /-- POR (R484). -/
  | por
  /-- RESET_N_ASSERT (R484). -/
  | resetNAssert
  /-- PLL_LOSS_OF_LOCK (R457). -/
  | pllLossOfLock
  /-- RESET_END (R471). -/
  | resetEnd (straps : Nat)
  /-- PERST_ASSERT (R484). -/
  | perstAssert (x : Shep)
  /-- PCIE_HOT_RESET (R484). -/
  | pcieHotReset (x : Shep)
  /-- FUNCTION_LEVEL_RESET (R322). -/
  | functionLevelReset (x : Shep)
  /-- WATCHDOG_EXPIRY (R484). -/
  | watchdogExpiry (x : Shep)
  /-- RAIL_BELOW_THRESHOLD (R482). -/
  | railBelowThreshold (r : Rail)
  /-- RAIL_RESTORED (R482). -/
  | railRestored (r : Rail)
  /-- VDR_LOW (R75). -/
  | vdrLow (p : Nat)
  /-- VHTR_OUT_OF_RANGE (R91). -/
  | vhtrOutOfRange (p : Nat) (high : Bool)
  /-- PADDOCK_RESET_RELEASE (R486). -/
  | paddockResetRelease (p : Nat)
  /-- PADDOCK_RELOAD_DONE (R486). -/
  | paddockReloadDone (p : Nat)
  /-- BOOT_COMPLETE (R490). -/
  | bootComplete (x : Shep) (b : BootInfo)
  /-- CLAIM_WINDOW_EXPIRY (R308). -/
  | claimWindowExpiry
  /-- CONVERTER_CALIBRATION_DONE (R260). -/
  | converterCalibrationDone (cals : List PdkCal) (darks : List (Nat × Nat))
  /-- REFV_WINDOW_FAULT (R261). -/
  | refvWindowFault (p : Nat) (refv : Nat)
  /-- DROOP_TRIP (R458). -/
  | droopTrip (x : Shep) (mask : Nat)
  /-- STRETCH_HOLD_END (R458). -/
  | stretchHoldEnd (x : Shep) (periods : Nat)
  /-- CLEAR_N_FALL (R87). -/
  | clearNFall
  /-- CLEAR_N_RISE (R88). -/
  | clearNRise
  /-- FLOCK_RELEASE (R88). -/
  | flockRelease
  /-- FLOCK_STB_EDGE (R83). -/
  | flockStbEdge (pin : Nat) (falling : Bool)
  /-- WAKE_N_FALL (R479). -/
  | wakeNFall
  /-- LOW_POWER_EXIT_DONE (R480). -/
  | lowPowerExitDone
  /-- PPS_IN_EDGE (R370). -/
  | ppsInEdge
  /-- TICK_BOUNDARY (R22). -/
  | tickBoundary (i : TickInput)
  /-- SENSE_FRAME_RECEIVE (R105); a line without noise unless it is said. -/
  | senseFrameReceive (x : Shep) (p : Nat) (noise : Noise := [])
  /-- SENSE_FRAME_DEADLINE (R106). -/
  | senseFrameDeadline (x : Shep) (p : Nat)
  /-- LOOP_EVALUATION (R126). -/
  | loopEvaluation (x : Shep) (cap : Nat)
  /-- WINDOW_RESULT (R111). -/
  | windowResult (x : Shep) (m : Nat)
  /-- SETTLING_END (R147). -/
  | settlingEnd (c : Nat)
  /-- LOOP_OVERRUN (R152). -/
  | loopOverrun (x : Shep)
  /-- LOOP_SAT (R517). -/
  | loopSat (c : Nat)
  /-- LOOP_ERROR (R517). -/
  | loopError (c : Nat)
  /-- SENSE_OVER (R101). -/
  | senseOver (m : Nat)
  /-- VOID_PERIOD_END (R102). -/
  | voidPeriodEnd (m : Nat)
  /-- DARK_MEASURE_DONE (R103). -/
  | darkMeasureDone (m : Nat) (sum : Nat)
  /-- COMPLIANCE_SET (R90). -/
  | complianceSet (c : Nat)
  /-- COMPLIANCE_CLEAR (R90). -/
  | complianceClear (c : Nat)
  /-- JUNCTION_HOT (R516). -/
  | junctionHot
  /-- LOOP_OUTPUT_FRAME_RECEIVE (R291). -/
  | loopOutputFrameReceive (x : Shep) (p : Nat) (noise : Noise)
  /-- COPY_RECORD_SEND (R301). -/
  | copyRecordSend
  /-- COPY_RECORD_RECEIVE (R302). -/
  | copyRecordReceive (ok : Bool)
  /-- COPY_MISS_LIMIT (R304). -/
  | copyMissLimit
  /-- DIVERGENCE_LIMIT (R299). -/
  | divergenceLimit
  /-- SHEPHERD_LOST (R307). -/
  | shepherdLost (x : Shep)
  /-- HANDOVER_GRANT (R312). -/
  | handoverGrant
  /-- RESYNC_BANK_DONE (R315). -/
  | resyncBankDone
  /-- RESYNC_LIBRARY_DONE (R315). -/
  | resyncLibraryDone
  /-- RESYNC_STATE_DONE (R316). -/
  | resyncStateDone
  /-- RESYNC_TIMEOUT (R317). -/
  | resyncTimeout
  /-- STAGE_FRAME (R210). -/
  | stageFrame (x : Shep) (p : Nat) (noise : Noise)
  /-- COMMIT_FRAME (R228). -/
  | commitFrame (x : Shep) (p : Nat) (noise : Noise)
  /-- RETIME_FRAME (R228). -/
  | retimeFrame (x : Shep) (p : Nat) (noise : Noise)
  /-- CANCEL_FRAME (R228). -/
  | cancelFrame (x : Shep) (p : Nat) (noise : Noise)
  /-- CONTROL_FRAME_GAP (R291). -/
  | controlFrameGap (p : Nat)
  /-- STAGING_START (R230). -/
  | stagingStart
  /-- STAGING_COMPLETE (R231). -/
  | stagingComplete (dom : Nat)
  /-- LATE_STAGE (R232). -/
  | lateStage (dom : Nat)
  /-- COMMIT_FIRE (R227). -/
  | commitFire (dom : Nat)
  /-- COMMIT_LOOP_SEED (R146). -/
  | commitLoopSeed (dom : Nat)
  /-- ROTATION_TAKEOVER (R243). -/
  | rotationTakeover (dom : Nat)
  /-- SEQUENCER_TIME_STEP (R247). -/
  | sequencerTimeStep
  /-- ROUTE_COMPLETE (R199). -/
  | routeComplete (cycles : Nat)
  /-- IMAGE_BUILD_DONE (R207). -/
  | imageBuildDone
  /-- POSITION_TRACK (R193). -/
  | positionTrack
  /-- MAP_VALIDATION_DONE (R54). -/
  | mapValidationDone
  /-- MAP_TAKES_EFFECT (R56). -/
  | mapTakesEffect
  /-- SPAN_CHANGE_SWITCH_OPEN (R76). -/
  | spanChangeSwitchOpen (c : Nat)
  /-- SPAN_CHANGE_SWITCH_CLOSE (R76). -/
  | spanChangeSwitchClose (c : Nat)
  /-- SPAN_CHANGE_END (R76). -/
  | spanChangeEnd (c : Nat)
  /-- SPAN_CONFIG_END (R69). -/
  | spanConfigEnd (c : Nat)
  /-- CROSSTALK_PASS_START (R166). -/
  | crosstalkPassStart (x : Shep)
  /-- CROSSTALK_PASS_DONE (R167). -/
  | crosstalkPassDone (x : Shep)
  /-- CROSSTALK_TERMS_IN_FORCE (R166). -/
  | crosstalkTermsInForce (x : Shep)
  /-- SURVEY_POINT_DONE (R267). -/
  | surveyPointDone
  /-- DOORBELL_POLL (R326). -/
  | doorbellPoll (x : Shep) (line : List Byte)
  /-- DESCRIPTOR_FETCH_DONE (R333). -/
  | descriptorFetchDone (x : Shep) (ring : Nat) (ds : List (List Byte × Option (List Byte)))
  /-- HOST_READ_ERROR (R354). -/
  | hostReadError (x : Shep) (w : HostRead)
  /-- STATUS_LINE_WRITE (R328). -/
  | statusLineWrite (x : Shep)
  /-- IRQ_HOLDOFF_END (R353). -/
  | irqHoldoffEnd (x : Shep) (vec : Nat)
  /-- HELD_COMPLETION_FLUSH (R344). -/
  | heldCompletionFlush (x : Shep)
  /-- EVENT_LOG_FLUSH (R349). -/
  | eventLogFlush (x : Shep)
  /-- TELEMETRY_INTERVAL (R350). -/
  | telemetryInterval (power : Nat) (headroom : Nat)
  /-- ETH_FRAME_RECEIVE (R361). -/
  | ethFrameReceive (port : Nat) (f : EthFrame) (fcs : Bool)
  /-- CONTROL_FRAME_RECEIVE (R384). -/
  | controlFrameReceive
  /-- ETH_FRAME_OFFER (R296). -/
  | ethFrameOffer (x : Shep) (differs : Bool)
  /-- TRANSMIT_SELECTION (R399). -/
  | transmitSelection (port : Nat) (late : Bool)
  /-- GATE_ENTRY_START (R403). -/
  | gateEntryStart (port : Nat)
  /-- GATE_LIST_TAKEOVER (R404). -/
  | gateListTakeover (port : Nat)
  /-- SUPERVISION_FRAME (R362). -/
  | supervisionFrame (pair : Nat)
  /-- TABLE_ENTRY_FORGET (R362). -/
  | tableEntryForget (pair : Nat)
  /-- TELEMETRY_FRAME_SEND (R388). -/
  | telemetryFrameSend
  /-- PTP_MESSAGE_RECEIVE (R372). -/
  | ptpMessageReceive (port : Nat) (m : PtpMsg)
  /-- PTP_PORT_MOVE (R373). -/
  | ptpPortMove
  /-- SERVO_SAMPLE (R378). -/
  | servoSample (x : Shep) (pd : Nat) (ofs : Int)
  /-- ASYM_HOLD_END (R380). -/
  | asymHoldEnd (x : Shep)
  /-- HOLDOVER (R377). -/
  | holdover (x : Shep)
  /-- TIME_WRAP (R368). -/
  | timeWrap
  /-- PPS_OUT_PULSE (R370). -/
  | ppsOutPulse
  /-- RECORDER_CONFIG_EFFECT (R426). -/
  | recorderConfigEffect
  /-- RECORDER_POST_END (R429). -/
  | recorderPostEnd (x : Shep)
  /-- FOLD_ECC_ERROR (R423). -/
  | foldEccError (x : Shep) (ue : Bool) (u : FoldUnit)
  /-- BANK_ECC_ERROR (R440). -/
  | bankEccError (x : Shep) (double : Bool) (bank : Nat) (word : Nat) (off : Option Nat)
  /-- MATRIX_ACCESS_REFUSED (R450, R452); a burst of one beat unless its beats are said. -/
  | matrixAccessRefused (x : Shep) (master : Nat) (target : Nat) (write : Bool) (addr : Nat) (beats : Nat := 1)
  /-- MUSTER_WINDOW_CLOSE (R521). -/
  | musterWindowClose
  /-- FAULT_REACTION (R524). -/
  | faultReaction
  /-- LIFECYCLE_RESET (R495). -/
  | lifecycleReset
  /-- JTAG_TOKEN (R505). -/
  | jtagToken (t : List Byte) (burned : Bool)
  /-- JTAG_CORE_HALT (R507). -/
  | jtagCoreHalt (x : Shep)
  /-- SMBUS_READ (R569). -/
  | smbusRead (cmd : Nat) (power : Nat)
  /-- TEC_LOOP_UPDATE (R571). -/
  | tecLoopUpdate (t : Nat) (meas : Nat)
  /-- REGISTER_WRITE (R68); through the function unless it comes over JTAG (R504). -/
  | registerWrite (x : Shep) (addr : Nat) (bytes : List Byte) (jtag : Bool := false)
  /-- TIM_NOW_READ (R367): a read request of `len` bytes at `addr` through a path that reads TIM_NOW among others, or any other read (R534); one word at TIM_NOW unless another is said. -/
  | timNowRead (path : Nat) (addr : Nat := 0x6000) (len : Nat := 4)
  /-- DRV_CH_CTRL_WRITE (R69). -/
  | drvChCtrlWrite (x : Shep) (c : Nat) (v : Word)
  /-- DRV_FLOCK_STROBE (R84). -/
  | drvFlockStrobe (x : Shep) (w : Nat) (v : Word)
  /-- SNS_CH_CTRL_WRITE (R102). -/
  | snsChCtrlWrite (x : Shep) (m : Nat) (v : Word)
  /-- SNS_MEASURE (R103). -/
  | snsMeasure (x : Shep) (m : Nat) (v : Word)
  /-- SNS_LINK_ERR_CLEAR (R120). -/
  | snsLinkErrClear (x : Shep) (p : Nat)
  /-- LOOP_CTRL_WRITE (R143). -/
  | loopCtrlWrite (x : Shep) (c : Nat) (v : Word)
  /-- LOOP_INT_SEED (R143). -/
  | loopIntSeed (x : Shep) (c : Nat) (v : Word)
  /-- LOOP_CLR_CNT (R155). -/
  | loopClrCnt (x : Shep) (v : Word)
  /-- CMP_WIN_SEL_WRITE (R169). -/
  | cmpWinSelWrite (x : Shep) (v : Word)
  /-- XT_COEF_WRITE (R171). -/
  | xtCoefWrite (x : Shep) (w : Nat) (v : Word)
  /-- CMP_STAGE_APPLY (R172). -/
  | cmpStageApply (x : Shep) (v : Word)
  /-- CMP_PERIOD_WRITE (R175). -/
  | cmpPeriodWrite (x : Shep) (v : Word)
  /-- SEQ_ARM_GO (R251). -/
  | seqArmGo (x : Shep) (v : Word)
  /-- SEQ_ARM_CANCEL (R252). -/
  | seqArmCancel (x : Shep) (v : Word)
  /-- SEQ_MARGIN_WRITE (R252). -/
  | seqMarginWrite (x : Shep) (v : Word)
  /-- SHP_HANDOVER (R312). -/
  | shpHandover (x : Shep) (v : Word)
  /-- SHP_RESYNC_PEER (R315). -/
  | shpResyncPeer (x : Shep) (v : Word)
  /-- SHP_DETACH_PEER (R309). -/
  | shpDetachPeer (x : Shep) (v : Word)
  /-- SHP_CLR_CNT (R321). -/
  | shpClrCnt (x : Shep) (v : Word)
  /-- SHP_HOST_DIV_REPORT (R297). -/
  | shpHostDivReport (x : Shep) (v : Word)
  /-- HIF_CMD_ENABLE (R330). -/
  | hifCmdEnable (x : Shep) (ring : Nat) (v : Word)
  /-- HIF_RING_ENABLE (R343). -/
  | hifRingEnable (x : Shep) (k : Nat) (v : Word)
  /-- TIM_INCR_WRITE (R369). -/
  | timIncrWrite (x : Shep) (v : Word)
  /-- ALM_INJECT_WRITE (R532). -/
  | almInjectWrite (x : Shep) (v : Word)
  /-- ALM_RELEASE_WRITE (R526). -/
  | almReleaseWrite (x : Shep) (k : Option Nat) (v : Word)
  /-- PWR_WAKE_WRITE (R479). -/
  | pwrWakeWrite (x : Shep) (v : Word)
  /-- RST_SHP_RESET (R484). -/
  | rstShpReset (x : Shep) (v : Word)
  /-- RST_SOFT_RESET (R485). -/
  | rstSoftReset (x : Shep) (v : Word)
  /-- RST_PDK_RESET (R486). -/
  | rstPdkReset (x : Shep) (v : Word)
  /-- LCS_LOCK_SET (R511). -/
  | lcsLockSet (x : Shep)
  /-- LCS_RELOCK (R506). -/
  | lcsRelock (via : Option Shep)
  /-- GLB_LOAD_START (R541). -/
  | glbLoadStart (x : Shep) (v : Word)
  /-- CLK_XING_FENCE_WRITE (R468). -/
  | clkXingFenceWrite (x : Shep) (v : Word)
  /-- FLD_LAYOUT_WRITE (R422). -/
  | fldLayoutWrite (x : Shep) (fitlog : Bool) (v : Word)
  /-- NOP (R338). -/
  | nop (d : Desc)
  /-- RESERVED_OPCODE (R338). -/
  | reservedOpcode (d : Desc)
  /-- SETUP (R339). -/
  | setup (d : Desc)
  /-- SETUP_LOCK (R511). -/
  | setupLock (d : Desc)
  /-- MODE_PARKED (R471). -/
  | modeParked (d : Desc)
  /-- MODE_SERVICE (R471). -/
  | modeService (d : Desc)
  /-- MODE_MAINTENANCE (R472). -/
  | modeMaintenance (d : Desc)
  /-- NAP_ENTER (R478). -/
  | napEnter (d : Desc)
  /-- NAP_EXIT (R478). -/
  | napExit (d : Desc)
  /-- QUIESCE (R478). -/
  | quiesce (d : Desc)
  /-- DEEP (R478). -/
  | deep (d : Desc)
  /-- WAKE (R478). -/
  | wake (d : Desc)
  /-- PADDOCK_RESET (R478). -/
  | paddockReset (d : Desc)
  /-- SHEPHERD_RESET (R478). -/
  | shepherdReset (d : Desc)
  /-- SOFT_RESET (R485). -/
  | softReset (d : Desc)
  /-- MAP_LOAD (R53). -/
  | mapLoad (d : Desc)
  /-- DOMAIN_RELOAD (R53). -/
  | domainReload (d : Desc)
  /-- SET_SPAN (R94). -/
  | setSpan (d : Desc)
  /-- PARK (R94). -/
  | park (d : Desc)
  /-- PARK_RELEASE (R94). -/
  | parkRelease (d : Desc)
  /-- SET_SENSE (R118). -/
  | setSense (d : Desc)
  /-- SET_LOOP (R153). -/
  | setLoop (d : Desc)
  /-- ARM_COMP (R153). -/
  | armComp (d : Desc)
  /-- DISARM_COMP (R153). -/
  | disarmComp (d : Desc)
  /-- HOLD_LOOP (R153). -/
  | holdLoop (d : Desc)
  /-- RELEASE_LOOP (R153). -/
  | releaseLoop (d : Desc)
  /-- SEED_LOOP (R153). -/
  | seedLoop (d : Desc)
  /-- SET_COMP (R184). -/
  | setComp (d : Desc)
  /-- SET_XTALK (R184). -/
  | setXtalk (d : Desc)
  /-- SET_FIT (R184). -/
  | setFit (d : Desc)
  /-- REVERT_FIT (R180). -/
  | revertFit (d : Desc)
  /-- FIT_LOG_READ (R182). -/
  | fitLogRead (d : Desc)
  /-- FIT_LOG_FREE (R182). -/
  | fitLogFree (d : Desc)
  /-- PLAN_ROUTE (R220). -/
  | planRoute (d : Desc)
  /-- PLAN_CELLS (R205). -/
  | planCells (d : Desc)
  /-- PLAN_DIRECT (R206). -/
  | planDirect (d : Desc)
  /-- PLAN_FREE (R190). -/
  | planFree (d : Desc)
  /-- PLAN_REFRESH (R209). -/
  | planRefresh (d : Desc)
  /-- PLAN_STORE (R215). -/
  | planStore (d : Desc)
  /-- PLAN_LOAD (R215). -/
  | planLoad (d : Desc)
  /-- PLAN_IMPORT (R215). -/
  | planImport (d : Desc)
  /-- PLAN_EXPORT (R215). -/
  | planExport (d : Desc)
  /-- PLAN_DELETE (R215). -/
  | planDelete (d : Desc)
  /-- TURNOUT (R235). -/
  | turnout (d : Desc)
  /-- TURNOUT_LIST_ADD (R235). -/
  | turnoutListAdd (d : Desc)
  /-- TURNOUT_LIST_REPLACE (R237). -/
  | turnoutListReplace (d : Desc)
  /-- TURNOUT_CANCEL (R238). -/
  | turnoutCancel (d : Desc)
  /-- ROTATION_LIST (R242). -/
  | rotationList (d : Desc)
  /-- ROTATION_STOP (R243). -/
  | rotationStop (d : Desc)
  /-- SURVEY (R254). -/
  | survey (d : Desc)
  /-- SURVEY_ABORT (R282). -/
  | surveyAbort (d : Desc)
  /-- SURVEY_EXPORT (R280). -/
  | surveyExport (d : Desc)
  /-- HANDOVER (R319). -/
  | handover (d : Desc)
  /-- RESYNC (R319). -/
  | resync (d : Desc)
  /-- REC_CONFIG (R426). -/
  | recConfig (d : Desc)
  /-- REC_FREEZE (R429). -/
  | recFreeze (d : Desc)
  /-- REC_RESUME (R429). -/
  | recResume (d : Desc)
  /-- REC_STOP (R429). -/
  | recStop (d : Desc)
  /-- REC_READ (R430). -/
  | recRead (d : Desc)
  /-- MARCH (R444). -/
  | march (d : Desc)
  /-- MUSTER_READ (R530). -/
  | musterRead (d : Desc)
  /-- ALARM_CONFIG (R531). -/
  | alarmConfig (d : Desc)
  /-- ALARM_RELEASE (R531). -/
  | alarmRelease (d : Desc)
  /-- TIME_READ (R389). -/
  | timeRead (d : Desc)
  /-- TIME_SET (R381). -/
  | timeSet (d : Desc)
  /-- PTP_CONFIG (R390). -/
  | ptpConfig (d : Desc)
  /-- PORT_MEASURE (R389). -/
  | portMeasure (d : Desc)
  /-- GATE_LIST (R402). -/
  | gateList (d : Desc)
  /-- POLICER (R408). -/
  | policer (d : Desc)
  /-- LIFECYCLE (R495). -/
  | lifecycle (d : Desc) (burned : Bool)
  /-- DEBUG_TOKEN (R505). -/
  | debugToken (d : Desc)
  /-- CONTROL_KEY_PROVISION (R501). -/
  | controlKeyProvision (d : Desc) (ok : Bool)
  /-- OWNER_DEBUG_KEY (R501). -/
  | ownerDebugKey (d : Desc) (ok : Bool)
  /-- KEY_ERASE (R501). -/
  | keyErase (d : Desc) (ok : Bool)
  /-- RECORDER_KEEP (R509). -/
  | recorderKeep (d : Desc) (ok : Bool)
  /-- FW_WRITE (R499). -/
  | fwWrite (d : Desc)
  /-- FW_INFO (R499). -/
  | fwInfo (d : Desc)
  /-- FW_SELECT (R499). -/
  | fwSelect (d : Desc) (ok : Bool)
  /-- FW_RAISE_SVN (R499). -/
  | fwRaiseSvn (d : Desc) (burned : Bool)
  /-- TELEMETRY_CFG (R350). -/
  | telemetryCfg (d : Desc)
  /-- PERST_RELEASE (R484). -/
  | perstRelease (x : Shep)
  /-- ETH_LINK_CHANGE (R392). -/
  | ethLinkChange (port : Nat) (up : Bool)
  /-- VPARK_OUT_OF_RANGE (R93). -/
  | vparkOutOfRange (p : Nat)
  /-- PTP_MESSAGE_TIMER (R372). -/
  | ptpMessageTimer (kind : Nat)
  /-- MARCH_DONE (R444). -/
  | marchDone (a : List MarchFail) (b : List MarchFail)
  /-- PORT_MEASURE_DONE (R389). -/
  | portMeasureDone (rtt : Nat)
  /-- FW_STORE_WRITE_DONE (R499). -/
  | fwStoreWriteDone (ok : Bool)
  /-- LOAD_CHECK_DONE (R541). -/
  | loadCheckDone (x : Shep)
  deriving DecidableEq, Repr

end Sys2Proof
end

