-- ==== Sys2Proof/Machine/Bits.lean ====
section
/-! DEFINITION. Bit fields of a word, two's complement numbers, rounding, clamping, CRC functions and the keyed tables that
hold the machine's arrays in one canonical form. -/

namespace Sys2Proof.Machine

/-- A bit field [hi:lo] of a 32-bit word, as the bit tables of the spec write it. -/
structure Fld where
  hi : Nat
  lo : Nat
  deriving DecidableEq, Repr

/-- The number of bits of a field. -/
def Fld.width (f : Fld) : Nat := f.hi + 1 - f.lo

/-- The value a field of a word holds. -/
def Fld.get (f : Fld) (w : Word) : Nat := w.toNat / 2 ^ f.lo % 2 ^ f.width

/-- The word with a field replaced by the low bits of `v`. -/
def Fld.put (f : Fld) (w : Word) (v : Nat) : Word :=
  BitVec.ofNat 32 (w.toNat / 2 ^ (f.hi + 1) * 2 ^ (f.hi + 1) + v % 2 ^ f.width * 2 ^ f.lo + w.toNat % 2 ^ f.lo)

/-- The mask of a field. -/
def Fld.mask (f : Fld) : Word := f.put 0 (2 ^ f.width - 1)

/-- A one-bit field as a Bool. -/
def Fld.bit (f : Fld) (w : Word) : Bool := decide (f.get w = 1)

/-- A Bool as the value of a one-bit field. -/
def bitN (b : Bool) : Nat := if b then 1 else 0

/-- Bit `i` of a number. -/
def bitAt (n i : Nat) : Bool := decide (n / 2 ^ i % 2 = 1)

/-- The number with bit `i` set to `b`. -/
def setBitAt (n i : Nat) (b : Bool) : Nat :=
  if bitAt n i = b then n else if b then n + 2 ^ i else n - 2 ^ i

/-- A number of `w` bits read as two's complement (R2). -/
def toSigned (w n : Nat) : Int :=
  let m := n % 2 ^ w
  if m < 2 ^ (w - 1) then (m : Int) else (m : Int) - (2 ^ w : Nat)

/-- The two's complement code of a number in `w` bits. -/
def ofSigned (w : Nat) (i : Int) : Nat := (i % (2 ^ w : Nat)).toNat

/-- `i` limited to [lo, hi]. -/
def clampI (lo hi i : Int) : Int := if i < lo then lo else if hi < i then hi else i

/-- `n` limited to [lo, hi]. -/
def clampN (lo hi n : Nat) : Nat := if n < lo then lo else if hi < n then hi else n

/-- Saturating addition up to `top`. -/
def satAdd (top n k : Nat) : Nat := min top (n + k)

/-- The quotient rounded to the nearest, halves up: floor(i / d + 1/2), for d > 0. -/
def roundHalfUp (i : Int) (d : Nat) : Int := (2 * i + d) / (2 * d)

/-- The quotient rounded to the nearest, halves away from zero, for d > 0. -/
def roundHalfAway (i : Int) (d : Nat) : Int :=
  if i < 0 then -((2 * -i + d) / (2 * d)) else (2 * i + d) / (2 * d)

/-- `n` divided by `d`, rounded up, for d > 0. -/
def ceilDiv (n d : Nat) : Nat := (n + d - 1) / d

/-- The bits of a number from bit 0 up, `n` of them. -/
def bitsOf (n v : Nat) : List Nat := (List.range n).filter fun i => bitAt v i

/-- `x` put in front of the first greater number of a rising list. -/
def insN (x : Nat) : List Nat → List Nat
  | [] => [x]
  | y :: r => if x ≤ y then x :: y :: r else y :: insN x r

/-- The numbers in rising order. -/
def sortN : List Nat → List Nat
  | [] => []
  | x :: r => insN x (sortN r)

/-- One step of a reflected CRC with polynomial `poly`. -/
def crcBit (poly c : Nat) : Nat := if c % 2 = 1 then Nat.xor (c / 2) poly else c / 2

/-- One byte of a reflected CRC. -/
def crcByte (poly c : Nat) (b : Byte) : Nat :=
  (List.range 8).foldl (fun c _ => crcBit poly c) (Nat.xor c b.toNat)

/-- CRC-32C of a byte list (R10): reflected polynomial 0x82F63B78, initial value and final XOR all ones. -/
def crc32c (bs : List Byte) : Nat :=
  Nat.xor (bs.foldl (crcByte 0x82F63B78) 0xFFFFFFFF) 0xFFFFFFFF

/-- CRC-32 of a byte list (the Ethernet check): reflected polynomial 0xEDB88320. -/
def crc32 (bs : List Byte) : Nat :=
  Nat.xor (bs.foldl (crcByte 0xEDB88320) 0xFFFFFFFF) 0xFFFFFFFF

/-- A keyed table in one canonical form: keys strictly rising, and no entry equal to what an unlisted key reads as.
What an unlisted key reads as is a function of the key that every access names. -/
abbrev Tab (α : Type) := List (Nat × α)

/-- What a key reads as; `d` where the table lists nothing. -/
def Tab.get {α : Type} (t : Tab α) (d : α) (k : Nat) : α :=
  match t with
  | [] => d
  | (k', v) :: r => if k' = k then v else Tab.get r d k

/-- The table without a key. -/
def Tab.del {α : Type} (t : Tab α) (k : Nat) : Tab α := t.filter fun e => decide (e.1 ≠ k)

/-- The table with `(k, v)` put in front of the first greater key. -/
def Tab.ins {α : Type} (t : Tab α) (k : Nat) (v : α) : Tab α :=
  match t with
  | [] => [(k, v)]
  | (k', v') :: r => if k < k' then (k, v) :: (k', v') :: r else (k', v') :: Tab.ins r k v

/-- The table with key `k` reading `v`; `d` is what the unlisted key reads as. -/
def Tab.set {α : Type} [DecidableEq α] (t : Tab α) (d : α) (k : Nat) (v : α) : Tab α :=
  if v = d then Tab.del t k else Tab.ins (Tab.del t k) k v

/-- Keys strictly rising, and no entry equal to what its key reads as unlisted. -/
def Tab.wf {α : Type} [DecidableEq α] (d : Nat → α) : Tab α → Bool
  | [] => true
  | [(k, v)] => decide (v ≠ d k)
  | (k, v) :: (k', v') :: r => decide (k < k' ∧ v ≠ d k) && Tab.wf d ((k', v') :: r)

end Sys2Proof.Machine
end

