-- ==== Sys2Proof/Machine/Crypto.lean ====
section
/-! DEFINITION. The standard algorithms that the spec names: SHA-256, SHA-384, HMAC-SHA-256, AES-256-XTS, and ECDSA on P-384 (R383, R418, R497, R501, R505). Their constants
are those of the published standards (PRESUMED, log entry 12). -/

namespace Sys2Proof.Machine

/-! ### SHA-2 -/

/-- The number that a list of bytes spells, most significant first, as the standards read byte strings. -/
def beNat (bs : List Byte) : Nat := bs.foldl (fun n b => 256 * n + b.toNat) 0

/-- `n` bytes of a number, most significant first. -/
def beBytes (n v : Nat) : List Byte := (leBytes n v).reverse

/-- Rotation to the right of a word of `w` bits. -/
def rotr (w k x : Nat) : Nat := x / 2 ^ k + x % 2 ^ k * 2 ^ (w - k)

def xor3 (a b c : Nat) : Nat := Nat.xor (Nat.xor a b) c

/-- The first 80 primes, of which the standard takes its constants. -/
def shaPrimes : List Nat :=
  (List.range 410).filter fun n => decide (2 ≤ n) && (List.range 21).all fun d => decide (d < 2 ∨ n % d ≠ 0 ∨ n = d)

/-- The greatest number with `k`-th power at most `n`, from `r` on over the `b` bits below. -/
def rootFrom (k n : Nat) : Nat → Nat → Nat
  | 0, r => r
  | b + 1, r => rootFrom k n b (if (r + 2 ^ b) ^ k ≤ n then r + 2 ^ b else r)

/-- The first `w` bits of the fraction of the `k`-th root of a prime below 2^9. -/
def rootBits (k w p : Nat) : Nat := rootFrom k (p * 2 ^ (k * w)) (w + 5) 0 % 2 ^ w

/-- What differs between SHA-256 and SHA-384: the word width, the rounds, the constants, the eight rotations, two shifts, and the initial state. -/
structure ShaKind where
  w : Nat
  rounds : Nat
  k : List Nat
  s0 : Nat × Nat × Nat
  s1 : Nat × Nat × Nat
  e0 : Nat × Nat × Nat
  e1 : Nat × Nat × Nat
  init : List Nat
  out : Nat

/-- The round constants come from cube roots of the first primes, the initial state from square roots: those of the first eight for SHA-256, and of the next eight
for SHA-384. -/
def sha256Kind : ShaKind :=
  ⟨32, 64, (shaPrimes.take 64).map (rootBits 3 32), (7, 18, 3), (17, 19, 10), (2, 13, 22), (6, 11, 25), (shaPrimes.take 8).map (rootBits 2 32), 32⟩

def sha384Kind : ShaKind :=
  ⟨64, 80, shaPrimes.map (rootBits 3 64), (1, 8, 7), (19, 61, 6), (28, 34, 39), (14, 18, 41), ((shaPrimes.drop 8).take 8).map (rootBits 2 64), 48⟩

/-- The schedule after one more word; the newest word comes first. -/
def shaNextW (y : ShaKind) (ws : List Nat) : List Nat :=
  let a := (ws[14]?).getD 0
  let b := (ws[1]?).getD 0
  let s0 := xor3 (rotr y.w y.s0.1 a) (rotr y.w y.s0.2.1 a) (a / 2 ^ y.s0.2.2)
  let s1 := xor3 (rotr y.w y.s1.1 b) (rotr y.w y.s1.2.1 b) (b / 2 ^ y.s1.2.2)
  ((ws[15]?).getD 0 + s0 + (ws[6]?).getD 0 + s1) % 2 ^ y.w :: ws

/-- One round. -/
def shaRound (y : ShaKind) (v : List Nat) (k w : Nat) : List Nat :=
  match v with
  | [a, b, c, d, e, f, g, h] =>
    let m := 2 ^ y.w
    let s1 := xor3 (rotr y.w y.e1.1 e) (rotr y.w y.e1.2.1 e) (rotr y.w y.e1.2.2 e)
    let ch := Nat.xor (Nat.land e f) (Nat.land (m - 1 - e) g)
    let t1 := h + s1 + ch + k + w
    let s0 := xor3 (rotr y.w y.e0.1 a) (rotr y.w y.e0.2.1 a) (rotr y.w y.e0.2.2 a)
    let maj := xor3 (Nat.land a b) (Nat.land a c) (Nat.land b c)
    [(t1 + s0 + maj) % m, a, b, c, (d + t1) % m, e, f, g]
  | _ => v

/-- The words of a block, the last first. -/
def shaBlockWords (y : ShaKind) (bs : List Byte) : List Nat :=
  ((List.range 16).map fun i => beNat ((bs.drop (y.w / 8 * i)).take (y.w / 8))).reverse

/-- One block. -/
def shaBlock (y : ShaKind) (h : List Nat) (bs : List Byte) : List Nat :=
  let ws := ((List.range (y.rounds - 16)).foldl (fun ws _ => shaNextW y ws) (shaBlockWords y bs)).reverse
  let v := (y.k.zip ws).foldl (fun v e => shaRound y v e.1 e.2) h
  (h.zip v).map fun e => (e.1 + e.2) % 2 ^ y.w

def shaBlocks (y : ShaKind) : Nat → List Nat → List Byte → List Nat
  | 0, h, _ => h
  | n + 1, h, bs => shaBlocks y n (shaBlock y h (bs.take (2 * y.w))) (bs.drop (2 * y.w))

/-- The digest of a byte string: 2 w bytes a block, the length in the last w / 4 bytes. -/
def sha (y : ShaKind) (bs : List Byte) : List Byte :=
  let n := 2 * y.w
  let blocks := (bs.length + 1 + y.w / 4 + n - 1) / n
  let padded := bs ++ [0x80] ++ zeros (n * blocks - bs.length - 1 - y.w / 4) ++ beBytes (y.w / 4) (8 * bs.length)
  ((shaBlocks y blocks y.init padded).flatMap (beBytes (y.w / 8))).take y.out

def sha256 (bs : List Byte) : List Byte := sha sha256Kind bs
def sha384 (bs : List Byte) : List Byte := sha sha384Kind bs

/-- HMAC-SHA-256 with a key of at most 64 bytes (R383). -/
def hmac256 (key msg : List Byte) : List Byte :=
  let k := (key ++ zeros 64).take 64
  sha256 (k.map (· ^^^ 0x5C) ++ sha256 (k.map (· ^^^ 0x36) ++ msg))

/-! ### AES-256-XTS (R418) -/

/-- The product in the field of AES of two bytes, over the low `n` bits of the second. -/
def gfMulN : Nat → Nat → Nat → Nat
  | 0, _, _ => 0
  | n + 1, a, b =>
    Nat.xor (if b % 2 = 1 then a else 0) (gfMulN n (if a < 128 then 2 * a else Nat.xor (2 * a) 0x11B) (b / 2))

def gfMul (a b : Nat) : Nat := gfMulN 8 a b

/-- The inverse in the field, a^254; 0 of 0. -/
def gfInv (a : Nat) : Nat := (List.range 6).foldl (fun r _ => gfMul (gfMul r r) a) a |> fun r => gfMul r r

/-- A byte rotated to the left. -/
def rotl8 (k b : Nat) : Nat := (b * 2 ^ k + b / 2 ^ (8 - k)) % 256

/-- SubBytes of a byte, and its inverse. -/
def subByte (b : Nat) : Nat :=
  let i := gfInv b
  Nat.xor 0x63 ((List.range 5).foldl (fun r k => Nat.xor r (rotl8 k i)) 0)
def unsubByte (b : Nat) : Nat := gfInv (Nat.xor (xor3 (rotl8 1 b) (rotl8 3 b) (rotl8 6 b)) 5)

def xorList (a b : List Nat) : List Nat := List.zipWith Nat.xor a b

/-- The words of the key schedule of a key of 32 bytes, the newest first: one word more. -/
def aesNextW (ws : List (List Nat)) : List (List Nat) :=
  let i := ws.length
  let t := ws.headD []
  let t := if i % 8 = 0 then
      xorList ((t.drop 1 ++ t.take 1).map subByte) ((List.range (i / 8 - 1)).foldl (fun r _ => gfMul r 2) 1 :: [0, 0, 0])
    else if i % 8 = 4 then t.map subByte else t
  xorList ((ws[7]?).getD []) t :: ws

/-- The 15 round keys of AES-256, each of 16 bytes. -/
def aesKeys (key : List Nat) : List (List Nat) :=
  let ws := (List.range 52).foldl (fun ws _ => aesNextW ws) ((List.range 8).map fun i => (key.drop (4 * i)).take 4).reverse
  let flat := ws.reverse.flatten
  (List.range 15).map fun i => (flat.drop (16 * i)).take 16

/-- ShiftRows: byte r + 4 c comes from column c + k r, with k = 1, and back with k = 3. -/
def aesRows (k : Nat) (b : List Nat) : List Nat := (List.range 16).map fun i => (b[(i % 4 + 4 * ((i / 4 + k * (i % 4)) % 4))]?).getD 0

/-- MixColumns with the coefficients of its first row. -/
def aesMix (m : List Nat) (b : List Nat) : List Nat :=
  (List.range 16).map fun i =>
    (List.range 4).foldl (fun r j => Nat.xor r (gfMul ((b[4 * (i / 4) + j]?).getD 0) ((m[(j + 4 - i % 4) % 4]?).getD 0))) 0

/-- A block encrypted and decrypted under round keys. -/
def aesEnc (ks : List (List Nat)) (b : List Nat) : List Nat :=
  let mid := (ks.drop 1).take 13
  let b := mid.foldl (fun b k => xorList (aesMix [2, 3, 1, 1] (aesRows 1 (b.map subByte))) k) (xorList b (ks.headD []))
  xorList (aesRows 1 (b.map subByte)) (ks.getLastD [])
def aesDec (ks : List (List Nat)) (b : List Nat) : List Nat :=
  let mid := ((ks.drop 1).take 13).reverse
  let b := (aesRows 3 (xorList b (ks.getLastD []))).map unsubByte
  let b := mid.foldl (fun b k => (aesRows 3 (aesMix [14, 11, 13, 9] (xorList b k))).map unsubByte) b
  xorList b (ks.headD [])

/-- The tweak of the next block: twice it in the field of 2^128. -/
def xtsDouble (t : Nat) : Nat := if t < 2 ^ 127 then 2 * t else Nat.xor (2 * t - 2 ^ 128) 0x87

/-- A unit of whole blocks through AES-256-XTS under a key pair of 64 bytes: `f` is the block cipher, and the tweak of block `j` of the unit at address `addr` is the
encrypted address, doubled j times. -/
def xtsUnit (f : List (List Nat) → List Nat → List Nat) (pair : List Byte) (addr : Nat) (unit : List Byte) : List Byte :=
  let nats := fun (l : List Byte) => l.map BitVec.toNat
  let k1 := aesKeys (nats (pair.take 32))
  let k2 := aesKeys (nats (pair.drop 32))
  let t0 := aesEnc k2 (nats (leBytes 16 addr))
  (List.range (unit.length / 16)).flatMap fun j =>
    let t := nats (leBytes 16 ((List.range j).foldl (fun t _ => xtsDouble t) (t0.foldr (fun b n => b + 256 * n) 0)))
    (xorList (f k1 (xorList (nats ((unit.drop (16 * j)).take 16)) t)) t).map (BitVec.ofNat 8)

/-! ### P-384 -/

def p384 : Nat := 0xfffffffffffffffffffffffffffffffffffffffffffffffffffffffffffffffeffffffff0000000000000000ffffffff
def p384b : Nat := 0xb3312fa7e23ee7e4988e056be3f82d19181d9c6efe8141120314088f5013875ac656398d8a2ed19d2a85c8edd3ec2aef
def p384n : Nat := 0xffffffffffffffffffffffffffffffffffffffffffffffffc7634d81f4372ddf581a0db248b0a77aecec196accc52973
def p384g : Nat × Nat :=
  (0xaa87ca22be8b05378eb1c71ef320ad746e1d3b628ba79b9859f741e082542a385502f25dbf55296c3a545e3872760ab7,
   0x3617de4a96262c6f5d9e98bf9292dc29f8f41dbd289a147ce9da3113b5f0b8c00a60b1ce1d7e819d7a431d7c90ea0e5f)

/-- `b` to the power `e` modulo `m`, over the low `n` bits of `e`. -/
def powModN (m : Nat) : Nat → Nat → Nat → Nat
  | 0, _, _ => 1 % m
  | n + 1, b, e => (if e % 2 = 1 then b else 1) * powModN m n (b * b % m) (e / 2) % m

/-- The inverse modulo a prime of at most 384 bits. -/
def invMod (m a : Nat) : Nat := powModN m 384 (a % m) (m - 2)

/-- A point of the curve; none is the point at infinity. -/
abbrev EcPt := Option (Nat × Nat)

/-- The coordinates satisfy the curve's equation. -/
def onCurve (q : Nat × Nat) : Bool :=
  decide (q.1 < p384 ∧ q.2 < p384 ∧ q.2 * q.2 % p384 = (q.1 * q.1 * q.1 + (p384 - 3) * q.1 + p384b) % p384)

/-- The sum of two points. -/
def ecAdd (a b : EcPt) : EcPt :=
  match a, b with
  | none, q => q
  | q, none => q
  | some (x1, y1), some (x2, y2) =>
    if x1 = x2 ∧ (y1 + y2) % p384 = 0 then none
    else
      let l := if x1 = x2 then (3 * x1 * x1 + p384 - 3) * invMod p384 (2 * y1) % p384
        else (y2 + p384 - y1) * invMod p384 (x2 + p384 - x1) % p384
      let x := (l * l + 2 * p384 - x1 - x2) % p384
      some (x, (l * (x1 + p384 - x) + p384 - y1) % p384)

/-- `k` times a point, over the low `n` bits of `k`. -/
def ecMulN : Nat → Nat → EcPt → EcPt
  | 0, _, _ => none
  | n + 1, k, q => ecAdd (if k % 2 = 1 then q else none) (ecMulN n (k / 2) (ecAdd q q))

/-- The bytes of a public key or a signature: two numbers of 48 bytes, little-endian (R3). -/
def pairBytes (a b : Nat) : List Byte := leBytes 48 a ++ leBytes 48 b

/-- The public key of a private key (X, then Y). -/
def ecdsaPub (secret : Nat) : List Byte :=
  match ecMulN 384 secret (some p384g) with
  | some (x, y) => pairBytes x y
  | none => zeros 96

/-- The ECDSA signature (r, then s) of a SHA-384 digest under a private key, with the number `k` that every signature takes anew. -/
def ecdsaSign (secret k : Nat) (digest : List Byte) : List Byte :=
  let r := match ecMulN 384 k (some p384g) with
    | some (x, _) => x % p384n
    | none => 0
  pairBytes r (invMod p384n k * (beNat digest + r * secret) % p384n)

/-- An ECDSA signature (r, then s) over a SHA-384 digest verifies under a public key (X, then Y). Numbers are little-endian (R3). -/
def ecdsaOk (key digest sig : List Byte) : Bool :=
  let q := (leNat (key.take 48), leNat ((key.drop 48).take 48))
  let r := leNat (sig.take 48)
  let s := leNat ((sig.drop 48).take 48)
  let w := invMod p384n s
  let u1 := beNat digest * w % p384n
  let u2 := r * w % p384n
  onCurve q && decide (0 < r ∧ r < p384n ∧ 0 < s ∧ s < p384n) &&
  match ecAdd (ecMulN 384 u1 (some p384g)) (ecMulN 384 u2 (some q)) with
  | some (x, _) => decide (x % p384n = r)
  | none => false

end Sys2Proof.Machine
end

