-- ==== Sys2Proof/Machine/RegMap.lean ====
section
/-! DEFINITION. The register map: the BAR0 offset of every register (R533, R539, R542 to R547), its bit fields
(the bit tables of the defining chapters), and the table of access types, scopes and reset values (R6, R549) that a read
or a write of BAR0 consults. Arrays are written as functions of their index. Words that BAR0 shows only through a
selected page (the hysteresis, ripple and crosstalk tables of R169) have offsets of the model's own above 2^24
(DESIGN CHOICE, log entry 4). -/

namespace Sys2Proof.Machine

/-- GLB_ID (R539). -/
def GLB_ID : Nat := 0x0
/-- GLB_VERSION (R539). -/
def GLB_VERSION : Nat := 0x4
/-- GLB_FITTED (R539). -/
def GLB_FITTED : Nat := 0x8
/-- GLB_FUNC (R539). -/
def GLB_FUNC : Nat := 0xC
/-- GLB_BOOT (R539). -/
def GLB_BOOT : Nat := 0x10
/-- GLB_STATUS (R539). -/
def GLB_STATUS : Nat := 0x14
/-- GLB_LOAD_CTRL (R539). -/
def GLB_LOAD_CTRL : Nat := 0x20
/-- GLB_LOAD_PAGE (R539). -/
def GLB_LOAD_PAGE : Nat := 0x24
/-- CLK_STATUS (R469). -/
def CLK_STATUS : Nat := 0x1000
/-- CLK_DROOP_CFG (R469). -/
def CLK_DROOP_CFG : Nat := 0x1004
/-- CLK_DROOP_TRIP(i), i < 2 (R469). -/
def CLK_DROOP_TRIP (i : Nat) : Nat := 0x1008 + 4 * i
/-- CLK_STRETCH_CNT (R469). -/
def CLK_STRETCH_CNT : Nat := 0x1010
/-- CLK_STRETCH_EVT (R469). -/
def CLK_STRETCH_EVT : Nat := 0x1014
/-- CLK_XING_OVF (R469). -/
def CLK_XING_OVF : Nat := 0x1018
/-- CLK_XING_FENCE (R469). -/
def CLK_XING_FENCE : Nat := 0x101C
/-- CLK_XING_BUSY (R469). -/
def CLK_XING_BUSY : Nat := 0x1020
/-- PWR_STATUS (R491). -/
def PWR_STATUS : Nat := 0x2000
/-- PWR_WAKE (R491). -/
def PWR_WAKE : Nat := 0x2004
/-- PWR_RAIL (R491). -/
def PWR_RAIL : Nat := 0x2008
/-- RST_CTRL (R491). -/
def RST_CTRL : Nat := 0x3000
/-- RST_CAUSE (R491). -/
def RST_CAUSE : Nat := 0x3004
/-- RST_STRAPS (R491). -/
def RST_STRAPS : Nat := 0x3008
/-- RST_WDG (R491). -/
def RST_WDG : Nat := 0x300C
/-- RST_PDK_READY (R491). -/
def RST_PDK_READY : Nat := 0x3010
/-- LCS_STATE (R514). -/
def LCS_STATE : Nat := 0x4000
/-- LCS_DBG (R514). -/
def LCS_DBG : Nat := 0x4004
/-- LCS_LOCK (R514). -/
def LCS_LOCK : Nat := 0x4008
/-- LCS_KEYS (R514). -/
def LCS_KEYS : Nat := 0x400C
/-- LCS_STATUS (R514). -/
def LCS_STATUS : Nat := 0x4010
/-- LCS_FW_VER (R514). -/
def LCS_FW_VER : Nat := 0x4014
/-- LCS_FW_INFO (R514). -/
def LCS_FW_INFO : Nat := 0x4018
/-- LCS_DBG_CHAL(i), i < 16 (R514). -/
def LCS_DBG_CHAL (i : Nat) : Nat := 0x4040 + 4 * i
/-- PDK_LINK(i), i < 16 (R542). -/
def PDK_LINK (i : Nat) : Nat := 0x8000 + 4 * i
/-- PDK_TEMP(i), i < 16 (R542). -/
def PDK_TEMP (i : Nat) : Nat := 0x8040 + 4 * i
/-- PDK_TEC_CFG(i), i < 4 (R572). -/
def PDK_TEC_CFG (i : Nat) : Nat := 0x8080 + 4 * i
/-- PDK_TEC_STAT(i), i < 4 (R572). -/
def PDK_TEC_STAT (i : Nat) : Nat := 0x8090 + 4 * i
/-- HIF_DB_ADDR_LO (R357). -/
def HIF_DB_ADDR_LO : Nat := 0x5000
/-- HIF_DB_ADDR_HI (R357). -/
def HIF_DB_ADDR_HI : Nat := 0x5004
/-- HIF_POLL (R357). -/
def HIF_POLL : Nat := 0x5008
/-- HIF_STAT_ADDR_LO (R357). -/
def HIF_STAT_ADDR_LO : Nat := 0x5010
/-- HIF_STAT_ADDR_HI (R357). -/
def HIF_STAT_ADDR_HI : Nat := 0x5014
/-- HIF_TLM_CFG (R357). -/
def HIF_TLM_CFG : Nat := 0x5018
/-- HIF_IRQ_CFG (R357). -/
def HIF_IRQ_CFG : Nat := 0x501C
/-- HIF_STATUS (R357). -/
def HIF_STATUS : Nat := 0x5020
/-- HIF_CNT_LOST (R357). -/
def HIF_CNT_LOST : Nat := 0x5024
/-- HIF_CPL_BASE_LO (R357). -/
def HIF_CPL_BASE_LO : Nat := 0x5030
/-- HIF_CPL_BASE_HI (R357). -/
def HIF_CPL_BASE_HI : Nat := 0x5034
/-- HIF_EVT_BASE_LO (R357). -/
def HIF_EVT_BASE_LO : Nat := 0x5038
/-- HIF_EVT_BASE_HI (R357). -/
def HIF_EVT_BASE_HI : Nat := 0x503C
/-- HIF_TLM_BASE_LO (R357). -/
def HIF_TLM_BASE_LO : Nat := 0x5040
/-- HIF_TLM_BASE_HI (R357). -/
def HIF_TLM_BASE_HI : Nat := 0x5044
/-- HIF_RING_CFG(i), i < 3 (R357). -/
def HIF_RING_CFG (i : Nat) : Nat := 0x5050 + 4 * i
/-- HIF_CMD_BASE_LO(i), i < 16 (R357). -/
def HIF_CMD_BASE_LO (i : Nat) : Nat := 0x5100 + 8 * i
/-- HIF_CMD_BASE_HI(i), i < 16 (R357). -/
def HIF_CMD_BASE_HI (i : Nat) : Nat := 0x5104 + 8 * i
/-- HIF_CMD_CFG(i), i < 16 (R357). -/
def HIF_CMD_CFG (i : Nat) : Nat := 0x5180 + 4 * i
/-- HIF_CMD_STAT(i), i < 16 (R357). -/
def HIF_CMD_STAT (i : Nat) : Nat := 0x51C0 + 4 * i
/-- TIM_NOW (R396). -/
def TIM_NOW : Nat := 0x6000
/-- TIM_NOW_FRAC (R396). -/
def TIM_NOW_FRAC : Nat := 0x6004
/-- TIM_WRAPS (R396). -/
def TIM_WRAPS : Nat := 0x6008
/-- TIM_INCR (R396). -/
def TIM_INCR : Nat := 0x600C
/-- TIM_SERVO_CFG (R396). -/
def TIM_SERVO_CFG : Nat := 0x6010
/-- TIM_SERVO_GAIN (R396). -/
def TIM_SERVO_GAIN : Nat := 0x6014
/-- TIM_STEP_THR (R396). -/
def TIM_STEP_THR : Nat := 0x6018
/-- TIM_HOLD (R396). -/
def TIM_HOLD : Nat := 0x601C
/-- TIM_ASYM_THR (R396). -/
def TIM_ASYM_THR : Nat := 0x6020
/-- TIM_SAMPLE_PD (R396). -/
def TIM_SAMPLE_PD : Nat := 0x6024
/-- TIM_SAMPLE_OFS (R396). -/
def TIM_SAMPLE_OFS : Nat := 0x6028
/-- TIM_SERVO_STATUS (R396). -/
def TIM_SERVO_STATUS : Nat := 0x602C
/-- TIM_PPS_CFG (R396). -/
def TIM_PPS_CFG : Nat := 0x6030
/-- TIM_PPS_NEXT (R396). -/
def TIM_PPS_NEXT : Nat := 0x6034
/-- TIM_PPS_IN_TS (R396). -/
def TIM_PPS_IN_TS : Nat := 0x6038
/-- TIM_PTP_STAT (R396). -/
def TIM_PTP_STAT : Nat := 0x603C
/-- TIM_TB(b), b = 1 to 3 (R396). -/
def TIM_TB (b : Nat) : Nat := 0x6040 + 4 * (b - 1)
/-- TIM_PORT_CORR(i), i < 4 (R396). -/
def TIM_PORT_CORR (i : Nat) : Nat := 0x6050 + 4 * i
/-- TIM_PORT_ASYM(i), i < 4 (R396). -/
def TIM_PORT_ASYM (i : Nat) : Nat := 0x6060 + 4 * i
/-- ETH_STATUS (R396). -/
def ETH_STATUS : Nat := 0x7000
/-- ETH_CTL_CFG (R396). -/
def ETH_CTL_CFG : Nat := 0x7004
/-- ETH_CTL_STAT (R396). -/
def ETH_CTL_STAT : Nat := 0x7008
/-- ETH_POL_CFG (R413). -/
def ETH_POL_CFG : Nat := 0x700C
/-- ETH_POL_DROP_UNM (R413). -/
def ETH_POL_DROP_UNM : Nat := 0x7010
/-- ETH_TLM_QMASK (R413). -/
def ETH_TLM_QMASK : Nat := 0x7014
/-- ETH_TLM_DST_LO (R396). -/
def ETH_TLM_DST_LO : Nat := 0x7018
/-- ETH_TLM_DST_HI (R396). -/
def ETH_TLM_DST_HI : Nat := 0x701C
/-- ETH_PAIR_CFG(i), i < 2 (R396). -/
def ETH_PAIR_CFG (i : Nat) : Nat := 0x7020 + 4 * i
/-- ETH_MAC_LO(i), i < 2 (R396). -/
def ETH_MAC_LO (i : Nat) : Nat := 0x7028 + 8 * i
/-- ETH_MAC_HI(i), i < 2 (R396). -/
def ETH_MAC_HI (i : Nat) : Nat := 0x702C + 8 * i
/-- ETH_PORT_CFG(i), i < 4 (R396). -/
def ETH_PORT_CFG (i : Nat) : Nat := 0x7040 + 4 * i
/-- ETH_PORT_STAT(i), i < 4 (R396). -/
def ETH_PORT_STAT (i : Nat) : Nat := 0x7050 + 4 * i
/-- ETH_QMAP(i), i < 4 (R413). -/
def ETH_QMAP (i : Nat) : Nat := 0x7060 + 4 * i
/-- ETH_GATE_CFG(i), i < 4 (R413). -/
def ETH_GATE_CFG (i : Nat) : Nat := 0x7070 + 4 * i
/-- ETH_GATE_STAT(i), i < 4 (R413). -/
def ETH_GATE_STAT (i : Nat) : Nat := 0x7080 + 4 * i
/-- ETH_Q_SHAPE(i, q) (R413). -/
def ETH_Q_SHAPE (i q : Nat) : Nat := 0x7100 + 32 * i + 4 * q
/-- ETH_Q_SIZE(i, q) (R413). -/
def ETH_Q_SIZE (i q : Nat) : Nat := 0x7180 + 32 * i + 4 * q
/-- ETH_Q_STAT(i, q) (R413). -/
def ETH_Q_STAT (i q : Nat) : Nat := 0x7200 + 32 * i + 4 * q
/-- ETH_Q_MON(i, q) (R413). -/
def ETH_Q_MON (i q : Nat) : Nat := 0x7280 + 32 * i + 4 * q
/-- ETH_POL_DROP(i), i < 128 (R413). -/
def ETH_POL_DROP (i : Nat) : Nat := 0x7400 + 4 * i
/-- DRV_STATUS (R96). -/
def DRV_STATUS : Nat := 0x9000
/-- DRV_CLR_MASK(i), i < 2 (R96). -/
def DRV_CLR_MASK (i : Nat) : Nat := 0x9004 + 4 * i
/-- DRV_FLOCK_STROBE(i), i < 2 (R96). -/
def DRV_FLOCK_STROBE (i : Nat) : Nat := 0x900C + 4 * i
/-- DRV_PDK_STATUS(i), i < 16 (R96). -/
def DRV_PDK_STATUS (i : Nat) : Nat := 0x9040 + 4 * i
/-- DRV_FLOCK_CFG(i), i < 64 (R96). -/
def DRV_FLOCK_CFG (i : Nat) : Nat := 0x9100 + 4 * i
/-- DRV_FLOCK_CLR_V(i), i < 64 (R96). -/
def DRV_FLOCK_CLR_V (i : Nat) : Nat := 0x9200 + 4 * i
/-- DRV_FLOCK_CLR_I(i), i < 64 (R96). -/
def DRV_FLOCK_CLR_I (i : Nat) : Nat := 0x9300 + 4 * i
/-- DRV_CH_CTRL(i), i < 32768 (R67). -/
def DRV_CH_CTRL (i : Nat) : Nat := 0x100000 + 8 * i
/-- DRV_CH_STAT(i), i < 32768 (R67). -/
def DRV_CH_STAT (i : Nat) : Nat := 0x100004 + 8 * i
/-- SNS_STATUS (R120). -/
def SNS_STATUS : Nat := 0xA000
/-- SNS_LINK_ERR(i), i < 16 (R120). -/
def SNS_LINK_ERR (i : Nat) : Nat := 0xA040 + 4 * i
/-- SNS_CH_CTRL(i), i < 16384 (R120). -/
def SNS_CH_CTRL (i : Nat) : Nat := 0x140000 + 8 * i
/-- SNS_CH_STAT(i), i < 16384 (R120). -/
def SNS_CH_STAT (i : Nat) : Nat := 0x140004 + 8 * i
/-- SNS_DITHER(i), i < 32768 (R120). -/
def SNS_DITHER (i : Nat) : Nat := 0x160000 + 4 * i
/-- LOOP_CFG (R155). -/
def LOOP_CFG : Nat := 0xB000
/-- LOOP_STATUS (R155). -/
def LOOP_STATUS : Nat := 0xB004
/-- LOOP_DUE (R155). -/
def LOOP_DUE : Nat := 0xB008
/-- LOOP_DONE (R155). -/
def LOOP_DONE : Nat := 0xB00C
/-- LOOP_OVR_TICKS (R155). -/
def LOOP_OVR_TICKS : Nat := 0xB010
/-- LOOP_OVR_SKIPS (R155). -/
def LOOP_OVR_SKIPS : Nat := 0xB014
/-- LOOP_CTRL(i), i < 32768 (R155). -/
def LOOP_CTRL (i : Nat) : Nat := 0x800000 + 64 * i
/-- LOOP_MON(i), i < 32768 (R155). -/
def LOOP_MON (i : Nat) : Nat := 0x800004 + 64 * i
/-- LOOP_KP(i), i < 32768 (R155). -/
def LOOP_KP (i : Nat) : Nat := 0x800008 + 64 * i
/-- LOOP_KI(i), i < 32768 (R155). -/
def LOOP_KI (i : Nat) : Nat := 0x80000C + 64 * i
/-- LOOP_SP(i), i < 32768 (R155). -/
def LOOP_SP (i : Nat) : Nat := 0x800010 + 64 * i
/-- LOOP_SLEW(i), i < 32768 (R155). -/
def LOOP_SLEW (i : Nat) : Nat := 0x800014 + 64 * i
/-- LOOP_INT(i), i < 32768 (R155). -/
def LOOP_INT (i : Nat) : Nat := 0x800018 + 64 * i
/-- LOOP_STAT(i), i < 32768 (R155). -/
def LOOP_STAT (i : Nat) : Nat := 0x80001C + 64 * i
/-- LOOP_DEMAND(i), i < 32768 (R155). -/
def LOOP_DEMAND (i : Nat) : Nat := 0x800020 + 64 * i
/-- LOOP_SP_NOW(i), i < 32768 (R155). -/
def LOOP_SP_NOW (i : Nat) : Nat := 0x800024 + 64 * i
/-- LOOP_ERR(i), i < 32768 (R155). -/
def LOOP_ERR (i : Nat) : Nat := 0x800028 + 64 * i
/-- LOOP_CMP_CTRL(i), i < 65536 (R155). -/
def LOOP_CMP_CTRL (i : Nat) : Nat := 0xA00000 + 32 * i
/-- LOOP_CMP_LIMIT(i), i < 65536 (R155). -/
def LOOP_CMP_LIMIT (i : Nat) : Nat := 0xA00004 + 32 * i
/-- LOOP_CMP_GAIN(i), i < 65536 (R155). -/
def LOOP_CMP_GAIN (i : Nat) : Nat := 0xA00008 + 32 * i
/-- LOOP_CMP_INT(i), i < 65536 (R155). -/
def LOOP_CMP_INT (i : Nat) : Nat := 0xA0000C + 32 * i
/-- LOOP_CMP_STAT(i), i < 65536 (R155). -/
def LOOP_CMP_STAT (i : Nat) : Nat := 0xA00010 + 32 * i
/-- LOOP_CMP_DEMAND(i), i < 65536 (R155). -/
def LOOP_CMP_DEMAND (i : Nat) : Nat := 0xA00014 + 32 * i
/-- CMP_CFG (R186). -/
def CMP_CFG : Nat := 0xC000
/-- CMP_WIN_SEL (R186). -/
def CMP_WIN_SEL : Nat := 0xC004
/-- CMP_STAGE_CTRL (R186). -/
def CMP_STAGE_CTRL : Nat := 0xC008
/-- CMP_STATUS (R186). -/
def CMP_STATUS : Nat := 0xC00C
/-- CMP_PASS_CNT (R186). -/
def CMP_PASS_CNT : Nat := 0xC010
/-- CMP_EXT_CNT (R186). -/
def CMP_EXT_CNT : Nat := 0xC014
/-- CMP_XT_QLEVEL (R186). -/
def CMP_XT_QLEVEL : Nat := 0xC018
/-- CMP_FIT_CTRL (R186). -/
def CMP_FIT_CTRL : Nat := 0xC020
/-- CMP_FIT_LIMIT (R186). -/
def CMP_FIT_LIMIT : Nat := 0xC024
/-- CMP_FIT_EXCITE (R186). -/
def CMP_FIT_EXCITE : Nat := 0xC028
/-- CMP_FIT_BUDGET (R186). -/
def CMP_FIT_BUDGET : Nat := 0xC02C
/-- CMP_FIT_STATUS (R186). -/
def CMP_FIT_STATUS : Nat := 0xC030
/-- CMP_FIT_UPD (R186). -/
def CMP_FIT_UPD : Nat := 0xC034
/-- CMP_CH_CTRL(i), i < 32768 (R186). -/
def CMP_CH_CTRL (i : Nat) : Nat := 0x200000 + 16 * i
/-- CMP_RIP_CFG(i), i < 32768 (R186). -/
def CMP_RIP_CFG (i : Nat) : Nat := 0x200004 + 16 * i
/-- CMP_CH_STAT(i), i < 32768 (R186). -/
def CMP_CH_STAT (i : Nat) : Nat := 0x200008 + 16 * i
/-- CMP_XT_TERM(i), i < 32768 (R186). -/
def CMP_XT_TERM (i : Nat) : Nat := 0x20000C + 16 * i
/-- CMP_XT_BASE(i), i < 32768 (R186). -/
def CMP_XT_BASE (i : Nat) : Nat := 0x280000 + 8 * i
/-- CMP_XT_COUNT(i), i < 32768 (R186). -/
def CMP_XT_COUNT (i : Nat) : Nat := 0x280004 + 8 * i
/-- CMP_STAGING(i), i < 338 (R172). -/
def CMP_STAGING (i : Nat) : Nat := 0x1E1000 + 4 * i
/-- DRO_MAP_STATUS (R63). -/
def DRO_MAP_STATUS : Nat := 0xD000
/-- DRO_MAP_ID (R63). -/
def DRO_MAP_ID : Nat := 0xD004
/-- DRO_MAP_ERR_INDEX (R63). -/
def DRO_MAP_ERR_INDEX : Nat := 0xD008
/-- DRO_MAP_DOMAINS (R63). -/
def DRO_MAP_DOMAINS : Nat := 0xD00C
/-- DRO_ROUTE_CFG (R222). -/
def DRO_ROUTE_CFG : Nat := 0xD010
/-- DRO_ROUTE_STATUS (R222). -/
def DRO_ROUTE_STATUS : Nat := 0xD014
/-- DRO_ROUTE_TIME (R222). -/
def DRO_ROUTE_TIME : Nat := 0xD018
/-- DRO_PROTECT(i), i < 32 (R222). -/
def DRO_PROTECT (i : Nat) : Nat := 0xD080 + 4 * i
/-- DRO_POS(i), i < 32768 (R222). -/
def DRO_POS (i : Nat) : Nat := 0x180000 + 4 * i
/-- DRO_PIN(d, w) (R222). -/
def DRO_PIN (d w : Nat) : Nat := 0x1C0000 + 4096 * d + 4 * w
/-- DRO_SLOT_STAT(i), i < 256 (R222). -/
def DRO_SLOT_STAT (i : Nat) : Nat := 0x1E0000 + 8 * i
/-- DRO_SLOT_ID(i), i < 256 (R222). -/
def DRO_SLOT_ID (i : Nat) : Nat := 0x1E0004 + 8 * i
/-- SEQ_CFG (R252). -/
def SEQ_CFG : Nat := 0xE000
/-- SEQ_LEAD (R252). -/
def SEQ_LEAD : Nat := 0xE004
/-- SEQ_STATUS (R252). -/
def SEQ_STATUS : Nat := 0xE008
/-- SEQ_STEP (R252). -/
def SEQ_STEP : Nat := 0xE00C
/-- SEQ_CNT_COMMIT (R252). -/
def SEQ_CNT_COMMIT : Nat := 0xE010
/-- SEQ_CNT_LATE (R252). -/
def SEQ_CNT_LATE : Nat := 0xE014
/-- SEQ_CNT_MISS (R252). -/
def SEQ_CNT_MISS : Nat := 0xE018
/-- SEQ_ARM_INSTANT (R252). -/
def SEQ_ARM_INSTANT : Nat := 0xE020
/-- SEQ_ARM_CTRL (R252). -/
def SEQ_ARM_CTRL : Nat := 0xE024
/-- SEQ_DOM_STAT(i), i < 16 (R252). -/
def SEQ_DOM_STAT (i : Nat) : Nat := 0xE040 + 4 * i
/-- SEQ_DOM_NEXT(i), i < 16 (R252). -/
def SEQ_DOM_NEXT (i : Nat) : Nat := 0xE080 + 4 * i
/-- Word w of pool entry i (R252). -/
def SEQ_TURNOUT (i w : Nat) : Nat := 0x1D0000 + 16 * i + 4 * w
/-- SRV_CFG (R284). -/
def SRV_CFG : Nat := 0xF000
/-- SRV_CFG2 (R284). -/
def SRV_CFG2 : Nat := 0xF004
/-- SRV_STATUS (R284). -/
def SRV_STATUS : Nat := 0xF008
/-- SRV_PROGRESS (R284). -/
def SRV_PROGRESS : Nat := 0xF00C
/-- SRV_REFV(i), i < 16 (R284). -/
def SRV_REFV (i : Nat) : Nat := 0xF040 + 4 * i
/-- SRV_PDK_CAL(i), i < 16 (R284). -/
def SRV_PDK_CAL (i : Nat) : Nat := 0xF080 + 4 * i
/-- SRV_CH(i), i < 32768 (R284). -/
def SRV_CH (i : Nat) : Nat := 0x1A0000 + 4 * i
/-- SRV_LOSS(d, c) (R284). -/
def SRV_LOSS (d c : Nat) : Nat := 0x400000 + 4 * (16384 * d + c)
/-- SHP_STATUS (R321). -/
def SHP_STATUS : Nat := 0x10000
/-- SHP_CTRL (R321). -/
def SHP_CTRL : Nat := 0x10004
/-- SHP_CFG (R321). -/
def SHP_CFG : Nat := 0x10008
/-- SHP_REFEREE (R321). -/
def SHP_REFEREE : Nat := 0x1000C
/-- SHP_EVENTS (R321). -/
def SHP_EVENTS : Nat := 0x10010
/-- SHP_RESYNC (R321). -/
def SHP_RESYNC : Nat := 0x10014
/-- SHP_HOST_DIV (R321). -/
def SHP_HOST_DIV : Nat := 0x10018
/-- SHP_CNT_DIVERGE (R321). -/
def SHP_CNT_DIVERGE : Nat := 0x10020
/-- SHP_CNT_UNSEALED (R321). -/
def SHP_CNT_UNSEALED : Nat := 0x10024
/-- SHP_CNT_REPAIR (R321). -/
def SHP_CNT_REPAIR : Nat := 0x10028
/-- SHP_CNT_SWITCH (R321). -/
def SHP_CNT_SWITCH : Nat := 0x1002C
/-- SHP_HUB_DROP (R321). -/
def SHP_HUB_DROP : Nat := 0x10030
/-- SHP_HUB_DIV (R321). -/
def SHP_HUB_DIV : Nat := 0x10034
/-- SHP_PDK_ERR(i), i < 16 (R321). -/
def SHP_PDK_ERR (i : Nat) : Nat := 0x10040 + 4 * i
/-- FLD_STATUS (R448). -/
def FLD_STATUS : Nat := 0x11000
/-- FLD_LIB_CFG (R448). -/
def FLD_LIB_CFG : Nat := 0x11004
/-- FLD_FITLOG_CFG (R448). -/
def FLD_FITLOG_CFG : Nat := 0x11008
/-- FLD_REC_STATUS (R448). -/
def FLD_REC_STATUS : Nat := 0x1100C
/-- FLD_REC_RATE (R448). -/
def FLD_REC_RATE : Nat := 0x11010
/-- FLD_REC_OLDEST (R448). -/
def FLD_REC_OLDEST : Nat := 0x11014
/-- FLD_REC_NEWEST (R448). -/
def FLD_REC_NEWEST : Nat := 0x11018
/-- FLD_REC_DROP (R448). -/
def FLD_REC_DROP : Nat := 0x1101C
/-- FLD_FREEZE_CFG (R448). -/
def FLD_FREEZE_CFG : Nat := 0x11020
/-- FLD_REC_POST (R448). -/
def FLD_REC_POST : Nat := 0x11024
/-- FLD_ECC (R448). -/
def FLD_ECC : Nat := 0x11028
/-- BNK_ECC (R448). -/
def BNK_ECC : Nat := 0x12000
/-- BNK_STATUS (R448). -/
def BNK_STATUS : Nat := 0x12004
/-- BNK_ERR_ADDR (R448). -/
def BNK_ERR_ADDR : Nat := 0x12008
/-- BNK_REPAIR (R448). -/
def BNK_REPAIR : Nat := 0x1200C
/-- BNK_PWR(i), i < 8 (R448). -/
def BNK_PWR (i : Nat) : Nat := 0x12020 + 4 * i
/-- BNK_DEEP_RETAIN(i), i < 4 (R448). -/
def BNK_DEEP_RETAIN (i : Nat) : Nat := 0x12040 + 4 * i
/-- MTX_REMAP (R469). -/
def MTX_REMAP : Nat := 0x13000
/-- MTX_ERR_STATUS (R469). -/
def MTX_ERR_STATUS : Nat := 0x13004
/-- MTX_ERR_ADDR_LO (R469). -/
def MTX_ERR_ADDR_LO : Nat := 0x13008
/-- MTX_ERR_ADDR_HI (R469). -/
def MTX_ERR_ADDR_HI : Nat := 0x1300C
/-- MTX_RETIRE (R469). -/
def MTX_RETIRE : Nat := 0x13010
/-- ALM_CFG (R532). -/
def ALM_CFG : Nat := 0x14000
/-- ALM_LOOP (R532). -/
def ALM_LOOP : Nat := 0x14004
/-- ALM_TEMP (R532). -/
def ALM_TEMP : Nat := 0x14008
/-- ALM_STATUS (R532). -/
def ALM_STATUS : Nat := 0x1400C
/-- ALM_PARKED (R532). -/
def ALM_PARKED : Nat := 0x14010
/-- ALM_CLEARED(i), i < 2 (R532). -/
def ALM_CLEARED (i : Nat) : Nat := 0x14014 + 4 * i
/-- ALM_INJECT (R532). -/
def ALM_INJECT : Nat := 0x1401C
/-- ALM_CNT (R532). -/
def ALM_CNT : Nat := 0x14020
/-- ALM_CLASS(i), i < 32 (R532). -/
def ALM_CLASS (i : Nat) : Nat := 0x14080 + 4 * i

/-- Word w (0 to 63) of channel n's hysteresis tables (R169, TABLE 0x0). -/
def HYS_WORD (n w : Nat) : Nat := 0x1000000 + 4 * (64 * n + w)
/-- Word w (0 to 15) of channel n's ripple table (R169, TABLE 0x1). -/
def RIP_WORD (n w : Nat) : Nat := 0x1800000 + 4 * (16 * n + w)
/-- Crosstalk matrix entry e: coefficient in [31:16], aggressor in [15:0] (R162, R169 TABLE 0x2). -/
def XT_WORD (e : Nat) : Nat := 0x2000000 + 4 * e
/-- Anchor of crosstalk matrix entry e, in [31:16] (R180). -/
def XT_ANCHOR (e : Nat) : Nat := 0x6000000 + 4 * e

def fGLB_ID_PART : Fld := ⟨31, 16⟩
def fGLB_ID_GRADE : Fld := ⟨1, 0⟩
def fGLB_VERSION_MAJOR : Fld := ⟨15, 8⟩
def fGLB_VERSION_MINOR : Fld := ⟨7, 0⟩
def fGLB_FITTED_PADDOCKS : Fld := ⟨15, 0⟩
def fGLB_FUNC_SHEPHERD : Fld := ⟨0, 0⟩
def fGLB_BOOT_BOOT_ERR_B : Fld := ⟨31, 28⟩
def fGLB_BOOT_BOOT_ERR_A : Fld := ⟨15, 12⟩
def fGLB_BOOT_POP_FAULT_B : Fld := ⟨27, 24⟩
def fGLB_BOOT_POP_FAULT_A : Fld := ⟨11, 8⟩
def fGLB_BOOT_UNREPAIRED_B : Fld := ⟨23, 23⟩
def fGLB_BOOT_UNREPAIRED_A : Fld := ⟨7, 7⟩
def fGLB_BOOT_ROLE_B : Fld := ⟨22, 20⟩
def fGLB_BOOT_ROLE_A : Fld := ⟨6, 4⟩
def fGLB_BOOT_STEP_B : Fld := ⟨19, 16⟩
def fGLB_BOOT_STEP_A : Fld := ⟨3, 0⟩
def fGLB_STATUS_BAD_LOAD : Fld := ⟨4, 4⟩
def fGLB_STATUS_ABSENT_WR : Fld := ⟨3, 3⟩
def fGLB_STATUS_HOLE_WR : Fld := ⟨2, 2⟩
def fGLB_STATUS_NARROW_WR : Fld := ⟨1, 1⟩
def fGLB_STATUS_UNALIGNED : Fld := ⟨0, 0⟩
def fGLB_LOAD_CTRL_START : Fld := ⟨31, 31⟩
def fGLB_LOAD_CTRL_BUSY : Fld := ⟨30, 30⟩
def fGLB_LOAD_CTRL_LENGTH : Fld := ⟨25, 0⟩
def fGLB_LOAD_PAGE_PAGE : Fld := ⟨4, 0⟩
def fCLK_STATUS_LOCK : Fld := ⟨31, 31⟩
def fCLK_STATUS_LOL_SEEN : Fld := ⟨30, 30⟩
def fCLK_DROOP_CFG_HOLD : Fld := ⟨23, 16⟩
def fCLK_DROOP_CFG_THR : Fld := ⟨7, 0⟩
def fCLK_DROOP_TRIP_TRIP : Fld := ⟨31, 0⟩
def fCLK_STRETCH_CNT_COUNT : Fld := ⟨31, 0⟩
def fCLK_STRETCH_EVT_COUNT : Fld := ⟨31, 0⟩
def fCLK_XING_OVF_SHP : Fld := ⟨20, 16⟩
def fCLK_XING_OVF_PDK : Fld := ⟨15, 0⟩
def fCLK_XING_FENCE_SHP : Fld := ⟨20, 16⟩
def fCLK_XING_FENCE_PDK : Fld := ⟨15, 0⟩
def fCLK_XING_BUSY_SHP : Fld := ⟨20, 16⟩
def fCLK_XING_BUSY_PDK : Fld := ⟨15, 0⟩
def fPWR_STATUS_NAP : Fld := ⟨31, 16⟩
def fPWR_STATUS_INDEX : Fld := ⟨11, 8⟩
def fPWR_STATUS_SCOPE : Fld := ⟨7, 7⟩
def fPWR_STATUS_ORPHAN : Fld := ⟨6, 6⟩
def fPWR_STATUS_LP : Fld := ⟨5, 4⟩
def fPWR_STATUS_MODE : Fld := ⟨2, 0⟩
def fPWR_WAKE_WAKE : Fld := ⟨31, 31⟩
def fPWR_WAKE_WAKE_SEEN : Fld := ⟨1, 1⟩
def fPWR_WAKE_WAKE_N_LEVEL : Fld := ⟨0, 0⟩
def fPWR_RAIL_PDK_LOW : Fld := ⟨31, 16⟩
def fPWR_RAIL_SERDES_LOW : Fld := ⟨3, 3⟩
def fPWR_RAIL_VDDQ_LOW : Fld := ⟨2, 2⟩
def fPWR_RAIL_VDD_B_LOW : Fld := ⟨1, 1⟩
def fPWR_RAIL_VDD_A_LOW : Fld := ⟨0, 0⟩
def fRST_CTRL_SHP_RESET : Fld := ⟨31, 31⟩
def fRST_CTRL_SOFT_RESET : Fld := ⟨30, 30⟩
def fRST_CTRL_PDK_RESET : Fld := ⟨29, 29⟩
def fRST_CTRL_SHEPHERD : Fld := ⟨24, 24⟩
def fRST_CTRL_PADDOCK : Fld := ⟨19, 16⟩
def fRST_CAUSE_BAD_CTRL : Fld := ⟨15, 15⟩
def fRST_CAUSE_POR : Fld := ⟨9, 9⟩
def fRST_CAUSE_LC : Fld := ⟨8, 8⟩
def fRST_CAUSE_LOL : Fld := ⟨7, 7⟩
def fRST_CAUSE_WATCHDOG : Fld := ⟨6, 6⟩
def fRST_CAUSE_SHP : Fld := ⟨5, 5⟩
def fRST_CAUSE_SOFT : Fld := ⟨4, 4⟩
def fRST_CAUSE_FLR : Fld := ⟨3, 3⟩
def fRST_CAUSE_HOT : Fld := ⟨2, 2⟩
def fRST_CAUSE_PERST : Fld := ⟨1, 1⟩
def fRST_CAUSE_RESET_N : Fld := ⟨0, 0⟩
def fRST_STRAPS_PARK_SEL : Fld := ⟨4, 3⟩
def fRST_STRAPS_PREFER : Fld := ⟨2, 2⟩
def fRST_STRAPS_BOOT_SEL : Fld := ⟨1, 0⟩
def fRST_WDG_EN : Fld := ⟨31, 31⟩
def fRST_WDG_TIMEOUT : Fld := ⟨15, 0⟩
def fRST_PDK_READY_IN_RESET : Fld := ⟨31, 16⟩
def fRST_PDK_READY_READY : Fld := ⟨15, 0⟩
def fLCS_STATE_REC_KEEP : Fld := ⟨5, 5⟩
def fLCS_STATE_STORE_OK : Fld := ⟨4, 4⟩
def fLCS_STATE_STATE : Fld := ⟨2, 0⟩
def fLCS_DBG_RELOCK : Fld := ⟨31, 31⟩
def fLCS_DBG_FAILS : Fld := ⟨7, 4⟩
def fLCS_DBG_LEVEL : Fld := ⟨1, 0⟩
def fLCS_LOCK_SET : Fld := ⟨0, 0⟩
def fLCS_KEYS_DEBUG : Fld := ⟨2, 2⟩
def fLCS_KEYS_CTL1 : Fld := ⟨1, 1⟩
def fLCS_KEYS_CTL0 : Fld := ⟨0, 0⟩
def fLCS_STATUS_LOCKOUT : Fld := ⟨2, 2⟩
def fLCS_STATUS_HALT_REFUSED : Fld := ⟨1, 1⟩
def fLCS_STATUS_AUTH_FAIL : Fld := ⟨0, 0⟩
def fLCS_FW_VER_FW_VERSION : Fld := ⟨31, 0⟩
def fLCS_FW_INFO_SVN_MIN : Fld := ⟨31, 26⟩
def fLCS_FW_INFO_SVN : Fld := ⟨25, 20⟩
def fLCS_FW_INFO_STATE_VER : Fld := ⟨19, 12⟩
def fLCS_FW_INFO_SLOT : Fld := ⟨8, 8⟩
def fLCS_FW_INFO_BOOT_ERR : Fld := ⟨3, 0⟩
def fLCS_DBG_CHAL_CHAL : Fld := ⟨31, 0⟩
def fPDK_LINK_FITTED : Fld := ⟨2, 2⟩
def fPDK_LINK_LINK_B : Fld := ⟨1, 1⟩
def fPDK_LINK_LINK_A : Fld := ⟨0, 0⟩
def fPDK_TEMP_TEMP : Fld := ⟨15, 0⟩
def fPDK_TEC_CFG_EN : Fld := ⟨31, 31⟩
def fPDK_TEC_CFG_DIR : Fld := ⟨30, 30⟩
def fPDK_TEC_CFG_KP : Fld := ⟨27, 24⟩
def fPDK_TEC_CFG_KI : Fld := ⟨23, 20⟩
def fPDK_TEC_CFG_SETPOINT : Fld := ⟨15, 0⟩
def fPDK_TEC_STAT_DUTY : Fld := ⟨31, 22⟩
def fPDK_TEC_STAT_OPEN : Fld := ⟨19, 19⟩
def fPDK_TEC_STAT_SHORT : Fld := ⟨18, 18⟩
def fPDK_TEC_STAT_SAT : Fld := ⟨17, 17⟩
def fPDK_TEC_STAT_MEAS : Fld := ⟨15, 0⟩
def fHIF_DB_ADDR_LO_ADDR : Fld := ⟨31, 6⟩
def fHIF_DB_ADDR_HI_ADDR_HI : Fld := ⟨31, 0⟩
def fHIF_POLL_EN : Fld := ⟨31, 31⟩
def fHIF_POLL_PERIOD : Fld := ⟨16, 0⟩
def fHIF_STAT_ADDR_LO_ADDR : Fld := ⟨31, 6⟩
def fHIF_STAT_ADDR_LO_EN : Fld := ⟨0, 0⟩
def fHIF_STAT_ADDR_HI_ADDR_HI : Fld := ⟨31, 0⟩
def fHIF_TLM_CFG_INTERVAL : Fld := ⟨31, 16⟩
def fHIF_TLM_CFG_SRC : Fld := ⟨3, 0⟩
def fHIF_IRQ_CFG_HOLDOFF : Fld := ⟨31, 16⟩
def fHIF_STATUS_EVT_HELD : Fld := ⟨6, 6⟩
def fHIF_STATUS_CPL_HELD : Fld := ⟨5, 5⟩
def fHIF_STATUS_BAD_CONS : Fld := ⟨4, 4⟩
def fHIF_STATUS_DESC_MISMATCH : Fld := ⟨3, 3⟩
def fHIF_STATUS_DB_FAULT : Fld := ⟨2, 2⟩
def fHIF_STATUS_RING_ERR_ANY : Fld := ⟨1, 1⟩
def fHIF_STATUS_BAD_CFG : Fld := ⟨0, 0⟩
def fHIF_CNT_LOST_TLM : Fld := ⟨31, 22⟩
def fHIF_CNT_LOST_EVT : Fld := ⟨21, 11⟩
def fHIF_CNT_LOST_CPL : Fld := ⟨10, 0⟩
def fHIF_CPL_BASE_LO_ADDR : Fld := ⟨31, 12⟩
def fHIF_CPL_BASE_HI_ADDR_HI : Fld := ⟨31, 0⟩
def fHIF_EVT_BASE_LO_ADDR : Fld := ⟨31, 12⟩
def fHIF_EVT_BASE_HI_ADDR_HI : Fld := ⟨31, 0⟩
def fHIF_TLM_BASE_LO_ADDR : Fld := ⟨31, 12⟩
def fHIF_TLM_BASE_HI_ADDR_HI : Fld := ⟨31, 0⟩
def fHIF_RING_CFG_EN : Fld := ⟨31, 31⟩
def fHIF_RING_CFG_SIZE : Fld := ⟨3, 0⟩
def fHIF_CMD_BASE_LO_ADDR : Fld := ⟨31, 12⟩
def fHIF_CMD_BASE_HI_ADDR_HI : Fld := ⟨31, 0⟩
def fHIF_CMD_CFG_EN : Fld := ⟨31, 31⟩
def fHIF_CMD_CFG_PRIO : Fld := ⟨18, 16⟩
def fHIF_CMD_CFG_SIZE : Fld := ⟨3, 0⟩
def fHIF_CMD_STAT_ERR : Fld := ⟨31, 31⟩
def fHIF_CMD_STAT_CONS : Fld := ⟨15, 0⟩
def fTIM_NOW_NOW : Fld := ⟨31, 0⟩
def fTIM_NOW_FRAC_FRAC : Fld := ⟨23, 0⟩
def fTIM_WRAPS_WRAPS : Fld := ⟨31, 0⟩
def fTIM_INCR_INCR : Fld := ⟨31, 0⟩
def fTIM_SERVO_CFG_EN : Fld := ⟨31, 31⟩
def fTIM_SERVO_CFG_SRC : Fld := ⟨30, 29⟩
def fTIM_SERVO_CFG_STEP_CONFIRM : Fld := ⟨23, 20⟩
def fTIM_SERVO_CFG_LOCK_THR : Fld := ⟨15, 0⟩
def fTIM_SERVO_GAIN_KP : Fld := ⟨31, 16⟩
def fTIM_SERVO_GAIN_KI : Fld := ⟨15, 0⟩
def fTIM_STEP_THR_THR : Fld := ⟨31, 0⟩
def fTIM_HOLD_ASYM_TIME : Fld := ⟨31, 16⟩
def fTIM_HOLD_HOLD_TIMEOUT : Fld := ⟨15, 0⟩
def fTIM_ASYM_THR_ASYM_OFS : Fld := ⟨31, 16⟩
def fTIM_ASYM_THR_ASYM_PD : Fld := ⟨15, 0⟩
def fTIM_SAMPLE_PD_PD : Fld := ⟨31, 0⟩
def fTIM_SAMPLE_OFS_OFS : Fld := ⟨31, 0⟩
def fTIM_SERVO_STATUS_BAD_CFG : Fld := ⟨7, 7⟩
def fTIM_SERVO_STATUS_BAD_INCR : Fld := ⟨6, 6⟩
def fTIM_SERVO_STATUS_ASYM_SEEN : Fld := ⟨5, 5⟩
def fTIM_SERVO_STATUS_STEP_SEEN : Fld := ⟨4, 4⟩
def fTIM_SERVO_STATUS_STATE : Fld := ⟨2, 0⟩
def fTIM_PPS_CFG_OUT_EN : Fld := ⟨31, 31⟩
def fTIM_PPS_CFG_WIDTH : Fld := ⟨15, 0⟩
def fTIM_PPS_NEXT_NEXT : Fld := ⟨31, 0⟩
def fTIM_PPS_IN_TS_TS : Fld := ⟨31, 0⟩
def fTIM_PTP_STAT_IGNORED : Fld := ⟨31, 0⟩
def fTIM_TB_NOW : Fld := ⟨31, 0⟩
def fTIM_PORT_CORR_TX_CORR : Fld := ⟨31, 16⟩
def fTIM_PORT_CORR_RX_CORR : Fld := ⟨15, 0⟩
def fTIM_PORT_ASYM_ASYM : Fld := ⟨31, 0⟩
def fETH_STATUS_TABLE_FULL : Fld := ⟨1, 1⟩
def fETH_STATUS_BAD_CFG : Fld := ⟨0, 0⟩
def fETH_CTL_CFG_ETYPE : Fld := ⟨31, 16⟩
def fETH_CTL_CFG_PRIO : Fld := ⟨2, 0⟩
def fETH_CTL_STAT_FORMAT : Fld := ⟨31, 26⟩
def fETH_CTL_STAT_AUTH : Fld := ⟨25, 18⟩
def fETH_CTL_STAT_REPLAY : Fld := ⟨17, 10⟩
def fETH_CTL_STAT_FULL : Fld := ⟨9, 5⟩
def fETH_CTL_STAT_TLM_DROP : Fld := ⟨4, 0⟩
def fETH_POL_CFG_UNMATCHED : Fld := ⟨0, 0⟩
def fETH_POL_DROP_UNM_COUNT : Fld := ⟨31, 0⟩
def fETH_TLM_QMASK_MASK : Fld := ⟨31, 0⟩
def fETH_TLM_DST_LO_ADDR_LO : Fld := ⟨31, 0⟩
def fETH_TLM_DST_HI_ADDR_HI : Fld := ⟨15, 0⟩
def fETH_PAIR_CFG_SUP_INT : Fld := ⟨7, 4⟩
def fETH_PAIR_CFG_TLM_EN : Fld := ⟨1, 1⟩
def fETH_PAIR_CFG_MODE : Fld := ⟨0, 0⟩
def fETH_MAC_LO_ADDR_LO : Fld := ⟨31, 0⟩
def fETH_MAC_HI_ADDR_HI : Fld := ⟨15, 0⟩
def fETH_PORT_CFG_AN : Fld := ⟨5, 5⟩
def fETH_PORT_CFG_FEC : Fld := ⟨4, 3⟩
def fETH_PORT_CFG_SPEED : Fld := ⟨1, 0⟩
def fETH_PORT_STAT_LINK : Fld := ⟨31, 31⟩
def fETH_PORT_STAT_OTHER : Fld := ⟨19, 10⟩
def fETH_PORT_STAT_PAUSE : Fld := ⟨9, 0⟩
def fETH_QMAP_UNTAG : Fld := ⟨26, 24⟩
def fETH_QMAP_Q : Fld := ⟨23, 0⟩
def fETH_GATE_CFG_GUARD : Fld := ⟨15, 0⟩
def fETH_GATE_STAT_ENTRY : Fld := ⟨31, 24⟩
def fETH_GATE_STAT_PENDING : Fld := ⟨1, 1⟩
def fETH_GATE_STAT_OPER : Fld := ⟨0, 0⟩
def fETH_Q_SHAPE_RATE : Fld := ⟨17, 0⟩
def fETH_Q_SIZE_BURST : Fld := ⟨31, 16⟩
def fETH_Q_SIZE_LIMIT : Fld := ⟨15, 0⟩
def fETH_Q_STAT_TAIL_DROP : Fld := ⟨31, 16⟩
def fETH_Q_STAT_TOO_LONG : Fld := ⟨15, 8⟩
def fETH_Q_STAT_OVERRUN : Fld := ⟨7, 0⟩
def fETH_Q_MON_DEPTH : Fld := ⟨31, 16⟩
def fETH_Q_MON_AGE : Fld := ⟨15, 0⟩
def fETH_POL_DROP_COUNT : Fld := ⟨31, 0⟩
def fDRV_STATUS_CLEAR_N_LEVEL : Fld := ⟨31, 31⟩
def fDRV_STATUS_CLEAR_ACTIVE : Fld := ⟨30, 30⟩
def fDRV_STATUS_COMMIT_SKIPPED : Fld := ⟨5, 5⟩
def fDRV_STATUS_BUSY_WR : Fld := ⟨4, 4⟩
def fDRV_STATUS_UNMAPPED_WR : Fld := ⟨3, 3⟩
def fDRV_STATUS_BAD_SPAN : Fld := ⟨2, 2⟩
def fDRV_STATUS_BAD_SRC : Fld := ⟨1, 1⟩
def fDRV_STATUS_SW_STB_IGNORED : Fld := ⟨0, 0⟩
def fDRV_CLR_MASK_MASK : Fld := ⟨31, 0⟩
def fDRV_FLOCK_STROBE_STROBE : Fld := ⟨31, 0⟩
def fDRV_PDK_STATUS_VDR_LOW : Fld := ⟨5, 5⟩
def fDRV_PDK_STATUS_VPARK_RANGE : Fld := ⟨4, 4⟩
def fDRV_PDK_STATUS_VHTR_HIGH : Fld := ⟨3, 3⟩
def fDRV_PDK_STATUS_VHTR_LOW : Fld := ⟨2, 2⟩
def fDRV_PDK_STATUS_COMPLIANCE_ANY : Fld := ⟨1, 1⟩
def fDRV_PDK_STATUS_VHTR_OK : Fld := ⟨0, 0⟩
def fDRV_FLOCK_CFG_EDGE : Fld := ⟨3, 3⟩
def fDRV_FLOCK_CFG_SRC : Fld := ⟨2, 0⟩
def fDRV_FLOCK_CLR_V_BIPOLAR : Fld := ⟨31, 16⟩
def fDRV_FLOCK_CLR_V_UNIPOLAR : Fld := ⟨15, 0⟩
def fDRV_FLOCK_CLR_I_CURRENT : Fld := ⟨15, 0⟩
def fDRV_CH_CTRL_PARK_CODE : Fld := ⟨31, 16⟩
def fDRV_CH_CTRL_STATE : Fld := ⟨15, 12⟩
def fDRV_CH_CTRL_COMPLIANCE : Fld := ⟨11, 11⟩
def fDRV_CH_CTRL_PARK : Fld := ⟨8, 8⟩
def fDRV_CH_CTRL_OE : Fld := ⟨4, 4⟩
def fDRV_CH_CTRL_SPAN : Fld := ⟨2, 0⟩
def fDRV_CH_STAT_DAC_CODE : Fld := ⟨31, 16⟩
def fDRV_CH_STAT_VLOAD : Fld := ⟨15, 0⟩
def fSNS_STATUS_NO_CODE : Fld := ⟨5, 5⟩
def fSNS_STATUS_COLLIDE_ANY : Fld := ⟨4, 4⟩
def fSNS_STATUS_OVER_ANY : Fld := ⟨3, 3⟩
def fSNS_STATUS_MEAS_BUSY : Fld := ⟨2, 2⟩
def fSNS_STATUS_BAD_BIAS : Fld := ⟨1, 1⟩
def fSNS_STATUS_BAD_WINDOW : Fld := ⟨0, 0⟩
def fSNS_LINK_ERR_CLEAR : Fld := ⟨31, 31⟩
def fSNS_LINK_ERR_MISSED : Fld := ⟨15, 0⟩
def fSNS_CH_CTRL_DARK_OFFSET : Fld := ⟨31, 16⟩
def fSNS_CH_CTRL_BIAS : Fld := ⟨15, 8⟩
def fSNS_CH_CTRL_MEASURE : Fld := ⟨7, 7⟩
def fSNS_CH_CTRL_DARK_VALID : Fld := ⟨6, 6⟩
def fSNS_CH_CTRL_WINDOW : Fld := ⟨3, 2⟩
def fSNS_CH_CTRL_RANGE : Fld := ⟨1, 0⟩
def fSNS_CH_STAT_COUNT : Fld := ⟨31, 16⟩
def fSNS_CH_STAT_OVER_RUN : Fld := ⟨15, 8⟩
def fSNS_CH_STAT_COLLIDE : Fld := ⟨0, 0⟩
def fSNS_DITHER_CLIP : Fld := ⟨31, 31⟩
def fSNS_DITHER_COLLIDE : Fld := ⟨30, 30⟩
def fSNS_DITHER_INACTIVE : Fld := ⟨29, 29⟩
def fSNS_DITHER_VOID_LAST : Fld := ⟨28, 28⟩
def fSNS_DITHER_CODE : Fld := ⟨13, 8⟩
def fSNS_DITHER_AMP : Fld := ⟨7, 0⟩
def fLOOP_CFG_SETTLE : Fld := ⟨23, 16⟩
def fLOOP_CFG_OVR_ALARM : Fld := ⟨15, 0⟩
def fLOOP_STATUS_CLR_CNT : Fld := ⟨5, 5⟩
def fLOOP_STATUS_OVERRUN : Fld := ⟨4, 4⟩
def fLOOP_STATUS_OVR_SEEN : Fld := ⟨3, 3⟩
def fLOOP_STATUS_BAD_SLOTS : Fld := ⟨2, 2⟩
def fLOOP_STATUS_BAD_DIV : Fld := ⟨1, 1⟩
def fLOOP_STATUS_BAD_KIND : Fld := ⟨0, 0⟩
def fLOOP_DUE_DUE : Fld := ⟨31, 0⟩
def fLOOP_DONE_DONE : Fld := ⟨31, 0⟩
def fLOOP_OVR_TICKS_TICKS : Fld := ⟨31, 0⟩
def fLOOP_OVR_SKIPS_SKIPS : Fld := ⟨31, 0⟩
def fLOOP_CTRL_COMP_BASE : Fld := ⟨31, 16⟩
def fLOOP_CTRL_COMP_COUNT : Fld := ⟨15, 14⟩
def fLOOP_CTRL_DIV : Fld := ⟨13, 10⟩
def fLOOP_CTRL_HOLD : Fld := ⟨7, 7⟩
def fLOOP_CTRL_ACT : Fld := ⟨6, 6⟩
def fLOOP_CTRL_POL : Fld := ⟨5, 5⟩
def fLOOP_CTRL_KIND : Fld := ⟨2, 0⟩
def fLOOP_MON_MON_B : Fld := ⟨31, 16⟩
def fLOOP_MON_MON_A : Fld := ⟨15, 0⟩
def fLOOP_KP_KP : Fld := ⟨15, 0⟩
def fLOOP_KI_KI : Fld := ⟨15, 0⟩
def fLOOP_SP_TARGET : Fld := ⟨23, 0⟩
def fLOOP_SLEW_SLEW : Fld := ⟨23, 0⟩
def fLOOP_INT_INT : Fld := ⟨31, 0⟩
def fLOOP_STAT_NO_INPUT : Fld := ⟨11, 11⟩
def fLOOP_STAT_SKIPPED : Fld := ⟨10, 10⟩
def fLOOP_STAT_SAT_LO : Fld := ⟨9, 9⟩
def fLOOP_STAT_SAT_HI : Fld := ⟨8, 8⟩
def fLOOP_STAT_WINNER : Fld := ⟨5, 4⟩
def fLOOP_STAT_STATE : Fld := ⟨3, 0⟩
def fLOOP_DEMAND_DEMAND : Fld := ⟨23, 0⟩
def fLOOP_SP_NOW_SP_NOW : Fld := ⟨23, 0⟩
def fLOOP_ERR_E_LAST : Fld := ⟨23, 0⟩
def fLOOP_CMP_CTRL_MON : Fld := ⟨31, 16⟩
def fLOOP_CMP_CTRL_KIND : Fld := ⟨1, 0⟩
def fLOOP_CMP_LIMIT_LIMIT : Fld := ⟨23, 0⟩
def fLOOP_CMP_GAIN_KI : Fld := ⟨31, 16⟩
def fLOOP_CMP_GAIN_KP : Fld := ⟨15, 0⟩
def fLOOP_CMP_INT_INT : Fld := ⟨31, 0⟩
def fLOOP_CMP_STAT_OWNER : Fld := ⟨31, 16⟩
def fLOOP_CMP_STAT_SKIPPED : Fld := ⟨1, 1⟩
def fLOOP_CMP_STAT_WON : Fld := ⟨0, 0⟩
def fLOOP_CMP_DEMAND_DEMAND : Fld := ⟨23, 0⟩
def fCMP_CFG_PERIOD : Fld := ⟨10, 0⟩
def fCMP_WIN_SEL_TABLE : Fld := ⟨31, 28⟩
def fCMP_WIN_SEL_PAGE : Fld := ⟨5, 0⟩
def fCMP_STAGE_CTRL_APPLY : Fld := ⟨31, 31⟩
def fCMP_STAGE_CTRL_P_CTRL : Fld := ⟨27, 27⟩
def fCMP_STAGE_CTRL_P_XT : Fld := ⟨26, 26⟩
def fCMP_STAGE_CTRL_P_RIP : Fld := ⟨25, 25⟩
def fCMP_STAGE_CTRL_P_HYS : Fld := ⟨24, 24⟩
def fCMP_STAGE_CTRL_CHANNEL : Fld := ⟨15, 0⟩
def fCMP_STATUS_PASS_EXT : Fld := ⟨6, 6⟩
def fCMP_STATUS_EXT_SEEN : Fld := ⟨5, 5⟩
def fCMP_STATUS_XT_QFULL : Fld := ⟨4, 4⟩
def fCMP_STATUS_STAGE_FAIL : Fld := ⟨3, 3⟩
def fCMP_STATUS_BAD_WIN : Fld := ⟨2, 2⟩
def fCMP_STATUS_BAD_PERIOD : Fld := ⟨1, 1⟩
def fCMP_STATUS_XT_SAT_ANY : Fld := ⟨0, 0⟩
def fCMP_PASS_CNT_COUNT : Fld := ⟨31, 0⟩
def fCMP_EXT_CNT_COUNT : Fld := ⟨31, 0⟩
def fCMP_XT_QLEVEL_COUNT : Fld := ⟨31, 0⟩
def fCMP_FIT_CTRL_EN : Fld := ⟨31, 31⟩
def fCMP_FIT_CTRL_MU : Fld := ⟨15, 0⟩
def fCMP_FIT_LIMIT_STEP_MAX : Fld := ⟨31, 16⟩
def fCMP_FIT_LIMIT_BAND : Fld := ⟨15, 0⟩
def fCMP_FIT_EXCITE_EXCITE : Fld := ⟨31, 0⟩
def fCMP_FIT_BUDGET_MAX_UPD : Fld := ⟨15, 0⟩
def fCMP_FIT_STATUS_BAD_FIT : Fld := ⟨3, 3⟩
def fCMP_FIT_STATUS_LOG_HALF : Fld := ⟨2, 2⟩
def fCMP_FIT_STATUS_LOG_FULL : Fld := ⟨1, 1⟩
def fCMP_FIT_STATUS_RUNNING : Fld := ⟨0, 0⟩
def fCMP_FIT_UPD_UPDATES : Fld := ⟨31, 0⟩
def fCMP_CH_CTRL_HYS_DB : Fld := ⟨31, 24⟩
def fCMP_CH_CTRL_FIT : Fld := ⟨3, 3⟩
def fCMP_CH_CTRL_XT_EN : Fld := ⟨2, 2⟩
def fCMP_CH_CTRL_RIP_EN : Fld := ⟨1, 1⟩
def fCMP_CH_CTRL_HYS_EN : Fld := ⟨0, 0⟩
def fCMP_RIP_CFG_ORIGIN : Fld := ⟨31, 16⟩
def fCMP_RIP_CFG_PERIOD : Fld := ⟨15, 0⟩
def fCMP_CH_STAT_FIT_NOREC : Fld := ⟨3, 3⟩
def fCMP_CH_STAT_CODE_CLIP : Fld := ⟨2, 2⟩
def fCMP_CH_STAT_XT_SAT : Fld := ⟨1, 1⟩
def fCMP_CH_STAT_DIR : Fld := ⟨0, 0⟩
def fCMP_XT_TERM_TERM : Fld := ⟨23, 0⟩
def fCMP_XT_BASE_BASE : Fld := ⟨23, 0⟩
def fCMP_XT_COUNT_COUNT : Fld := ⟨9, 0⟩
def fCMP_STAGING_WORD : Fld := ⟨31, 0⟩
def fDRO_MAP_STATUS_LAST_CODE : Fld := ⟨31, 24⟩
def fDRO_MAP_STATUS_SPAN_DIVERGED : Fld := ⟨16, 16⟩
def fDRO_MAP_STATUS_DOMAIN_COUNT : Fld := ⟨12, 8⟩
def fDRO_MAP_STATUS_BUSY : Fld := ⟨2, 2⟩
def fDRO_MAP_STATUS_LAST_REJECTED : Fld := ⟨1, 1⟩
def fDRO_MAP_STATUS_LOADED : Fld := ⟨0, 0⟩
def fDRO_MAP_ID_MAP_ID : Fld := ⟨31, 0⟩
def fDRO_MAP_ERR_INDEX_INDEX : Fld := ⟨31, 0⟩
def fDRO_MAP_DOMAINS_BELLWETHER : Fld := ⟨31, 16⟩
def fDRO_MAP_DOMAINS_PRESENT : Fld := ⟨15, 0⟩
def fDRO_ROUTE_CFG_TRACK : Fld := ⟨1, 1⟩
def fDRO_ROUTE_CFG_LOSS_FIRST : Fld := ⟨0, 0⟩
def fDRO_ROUTE_STATUS_LAST_CODE : Fld := ⟨31, 24⟩
def fDRO_ROUTE_STATUS_QUEUED : Fld := ⟨23, 16⟩
def fDRO_ROUTE_STATUS_SPLIT_SEEN : Fld := ⟨2, 2⟩
def fDRO_ROUTE_STATUS_BUILDING : Fld := ⟨1, 1⟩
def fDRO_ROUTE_STATUS_ROUTING : Fld := ⟨0, 0⟩
def fDRO_ROUTE_TIME_CYCLES : Fld := ⟨31, 0⟩
def fDRO_PROTECT_PROTECT : Fld := ⟨31, 0⟩
def fDRO_POS_CROSS_POS : Fld := ⟨31, 16⟩
def fDRO_POS_BAR_POS : Fld := ⟨15, 0⟩
def fDRO_PIN_PINS : Fld := ⟨31, 0⟩
def fDRO_SLOT_STAT_REFS : Fld := ⟨31, 19⟩
def fDRO_SLOT_STAT_STAGED : Fld := ⟨18, 18⟩
def fDRO_SLOT_STAT_DOMAIN : Fld := ⟨11, 8⟩
def fDRO_SLOT_STAT_STATE : Fld := ⟨3, 0⟩
def fDRO_SLOT_ID_PLAN_ID : Fld := ⟨31, 0⟩
def fSEQ_CFG_MARGIN : Fld := ⟨15, 0⟩
def fSEQ_LEAD_LEAD : Fld := ⟨31, 0⟩
def fSEQ_STATUS_POOL_USED : Fld := ⟨31, 16⟩
def fSEQ_STATUS_BAD_ARM : Fld := ⟨8, 8⟩
def fSEQ_STATUS_STEP_SEEN : Fld := ⟨7, 7⟩
def fSEQ_STATUS_OMIT_SEEN : Fld := ⟨6, 6⟩
def fSEQ_STATUS_SKIP_SEEN : Fld := ⟨5, 5⟩
def fSEQ_STATUS_LATE_STAGE_SEEN : Fld := ⟨4, 4⟩
def fSEQ_STATUS_STALE_SEEN : Fld := ⟨3, 3⟩
def fSEQ_STATUS_LATE_SEEN : Fld := ⟨2, 2⟩
def fSEQ_STATUS_BAD_CFG : Fld := ⟨1, 1⟩
def fSEQ_STATUS_ARMED : Fld := ⟨0, 0⟩
def fSEQ_STEP_DELTA : Fld := ⟨31, 0⟩
def fSEQ_CNT_COMMIT_COUNT : Fld := ⟨31, 0⟩
def fSEQ_CNT_LATE_COUNT : Fld := ⟨31, 0⟩
def fSEQ_CNT_MISS_COUNT : Fld := ⟨31, 0⟩
def fSEQ_ARM_INSTANT_INSTANT : Fld := ⟨31, 0⟩
def fSEQ_ARM_CTRL_GO : Fld := ⟨31, 31⟩
def fSEQ_ARM_CTRL_CANCEL : Fld := ⟨30, 30⟩
def fSEQ_ARM_CTRL_SLOT : Fld := ⟨23, 16⟩
def fSEQ_ARM_CTRL_DOMAIN : Fld := ⟨3, 0⟩
def fSEQ_DOM_STAT_NEXT_SLOT : Fld := ⟨31, 24⟩
def fSEQ_DOM_STAT_OUTCOME : Fld := ⟨23, 20⟩
def fSEQ_DOM_STAT_ROT : Fld := ⟨17, 16⟩
def fSEQ_DOM_STAT_PENDING : Fld := ⟨12, 0⟩
def fSEQ_DOM_NEXT_INSTANT : Fld := ⟨31, 0⟩
def fSEQ_TURNOUT_WORD : Fld := ⟨31, 0⟩
def fSRV_CFG_LIGHT_MIN : Fld := ⟨31, 16⟩
def fSRV_CFG_REPEAT_TOL : Fld := ⟨15, 8⟩
def fSRV_CFG_DWELL : Fld := ⟨7, 4⟩
def fSRV_CFG_AVG : Fld := ⟨3, 0⟩
def fSRV_CFG2_SWEEP_MAX : Fld := ⟨31, 16⟩
def fSRV_CFG2_HDWELL : Fld := ⟨15, 12⟩
def fSRV_STATUS_LAST_CODE : Fld := ⟨31, 24⟩
def fSRV_STATUS_PHASE : Fld := ⟨10, 8⟩
def fSRV_STATUS_BAD_CFG : Fld := ⟨5, 5⟩
def fSRV_STATUS_UNSTABLE_ANY : Fld := ⟨4, 4⟩
def fSRV_STATUS_DARK_ANY : Fld := ⟨3, 3⟩
def fSRV_STATUS_CAL_FAIL_ANY : Fld := ⟨2, 2⟩
def fSRV_STATUS_REFV_SEEN : Fld := ⟨1, 1⟩
def fSRV_STATUS_RUNNING : Fld := ⟨0, 0⟩
def fSRV_PROGRESS_DONE : Fld := ⟨31, 16⟩
def fSRV_PROGRESS_TOTAL : Fld := ⟨15, 0⟩
def fSRV_REFV_REFV : Fld := ⟨15, 0⟩
def fSRV_PDK_CAL_REF_SRC : Fld := ⟨31, 31⟩
def fSRV_PDK_CAL_REF_STATE : Fld := ⟨30, 28⟩
def fSRV_PDK_CAL_TIA_FAIL : Fld := ⟨27, 24⟩
def fSRV_PDK_CAL_ADC_FAIL : Fld := ⟨23, 16⟩
def fSRV_PDK_CAL_DAC_FAIL : Fld := ⟨15, 0⟩
def fSRV_CH_STATUS : Fld := ⟨15, 12⟩
def fSRV_CH_REUSED : Fld := ⟨8, 8⟩
def fSRV_CH_SPAN_FAIL : Fld := ⟨5, 0⟩
def fSRV_LOSS_LOSS_CROSS : Fld := ⟨31, 16⟩
def fSRV_LOSS_LOSS_BAR : Fld := ⟨15, 0⟩
def fSHP_STATUS_EPOCH : Fld := ⟨31, 16⟩
def fSHP_STATUS_PEER_ROLE : Fld := ⟨10, 8⟩
def fSHP_STATUS_REPAIR_PENDING : Fld := ⟨4, 4⟩
def fSHP_STATUS_SIMPLEX : Fld := ⟨3, 3⟩
def fSHP_STATUS_ROLE : Fld := ⟨2, 0⟩
def fSHP_CTRL_HANDOVER : Fld := ⟨31, 31⟩
def fSHP_CTRL_RESYNC_PEER : Fld := ⟨30, 30⟩
def fSHP_CTRL_DETACH_PEER : Fld := ⟨29, 29⟩
def fSHP_CTRL_CLR_CNT : Fld := ⟨28, 28⟩
def fSHP_CFG_AUTO_RESYNC : Fld := ⟨24, 24⟩
def fSHP_CFG_DIV_LIMIT : Fld := ⟨23, 16⟩
def fSHP_CFG_COPY_MISS : Fld := ⟨15, 8⟩
def fSHP_CFG_HB_MISS : Fld := ⟨7, 0⟩
def fSHP_REFEREE_EPOCH : Fld := ⟨31, 16⟩
def fSHP_REFEREE_PREFER : Fld := ⟨7, 7⟩
def fSHP_REFEREE_ACTIVE : Fld := ⟨3, 2⟩
def fSHP_REFEREE_HB_B : Fld := ⟨1, 1⟩
def fSHP_REFEREE_HB_A : Fld := ⟨0, 0⟩
def fSHP_EVENTS_BAD_CTRL : Fld := ⟨6, 6⟩
def fSHP_EVENTS_RESYNC_FAIL : Fld := ⟨5, 5⟩
def fSHP_EVENTS_CROOK_FAIL : Fld := ⟨4, 4⟩
def fSHP_EVENTS_DIVERGE : Fld := ⟨3, 3⟩
def fSHP_EVENTS_UNSEALED : Fld := ⟨2, 2⟩
def fSHP_EVENTS_SPLIT_RESOLVED : Fld := ⟨1, 1⟩
def fSHP_EVENTS_SWITCH_SEEN : Fld := ⟨0, 0⟩
def fSHP_RESYNC_STAGE : Fld := ⟨31, 28⟩
def fSHP_RESYNC_LEFT : Fld := ⟨23, 0⟩
def fSHP_HOST_DIV_REPORT : Fld := ⟨31, 31⟩
def fSHP_HOST_DIV_COUNT : Fld := ⟨30, 0⟩
def fSHP_CNT_DIVERGE_COUNT : Fld := ⟨31, 0⟩
def fSHP_CNT_UNSEALED_COUNT : Fld := ⟨31, 0⟩
def fSHP_CNT_REPAIR_COUNT : Fld := ⟨31, 0⟩
def fSHP_CNT_SWITCH_COUNT : Fld := ⟨31, 0⟩
def fSHP_HUB_DROP_COUNT : Fld := ⟨31, 0⟩
def fSHP_HUB_DIV_COUNT : Fld := ⟨31, 0⟩
def fSHP_PDK_ERR_DIVERGE : Fld := ⟨31, 26⟩
def fSHP_PDK_ERR_STALE_EPOCH : Fld := ⟨25, 20⟩
def fSHP_PDK_ERR_DAMAGED : Fld := ⟨19, 13⟩
def fSHP_PDK_ERR_MISSING : Fld := ⟨12, 7⟩
def fSHP_PDK_ERR_GAP : Fld := ⟨6, 0⟩
def fFLD_STATUS_POP_FAULT : Fld := ⟨31, 24⟩
def fFLD_STATUS_DPC : Fld := ⟨23, 20⟩
def fFLD_STATUS_CAP : Fld := ⟨19, 8⟩
def fFLD_STATUS_BAD_CFG : Fld := ⟨3, 3⟩
def fFLD_STATUS_KEPT : Fld := ⟨2, 2⟩
def fFLD_STATUS_CAP_MISMATCH : Fld := ⟨1, 1⟩
def fFLD_STATUS_UE_SEEN : Fld := ⟨0, 0⟩
def fFLD_LIB_CFG_RECORDS : Fld := ⟨16, 0⟩
def fFLD_FITLOG_CFG_SIZE : Fld := ⟨10, 0⟩
def fFLD_REC_STATUS_STATE : Fld := ⟨31, 28⟩
def fFLD_REC_STATUS_DROP_SEEN : Fld := ⟨0, 0⟩
def fFLD_REC_RATE_VALUE : Fld := ⟨31, 0⟩
def fFLD_REC_OLDEST_VALUE : Fld := ⟨31, 0⟩
def fFLD_REC_NEWEST_VALUE : Fld := ⟨31, 0⟩
def fFLD_REC_DROP_VALUE : Fld := ⟨31, 0⟩
def fFLD_FREEZE_CFG_ON_CLEAR : Fld := ⟨2, 2⟩
def fFLD_FREEZE_CFG_ON_GRANT : Fld := ⟨1, 1⟩
def fFLD_FREEZE_CFG_ON_SAFE : Fld := ⟨0, 0⟩
def fFLD_REC_POST_POST : Fld := ⟨31, 0⟩
def fFLD_ECC_UE : Fld := ⟨31, 16⟩
def fFLD_ECC_CE : Fld := ⟨15, 0⟩
def fBNK_ECC_UE : Fld := ⟨31, 16⟩
def fBNK_ECC_CE : Fld := ⟨15, 0⟩
def fBNK_STATUS_MARCH_BUSY : Fld := ⟨3, 3⟩
def fBNK_STATUS_UNREPAIRED : Fld := ⟨2, 2⟩
def fBNK_STATUS_WW_SEEN : Fld := ⟨1, 1⟩
def fBNK_STATUS_UE_SEEN : Fld := ⟨0, 0⟩
def fBNK_ERR_ADDR_BANK : Fld := ⟨27, 21⟩
def fBNK_ERR_ADDR_WORD : Fld := ⟨20, 4⟩
def fBNK_REPAIR_SOFT : Fld := ⟨31, 16⟩
def fBNK_REPAIR_FUSED : Fld := ⟨15, 0⟩
def fBNK_PWR_STATE : Fld := ⟨31, 0⟩
def fBNK_DEEP_RETAIN_RETAIN : Fld := ⟨31, 0⟩
def fMTX_REMAP_REMAP : Fld := ⟨0, 0⟩
def fMTX_ERR_STATUS_COUNT : Fld := ⟨31, 16⟩
def fMTX_ERR_STATUS_TARGET : Fld := ⟨11, 8⟩
def fMTX_ERR_STATUS_MASTER : Fld := ⟨7, 4⟩
def fMTX_ERR_STATUS_WRITE : Fld := ⟨2, 2⟩
def fMTX_ERR_STATUS_MULTI : Fld := ⟨1, 1⟩
def fMTX_ERR_STATUS_VALID : Fld := ⟨0, 0⟩
def fMTX_ERR_ADDR_LO_ADDR_LO : Fld := ⟨31, 0⟩
def fMTX_ERR_ADDR_HI_ADDR_HI : Fld := ⟨15, 0⟩
def fMTX_RETIRE_COUNT : Fld := ⟨31, 0⟩
def fALM_CFG_COVER : Fld := ⟨23, 16⟩
def fALM_CFG_WINDOW : Fld := ⟨10, 0⟩
def fALM_LOOP_SAT_TICKS : Fld := ⟨31, 20⟩
def fALM_LOOP_ERR_TICKS : Fld := ⟨19, 8⟩
def fALM_LOOP_ERR_LIM : Fld := ⟨7, 0⟩
def fALM_TEMP_HOT : Fld := ⟨15, 0⟩
def fALM_STATUS_BAD_CFG : Fld := ⟨3, 3⟩
def fALM_STATUS_OPEN : Fld := ⟨2, 2⟩
def fALM_STATUS_SAFE_LATCH : Fld := ⟨1, 1⟩
def fALM_STATUS_FAULT_LATCH : Fld := ⟨0, 0⟩
def fALM_PARKED_FREE : Fld := ⟨16, 16⟩
def fALM_PARKED_DOMAIN : Fld := ⟨15, 0⟩
def fALM_CLEARED_FLOCK : Fld := ⟨31, 0⟩
def fALM_INJECT_KIND : Fld := ⟨31, 29⟩
def fALM_INJECT_ID : Fld := ⟨15, 0⟩
def fALM_CNT_COUNT : Fld := ⟨31, 0⟩
def fALM_CLASS_FAULT_N : Fld := ⟨2, 2⟩
def fALM_CLASS_CLASS : Fld := ⟨1, 0⟩

/-- Scope of a register (R533, R469): one copy in the device, one in each shepherd that is written in both (R140), one
in each shepherd, or the mixed CLK_XING words whose bits [15:0] are device-wide and [20:16] per shepherd. -/
inductive Scope where
  | dev | shared | per | mixed
  deriving DecidableEq, Repr

/-- What the index of a register array counts, which decides when an entry is absent (R537). -/
inductive Kind where
  | none | pdk | flock | flockw | chan | sense | pin | bnk16 | bnk32
  deriving DecidableEq, Repr

/-- One register or register array of the map: base, count and stride in bytes, scope, index kind, reset word, and the
masks of its RW, RWL, W1C, W1S and WO bits; every other bit is RO or reserved (R6, R8). -/
structure RegRow where
  base : Nat
  count : Nat
  stride : Nat
  scope : Scope
  kind : Kind
  reset : Nat
  rw : Nat
  rwl : Nat
  w1c : Nat
  w1s : Nat
  wo : Nat
  deriving DecidableEq, Repr

def regTable0 : List RegRow := [
  ⟨0x0, 1, 4, .dev, .none, 0x32800000, 0x0, 0x0, 0x0, 0x0, 0x0⟩ /- GLB_ID -/,
  ⟨0x4, 1, 4, .dev, .none, 0x0, 0x0, 0x0, 0x0, 0x0, 0x0⟩ /- GLB_VERSION -/,
  ⟨0x8, 1, 4, .dev, .none, 0xFFFF, 0x0, 0x0, 0x0, 0x0, 0x0⟩ /- GLB_FITTED -/,
  ⟨0xC, 1, 4, .per, .none, 0x0, 0x0, 0x0, 0x0, 0x0, 0x0⟩ /- GLB_FUNC -/,
  ⟨0x10, 1, 4, .dev, .none, 0x0, 0x0, 0x0, 0x0, 0x0, 0x0⟩ /- GLB_BOOT -/,
  ⟨0x14, 1, 4, .per, .none, 0x0, 0x0, 0x0, 0x1F, 0x0, 0x0⟩ /- GLB_STATUS -/,
  ⟨0x20, 1, 4, .per, .none, 0x0, 0x3FFFFFF, 0x0, 0x0, 0x0, 0x80000000⟩ /- GLB_LOAD_CTRL -/,
  ⟨0x24, 1, 4, .per, .none, 0x0, 0x1F, 0x0, 0x0, 0x0, 0x0⟩ /- GLB_LOAD_PAGE -/,
  ⟨0x1000, 1, 4, .dev, .none, 0x0, 0x0, 0x0, 0x40000000, 0x0, 0x0⟩ /- CLK_STATUS -/,
  ⟨0x1004, 1, 4, .per, .none, 0x40002D, 0x0, 0xFF00FF, 0x0, 0x0, 0x0⟩ /- CLK_DROOP_CFG -/,
  ⟨0x1008, 2, 4, .per, .none, 0x0, 0x0, 0x0, 0xFFFFFFFF, 0x0, 0x0⟩ /- CLK_DROOP_TRIP -/,
  ⟨0x1010, 1, 4, .per, .none, 0x0, 0x0, 0x0, 0x0, 0x0, 0x0⟩ /- CLK_STRETCH_CNT -/,
  ⟨0x1014, 1, 4, .per, .none, 0x0, 0x0, 0x0, 0x0, 0x0, 0x0⟩ /- CLK_STRETCH_EVT -/,
  ⟨0x1018, 1, 4, .mixed, .none, 0x0, 0x0, 0x0, 0x1FFFFF, 0x0, 0x0⟩ /- CLK_XING_OVF -/,
  ⟨0x101C, 1, 4, .mixed, .none, 0x0, 0x1FFFFF, 0x0, 0x0, 0x0, 0x0⟩ /- CLK_XING_FENCE -/,
  ⟨0x1020, 1, 4, .mixed, .none, 0x0, 0x0, 0x0, 0x0, 0x0, 0x0⟩ /- CLK_XING_BUSY -/,
  ⟨0x2000, 1, 4, .dev, .none, 0x2, 0x0, 0x0, 0x0, 0x0, 0x0⟩ /- PWR_STATUS -/,
  ⟨0x2004, 1, 4, .dev, .none, 0x1, 0x0, 0x0, 0x2, 0x0, 0x80000000⟩ /- PWR_WAKE -/,
  ⟨0x2008, 1, 4, .dev, .none, 0x0, 0x0, 0x0, 0xFFFF000F, 0x0, 0x0⟩ /- PWR_RAIL -/,
  ⟨0x3000, 1, 4, .dev, .none, 0x0, 0x10F0000, 0x0, 0x0, 0x0, 0xE0000000⟩ /- RST_CTRL -/,
  ⟨0x3004, 1, 4, .per, .none, 0x200, 0x0, 0x0, 0x83FF, 0x0, 0x0⟩ /- RST_CAUSE -/,
  ⟨0x3008, 1, 4, .dev, .none, 0x0, 0x0, 0x0, 0x0, 0x0, 0x0⟩ /- RST_STRAPS -/,
  ⟨0x300C, 1, 4, .per, .none, 0x80000064, 0x0, 0x8000FFFF, 0x0, 0x0, 0x0⟩ /- RST_WDG -/,
  ⟨0x3010, 1, 4, .dev, .none, 0x0, 0x0, 0x0, 0x0, 0x0, 0x0⟩ /- RST_PDK_READY -/,
  ⟨0x4000, 1, 4, .dev, .none, 0x0, 0x0, 0x0, 0x0, 0x0, 0x0⟩ /- LCS_STATE -/,
  ⟨0x4004, 1, 4, .dev, .none, 0x0, 0x0, 0x0, 0x0, 0x0, 0x80000000⟩ /- LCS_DBG -/,
  ⟨0x4008, 1, 4, .dev, .none, 0x0, 0x0, 0x0, 0x0, 0x1, 0x0⟩ /- LCS_LOCK -/,
  ⟨0x400C, 1, 4, .dev, .none, 0x0, 0x0, 0x0, 0x0, 0x0, 0x0⟩ /- LCS_KEYS -/,
  ⟨0x4010, 1, 4, .dev, .none, 0x0, 0x0, 0x0, 0x3, 0x0, 0x0⟩ /- LCS_STATUS -/,
  ⟨0x4014, 1, 4, .per, .none, 0x0, 0x0, 0x0, 0x0, 0x0, 0x0⟩ /- LCS_FW_VER -/,
  ⟨0x4018, 1, 4, .per, .none, 0x0, 0x0, 0x0, 0x0, 0x0, 0x0⟩ /- LCS_FW_INFO -/,
  ⟨0x4040, 16, 4, .dev, .none, 0x0, 0x0, 0x0, 0x0, 0x0, 0x0⟩ /- LCS_DBG_CHAL -/,
  ⟨0x8000, 16, 4, .dev, .pdk, 0x4, 0x0, 0x0, 0x0, 0x0, 0x0⟩ /- PDK_LINK -/,
  ⟨0x8040, 16, 4, .dev, .pdk, 0x0, 0x0, 0x0, 0x0, 0x0, 0x0⟩ /- PDK_TEMP -/,
  ⟨0x8080, 4, 4, .dev, .none, 0x0, 0xCFF0FFFF, 0x0, 0x0, 0x0, 0x0⟩ /- PDK_TEC_CFG -/,
  ⟨0x8090, 4, 4, .dev, .none, 0x0, 0x0, 0x0, 0xC0000, 0x0, 0x0⟩ /- PDK_TEC_STAT -/,
  ⟨0x5000, 1, 4, .shared, .none, 0x0, 0xFFFFFFC0, 0x0, 0x0, 0x0, 0x0⟩ /- HIF_DB_ADDR_LO -/,
  ⟨0x5004, 1, 4, .shared, .none, 0x0, 0xFFFFFFFF, 0x0, 0x0, 0x0, 0x0⟩ /- HIF_DB_ADDR_HI -/,
  ⟨0x5008, 1, 4, .shared, .none, 0x3E8, 0x8001FFFF, 0x0, 0x0, 0x0, 0x0⟩ /- HIF_POLL -/,
  ⟨0x5010, 1, 4, .per, .none, 0x0, 0xFFFFFFC1, 0x0, 0x0, 0x0, 0x0⟩ /- HIF_STAT_ADDR_LO -/]

def regTable1 : List RegRow := [
  ⟨0x5014, 1, 4, .per, .none, 0x0, 0xFFFFFFFF, 0x0, 0x0, 0x0, 0x0⟩ /- HIF_STAT_ADDR_HI -/,
  ⟨0x5018, 1, 4, .per, .none, 0x3E80000, 0xFFFF000F, 0x0, 0x0, 0x0, 0x0⟩ /- HIF_TLM_CFG -/,
  ⟨0x501C, 1, 4, .per, .none, 0xA0000, 0xFFFF0000, 0x0, 0x0, 0x0, 0x0⟩ /- HIF_IRQ_CFG -/,
  ⟨0x5020, 1, 4, .per, .none, 0x0, 0x0, 0x0, 0x1F, 0x0, 0x0⟩ /- HIF_STATUS -/,
  ⟨0x5024, 1, 4, .per, .none, 0x0, 0x0, 0x0, 0x0, 0x0, 0x0⟩ /- HIF_CNT_LOST -/,
  ⟨0x5030, 1, 4, .per, .none, 0x0, 0xFFFFF000, 0x0, 0x0, 0x0, 0x0⟩ /- HIF_CPL_BASE_LO -/,
  ⟨0x5034, 1, 4, .per, .none, 0x0, 0xFFFFFFFF, 0x0, 0x0, 0x0, 0x0⟩ /- HIF_CPL_BASE_HI -/,
  ⟨0x5038, 1, 4, .per, .none, 0x0, 0xFFFFF000, 0x0, 0x0, 0x0, 0x0⟩ /- HIF_EVT_BASE_LO -/,
  ⟨0x503C, 1, 4, .per, .none, 0x0, 0xFFFFFFFF, 0x0, 0x0, 0x0, 0x0⟩ /- HIF_EVT_BASE_HI -/,
  ⟨0x5040, 1, 4, .per, .none, 0x0, 0xFFFFF000, 0x0, 0x0, 0x0, 0x0⟩ /- HIF_TLM_BASE_LO -/,
  ⟨0x5044, 1, 4, .per, .none, 0x0, 0xFFFFFFFF, 0x0, 0x0, 0x0, 0x0⟩ /- HIF_TLM_BASE_HI -/,
  ⟨0x5050, 3, 4, .per, .none, 0x0, 0x8000000F, 0x0, 0x0, 0x0, 0x0⟩ /- HIF_RING_CFG -/,
  ⟨0x5100, 16, 8, .shared, .none, 0x0, 0xFFFFF000, 0x0, 0x0, 0x0, 0x0⟩ /- HIF_CMD_BASE_LO -/,
  ⟨0x5104, 16, 8, .shared, .none, 0x0, 0xFFFFFFFF, 0x0, 0x0, 0x0, 0x0⟩ /- HIF_CMD_BASE_HI -/,
  ⟨0x5180, 16, 4, .shared, .none, 0x0, 0x8007000F, 0x0, 0x0, 0x0, 0x0⟩ /- HIF_CMD_CFG -/,
  ⟨0x51C0, 16, 4, .per, .none, 0x0, 0x0, 0x0, 0x80000000, 0x0, 0x0⟩ /- HIF_CMD_STAT -/,
  ⟨0x6000, 1, 4, .dev, .none, 0x0, 0x0, 0x0, 0x0, 0x0, 0x0⟩ /- TIM_NOW -/,
  ⟨0x6004, 1, 4, .dev, .none, 0x0, 0x0, 0x0, 0x0, 0x0, 0x0⟩ /- TIM_NOW_FRAC -/,
  ⟨0x6008, 1, 4, .dev, .none, 0x0, 0x0, 0x0, 0x0, 0x0, 0x0⟩ /- TIM_WRAPS -/,
  ⟨0x600C, 1, 4, .dev, .none, 0x2800000, 0xFFFFFFFF, 0x0, 0x0, 0x0, 0x0⟩ /- TIM_INCR -/,
  ⟨0x6010, 1, 4, .shared, .none, 0x80200064, 0xE0F0FFFF, 0x0, 0x0, 0x0, 0x0⟩ /- TIM_SERVO_CFG -/,
  ⟨0x6014, 1, 4, .shared, .none, 0x400400, 0xFFFFFFFF, 0x0, 0x0, 0x0, 0x0⟩ /- TIM_SERVO_GAIN -/,
  ⟨0x6018, 1, 4, .shared, .none, 0x3E8, 0xFFFFFFFF, 0x0, 0x0, 0x0, 0x0⟩ /- TIM_STEP_THR -/,
  ⟨0x601C, 1, 4, .shared, .none, 0x13880FA0, 0xFFFFFFFF, 0x0, 0x0, 0x0, 0x0⟩ /- TIM_HOLD -/,
  ⟨0x6020, 1, 4, .shared, .none, 0x640064, 0xFFFFFFFF, 0x0, 0x0, 0x0, 0x0⟩ /- TIM_ASYM_THR -/,
  ⟨0x6024, 1, 4, .per, .none, 0x0, 0x0, 0x0, 0x0, 0x0, 0xFFFFFFFF⟩ /- TIM_SAMPLE_PD -/,
  ⟨0x6028, 1, 4, .per, .none, 0x0, 0x0, 0x0, 0x0, 0x0, 0xFFFFFFFF⟩ /- TIM_SAMPLE_OFS -/,
  ⟨0x602C, 1, 4, .per, .none, 0x0, 0x0, 0x0, 0xF0, 0x0, 0x0⟩ /- TIM_SERVO_STATUS -/,
  ⟨0x6030, 1, 4, .shared, .none, 0x64, 0x8000FFFF, 0x0, 0x0, 0x0, 0x0⟩ /- TIM_PPS_CFG -/,
  ⟨0x6034, 1, 4, .shared, .none, 0x0, 0xFFFFFFFF, 0x0, 0x0, 0x0, 0x0⟩ /- TIM_PPS_NEXT -/,
  ⟨0x6038, 1, 4, .dev, .none, 0x0, 0x0, 0x0, 0x0, 0x0, 0x0⟩ /- TIM_PPS_IN_TS -/,
  ⟨0x603C, 1, 4, .shared, .none, 0x0, 0x0, 0x0, 0x0, 0x0, 0x0⟩ /- TIM_PTP_STAT -/,
  ⟨0x6040, 3, 4, .dev, .none, 0x0, 0x0, 0x0, 0x0, 0x0, 0x0⟩ /- TIM_TB -/,
  ⟨0x6050, 4, 4, .dev, .none, 0x0, 0x0, 0x0, 0x0, 0x0, 0x0⟩ /- TIM_PORT_CORR -/,
  ⟨0x6060, 4, 4, .shared, .none, 0x0, 0xFFFFFFFF, 0x0, 0x0, 0x0, 0x0⟩ /- TIM_PORT_ASYM -/,
  ⟨0x7000, 1, 4, .dev, .none, 0x0, 0x0, 0x0, 0x3, 0x0, 0x0⟩ /- ETH_STATUS -/,
  ⟨0x7004, 1, 4, .dev, .none, 0x88B50007, 0x0, 0xFFFF0007, 0x0, 0x0, 0x0⟩ /- ETH_CTL_CFG -/,
  ⟨0x7008, 1, 4, .dev, .none, 0x0, 0x0, 0x0, 0x0, 0x0, 0x0⟩ /- ETH_CTL_STAT -/,
  ⟨0x700C, 1, 4, .dev, .none, 0x0, 0x1, 0x0, 0x0, 0x0, 0x0⟩ /- ETH_POL_CFG -/,
  ⟨0x7010, 1, 4, .dev, .none, 0x0, 0x0, 0x0, 0x0, 0x0, 0x0⟩ /- ETH_POL_DROP_UNM -/]

def regTable2 : List RegRow := [
  ⟨0x7014, 1, 4, .dev, .none, 0x0, 0xFFFFFFFF, 0x0, 0x0, 0x0, 0x0⟩ /- ETH_TLM_QMASK -/,
  ⟨0x7018, 1, 4, .dev, .none, 0x0, 0x0, 0xFFFFFFFF, 0x0, 0x0, 0x0⟩ /- ETH_TLM_DST_LO -/,
  ⟨0x701C, 1, 4, .dev, .none, 0x0, 0x0, 0xFFFF, 0x0, 0x0, 0x0⟩ /- ETH_TLM_DST_HI -/,
  ⟨0x7020, 2, 4, .dev, .none, 0x20, 0x2, 0xF1, 0x0, 0x0, 0x0⟩ /- ETH_PAIR_CFG -/,
  ⟨0x7028, 2, 8, .dev, .none, 0x0, 0x0, 0xFFFFFFFF, 0x0, 0x0, 0x0⟩ /- ETH_MAC_LO -/,
  ⟨0x702C, 2, 8, .dev, .none, 0x0, 0x0, 0xFFFF, 0x0, 0x0, 0x0⟩ /- ETH_MAC_HI -/,
  ⟨0x7040, 4, 4, .dev, .none, 0x33, 0x0, 0x3B, 0x0, 0x0, 0x0⟩ /- ETH_PORT_CFG -/,
  ⟨0x7050, 4, 4, .dev, .none, 0x0, 0x0, 0x0, 0x0, 0x0, 0x0⟩ /- ETH_PORT_STAT -/,
  ⟨0x7060, 4, 4, .dev, .none, 0xFAC688, 0x7FFFFFF, 0x0, 0x0, 0x0, 0x0⟩ /- ETH_QMAP -/,
  ⟨0x7070, 4, 4, .dev, .none, 0x40, 0xFFFF, 0x0, 0x0, 0x0, 0x0⟩ /- ETH_GATE_CFG -/,
  ⟨0x7080, 4, 4, .dev, .none, 0x0, 0x0, 0x0, 0x0, 0x0, 0x0⟩ /- ETH_GATE_STAT -/,
  ⟨0x7100, 32, 4, .dev, .none, 0x0, 0x3FFFF, 0x0, 0x0, 0x0, 0x0⟩ /- ETH_Q_SHAPE -/,
  ⟨0x7180, 32, 4, .dev, .none, 0x900040, 0xFFFFFFFF, 0x0, 0x0, 0x0, 0x0⟩ /- ETH_Q_SIZE -/,
  ⟨0x7200, 32, 4, .dev, .none, 0x0, 0x0, 0x0, 0x0, 0x0, 0x0⟩ /- ETH_Q_STAT -/,
  ⟨0x7280, 32, 4, .dev, .none, 0x0, 0x0, 0x0, 0x0, 0x0, 0x0⟩ /- ETH_Q_MON -/,
  ⟨0x7400, 128, 4, .dev, .none, 0x0, 0x0, 0x0, 0x0, 0x0, 0x0⟩ /- ETH_POL_DROP -/,
  ⟨0x9000, 1, 4, .dev, .none, 0x0, 0x0, 0x0, 0x3F, 0x0, 0x0⟩ /- DRV_STATUS -/,
  ⟨0x9004, 2, 4, .dev, .flockw, 0xFFFFFFFF, 0x0, 0xFFFFFFFF, 0x0, 0x0, 0x0⟩ /- DRV_CLR_MASK -/,
  ⟨0x900C, 2, 4, .dev, .flockw, 0x0, 0x0, 0x0, 0x0, 0x0, 0xFFFFFFFF⟩ /- DRV_FLOCK_STROBE -/,
  ⟨0x9040, 16, 4, .dev, .pdk, 0x0, 0x0, 0x0, 0x3E, 0x0, 0x0⟩ /- DRV_PDK_STATUS -/,
  ⟨0x9100, 64, 4, .dev, .flock, 0x0, 0xF, 0x0, 0x0, 0x0, 0x0⟩ /- DRV_FLOCK_CFG -/,
  ⟨0x9200, 64, 4, .dev, .flock, 0x80000000, 0x0, 0xFFFFFFFF, 0x0, 0x0, 0x0⟩ /- DRV_FLOCK_CLR_V -/,
  ⟨0x9300, 64, 4, .dev, .flock, 0x0, 0x0, 0xFFFF, 0x0, 0x0, 0x0⟩ /- DRV_FLOCK_CLR_I -/,
  ⟨0x100000, 32768, 8, .dev, .chan, 0x7, 0xFFFF0117, 0x0, 0x0, 0x0, 0x0⟩ /- DRV_CH_CTRL -/,
  ⟨0x100004, 32768, 8, .dev, .chan, 0x0, 0x0, 0x0, 0x0, 0x0, 0x0⟩ /- DRV_CH_STAT -/,
  ⟨0xA000, 1, 4, .dev, .none, 0x0, 0x0, 0x0, 0x3B, 0x0, 0x0⟩ /- SNS_STATUS -/,
  ⟨0xA040, 16, 4, .per, .pdk, 0x0, 0x0, 0x0, 0x0, 0x0, 0x80000000⟩ /- SNS_LINK_ERR -/,
  ⟨0x140000, 16384, 8, .dev, .sense, 0x8, 0xFFFFFF0F, 0x0, 0x0, 0x0, 0x80⟩ /- SNS_CH_CTRL -/,
  ⟨0x140004, 16384, 8, .dev, .sense, 0xFFFE0000, 0x0, 0x0, 0x0, 0x0, 0x0⟩ /- SNS_CH_STAT -/,
  ⟨0x160000, 32768, 4, .dev, .chan, 0x20000000, 0x3FFF, 0x0, 0x80000000, 0x0, 0x0⟩ /- SNS_DITHER -/,
  ⟨0xB000, 1, 4, .shared, .none, 0x20040, 0xFFFFFF, 0x0, 0x0, 0x0, 0x0⟩ /- LOOP_CFG -/,
  ⟨0xB004, 1, 4, .per, .none, 0x0, 0x0, 0x0, 0xF, 0x0, 0x20⟩ /- LOOP_STATUS -/,
  ⟨0xB008, 1, 4, .per, .none, 0x0, 0x0, 0x0, 0x0, 0x0, 0x0⟩ /- LOOP_DUE -/,
  ⟨0xB00C, 1, 4, .per, .none, 0x0, 0x0, 0x0, 0x0, 0x0, 0x0⟩ /- LOOP_DONE -/,
  ⟨0xB010, 1, 4, .per, .none, 0x0, 0x0, 0x0, 0x0, 0x0, 0x0⟩ /- LOOP_OVR_TICKS -/,
  ⟨0xB014, 1, 4, .per, .none, 0x0, 0x0, 0x0, 0x0, 0x0, 0x0⟩ /- LOOP_OVR_SKIPS -/,
  ⟨0x800000, 32768, 64, .shared, .chan, 0x0, 0xFFFFFCE7, 0x0, 0x0, 0x0, 0x0⟩ /- LOOP_CTRL -/,
  ⟨0x800004, 32768, 64, .shared, .chan, 0xFFFFFFFF, 0xFFFFFFFF, 0x0, 0x0, 0x0, 0x0⟩ /- LOOP_MON -/,
  ⟨0x800008, 32768, 64, .shared, .chan, 0x0, 0xFFFF, 0x0, 0x0, 0x0, 0x0⟩ /- LOOP_KP -/,
  ⟨0x80000C, 32768, 64, .shared, .chan, 0x0, 0xFFFF, 0x0, 0x0, 0x0, 0x0⟩ /- LOOP_KI -/]

def regTable3 : List RegRow := [
  ⟨0x800010, 32768, 64, .shared, .chan, 0x0, 0xFFFFFF, 0x0, 0x0, 0x0, 0x0⟩ /- LOOP_SP -/,
  ⟨0x800014, 32768, 64, .shared, .chan, 0x0, 0xFFFFFF, 0x0, 0x0, 0x0, 0x0⟩ /- LOOP_SLEW -/,
  ⟨0x800018, 32768, 64, .shared, .chan, 0x0, 0xFFFFFFFF, 0x0, 0x0, 0x0, 0x0⟩ /- LOOP_INT -/,
  ⟨0x80001C, 32768, 64, .shared, .chan, 0x0, 0x0, 0x0, 0x400, 0x0, 0x0⟩ /- LOOP_STAT -/,
  ⟨0x800020, 32768, 64, .shared, .chan, 0x0, 0x0, 0x0, 0x0, 0x0, 0x0⟩ /- LOOP_DEMAND -/,
  ⟨0x800024, 32768, 64, .shared, .chan, 0x0, 0x0, 0x0, 0x0, 0x0, 0x0⟩ /- LOOP_SP_NOW -/,
  ⟨0x800028, 32768, 64, .shared, .chan, 0x0, 0x0, 0x0, 0x0, 0x0, 0x0⟩ /- LOOP_ERR -/,
  ⟨0xA00000, 65536, 32, .shared, .none, 0xFFFF0000, 0xFFFF0003, 0x0, 0x0, 0x0, 0x0⟩ /- LOOP_CMP_CTRL -/,
  ⟨0xA00004, 65536, 32, .shared, .none, 0x0, 0xFFFFFF, 0x0, 0x0, 0x0, 0x0⟩ /- LOOP_CMP_LIMIT -/,
  ⟨0xA00008, 65536, 32, .shared, .none, 0x0, 0xFFFFFFFF, 0x0, 0x0, 0x0, 0x0⟩ /- LOOP_CMP_GAIN -/,
  ⟨0xA0000C, 65536, 32, .shared, .none, 0x0, 0xFFFFFFFF, 0x0, 0x0, 0x0, 0x0⟩ /- LOOP_CMP_INT -/,
  ⟨0xA00010, 65536, 32, .shared, .none, 0xFFFF0000, 0x0, 0x0, 0x2, 0x0, 0x0⟩ /- LOOP_CMP_STAT -/,
  ⟨0xA00014, 65536, 32, .shared, .none, 0x0, 0x0, 0x0, 0x0, 0x0, 0x0⟩ /- LOOP_CMP_DEMAND -/,
  ⟨0xC000, 1, 4, .shared, .none, 0x20, 0x7FF, 0x0, 0x0, 0x0, 0x0⟩ /- CMP_CFG -/,
  ⟨0xC004, 1, 4, .per, .none, 0x0, 0xF000003F, 0x0, 0x0, 0x0, 0x0⟩ /- CMP_WIN_SEL -/,
  ⟨0xC008, 1, 4, .shared, .none, 0x0, 0xF00FFFF, 0x0, 0x0, 0x0, 0x80000000⟩ /- CMP_STAGE_CTRL -/,
  ⟨0xC00C, 1, 4, .per, .none, 0x0, 0x0, 0x0, 0x3F, 0x0, 0x0⟩ /- CMP_STATUS -/,
  ⟨0xC010, 1, 4, .shared, .none, 0x0, 0x0, 0x0, 0x0, 0x0, 0x0⟩ /- CMP_PASS_CNT -/,
  ⟨0xC014, 1, 4, .shared, .none, 0x0, 0x0, 0x0, 0x0, 0x0, 0x0⟩ /- CMP_EXT_CNT -/,
  ⟨0xC018, 1, 4, .shared, .none, 0x0, 0x0, 0x0, 0x0, 0x0, 0x0⟩ /- CMP_XT_QLEVEL -/,
  ⟨0xC020, 1, 4, .shared, .none, 0x1000, 0x8000FFFF, 0x0, 0x0, 0x0, 0x0⟩ /- CMP_FIT_CTRL -/,
  ⟨0xC024, 1, 4, .shared, .none, 0x100100, 0xFFFFFFFF, 0x0, 0x0, 0x0, 0x0⟩ /- CMP_FIT_LIMIT -/,
  ⟨0xC028, 1, 4, .shared, .none, 0x6400, 0xFFFFFFFF, 0x0, 0x0, 0x0, 0x0⟩ /- CMP_FIT_EXCITE -/,
  ⟨0xC02C, 1, 4, .shared, .none, 0x4000, 0xFFFF, 0x0, 0x0, 0x0, 0x0⟩ /- CMP_FIT_BUDGET -/,
  ⟨0xC030, 1, 4, .per, .none, 0x0, 0x0, 0x0, 0xC, 0x0, 0x0⟩ /- CMP_FIT_STATUS -/,
  ⟨0xC034, 1, 4, .shared, .none, 0x0, 0x0, 0x0, 0x0, 0x0, 0x0⟩ /- CMP_FIT_UPD -/,
  ⟨0x200000, 32768, 16, .shared, .chan, 0x0, 0xFF00000F, 0x0, 0x0, 0x0, 0x0⟩ /- CMP_CH_CTRL -/,
  ⟨0x200004, 32768, 16, .shared, .chan, 0x0, 0xFFFFFFFF, 0x0, 0x0, 0x0, 0x0⟩ /- CMP_RIP_CFG -/,
  ⟨0x200008, 32768, 16, .shared, .chan, 0x0, 0x0, 0x0, 0x2, 0x0, 0x0⟩ /- CMP_CH_STAT -/,
  ⟨0x20000C, 32768, 16, .shared, .chan, 0x0, 0x0, 0x0, 0x0, 0x0, 0x0⟩ /- CMP_XT_TERM -/,
  ⟨0x280000, 32768, 8, .shared, .chan, 0x0, 0x0, 0x0, 0x0, 0x0, 0x0⟩ /- CMP_XT_BASE -/,
  ⟨0x280004, 32768, 8, .shared, .chan, 0x0, 0x0, 0x0, 0x0, 0x0, 0x0⟩ /- CMP_XT_COUNT -/,
  ⟨0x1E1000, 338, 4, .shared, .none, 0x0, 0xFFFFFFFF, 0x0, 0x0, 0x0, 0x0⟩ /- CMP_STAGING -/,
  ⟨0xD000, 1, 4, .shared, .none, 0x0, 0x0, 0x0, 0x10000, 0x0, 0x0⟩ /- DRO_MAP_STATUS -/,
  ⟨0xD004, 1, 4, .shared, .none, 0x0, 0x0, 0x0, 0x0, 0x0, 0x0⟩ /- DRO_MAP_ID -/,
  ⟨0xD008, 1, 4, .shared, .none, 0x0, 0x0, 0x0, 0x0, 0x0, 0x0⟩ /- DRO_MAP_ERR_INDEX -/,
  ⟨0xD00C, 1, 4, .shared, .none, 0x0, 0x0, 0x0, 0x0, 0x0, 0x0⟩ /- DRO_MAP_DOMAINS -/,
  ⟨0xD010, 1, 4, .shared, .none, 0x0, 0x3, 0x0, 0x0, 0x0, 0x0⟩ /- DRO_ROUTE_CFG -/,
  ⟨0xD014, 1, 4, .per, .none, 0x0, 0x0, 0x0, 0x4, 0x0, 0x0⟩ /- DRO_ROUTE_STATUS -/,
  ⟨0xD018, 1, 4, .per, .none, 0x0, 0x0, 0x0, 0x0, 0x0, 0x0⟩ /- DRO_ROUTE_TIME -/]

def regTable4 : List RegRow := [
  ⟨0xD080, 32, 4, .shared, .none, 0x0, 0xFFFFFFFF, 0x0, 0x0, 0x0, 0x0⟩ /- DRO_PROTECT -/,
  ⟨0x180000, 32768, 4, .shared, .chan, 0x0, 0xFFFFFFFF, 0x0, 0x0, 0x0, 0x0⟩ /- DRO_POS -/,
  ⟨0x1C0000, 16384, 4, .shared, .pin, 0x0, 0xFFFFFFFF, 0x0, 0x0, 0x0, 0x0⟩ /- DRO_PIN -/,
  ⟨0x1E0000, 256, 8, .per, .none, 0x0, 0x0, 0x0, 0x0, 0x0, 0x0⟩ /- DRO_SLOT_STAT -/,
  ⟨0x1E0004, 256, 8, .per, .none, 0x0, 0x0, 0x0, 0x0, 0x0, 0x0⟩ /- DRO_SLOT_ID -/,
  ⟨0xE000, 1, 4, .shared, .none, 0x78, 0xFFFF, 0x0, 0x0, 0x0, 0x0⟩ /- SEQ_CFG -/,
  ⟨0xE004, 1, 4, .shared, .none, 0x258, 0x0, 0x0, 0x0, 0x0, 0x0⟩ /- SEQ_LEAD -/,
  ⟨0xE008, 1, 4, .per, .none, 0x0, 0x0, 0x0, 0x1FE, 0x0, 0x0⟩ /- SEQ_STATUS -/,
  ⟨0xE00C, 1, 4, .per, .none, 0x0, 0x0, 0x0, 0x0, 0x0, 0x0⟩ /- SEQ_STEP -/,
  ⟨0xE010, 1, 4, .per, .none, 0x0, 0x0, 0x0, 0x0, 0x0, 0x0⟩ /- SEQ_CNT_COMMIT -/,
  ⟨0xE014, 1, 4, .per, .none, 0x0, 0x0, 0x0, 0x0, 0x0, 0x0⟩ /- SEQ_CNT_LATE -/,
  ⟨0xE018, 1, 4, .per, .none, 0x0, 0x0, 0x0, 0x0, 0x0, 0x0⟩ /- SEQ_CNT_MISS -/,
  ⟨0xE020, 1, 4, .shared, .none, 0x0, 0xFFFFFFFF, 0x0, 0x0, 0x0, 0x0⟩ /- SEQ_ARM_INSTANT -/,
  ⟨0xE024, 1, 4, .shared, .none, 0x0, 0xFF000F, 0x0, 0x0, 0x0, 0xC0000000⟩ /- SEQ_ARM_CTRL -/,
  ⟨0xE040, 16, 4, .shared, .none, 0xFF000000, 0x0, 0x0, 0x0, 0x0, 0x0⟩ /- SEQ_DOM_STAT -/,
  ⟨0xE080, 16, 4, .shared, .none, 0x0, 0x0, 0x0, 0x0, 0x0, 0x0⟩ /- SEQ_DOM_NEXT -/,
  ⟨0x1D0000, 16384, 4, .shared, .none, 0x0, 0x0, 0x0, 0x0, 0x0, 0x0⟩ /- SEQ_TURNOUT -/,
  ⟨0xF000, 1, 4, .shared, .none, 0x401444, 0xFFFFFFFF, 0x0, 0x0, 0x0, 0x0⟩ /- SRV_CFG -/,
  ⟨0xF004, 1, 4, .shared, .none, 0xFFFF8000, 0xFFFFF000, 0x0, 0x0, 0x0, 0x0⟩ /- SRV_CFG2 -/,
  ⟨0xF008, 1, 4, .per, .none, 0x0, 0x0, 0x0, 0x3E, 0x0, 0x0⟩ /- SRV_STATUS -/,
  ⟨0xF00C, 1, 4, .per, .none, 0x0, 0x0, 0x0, 0x0, 0x0, 0x0⟩ /- SRV_PROGRESS -/,
  ⟨0xF040, 16, 4, .dev, .pdk, 0x0, 0x0, 0x0, 0x0, 0x0, 0x0⟩ /- SRV_REFV -/,
  ⟨0xF080, 16, 4, .dev, .pdk, 0x0, 0x0, 0x0, 0x0, 0x0, 0x0⟩ /- SRV_PDK_CAL -/,
  ⟨0x1A0000, 32768, 4, .shared, .chan, 0x5000, 0x0, 0x0, 0x0, 0x0, 0x0⟩ /- SRV_CH -/,
  ⟨0x400000, 262144, 4, .shared, .none, 0xFFFFFFFF, 0xFFFFFFFF, 0x0, 0x0, 0x0, 0x0⟩ /- SRV_LOSS -/,
  ⟨0x10000, 1, 4, .per, .none, 0x0, 0x0, 0x0, 0x0, 0x0, 0x0⟩ /- SHP_STATUS -/,
  ⟨0x10004, 1, 4, .per, .none, 0x0, 0x0, 0x0, 0x0, 0x0, 0xF0000000⟩ /- SHP_CTRL -/,
  ⟨0x10008, 1, 4, .dev, .none, 0x1104003, 0x0, 0x1FFFFFF, 0x0, 0x0, 0x0⟩ /- SHP_CFG -/,
  ⟨0x1000C, 1, 4, .dev, .none, 0x8, 0x0, 0x0, 0x0, 0x0, 0x0⟩ /- SHP_REFEREE -/,
  ⟨0x10010, 1, 4, .per, .none, 0x0, 0x0, 0x0, 0x7F, 0x0, 0x0⟩ /- SHP_EVENTS -/,
  ⟨0x10014, 1, 4, .per, .none, 0x0, 0x0, 0x0, 0x0, 0x0, 0x0⟩ /- SHP_RESYNC -/,
  ⟨0x10018, 1, 4, .per, .none, 0x0, 0x0, 0x0, 0x0, 0x0, 0x80000000⟩ /- SHP_HOST_DIV -/,
  ⟨0x10020, 1, 4, .per, .none, 0x0, 0x0, 0x0, 0x0, 0x0, 0x0⟩ /- SHP_CNT_DIVERGE -/,
  ⟨0x10024, 1, 4, .per, .none, 0x0, 0x0, 0x0, 0x0, 0x0, 0x0⟩ /- SHP_CNT_UNSEALED -/,
  ⟨0x10028, 1, 4, .per, .none, 0x0, 0x0, 0x0, 0x0, 0x0, 0x0⟩ /- SHP_CNT_REPAIR -/,
  ⟨0x1002C, 1, 4, .dev, .none, 0x0, 0x0, 0x0, 0x0, 0x0, 0x0⟩ /- SHP_CNT_SWITCH -/,
  ⟨0x10030, 1, 4, .dev, .none, 0x0, 0x0, 0x0, 0x0, 0x0, 0x0⟩ /- SHP_HUB_DROP -/,
  ⟨0x10034, 1, 4, .dev, .none, 0x0, 0x0, 0x0, 0x0, 0x0, 0x0⟩ /- SHP_HUB_DIV -/,
  ⟨0x10040, 16, 4, .dev, .pdk, 0x0, 0x0, 0x0, 0x0, 0x0, 0x0⟩ /- SHP_PDK_ERR -/,
  ⟨0x11000, 1, 4, .per, .none, 0x0, 0x0, 0x0, 0x9, 0x0, 0x0⟩ /- FLD_STATUS -/]

def regTable5 : List RegRow := [
  ⟨0x11004, 1, 4, .shared, .none, 0x1000, 0x0, 0x1FFFF, 0x0, 0x0, 0x0⟩ /- FLD_LIB_CFG -/,
  ⟨0x11008, 1, 4, .shared, .none, 0x40, 0x0, 0x7FF, 0x0, 0x0, 0x0⟩ /- FLD_FITLOG_CFG -/,
  ⟨0x1100C, 1, 4, .per, .none, 0x0, 0x0, 0x0, 0x1, 0x0, 0x0⟩ /- FLD_REC_STATUS -/,
  ⟨0x11010, 1, 4, .per, .none, 0x0, 0x0, 0x0, 0x0, 0x0, 0x0⟩ /- FLD_REC_RATE -/,
  ⟨0x11014, 1, 4, .per, .none, 0x0, 0x0, 0x0, 0x0, 0x0, 0x0⟩ /- FLD_REC_OLDEST -/,
  ⟨0x11018, 1, 4, .per, .none, 0x0, 0x0, 0x0, 0x0, 0x0, 0x0⟩ /- FLD_REC_NEWEST -/,
  ⟨0x1101C, 1, 4, .per, .none, 0x0, 0x0, 0x0, 0x0, 0x0, 0x0⟩ /- FLD_REC_DROP -/,
  ⟨0x11020, 1, 4, .shared, .none, 0x1, 0x7, 0x0, 0x0, 0x0, 0x0⟩ /- FLD_FREEZE_CFG -/,
  ⟨0x11024, 1, 4, .shared, .none, 0x0, 0xFFFFFFFF, 0x0, 0x0, 0x0, 0x0⟩ /- FLD_REC_POST -/,
  ⟨0x11028, 1, 4, .per, .none, 0x0, 0x0, 0x0, 0x0, 0x0, 0x0⟩ /- FLD_ECC -/,
  ⟨0x12000, 1, 4, .per, .none, 0x0, 0x0, 0x0, 0x0, 0x0, 0x0⟩ /- BNK_ECC -/,
  ⟨0x12004, 1, 4, .per, .none, 0x0, 0x0, 0x0, 0x7, 0x0, 0x0⟩ /- BNK_STATUS -/,
  ⟨0x12008, 1, 4, .per, .none, 0x0, 0x0, 0x0, 0x0, 0x0, 0x0⟩ /- BNK_ERR_ADDR -/,
  ⟨0x1200C, 1, 4, .per, .none, 0x0, 0x0, 0x0, 0x0, 0x0, 0x0⟩ /- BNK_REPAIR -/,
  ⟨0x12020, 8, 4, .per, .bnk16, 0x0, 0x0, 0x0, 0x0, 0x0, 0x0⟩ /- BNK_PWR -/,
  ⟨0x12040, 4, 4, .shared, .bnk32, 0xFFFFFFFF, 0xFFFFFFFF, 0x0, 0x0, 0x0, 0x0⟩ /- BNK_DEEP_RETAIN -/,
  ⟨0x13000, 1, 4, .per, .none, 0x0, 0x0, 0x0, 0x0, 0x0, 0x0⟩ /- MTX_REMAP -/,
  ⟨0x13004, 1, 4, .per, .none, 0x0, 0x0, 0x0, 0x3, 0x0, 0x0⟩ /- MTX_ERR_STATUS -/,
  ⟨0x13008, 1, 4, .per, .none, 0x0, 0x0, 0x0, 0x0, 0x0, 0x0⟩ /- MTX_ERR_ADDR_LO -/,
  ⟨0x1300C, 1, 4, .per, .none, 0x0, 0x0, 0x0, 0x0, 0x0, 0x0⟩ /- MTX_ERR_ADDR_HI -/,
  ⟨0x13010, 1, 4, .per, .none, 0x0, 0x0, 0x0, 0x0, 0x0, 0x0⟩ /- MTX_RETIRE -/,
  ⟨0x14000, 1, 4, .shared, .none, 0x5A0010, 0x0, 0xFF07FF, 0x0, 0x0, 0x0⟩ /- ALM_CFG -/,
  ⟨0x14004, 1, 4, .shared, .none, 0x40040000, 0xFFFFFFFF, 0x0, 0x0, 0x0, 0x0⟩ /- ALM_LOOP -/,
  ⟨0x14008, 1, 4, .shared, .none, 0x41A, 0x0, 0xFFFF, 0x0, 0x0, 0x0⟩ /- ALM_TEMP -/,
  ⟨0x1400C, 1, 4, .shared, .none, 0x0, 0x0, 0x0, 0xB, 0x0, 0x0⟩ /- ALM_STATUS -/,
  ⟨0x14010, 1, 4, .shared, .none, 0x0, 0x0, 0x0, 0x1FFFF, 0x0, 0x0⟩ /- ALM_PARKED -/,
  ⟨0x14014, 2, 4, .shared, .flockw, 0x0, 0x0, 0x0, 0xFFFFFFFF, 0x0, 0x0⟩ /- ALM_CLEARED -/,
  ⟨0x1401C, 1, 4, .shared, .none, 0x0, 0x0, 0x0, 0x0, 0x0, 0xE000FFFF⟩ /- ALM_INJECT -/,
  ⟨0x14020, 1, 4, .per, .none, 0x0, 0x0, 0x0, 0x0, 0x0, 0x0⟩ /- ALM_CNT -/,
  ⟨0x14080, 32, 4, .shared, .none, 0x4, 0x0, 0x7, 0x0, 0x0, 0x0⟩ /- ALM_CLASS -/]

/-- Every register of BAR0 (R542 to R547), the load window apart (R540). -/
def regTable : List RegRow :=
  regTable0 ++ regTable1 ++ regTable2 ++ regTable3 ++ regTable4 ++ regTable5

/-- The row that an offset falls in and its index in the row's array; none for a hole (R536). -/
def regFind (off : Nat) : Option (RegRow × Nat) :=
  (regTable.find? fun r => decide (r.base ≤ off ∧ (off - r.base) % r.stride = 0 ∧ (off - r.base) / r.stride < r.count)).map
    fun r => (r, (off - r.base) / r.stride)

end Sys2Proof.Machine
end

