-- ==== Sys2Proof/Machine/Types.lean ====
section
/-! DEFINITION. The data structures that State is made of, chapter by chapter. A field's default is its value after POR. -/

namespace Sys2Proof.Machine

/-! ### Device overview, modes and roles -/

/-- The three parts (R1, R27). -/
inductive Part where
  | gl3280 | gl3240 | gl3220
  deriving DecidableEq, Repr

/-- The operating modes (R26, R470). -/
inductive Mode where
  | off | reset | boot | survey | parked | service | maintenance | safe
  deriving DecidableEq, Repr

/-- Device-wide low-power states of PARKED (R476); NAP is held per paddock. -/
inductive LowPower where
  | none | quiesce | deep
  deriving DecidableEq, Repr

/-- The part out of service in MAINTENANCE (R472). -/
inductive OutOfService where
  | none
  | paddock (p : Nat)
  | domain (d : Nat)
  deriving DecidableEq, Repr

/-- Shepherd roles (R285). -/
inductive Role where
  | off | active | standby | syncing | detached
  deriving DecidableEq, Repr

/-! ### Fabric map -/

/-- An element record (R34). -/
structure Elem where
  ch : Nat
  kind : Nat
  role : Nat
  span : Nat
  walsh : Nat
  dom : Nat
  pos : Nat
  cell : Nat
  park : Nat
  deriving DecidableEq, Repr

/-- A cell record (R40). -/
structure CellRec where
  dom : Nat
  stage : Nat
  index : Nat
  elems : Nat
  lossBar : Nat
  lossCross : Nat
  deriving DecidableEq, Repr

/-- A domain record (R42). -/
structure DomRec where
  dom : Nat
  topo : Nat
  ports : Nat
  base : Nat
  cells : Nat
  elems : Nat
  lossDef : Nat
  bell : Bool
  deriving DecidableEq, Repr

/-- A monitor record (R46). -/
structure MonRec where
  sense : Nat
  tap : Nat
  ref : Nat
  dom : Nat
  infl : List Nat
  deriving DecidableEq, Repr

/-- An aggressor record (R48). -/
structure AggrRec where
  victim : Nat
  list : List Nat
  deriving DecidableEq, Repr

/-- A fabric map: the records of a map image (R50). -/
structure FabricMap where
  id : Nat
  doms : List DomRec
  elems : List Elem
  cells : List CellRec
  mons : List MonRec
  aggrs : List AggrRec
  deriving DecidableEq, Repr

/-! ### Drive outputs and sense inputs -/

/-- Where a span change or a configuration from NONE stands (R69, R76). -/
inductive SpanPhase where
  | idle
  | config   -- a span is configured from NONE, switch open
  | hold     -- from 0: the switch is not open yet
  | opened   -- from 0.1 us: the switch is open
  | closed   -- from 2.6 us: the switch is closed onto the new code
  deriving DecidableEq, Repr

/-- What a paddock holds for a drive channel beside its window words: where its span change stands, the tick boundary it
started at, the tick from which loop codes are accepted (R23, R72, R78, R88), the code that a survey sends it in the present tick (R268), and one more than the edge at which
it last took a staged code (R85). -/
structure ChPdk where
  phase : SpanPhase := .idle
  start : Nat := 0
  acceptFrom : Nat := 0
  sweep : Option Nat := none
  took : Nat := 0
  deriving DecidableEq, Repr

/-- A staged code in a shadow buffer: the domain tag, the code and the staging sequence number (R210). -/
structure ShadowCode where
  dom : Nat
  code : Nat
  seq : Nat
  deriving DecidableEq, Repr

/-- What a paddock knows of the last staging of a domain: its sequence number and the channels received of how many
(R210, R213). -/
structure PdkStaging where
  dom : Nat
  seq : Nat
  got : Nat
  need : Nat
  deriving DecidableEq, Repr

/-- A commit armed in a paddock (R228): the domain, slot, staging sequence number and the low 32 bits of the fire edge. -/
structure PdkCommit where
  dom : Nat
  slot : Nat
  seq : Nat
  fire : Nat
  deriving DecidableEq, Repr

/-- The control classes of a paddock link frame (R289). -/
inductive CtlKind where
  | stage | commit | retime | cancel
  deriving DecidableEq, Repr

/-- A paddock link frame of a control class (R210, R228, R288): what its framing word carries, FIRE as its low 32 bits, the payload length in 32-byte words,
and the codes of the payload by drive channel. -/
structure CtlFrame where
  kind : CtlKind
  src : Shep
  epoch : Nat
  pdk : Nat
  ctlSeq : Nat
  stageSeq : Nat
  dom : Nat
  slot : Nat
  first : Nat
  fire : Nat
  len : Nat
  codes : List (Nat × Nat)
  deriving DecidableEq, Repr

/-- A downstream loop output frame (R20, R288): the 48-bit tick number, the sender, its epoch, its flags and the codes of the channels that
it carries (drive channel, code). -/
structure LoopFrame where
  tick : Nat
  src : Shep
  epoch : Nat
  overrun : Bool
  extended : Bool
  inputMiss : Bool
  codes : List (Nat × Nat)
  deriving DecidableEq, Repr

/-- Whether a paddock runs (R486, R477). -/
inductive PdkMode where
  | run | reset | reload | off
  deriving DecidableEq, Repr

/-- A paddock: whether it runs, naps, has its VDRP or VDRN below range, its VDDA_PDK low, or (`vhtrOut`) its VHTR out of range, what its receivers keep
(R290 to R294) and its shadow buffer (R210). `ctlAny`: after its reset the next control frame's number is taken as the start (R467). `copies`: number, epoch and
PAYLOAD_CRC of the control frames last applied, for the comparison of duplicates (R298). -/
structure Pdk where
  mode : PdkMode := .run
  nap : Bool := false
  vdrLow : Bool := false
  railLow : Bool := false
  frame : Option LoopFrame := none
  epoch : Nat := 0
  epochTick : Nat := 0
  ctlSeq : Nat := 0
  held : List CtlFrame := []
  copies : List (Nat × Nat × Nat) := []
  staging : List PdkStaging := []
  shadow : Tab (Option ShadowCode) := []
  commits : List PdkCommit := []
  ctlAny : Bool := false
  missing : Bool := false
  vhtrOut : Bool := false
  deriving DecidableEq, Repr

/-- The trims of a paddock's converters (R258 to R262): the bandgap trim, as the REFV in units of 100 uV against which the bandgap full scales were made
equal (none: the factory bandgap trim), whether a calibration has set the others, and its items with the pair of measurements that agreed, none where the item
failed and keeps its factory trim. Before a calibration every converter has its factory trim; after one, an item that is not listed has a trim of the first
pair, which agreed. -/
structure Trims where
  bandgap : Option Nat := none
  done : Bool := false
  conv : List (CalItem × Option (List Int × List Int)) := []
  deriving DecidableEq, Repr

/-- The reference and the trims of a paddock (R65, R257 to R262): REFV_P - REFV_N on the pins now, in units of 100 uV, the trims in force, and the copy that both
shepherds keep for a reload (R486). -/
structure RefSt where
  pins : Nat := 40960
  now : Trims := {}
  kept : Trims := {}
  deriving DecidableEq, Repr

/-- What a paddock holds for a sense channel beside its window words: the tick its VOID period ends at, the tick its running
open-input measurement ends at, whether the present OVER run was reported (R101 to R104), the tick of the last WINDOW change with the window length before it
(R111), and the elements in collision on this monitor (R115, R116). -/
structure SnsHid where
  voidUntil : Nat := 0
  meas : Option Nat := none
  reported : Bool := false
  winWas : Option (Nat × Nat) := none
  col : List Nat := []
  deriving DecidableEq, Repr

/-- A sense frame (R105): its tick, and its counts by local index; `base` is the count of every channel that is not listed. -/
structure SenseFrame where
  tick : Nat := 0
  base : Nat := 0xFFFE
  counts : Tab Nat := []
  deriving DecidableEq, Repr

/-- The demodulation of one element in one shepherd (R111, R113): the correlation summed so far and the valid counts in it, the last tick in
which something excluded a result and the one before it, the effective codes of the previous and of the present tick, the gradient of a window that has
just ended until an evaluation receives it, and whether the last window gave no result (R128). -/
structure Demod where
  sum : Int := 0
  n : Nat := 0
  spoilt : Option Nat := none
  before : Option Nat := none
  code : Nat := 0
  next : Nat := 0
  g : Option Int := none
  noRes : Bool := true
  deriving DecidableEq, Repr

/-! ### Control loops and compensation -/

/-- A loop in SETTLING (R146, R147): the fire edge of the commit and the evaluations of LOOP_CFG.SETTLE still to come. -/
structure Settle where
  fire : Nat
  left : Nat
  deriving DecidableEq, Repr

/-- The dynamic state of a channel's loop and compensation in one shepherd that no register shows: SETTLING, the turning point of R160
(none: unset since the map), and the runs of R517 with whether each was reported. -/
structure ChDyn where
  settle : Option Settle := none
  tp : Option Nat := none
  satRun : Nat := 0
  errRun : Nat := 0
  satRep : Bool := false
  errRep : Bool := false
  deriving DecidableEq, Repr

/-- An entry of the crosstalk update queue (R171): from the fit or from the host, the matrix entry and the coefficient. -/
structure XtUpd where
  fit : Bool
  entry : Nat
  coef : Nat
  deriving DecidableEq, Repr

/-- Terms of a finished pass that wait for their tick (R166): victim, saturated sum, whether it saturated. -/
structure PassReady where
  tick : Nat
  terms : List (Nat × Int × Bool)
  deriving DecidableEq, Repr

/-- The crosstalk engine of a shepherd (R163 to R168): the running pass's first tick, terms that wait for their tick, whether the pass is
extended, the earliest tick of the next pass, per-channel sums of the power estimates since the latch and their number, the latched
means and those of the latch before, and the queue (R171). -/
structure XtEngine where
  n0 : Option Nat := none
  ready : Option PassReady := none
  ext : Bool := false
  lastExt : Bool := false
  next : Nat := 0
  sums : Tab Nat := []
  ticks : Nat := 0
  pbar : Tab Nat := []
  pbarPrev : Tab Nat := []
  period : Option Nat := none
  queue : List XtUpd := []
  deriving DecidableEq, Repr

/-- What the fit keeps for a victim over one period (R177 to R179): the sum and number of its recorded codes, whether the recorder covered it, and
whether the period is excluded. -/
structure FitPeriod where
  sum : Nat := 0
  num : Nat := 0
  covered : Bool := false
  excl : Bool := false
  deriving DecidableEq, Repr

/-- The background fit of a shepherd's firmware (R177 to R183): the present period and the one before it by victim, the victim updated last, the number
of latches seen as the active one, and the log records, oldest first. -/
structure FitSt where
  cur : Tab FitPeriod := []
  prev : Tab FitPeriod := []
  last : Nat := 0
  latches : Nat := 0
  log : List (List Byte) := []
  deriving DecidableEq, Repr

/-! ### Register writes under way -/

/-- A register write that waits for its tick boundary (R68, R140): the function it came through, the offset, the value, the
tick at whose boundary it takes effect, the edge at which it arrived, and CMP_WIN_SEL of its function as it stood then (R169). -/
structure PendWrite where
  sh : Shep
  off : Nat
  val : Word
  due : Nat
  edge : Nat := 0
  sel : Word := 0
  deriving DecidableEq, Repr

/-! ### Alarms -/

/-- Subject kinds of a report (R515, ALM_INJECT.KIND). -/
inductive SubjKind where
  | channel | monitor | paddock | domain | shepherd | device
  deriving DecidableEq, Repr

/-- A report (R515): alarm code, subject, the rail it names (0 VHTR, 1 VDRP or VDRN, 2 VDDA_PDK, 3 REFV, 4 none; R522), the paddock that a STAGE_SPLIT
names (R213), and what was done for a BANK_UE (1 rewritten from the peer, 2 written 0; R440, R522). -/
structure Report where
  code : Nat
  kind : SubjKind
  id : Nat
  rail : Nat
  pdk : Option Nat
  action : Nat
  deriving DecidableEq, Repr

/-- An open muster window (R519): the tick and the device time it opened at, its length, its reports, oldest first, and the highest class applied (R523). -/
structure MusterWin where
  openTick : Nat
  openTime : Nat
  len : Nat
  reports : List Report
  applied : Nat
  deriving DecidableEq, Repr

/-- A closed muster window whose bitmap and MUSTER event are not written yet (R521): its number, the payload and the bits of its bitmap. -/
structure MusterRec where
  no : Nat
  pay : List Byte
  bits : List Nat
  deriving DecidableEq, Repr

/-- Muster (R518 to R522): the open window, the close and length of the previous one, the number of windows closed, those not written yet, oldest first, the
bitmap ring (slot, bits set), reports whose reaction waits, with the tick whose boundary it waits for, reports held before the first grant (R529), reports assigned to the
boundary at which the open window closes, and for JUNCTION_HOT whether it was reported and the runs above and below its limits
(R516). -/
structure Muster where
  win : Option MusterWin := none
  prevClose : Option Nat := none
  prevLen : Nat := 0
  no : Nat := 0
  closed : List MusterRec := []
  bitmaps : Tab (List Nat) := []
  waiting : List (Nat × Report) := []
  held : List Report := []
  next : List Report := []
  hot : Bool := false
  hotRun : Nat := 0
  coolRun : Nat := 0
  deriving DecidableEq, Repr

/-! ### Plans and routing -/

/-- A target of a plan (R191, R196): output offset, action 0 KEEP, 1 STEP or 2 SLEW, and setpoint. -/
structure Target where
  port : Nat
  action : Nat
  sp : Nat
  deriving DecidableEq, Repr

/-- An entry of a plan image (R188) with the hysteresis direction and turning point that its building used (R176). -/
structure ImgEntry where
  ch : Nat
  ff : Nat
  code : Nat
  falling : Bool
  tp : Nat
  deriving DecidableEq, Repr

/-- A plan: what a slot or a library record holds (R187, R214). `cells` are the cells in cross, rising; `perm` gives each input's output
offset, 0xFFFF where the input is idle. -/
structure Plan where
  dom : Nat
  planId : Nat
  mapId : Nat
  cells : List Nat
  perm : List Nat
  targets : List Target
  image : List ImgEntry
  deriving DecidableEq, Repr

/-- A plan slot (R189): state 0 EMPTY, 1 BUILDING, 2 READY, 3 LIVE; the state before BUILDING (R190); STAGED; a refresh runs (R209). -/
structure Slot where
  state : Nat := 0
  was : Nat := 0
  staged : Bool := false
  refresh : Bool := false
  plan : Option Plan := none
  deriving DecidableEq, Repr

/-- What the drover and the commit engine work on (R218): the descriptor, 1 routing or tracing, 2 building or refreshing, the
reference taken when routing started (R198), the plan under work, the entries built so far, and the result and the route report that follow the build (R220). -/
structure Drover where
  d : Desc
  phase : Nat
  slot : Nat
  refCells : List Nat
  refPerm : List Nat
  plan : Plan
  built : List ImgEntry
  result : List Byte
  report : List Byte
  deriving DecidableEq, Repr

/-! ### Schedules and commit -/

/-- A scheduled commit of a domain (R227 to R251): a turnout entry (source 0, with its pool index), the next start of a rotation (source 1,
`tag` is the entry index) or an expert commit (source 2). `fire` is its fire edge; `stage` is 0 not started, 1 staging, 2 armed. For an expert commit `abs` is its
instant as an unwrapped count of ns, set at the GO, and `fixed` says that its fire edge no longer follows the instant (R251). -/
structure Commit where
  src : Nat
  dom : Nat
  slot : Nat
  instant : Nat
  tag : Nat
  idx : Nat
  flags : Nat
  fire : Nat
  late : Bool
  stage : Nat
  seq : Nat
  abs : Int
  fixed : Bool
  deriving DecidableEq, Repr

/-- A rotation list on its grid (R239, R241): the instant of cycle boundary 0, CYCLE, and the slots with their durations. -/
structure RotList where
  first : Nat
  cycle : Nat
  ents : List (Nat × Nat)
  deriving DecidableEq, Repr

/-- A bellwether domain's rotation: the running list, the device time of its first boundary as an unwrapped count of ns, the offset from that
boundary of the start that comes next, and the pending list with the offset of the boundary B (R243). -/
structure Rot where
  run : RotList
  org : Int
  off : Nat
  pend : Option RotList
  takeOff : Nat
  deriving DecidableEq, Repr

/-- A staging under way (R230, R231): its number, domain, slot, and the edge at which each link is free again. -/
structure Staging where
  seq : Nat
  dom : Nat
  slot : Nat
  links : List (Nat × Nat)
  deriving DecidableEq, Repr

/-- A domain's last commit: fire edge, slot (256: none), the rotation entry with its DURATION when a rotation made it (R226, R247), the fire
edge whose seed of the loops waits for the next boundary (R146), the paddocks that lacked the staging (R213), and whether a time step met a start that was
no longer to be changed, after which R247 selects. -/
structure DomSeq where
  last : Option Nat := none
  slot : Nat := 256
  rotEnt : Option (Nat × Nat) := none
  seed : Option Nat := none
  split : List Nat := []
  reselect : Bool := false
  deriving DecidableEq, Repr

/-! ### Survey -/

/-- A result record of a survey (R280): the fields in their order, tables as the bytes of their pages. -/
structure SrvRec where
  ch : Nat
  status : Nat
  flags : Nat
  bar : Nat
  cross : Nat
  lossBar : Nat
  lossCross : Nat
  attempts : Nat
  range : Nat
  mon : Nat
  light : Nat
  tick : Nat
  mapId : Nat
  hys : List Byte
  rip : List Byte
  deriving DecidableEq, Repr

/-- An element in the scope of a survey: its record so far, the taps of its cell (R264), the ripple period and origin at the start of the survey
(R274), how often it was swept, whether it is finished, and whether its output was DRIVEN or PARKED at the start of the survey (R263). -/
structure SvEl where
  out : SrvRec
  elem : Elem
  tapBar : Option Nat
  tapCross : Option Nat
  period : Nat
  origin : Nat
  tries : Nat
  fin : Bool
  can : Bool
  deriving DecidableEq, Repr

/-- The counts of one monitor at one point (R267): their sum and number, and whether one was OVER. -/
structure Sample where
  sum : Nat := 0
  num : Nat := 0
  isOver : Bool := false
  deriving DecidableEq, Repr

/-- A batch under work (R266, R267): its channels, the present point, the tick at whose boundary its codes load, whether something spoiled the point, and
the tick after it, the samples by 65,536 times the point plus the sense channel, and the channels whose sweep must start again (R270). -/
structure Batch where
  chans : List Nat
  point : Nat
  start : Nat
  spoiled : Bool
  late : Bool
  samples : Tab Sample
  again : List Nat
  deriving DecidableEq, Repr

/-- A survey (R253, R254): its descriptor (none at start-up), whether it calibrates the converters and sweeps elements, REUSE_ONLY and
NO_WRITE, the prior image, SRV_STATUS.PHASE, the pass (0 SWITCH, 1 and 2 BALANCE bar and cross, 3 and 4 PHASE_TRIM bar and cross), the elements
in scope, the batches of the pass still to come and the one under work, the gain ranges at the start, whether it was aborted, whether it waits for napped
paddocks, and the paddocks whose converters it calibrates. -/
structure Survey where
  d : Option Desc
  conv : Bool
  sweeps : Bool
  reuse : Bool
  noWrite : Bool
  prior : Option (List SrvRec)
  phase : Nat
  pass : Nat
  els : List SvEl
  todo : List (List Nat)
  cur : Option Batch
  ranges : List (Nat × Nat)
  abort : Bool
  waits : Bool
  pdks : List Nat
  deriving DecidableEq, Repr

/-! ### Time -/

/-- The servo of a shepherd (R377 to R380): the frequency term I, the increment last computed, consecutive samples below LOCK_THR, the sample before (offset in ns,
path delay in 1/256 ns), the first offset and the number of samples of a pending step, the edge of the last sample, the edge at which HOLDOVER or
ASYM_HOLD began, whether ASYM_TIME has ended, whether it has been LOCKED since reset, and the number, smallest and largest offset of the samples
of the present telemetry interval (R391). -/
structure ServoSt where
  i : Int := 0
  incr : Nat := 0x2800000
  good : Nat := 0
  last : Option (Int × Nat) := none
  pend : Option (Int × Nat) := none
  since : Nat := 0
  hold : Nat := 0
  asymOver : Bool := false
  locked : Bool := false
  num : Nat := 0
  lo : Int := 0
  hi : Int := 0
  deriving DecidableEq, Repr

/-- The PTP instance (R372, R373, R390): the configuration record, the port it uses (0 E0A, 1 E0B), its portState as IEEE 1588-2019 codes it, the timestamps
of the last Sync in 1/256 ns (origin, reception), the mean path delay in 1/256 ns, the edge of the last Announce, the edges at which the Sync,
Announce and delay request intervals expire, and the next sequence numbers of Sync, Announce, Delay_Req and Pdelay_Req. -/
structure PtpSt where
  cfg : List Byte := []
  port : Nat := 0
  state : Nat := 4
  sync : Option (Int × Int) := none
  mpd : Option Nat := none
  announced : Nat := 0
  due : List Nat := [0, 0, 0]
  seqs : List Nat := [0, 0, 0, 0]
  deriving DecidableEq, Repr

/-! ### Redundancy -/

/-- A copy record under way (R301, R302): its tick, the blocks it carries, whether more differ, and whether its seal was accepted. -/
structure CopyRec where
  tick : Nat
  blocks : List Nat
  more : Bool
  handover : Bool
  sealed : Bool
  deriving DecidableEq, Repr

/-- What the active shepherd's bank field and library held at the last tick boundary, from which what is written meanwhile shows (R315). -/
structure SyncSeen where
  regs : Tab Word := []
  slots : Tab Slot := []
  rots : Tab (Option Rot) := []
  map : Option FabricMap := none
  library : Tab (Option Plan) := []
  results : List SrvRec := []
  deriving DecidableEq, Repr

/-- A resynchronisation (R315): stage 1 BANK, 2 LIBRARY, 3 STATE, the tick it began at, the blocks of STATE still to be sent, the agreeing ticks so far, the
pages of the bank field copied in page order, what is to be copied beside them (a page written after its copy, or a record of the LIBRARY stage by PLAN_ID, 65,536 the
survey results, with its units), and what was there at the last boundary. -/
structure Sync where
  stage : Nat
  start : Nat
  left : List Nat
  agree : Nat
  done : Nat
  todo : List (Nat × Nat)
  seen : SyncSeen
  deriving DecidableEq, Repr

/-! ### Security -/

/-- The fuses (R493, R498): the life-cycle state that is in force and the minimum SVN; after a transition has burned its fuse, the edge at which its reset
comes and the new state (R495). -/
structure Fuses where
  life : Nat := 1
  svnMin : Nat := 0
  due : Option (Nat × Nat) := none
  deriving DecidableEq, Repr

/-- The owner key store (R496, R501): the control-frame keys, the owner debug key, the recorder-keep setting. -/
structure KeyStore where
  ctl0 : Option (List Byte) := none
  ctl1 : Option (List Byte) := none
  dbgKey : Option (List Byte) := none
  keep : Bool := false
  deriving DecidableEq, Repr

/-- The device identity that a shepherd holds (R503): the private key and the public key of ECDSA P-384, X then Y, and the certificate for it that Yunaver signed. -/
structure Identity where
  secret : Nat
  pub : List Byte
  cert : List Byte
  deriving DecidableEq, Repr

/-- The firmware store on the board: the images of slots 0 and 1, the boot pointer and the sealed owner key store. -/
structure FwStore where
  slot0 : Option (List Byte) := none
  slot1 : Option (List Byte) := none
  primary : Nat := 0
  owner : KeyStore := {}
  deriving DecidableEq, Repr

/-! ### The recorder -/

/-- A group of a recorder configuration (R426): FIRST, NUMBER, INTERVAL and PHASE. -/
structure RecGroup where
  first : Nat
  num : Nat
  interval : Nat
  phase : Nat
  deriving DecidableEq, Repr

/-- A recorder frame in the ring: its tick, its bytes, and whether a read found an uncorrectable error in it (R423, R425). -/
structure RecFrame where
  tick : Nat
  bytes : List Byte
  bad : Bool
  deriving DecidableEq, Repr

/-- A shepherd's recorder: 0 IDLE, 1 RUNNING, 2 POST, 3 FROZEN, its groups, the frames held, oldest first, the last tick that
POST writes and the tick of the last trigger (R426 to R429); the bytes of its newest frames that are still in the frame buffer, the bytes of library
traffic that the fold has yet to serve before them, and the frames dropped since the last one written (R417, R428). -/
structure RecSt where
  state : Nat := 0
  groups : List RecGroup := []
  ring : List RecFrame := []
  postEnd : Nat := 0
  trig : Option Nat := none
  waiting : Nat := 0
  library : Nat := 0
  dropped : Nat := 0
  deriving DecidableEq, Repr

/-! ### The matrix -/

/-- A transaction in flight in a shepherd's matrix (R451, R454): the address of its next beat, the write beats not yet delivered, the beats left, whether the target
has accepted it, and whether its master has been reset. -/
structure MtxTxn where
  master : Nat
  id : Nat
  target : Nat
  addr : Nat
  write : Bool
  data : List (Nat × BitVec 256)
  left : Nat
  accepted : Bool := false
  dead : Bool := false
  deriving DecidableEq, Repr

/-! ### The keys of the fold -/

/-- The XTS key pairs of a shepherd's fold (R418): the draws of the random generator that gave the main pair and the recorder pair. The pairs themselves are free
values that no interface reads. -/
structure FoldKeys where
  main : Nat := 0
  recorder : Nat := 1
  deriving DecidableEq, Repr

/-! ### Host rings -/

/-- What the block writes or sends to the outside, in order: records of the rings, status lines and OUT buffers in host memory,
MSI-X messages, the bytes that a read of BAR0 returns, Ethernet frames, frames of the paddock links, pulses. -/
inductive Out where
  | cpl (sh : Shep) (index : Nat) (bytes : List Byte)
  | evt (sh : Shep) (index : Nat) (bytes : List Byte)
  | tlm (sh : Shep) (index : Nat) (bytes : List Byte)
  | line (sh : Shep) (bytes : List Byte)
  | buf (sh : Shep) (addr : Nat) (bytes : List Byte)
  | read (sh : Shep) (addr : Nat) (bytes : List Byte)
  | msix (sh : Shep) (vec : Nat)
  | eth (port : Nat) (bytes : List Byte)
  | ppsOut (time : Nat) (width : Nat)
  | smbus (bytes : List Byte)
  | tecPwm (t : Nat) (duty : Nat)
  | jtag (bytes : List Byte)
  | doe (sh : Shep) (bytes : List Byte)
  deriving DecidableEq, Repr

/-- The MSI-X capability of a shepherd's configuration space and its vector table (R322, R353): enabled, the function mask, the vectors that are masked, and the
pending bits. No row of the table writes them: a reset of the configuration space leaves them as the host's driver is taken to set them up (log entry 84). -/
structure MsixCfg where
  on : Bool := true
  allMasked : Bool := false
  masked : List Nat := []
  pbits : List Nat := []
  deriving DecidableEq, Repr

/-- A descriptor held in the fold and not started (R333): the descriptor and the clock edge at which it arrived. -/
structure FoldDesc where
  d : Desc
  edge : Nat
  deriving DecidableEq, Repr

/-- Where a NET command came from (R386, R387): source address, VLAN tag and key slot. -/
structure NetFrom where
  src : List Byte
  vlan : Option Nat
  key : Nat
  deriving DecidableEq, Repr

/-- The kinds of command that go on after their start boundary. -/
inductive JobKind where
  | setup | modeSurvey | setSpan | setSense | setLoop | holdLoop | parkRel | setXtalk | revertFit
  | mapLoad | domainReload | planRoute | planCells | planDirect | planRefresh | planLoad | planImport
  | survey | surveyAbort | handover | resync | march | recRead | ptpConfig | portMeasure | fwWrite | quiesce | deep
  | wake | napExit | padReset | shpReset | setupLock | lifecycle | recConfig
  | park | armComp | disarmComp | seedLoop | setComp | setFit
  deriving DecidableEq, Repr

/-- A command that has started and not completed (R334): the descriptor, what it waits for, a phase, the tick it may go on at, the numbers it
keeps and the code space of its completion. -/
structure Job where
  d : Desc
  kind : JobKind
  phase : Nat
  due : Nat
  nums : List Nat
  deriving DecidableEq, Repr

/-- The ring side of a shepherd (R324 to R354). Ring 0 is CPL, 1 EVT, 2 TLM. -/
structure RingSt where
  prod : Nat := 0
  cons : Nat := 0
  deriving DecidableEq, Repr

/-- What a telemetry interval has gathered (R350, R492): ticks, the largest LOOP_DUE, the smallest LOOP_DONE, the counts of overrun ticks, skips, extended passes at
its start, droop trips, and the hottest junction temperature last measured. -/
structure TlmAcc where
  ticks : Nat := 0
  due : Nat := 0
  done : Nat := 0
  ovr : Int := 0
  skip : Int := 0
  ext : Int := 0
  trips : Nat := 0
  temp : Int := 0
  deriving DecidableEq, Repr

/-! ### Ethernet -/

/-- A frame that the shepherds offer to the MAC hub (R296): its transmit number, pair, the frame or the PTP message kind with its port, and the edge at which
it was transmitted. -/
structure TxFrame where
  num : Nat
  pair : Nat
  frame : EthFrame
  ptp : Option (Nat × Nat)
  first : Option (Nat × Nat)
  tlm : Nat
  deriving DecidableEq, Repr

/-- A frame in an egress queue (R398): the frame, whether HSR tags it, the kind of a PTP message of the device, the edge at which it entered, and for a PTP event
message that is forwarded TB0 and the port of its arrival (R376). -/
structure QFrame where
  frame : EthFrame
  hsr : Bool
  ptp : Option Nat
  since : Nat
  rx : Option (Nat × Nat)
  deriving DecidableEq, Repr

/-- An egress queue (R398, R400, R411): frames, what its bucket lacks to BURST in 1/32000 byte with the edge at which that was so, and what the telemetry interval has
gathered: frames discarded, frames and bytes sent, samples, and depth and age as smallest, sum and largest. -/
structure QueueSt where
  frames : List QFrame := []
  lack : Int := 0
  since : Nat := 0
  drop : Nat := 0
  sent : Nat := 0
  bytes : Nat := 0
  num : Nat := 0
  dMin : Nat := 0
  dSum : Nat := 0
  dMax : Nat := 0
  aMin : Nat := 0
  aSum : Nat := 0
  aMax : Nat := 0
  deriving DecidableEq, Repr

/-- A gate list on its grid (R402, R403): a cycle boundary in full device time, CYCLE, and GATES with DURATION. -/
structure GateList where
  base : Int
  cycle : Nat
  ents : List (Nat × Nat)
  deriving DecidableEq, Repr

/-- A port: the operating list, the pending list with its takeover in full device time (R404), the edge at which the transmitter is free, and oversize frames
(R359). -/
structure PortSt where
  oper : Option GateList := none
  pend : Option (GateList × Int) := none
  free : Nat := 0
  oversize : Nat := 0
  deriving DecidableEq, Repr

/-- A pair (R362): its redundancy sequence number, the supervision sequence number and the edge at which the next supervision frame is due, the duplicate
table (source, the sequence numbers seen, newest first, and the edge of the last), and the node table. -/
structure PairSt where
  seq : Nat := 0
  sup : Nat := 0
  supDue : Nat := 0
  dups : List (Nat × List Nat × Nat) := []
  nodes : List (Nat × Nat) := []
  deriving DecidableEq, Repr

/-- An entry of the stream table (R408, R409): flags, port mask, PCP, VID, destination address, RATE, BURST, what its bucket lacks in 1/32000 byte, and the
edge at which that was so. -/
structure Stream where
  flags : Nat
  ports : Nat
  pcp : Nat
  vid : Nat
  da : List Byte
  rate : Nat
  burst : Nat
  lack : Int
  since : Nat
  deriving DecidableEq, Repr

/-! ### Site thermal loops -/

/-- A site thermal loop (R571): I in 1/4096 per mille, a fault that stops it with the in-range measurements since, and the tick from which the next update comes. -/
structure TecSt where
  i : Nat := 0
  fault : Bool := false
  good : Nat := 0
  due : Nat := 0
  deriving DecidableEq, Repr

end Sys2Proof.Machine
end

