-- ==== Sys2Proof/Machine/Frames.lean ====
section
/-! DEFINITION. The frames of the paddock links as bytes (R105, R210, R288, R289, R292): what a shepherd or a paddock sends, and what its receiver reads. -/

namespace Sys2Proof.Machine

/-- CLASS of a control frame (R289); LOOP_OUT is 0 and SENSE 1. -/
def CtlKind.cls : CtlKind → Nat
  | .stage => 2
  | .commit => 3
  | .retime => 4
  | .cancel => 5

/-- The control class that a CLASS byte names. -/
def ctlKind? (cls : Nat) : Option CtlKind :=
  match cls with
  | 2 => some .stage
  | 3 => some .commit
  | 4 => some .retime
  | 5 => some .cancel
  | _ => none

/-- A frame: the framing word with its checks, and the payload, whose length is a whole number of 32-byte words (R288). `fields` are bytes 8 to 23. -/
def linkBytes (cls flags epoch pdk : Nat) (fields payload : List Byte) : List Byte :=
  let head := leBytes 1 cls ++ leBytes 1 flags ++ leBytes 2 epoch ++ leBytes 2 (payload.length / 32) ++ leBytes 2 pdk ++ fields ++ leBytes 4 (crc32c payload)
  head ++ leBytes 4 (crc32c head) ++ payload

/-- A frame as the link delivers it. -/
def delivered (noise : Noise) (bs : List Byte) : List Byte :=
  noise.foldl (fun bs e => bs.modify e.1 fun b => b ^^^ e.2) bs

/-- A frame passes the checks of a receiver of paddock p: HDR_CRC, PAYLOAD_CRC, a CLASS that is not reserved, and PADDOCK (R292). -/
def linkOk (p : Nat) (bs : List Byte) : Bool :=
  decide (leAt bs 28 4 = crc32c (bs.take 28)) && decide (leAt bs 24 4 = crc32c (bs.drop 32)) && decide (leAt bs 0 1 < 6) && decide (leAt bs 6 2 = p)

/-- The codes of a payload that starts at a local index of paddock p; a channel without a code has 0 there. -/
def codePayload (codes : List (Nat × Nat)) (p first words : Nat) : List Byte :=
  (List.range (16 * words)).flatMap fun i => leBytes 2 (((codes.find? fun e => decide (e.1 = 2048 * p + first + i)).map fun e => e.2).getD 0)

/-- The codes of a payload read back for the channels that have one. -/
def codesRead (codes : List (Nat × Nat)) (p first : Nat) (payload : List Byte) : List (Nat × Nat) :=
  codes.map fun e => (e.1, leAt payload (2 * (e.1 - 2048 * p - first)) 2)

/-- The payload of a loop output frame to paddock p: 2,048 codes (R20). -/
def LoopFrame.payload (f : LoopFrame) (p : Nat) : List Byte := codePayload f.codes p 0 128

/-- A loop output frame to paddock p (R288). -/
def LoopFrame.bytes (f : LoopFrame) (p : Nat) : List Byte :=
  linkBytes 0 (f.src.num + 2 * bitN f.overrun + 4 * bitN f.extended + 8 * bitN f.inputMiss) f.epoch p (leBytes 6 f.tick ++ zeros 10) (f.payload p)

/-- The codes of a frame that are paddock p's. -/
def LoopFrame.toPdk (f : LoopFrame) (p : Nat) : LoopFrame := { f with codes := f.codes.filter fun e => decide (e.1 / 2048 = p) }

/-- The loop output frame that paddock p reads from the bytes that arrive, none where they are damaged (R292); one that arrives unchanged passes its checks. -/
def LoopFrame.heard (f : LoopFrame) (p : Nat) (noise : Noise) : Option LoopFrame :=
  let f := f.toPdk p
  if noise = [] then some f
  else
    let bs := delivered noise (f.bytes p)
    let fl := leAt bs 1 1
    if linkOk p bs && decide (leAt bs 0 1 = 0) then
      some { tick := leAt bs 8 6, src := if bitAt fl 0 then .B else .A, epoch := leAt bs 2 2, overrun := bitAt fl 1, extended := bitAt fl 2,
             inputMiss := bitAt fl 3, codes := codesRead f.codes p 0 (bs.drop 32) }
    else none

/-- The payload of a control frame: the codes of a STAGE frame (R210). -/
def CtlFrame.payload (f : CtlFrame) : List Byte := codePayload f.codes f.pdk f.first f.len

/-- Bytes 8 to 23 of a control frame's framing word (R288). -/
def CtlFrame.fields (f : CtlFrame) : List Byte :=
  let slot := if f.kind = .cancel then 0 else f.slot
  let first := if f.kind = .stage then f.first else 0
  let fire := if f.kind = .commit ∨ f.kind = .retime then f.fire else 0
  leBytes 4 f.stageSeq ++ leBytes 1 f.dom ++ leBytes 1 slot ++ leBytes 2 first ++ leBytes 4 f.ctlSeq ++ leBytes 4 fire

/-- A control frame (R288). -/
def CtlFrame.bytes (f : CtlFrame) : List Byte := linkBytes f.kind.cls f.src.num f.epoch f.pdk f.fields f.payload

/-- The control frame that paddock p reads from the bytes that arrive, none where they are damaged (R292). -/
def CtlFrame.heard (f : CtlFrame) (p : Nat) (noise : Noise) : Option CtlFrame :=
  if noise = [] then (if f.pdk = p then some f else none)
  else
    let bs := delivered noise f.bytes
    match (if linkOk p bs then ctlKind? (leAt bs 0 1) else none) with
    | some k => some { kind := k, src := if bitAt (leAt bs 1 1) 0 then .B else .A, epoch := leAt bs 2 2, pdk := p, ctlSeq := leAt bs 16 4, stageSeq := leAt bs 8 4,
                       dom := leAt bs 12 1, slot := leAt bs 13 1, first := leAt bs 14 2, fire := leAt bs 20 4, len := f.len,
                       codes := codesRead f.codes p f.first (bs.drop 32) }
    | none => none

/-- The count of local index l in a sense frame. -/
def SenseFrame.count (f : SenseFrame) (l : Nat) : Nat := Tab.get f.counts f.base l

/-- The payload of a sense frame (R105): the count of local index l at bytes 2 l and 2 l + 1. -/
def SenseFrame.payload (f : SenseFrame) : List Byte := (List.range 1024).flatMap fun l => leBytes 2 (f.count l)

/-- A sense frame of paddock p, which holds an epoch (R288). -/
def SenseFrame.bytes (f : SenseFrame) (p epoch : Nat) : List Byte := linkBytes 1 0 epoch p (leBytes 6 f.tick ++ zeros 10) f.payload

/-- The sense frame that a shepherd reads from the bytes that arrive on the link of paddock p; none where the frame is damaged (R106, R292). -/
def SenseFrame.heard (f : SenseFrame) (p epoch : Nat) (noise : Noise) : Option SenseFrame :=
  if noise = [] then some f
  else
    let bs := delivered noise (f.bytes p epoch)
    if linkOk p bs && decide (leAt bs 0 1 = 1) then
      some { tick := leAt bs 8 6, base := 0
             counts := (List.range 1024).foldl (fun c l => Tab.set c 0 l (leAt bs (32 + 2 * l) 2)) [] }
    else none

end Sys2Proof.Machine
end

