-- ==== Sys2Proof/Machine/State.lean ====
section
/-! DEFINITION. The state of the block as plain data, its faults and refusals, and the state after reset. -/

namespace Sys2Proof.Machine

/-- Why a step stops. No rule of the spec stops this block, so nothing raises a fault; the constructor keeps the type inhabited and its
use would be safe: a stopped machine makes no claim. -/
inductive Fault where
  | stuck
  deriving DecidableEq, Repr

/-- Why a step refuses a command: the command has no meaning in the model. Raised by an arm of exec only. Safe: the machine stops. -/
inductive Refusal where
  | notModelled (mnemonic : String)
  deriving DecidableEq, Repr

/-- What one shepherd holds for itself. -/
structure ShepSt where
  role : Role := .off
  /-- In reset: PERST held low, or VDD low (R482, R484). -/
  perst : Bool := false
  railLow : Bool := false
  /-- It does no work: in reset, or booting, whatever role the referee still records (R310); its boot is over and it waits for the end of QUIESCE or
  DEEP (R481). -/
  halted : Bool := true
  booted : Bool := false
  /-- Consecutive boundaries without a heartbeat (R306) and consecutive records unsealed (R304). -/
  hbMiss : Nat := 0
  copyMiss : Nat := 0
  /-- Descriptors in the fold, not started (R333). -/
  fold : List FoldDesc := []
  rings : Tab RingSt := []
  lastRing : Nat := 15
  /-- Held completions and waiting events: encoded records without index (R344, R349). -/
  heldCpl : List (List Byte) := []
  evtLog : List (List Byte) := []
  evtLost : Nat := 0
  dbFails : Nat := 0
  /-- CMD_PROD of each ring as last seen, and the command rings that are stopped (R331). -/
  cmdProd : Tab Nat := []
  stopped : List Nat := []
  lineSeq : Nat := 0
  line : List Byte := []
  lineTick : Nat := 0
  /-- The next transmit number it offers to the MAC hub (R296). -/
  offers : Nat := 0
  irqHeld : List Nat := []
  irqLast : Tab Nat := []
  irqWait : List Nat := []
  msix : MsixCfg := {}
  /-- The sense frame that the shepherd took for the tick under work, by paddock; one of VOID counts where it received none (R105, R106). -/
  counts : Tab SenseFrame := []
  /-- Demodulation by drive channel (R111). -/
  demod : Tab Demod := []
  /-- Loops and compensation: dynamic state by channel, e_last by competitor slot (R130), the competitor pass's resume position
  (R150), the OVERRUN run (R152), the codes of the tick, the power estimates last received by channel and the paddocks that sent none
  (R163, R164). -/
  dyn : Tab ChDyn := []
  cmpErr : Tab Int := []
  resume : Nat := 0
  ovrRun : Nat := 0
  frame : Option LoopFrame := none
  pwr : Tab Nat := []
  pwrMiss : List Nat := []
  inputMiss : Bool := false
  xt : XtEngine := {}
  fit : FitSt := {}
  recorder : RecSt := {}
  /-- The boot (R490, R498, R540): the last step completed, whether it follows POR, an unrepaired column, a halted core (R507), the STATE_VERSION of the
  running image and the slot it came from, the image accepted from the load window, and the load buffer by word. -/
  bootStep : Nat := 1
  porBoot : Bool := true
  unrepaired : Bool := false
  coreHalt : Bool := false
  stateVer : Nat := 0
  bootSlot : Option Nat := none
  loaded : Option (List Byte) := none
  loadBuf : Tab Word := []
  servo : ServoSt := {}
  /-- Shared words that the shepherd, as STANDBY, has yet to take: the record before their boundary was unsealed (R305). -/
  lag : List (Nat × Word) := []
  /-- The key pairs of its fold (R418). Of its banks: the words of the working stores of firmware and drover, by 131,072 times the bank plus the word, what each
  port last returned, by 2 times the bank plus the port, and the accesses that wait for a bank to be ON (R433 to R437). -/
  xts : FoldKeys := {}
  sram : Tab (BitVec 64) := []
  ports : Tab (BitVec 64) := []
  bankWait : List BankCycle := []
  /-- The transactions in flight in its matrix, oldest first (R451, R454), and the heartbeats that a fence of its crossing holds back (R461, R468). -/
  txns : List MtxTxn := []
  beatsPend : Nat := 0
  /-- Its device identity, an SPDM session over its function's DOE mailbox, and the IDE keys of its link that the session set; none: the link runs without IDE
  (R503). -/
  identity : Option Identity := none
  session : Bool := false
  ide : Option (List Byte) := none
  /-- Fenced: its DMA engine is disabled (R309). -/
  noDma : Bool := false
  /-- CCLK is stretched (R458). -/
  stretched : Bool := false
  /-- CCLK ran at full rate, and stretched, at some time in the present tick (R149). -/
  sawFull : Bool := true
  sawStretch : Bool := false
  deriving DecidableEq, Repr

/-- The machine. `pending` is the queue of commands, first in, first out. -/
structure State where
  pending : List Instr := []
  part : Part := .gl3280
  grade : Nat := 0
  mode : Mode := .boot
  lp : LowPower := .none
  oos : OutOfService := .none
  orphan : Bool := false
  regs : Tab Word := []
  /-- PCLK edges since the end of POR (R288); tick n covers edges 400 n to 400 n + 399 (R22). -/
  edge : Nat := 0
  /-- TB0 in units of 2^-24 ns (R366). -/
  tb0 : Nat := 0
  /-- TB1 to TB3 in units of 2^-24 ns (R371), the wrap count last reported (R368), the latches of TIM_NOW_FRAC and TIM_WRAPS by path: 0 Shepherd A, 1 Shepherd
  B, 2 JTAG, 3 and 4 the firmware of A and B (R367), and the edge at which PPS_OUT falls (R370). -/
  tb1 : Nat := 0
  tb2 : Nat := 0
  tb3 : Nat := 0
  wrapSeen : Nat := 0
  latches : Tab (Nat × Nat) := []
  ppsHigh : Nat := 0
  ptp : PtpSt := {}
  fresh : Nat := 0
  writes : List PendWrite := []
  map : Option FabricMap := none
  pdks : Tab Pdk := []
  chans : Tab ChPdk := []
  senses : Tab SnsHid := []
  raws : Tab (Nat × Bool) := []
  amps : Tab Nat := []
  /-- The sense frames that the paddocks sent at the last boundary, the last ones received (SNS_CH_STAT.COUNT), and that collisions are to be evaluated at the
  present boundary (R105, R116, R120). -/
  pdkCounts : Tab (Option SenseFrame) := []
  recv : Tab SenseFrame := []
  colDue : Bool := false
  pdkPwr : Tab Nat := []
  /-- The references of the paddocks (R65, R257 to R262). -/
  vrefs : Tab RefSt := []
  /-- Mapped channels whose element record waits for the end of a span change (R59). -/
  driveLater : List Nat := []
  /-- The filtered level of CLEAR_N is low (R87), and the pin's clear is in force, which outlasts the low level until the next tick
  boundary (R88). -/
  clearLow : Bool := false
  clearHold : Bool := false
  muster : Muster := {}
  shA : ShepSt := {}
  shB : ShepSt := {}
  cplSeq : Nat := 1
  evtSeq : Nat := 1
  tlmSeq : Nat := 1
  jobs : List Job := []
  /-- Origins of NET commands by index, the reply counter, and replies that wait to be offered: SEQ, descriptor and completion (R387); the number of NET
  commands taken. -/
  netCount : Nat := 0
  netFrom : Tab (Option NetFrom) := []
  netSeq : Nat := 1
  replies : List (Nat × Desc × List Byte) := []
  /-- Plan slots, the plan library by PLAN_ID, the request under work, and the position words written at the present boundary (R193). -/
  slots : Tab Slot := []
  library : Tab (Option Plan) := []
  /-- The scratch record of each plan slot in the folds (R208). -/
  scratch : Tab (Option Plan) := []
  drover : Option Drover := none
  posWr : List Nat := []
  /-- The sequencer: scheduled commits in firing order per domain, rotations, stagings, each domain's last commit, CTL_SEQ by paddock and
  STAGE_SEQ (R290), a time step not yet handled in units of 1 ns (R247), and the control frames on the paddock links, oldest first, by
  2 p + shepherd. -/
  commits : List Commit := []
  rots : Tab (Option Rot) := []
  stagings : List Staging := []
  domSeq : Tab DomSeq := []
  ctlSeq : Tab Nat := []
  stageSeq : Nat := 1
  stepped : Option Int := none
  links : Tab (List CtlFrame) := []
  /-- The tick that begins at the last grant (R293, R295); a divergence was found in the present tick, and the number of consecutive ticks
  with one (R299). -/
  grantTick : Option Nat := none
  divNow : Bool := false
  divRun : Nat := 0
  /-- The referee: claims in their order with their ticks, the next grant is the initial one of a boot, the boot follows a lone reset (R308,
  R487), the tick of an accepted HANDOVER (R312), a shepherd not granted that joins after the first tick, and that both shepherds were lost in one
  tick (R308). The copy record of the
  tick and the resynchronisation that runs (R301, R315). -/
  claims : List (Shep × Nat) := []
  initial : Bool := true
  lone : Bool := false
  handover : Option Nat := none
  joining : Option Shep := none
  bothLost : Bool := false
  copyRec : Option CopyRec := none
  sync : Option Sync := none
  /-- The survey that runs, and the results region: the records of the last survey of the power cycle (R276, R280). -/
  survey : Option Survey := none
  results : List SrvRec := []
  /-- Paddocks whose wake from NAP is under way, and the cause of an exit from QUIESCE or DEEP that is under way (R476, R479, R480). -/
  waking : List Nat := []
  lpExit : Option Nat := none
  /-- A fault reaction of class SAFE came in QUIESCE or DEEP: SAFE is entered when the state is left (R479). -/
  safeDue : Bool := false
  /-- Channels whose loops a commit seeded at the present boundary (R146, R424), a low CLEAR_N recognised in the present tick (R429), and
  library records with an uncorrectable error (R423). -/
  seeded : List Nat := []
  clearFell : Bool := false
  badLib : List Nat := []
  out : List Out := []
  epoch : Nat := 0
  /-- Security (R493 to R514): fuses, the firmware store, the owner key store as in effect, the last accepted SEQ of each control-frame slot (R385), and that a
  report of class SAFE has arrived since SAFE_LATCH was cleared (R527). -/
  fuses : Fuses := {}
  store : FwStore := {}
  keys : KeyStore := {}
  keySeq : Tab Nat := []
  safeSince : Bool := false
  /-- The free elements that a PARK_DOMAIN reaction holds parked (R523). -/
  parkedFree : List Nat := []
  /-- The reset under way keeps the straps: a life-cycle change (R484). -/
  strapsKept : Bool := false
  /-- Descriptors started that the standby has not fetched yet (R333). -/
  early : List Desc := []
  /-- Ethernet (R358 to R411): frames that wait for offers and the next transmit number, control frames delivered and not checked, ports, queues by
  8 i + q, pairs, and the stream table. -/
  tx : List TxFrame := []
  txNum : Nat := 0
  rxCtl : List (Nat × EthFrame) := []
  ports : Tab PortSt := []
  queues : Tab QueueSt := []
  pairs : Tab PairSt := []
  streams : Tab (Option Stream) := []
  /-- Telemetry (R350, R388): the interval under way, the tick of the last records, and the records that wait for a TELEMETRY frame with the edge of the
  first. -/
  tlm : TlmAcc := {}
  tlmLast : Nat := 0
  tlmWait : List (List Byte) := []
  tlmSince : Nat := 0
  /-- Strobes that a fence keeps from a paddock, oldest first: 256 the tick strobe, below 16 the commit of that domain; under 16 plus the paddock, the error
  counts that it keeps from SHP_PDK_ERR, by the low bit of their field (R461, R467, R468). -/
  xing : Tab (List Nat) := []
  /-- The drains of the crosstalk queue in the lead's shepherd so far (R171, R180, R184). -/
  xtDrains : Nat := 0
  /-- The site thermal loops (R571). -/
  tecs : Tab TecSt := []
  deriving DecidableEq, Repr

/-- The machine at the end of POR (R484, R489, R549): in BOOT, both shepherds booting, every register at its reset word, and the key pairs of the folds
generated (R419). -/
def State.reset : State := { fresh := 4, shB := { xts := ⟨2, 3⟩ } }

end Sys2Proof.Machine
end

