-- ==== Sys2Proof/Machine/Ops.lean ====
section
/-! DEFINITION. The named operations over the state: reading and writing registers of each scope, the shepherds, the clock, and the
records that the block writes to host memory. -/

namespace Sys2Proof.Machine

/-! ### Parts (R1, R27) -/

/-- Paddocks fitted (R1). -/
def Part.paddocks : Part → Nat
  | .gl3280 => 16
  | .gl3240 => 8
  | .gl3220 => 4

/-- Drive channels (R27). -/
def Part.chans (p : Part) : Nat := 2048 * p.paddocks
/-- Sense channels (R27). -/
def Part.senses (p : Part) : Nat := 1024 * p.paddocks
/-- Flocks (R27). -/
def Part.flocks (p : Part) : Nat := 4 * p.paddocks
/-- Maximum fabric radix (R27). -/
def Part.radix (p : Part) : Nat := 64 * p.paddocks
/-- Banks of a shepherd's bank field (R27). -/
def Part.banks (p : Part) : Nat := 8 * p.paddocks
/-- Crosstalk entries per shepherd (R27). -/
def Part.xtEntries (p : Part) : Nat := 1048576 * p.paddocks
/-- GLB_ID.PART (R539). -/
def Part.code : Part → Nat
  | .gl3280 => 0x3280
  | .gl3240 => 0x3240
  | .gl3220 => 0x3220

/-- The paddock of a drive channel (R9). -/
def pdkOf (ch : Nat) : Nat := ch / 2048
/-- The flock of a drive channel (R11). -/
def flockOf (ch : Nat) : Nat := ch / 512
/-- A dual-mode channel: local index 1,792 to 2,047 (R9). -/
def dualMode (ch : Nat) : Bool := decide (1792 ≤ ch % 2048)

/-! ### Registers -/

/-- The key of a register word: bank 0 device-wide, 1 Shepherd A, 2 Shepherd B. -/
def regKey (bank off : Nat) : Nat := bank * 0x10000000 + off

/-- The reset word of a register (R549 and the bit tables). -/
def resetWord (off : Nat) : Word :=
  if 0x1000000 ≤ off then 0
  else if off = ALM_CLASS 0x0E then 7
  else match regFind off with
    | some (r, _) => BitVec.ofNat 32 r.reset
    | none => 0

/-- The stored word of a register in a bank. -/
def State.rd (s : State) (bank off : Nat) : Word := Tab.get s.regs (resetWord off) (regKey bank off)

/-- The state with a register word stored in a bank. -/
def State.wr (s : State) (bank off : Nat) (w : Word) : State :=
  { s with regs := Tab.set s.regs (resetWord off) (regKey bank off) w }

/-- The words of a bank whose offsets satisfy `p` return to their reset words. -/
def State.dropRegs (s : State) (bank : Nat) (p : Nat → Bool) : State :=
  { s with regs := s.regs.filter fun e => !(decide (e.1 / 0x10000000 = bank) && p (e.1 % 0x10000000)) }

/-- A field of a device-wide register. -/
def State.dGet (s : State) (off : Nat) (f : Fld) : Nat := f.get (s.rd 0 off)
/-- A field of a device-wide register, set. -/
def State.dPut (s : State) (off : Nat) (f : Fld) (v : Nat) : State := s.wr 0 off (f.put (s.rd 0 off) v)
/-- A field of a shepherd's own copy. -/
def State.pGet (s : State) (x : Shep) (off : Nat) (f : Fld) : Nat := f.get (s.rd x.bank off)
/-- A field of a shepherd's own copy, set. -/
def State.pPut (s : State) (x : Shep) (off : Nat) (f : Fld) (v : Nat) : State :=
  s.wr x.bank off (f.put (s.rd x.bank off) v)

/-- A shepherd's own state. -/
def State.sh (s : State) (x : Shep) : ShepSt := match x with
  | .A => s.shA
  | .B => s.shB

/-- A shepherd's own state, changed. -/
def State.modSh (s : State) (x : Shep) (f : ShepSt → ShepSt) : State := match x with
  | .A => { s with shA := f s.shA }
  | .B => { s with shB := f s.shB }

/-- The active shepherd (R285). -/
def State.active (s : State) : Option Shep :=
  if s.shA.role = .active then some .A else if s.shB.role = .active then some .B else none

/-- The shepherd whose copies stand for the control plane: the active one; while there is none, A unless it is DETACHED or SYNCING (log entry 5). -/
def State.lead (s : State) : Shep :=
  (s.active).getD (if s.shA.role = .detached ∨ s.shA.role = .syncing then .B else .A)

/-- A field of a shared register, read in the lead's copy (R140). -/
def State.sGet (s : State) (off : Nat) (f : Fld) : Nat := s.pGet s.lead off f
/-- A field of a shared register, set in both copies (R140). -/
def State.sPut (s : State) (off : Nat) (f : Fld) (v : Nat) : State := (s.pPut .A off f v).pPut .B off f v
/-- A shared register word, read in the lead's copy. -/
def State.sRd (s : State) (off : Nat) : Word := s.rd s.lead.bank off
/-- A shared register word, stored in both copies. -/
def State.sWr (s : State) (off : Nat) (w : Word) : State := (s.wr 1 off w).wr 2 off w

/-- Sets a one-bit flag of a device-wide register. -/
def State.dFlag (s : State) (off : Nat) (f : Fld) : State := s.dPut off f 1
/-- Sets a one-bit flag in a shepherd's own copy. -/
def State.pFlag (s : State) (x : Shep) (off : Nat) (f : Fld) : State := s.pPut x off f 1
/-- Sets a one-bit flag in both shepherds' copies. -/
def State.sFlag (s : State) (off : Nat) (f : Fld) : State := s.sPut off f 1

/-- Adds to a counter field of a device-wide register, saturating. -/
def State.dCount (s : State) (off : Nat) (f : Fld) (k : Nat) : State :=
  s.dPut off f (satAdd (2 ^ f.width - 1) (s.dGet off f) k)
/-- Adds to a counter field of a shepherd's copy, saturating. -/
def State.pCount (s : State) (x : Shep) (off : Nat) (f : Fld) (k : Nat) : State :=
  s.pPut x off f (satAdd (2 ^ f.width - 1) (s.pGet x off f) k)
/-- Adds to a counter field of both copies, saturating. -/
def State.sCount (s : State) (off : Nat) (f : Fld) (k : Nat) : State :=
  (s.pCount .A off f k).pCount .B off f k

/-! ### The clock (R22, R288, R366) -/

/-- The number of the present tick (R22). -/
def State.tick (s : State) : Nat := s.edge / 400

/-- TIM_NOW: the device time in ns, modulo 2^32 (R366). -/
def State.now (s : State) : Nat := s.tb0 / 2 ^ 24 % 2 ^ 32

/-- The nominal increment, 2.5 ns (R366). -/
def nominalIncr : Nat := 0x2800000

/-- What TB1 gains at each edge (R371): from the end of BOOT to the first grant the increment of B's servo, in the BANK and LIBRARY stages
of a resynchronisation that of the syncing shepherd's servo. -/
def State.tb1Incr (s : State) : Nat :=
  if s.initial = true ∧ s.claims ≠ [] then s.shB.servo.incr
  else match s.sync with
    | some y => if 3 ≤ y.stage then 0 else if s.shA.role = .syncing then s.shA.servo.incr else s.shB.servo.incr
    | none => 0

/-- Time passes up to an edge: TB0 gains TIM_INCR at each edge (R366, R369), and TB1 to TB3 theirs while they run (R371). -/
def State.toEdge (s : State) (e : Nat) : State :=
  let k := e - s.edge
  { s with
    edge := max s.edge e
    tb0 := s.tb0 + k * (s.rd 0 TIM_INCR).toNat
    tb1 := s.tb1 + k * s.tb1Incr
    tb2 := if s.survey = none then s.tb2 else s.tb2 + k * nominalIncr
    tb3 := if s.jobs.any (fun j => decide (j.kind = .portMeasure)) then s.tb3 + k * nominalIncr else s.tb3 }

/-- The device time that an edge of the clock will have (R225). -/
def State.timeAt (s : State) (e : Nat) : Nat :=
  (s.tb0 + (e - s.edge) * (s.rd 0 TIM_INCR).toNat - (s.edge - e) * (s.rd 0 TIM_INCR).toNat) / 2 ^ 24 % 2 ^ 32

/-- The tick at whose boundary a write that arrives now takes effect: the first boundary at least 1 us later (R68, R140). -/
def State.dueTick (s : State) : Nat := if s.edge % 400 = 0 then s.tick + 1 else s.tick + 2

/-! ### Paddocks, channels, sense channels -/

def State.pdk (s : State) (p : Nat) : Pdk := Tab.get s.pdks {} p
def State.setPdk (s : State) (p : Nat) (v : Pdk) : State := { s with pdks := Tab.set s.pdks {} p v }
def State.modPdk (s : State) (p : Nat) (f : Pdk → Pdk) : State := s.setPdk p (f (s.pdk p))
def State.chan (s : State) (c : Nat) : ChPdk := Tab.get s.chans {} c
def State.modChan (s : State) (c : Nat) (f : ChPdk → ChPdk) : State :=
  { s with chans := Tab.set s.chans {} c (f (s.chan c)) }
def State.sense (s : State) (m : Nat) : SnsHid := Tab.get s.senses {} m
def State.modSense (s : State) (m : Nat) (f : SnsHid → SnsHid) : State :=
  { s with senses := Tab.set s.senses {} m (f (s.sense m)) }

/-- The element record of a drive channel in the map in force. -/
def State.elem? (s : State) (c : Nat) : Option Elem :=
  match s.map with
  | some m => m.elems.find? fun e => decide (e.ch = c)
  | none => none

/-- The channels that the map in force names, in image order. -/
def State.mapped (s : State) : List Nat :=
  match s.map with
  | some m => m.elems.map fun e => e.ch
  | none => []

/-- The monitors of the map in force. -/
def State.mons (s : State) : List MonRec :=
  match s.map with
  | some m => m.mons
  | none => []

/-- The domain record of a domain in the map in force. -/
def State.dom? (s : State) (d : Nat) : Option DomRec :=
  match s.map with
  | some m => m.doms.find? fun r => decide (r.dom = d)
  | none => none

/-- The channels of a domain (R45). -/
def State.domChans (s : State) (d : Nat) : List Nat :=
  match s.map with
  | some m => (m.elems.filter fun e => decide (e.dom = d)).map fun e => e.ch
  | none => []

/-- The domain of a channel; 255 for a free element, none for an unmapped channel (R33, R35). -/
def State.domOf (s : State) (c : Nat) : Option Nat := (s.elem? c).map fun e => e.dom

/-! ### Free values -/

/-- The next free value of `w` bits and the state that has used it. -/
def State.draw (s : State) (w : Nat) : BitVec w × State := (Config.free w s.fresh, { s with fresh := s.fresh + 1 })

/-- New key pairs for the fold of shepherd x (R419); the recorder pair stays where `keep` holds. -/
def State.newKeys (s : State) (x : Shep) (keep : Bool) : State :=
  { s with fresh := s.fresh + 2 }.modSh x fun h => { h with xts := ⟨s.fresh, if keep then h.xts.recorder else s.fresh + 1⟩ }

/-! ### Records to the host (R341 to R351) -/

/-- The shepherds that write completions and events: ACTIVE and STANDBY (R285). -/
def ShepSt.writes (x : ShepSt) : Bool := decide (x.role = .active ∨ x.role = .standby) && !x.halted

/-- Adds to the list of what the block wrote or sent. -/
def State.send (s : State) (o : Out) : State := { s with out := s.out ++ [o] }

/-- The size of a CPL, EVT or TLM ring (R343). -/
def State.ringSize (s : State) (x : Shep) (k : Nat) : Nat := 2 ^ (s.pGet x (HIF_RING_CFG k) fHIF_RING_CFG_SIZE + 6)

/-- The indices of a shepherd's ring. -/
def State.ring (s : State) (x : Shep) (k : Nat) : RingSt := Tab.get (s.sh x).rings {} k

def State.modRing (s : State) (x : Shep) (k : Nat) (f : RingSt → RingSt) : State :=
  s.modSh x fun h => { h with rings := Tab.set h.rings {} k (f (Tab.get h.rings {} k)) }

/-- A ring takes a record: it is enabled and the consumer index leaves room (R343). -/
def State.room (s : State) (x : Shep) (k : Nat) : Bool :=
  decide (s.pGet x (HIF_RING_CFG k) fHIF_RING_CFG_EN = 1) &&
  decide (((s.ring x k).prod + 65536 - (s.ring x k).cons) % 65536 < s.ringSize x k)

/-- PHASE: 1 on the first pass after EN is set, inverted on each wrap (R341, R343). -/
def State.phase (s : State) (x : Shep) (k : Nat) : Nat := ((s.ring x k).prod / s.ringSize x k + 1) % 2

/-- The MSI-X vector of a ring waits for the status line that covers its record (R353). -/
def State.irqMark (s : State) (x : Shep) (vec : Nat) : State :=
  s.modSh x fun h => { h with irqWait := if vec ∈ h.irqWait then h.irqWait else h.irqWait ++ [vec] }

/-- A record goes to the entry of the producer index, which advances. -/
def State.putRec (s : State) (x : Shep) (k : Nat) (mk : Nat → Nat → Out) : State :=
  ((s.send (mk (s.ring x k).prod (s.phase x k))).modRing x k
    fun r => { r with prod := (r.prod + 1) % 65536 }).irqMark x k

/-- A completion record from its body of bytes 0 to 23 (R341). -/
def cplBytes (body : List Byte) (phase : Nat) : List Byte :=
  body ++ leBytes 4 (crc32c body) ++ zeros 3 ++ leBytes 1 phase

/-- An event record from its body of bytes 0 to 55 and FLAGS (R345). -/
def evtBytes (body : List Byte) (flags phase : Nat) : List Byte :=
  body ++ leBytes 4 (crc32c body) ++ leBytes 1 flags ++ zeros 2 ++ leBytes 1 phase

/-- Writes held completions, oldest first, while the ring has room (R344). -/
def flushCplN (x : Shep) : Nat → State → State
  | 0, s => s
  | n + 1, s =>
    match (s.sh x).heldCpl with
    | [] => s
    | body :: rest =>
      if s.room x 0 then
        flushCplN x n ((s.putRec x 0 fun i ph => .cpl x i (cplBytes body ph)).modSh x fun h => { h with heldCpl := rest })
      else s

def State.flushCpl (s : State) (x : Shep) : State := if (s.sh x).writes then flushCplN x (s.sh x).heldCpl.length s else s

/-- A completion body joins a shepherd's hold and is written when the ring has room; a standby whose hold is full discards it (R344). -/
def State.pushCpl (s : State) (x : Shep) (body : List Byte) : State :=
  if (s.sh x).writes then
    if 65536 ≤ (s.sh x).heldCpl.length ∧ (s.sh x).role = .standby then s.pCount x HIF_CNT_LOST fHIF_CNT_LOST_CPL 1
    else (s.modSh x fun h => { h with heldCpl := h.heldCpl ++ [body] }).flushCpl x
  else s

/-- The common head of an event or telemetry record (R345, R350). -/
def recHead (s : State) (seq type : Nat) : List Byte :=
  leBytes 4 seq ++ leBytes 2 s.epoch ++ leBytes 2 type ++ leBytes 4 s.now ++ leBytes 4 s.tick

/-- A payload of 40 bytes, padded with 0. -/
def pad40 (p : List Byte) : List Byte := (p ++ zeros 40).take 40

/-- An event log entry: FLAGS and the body. -/
def logEntry (flags : Nat) (body : List Byte) : List Byte := leBytes 1 flags ++ body

/-- Writes waiting events, oldest first, while the ring has room; after discards the first is EVT_LOST (R349). -/
def flushEvtN (x : Shep) : Nat → State → State
  | 0, s => s
  | n + 1, s =>
    if s.room x 1 then
      if (s.sh x).evtLost ≠ 0 then
        flushEvtN x n ((s.putRec x 1 fun i ph =>
          .evt x i (evtBytes (recHead s 0 0x000A ++ pad40 (leBytes 4 (s.sh x).evtLost)) 1 ph)).modSh x
            fun h => { h with evtLost := 0 })
      else
        match (s.sh x).evtLog with
        | [] => s
        | e :: rest =>
          flushEvtN x n ((s.putRec x 1 fun i ph => .evt x i (evtBytes (e.drop 1) (leNat (e.take 1)) ph)).modSh x
            fun h => { h with evtLog := rest })
    else s

/-- An event log entry is a ROLE_LOCAL event (R286, R346). -/
def isRoleLocal (e : List Byte) : Bool := decide (leAt e 0 1 = 1 ∧ leAt e 7 2 = 5)

/-- Writes the waiting ROLE_LOCAL events, oldest first, while the ring has room. -/
def flushRoleN (x : Shep) : Nat → State → State
  | 0, s => s
  | n + 1, s =>
    match (s.sh x).evtLog.find? isRoleLocal with
    | none => s
    | some e =>
      if s.room x 1 then
        flushRoleN x n ((s.putRec x 1 fun i ph => .evt x i (evtBytes (e.drop 1) (leNat (e.take 1)) ph)).modSh x
          fun h => { h with evtLog := h.evtLog.erase e })
      else s

/-- Waiting events are written while the ring has room; a shepherd in SYNCING or DETACHED writes ROLE_LOCAL alone, and a fenced one nothing (R286, R309). -/
def State.flushEvt (s : State) (x : Shep) : State :=
  let h := s.sh x
  if h.writes then flushEvtN x (h.evtLog.length + 1) s
  else if (h.role = .syncing ∨ h.role = .detached) ∧ h.halted = false ∧ h.noDma = false then flushRoleN x h.evtLog.length s
  else s

/-- An event joins a shepherd's event log, or is discarded and counted when the log is full (R349). -/
def State.logEvt (s : State) (x : Shep) (flags : Nat) (body : List Byte) : State :=
  if 1048576 ≤ (s.sh x).evtLog.length then
    (s.pCount x HIF_CNT_LOST fHIF_CNT_LOST_EVT 1).modSh x fun h => { h with evtLost := h.evtLost + 1 }
  else (s.modSh x fun h => { h with evtLog := h.evtLog ++ [logEntry flags body] }).flushEvt x

/-- An event of a type with a payload: both writing shepherds write it under one sequence number (R345, R351). -/
def State.event (s : State) (type : Nat) (payload : List Byte) : State :=
  let body := recHead s s.evtSeq type ++ pad40 payload
  let s := { s with evtSeq := (s.evtSeq + 1) % 2 ^ 32 }
  let s := if s.shA.writes then s.logEvt .A 0 body else s
  if s.shB.writes then s.logEvt .B 0 body else s

/-- A LOCAL event of one shepherd, with SEQ 0 (R286, R345). -/
def State.eventLocal (s : State) (x : Shep) (type : Nat) (payload : List Byte) : State :=
  s.logEvt x 1 (recHead s 0 type ++ pad40 payload)

/-- The list in pieces of at most 16. -/
def chunks16 : Nat → List Nat → List (List Nat)
  | 0, _ => []
  | n + 1, l => if l.length ≤ 16 then [l] else l.take 16 :: chunks16 n (l.drop 16)

/-- NOTICE events (R347): the status word, its bit, the number the rule names, and further numbers, 16 to an event. -/
def State.notice (s : State) (off bit num : Nat) (more : List Nat) : State :=
  (chunks16 (more.length + 1) more).foldl
    (fun s c => s.event 1 (leBytes 4 off ++ leBytes 1 bit ++ leBytes 1 c.length ++ leBytes 2 num ++ c.flatMap (leBytes 2))) s

/-- A NOTICE of one shepherd alone, for a condition of its own (R347); a shepherd in SYNCING or DETACHED writes none (R286). -/
def State.noticeLocal (s : State) (x : Shep) (off bit num : Nat) : State :=
  if (s.sh x).writes then s.eventLocal x 1 (leBytes 4 off ++ leBytes 1 bit ++ leBytes 1 0 ++ leBytes 2 num) else s

/-- Does the same in both shepherds. -/
def both (f : Shep → State → State) (s : State) : State := f .B (f .A s)

/-- A shepherd computes ticks: ACTIVE or STANDBY, or SYNCING in the STATE stage, whose computing starts with the copied state (R285). -/
def State.runs (s : State) (x : Shep) : Bool :=
  (s.sh x).writes || (decide ((s.sh x).role = .syncing) && decide (s.sync.map (fun y => y.stage) = some 3))

/-- A RING event (R346): ring, cause and index, with MSI-X vector 3 (R353); both shepherds hold the command rings. -/
def State.ringEvent (s : State) (x : Shep) (ring cause index : Nat) : State :=
  if (s.sh x).writes then (s.eventLocal x 0x000B (leBytes 1 ring ++ leBytes 1 cause ++ leBytes 2 index)).irqMark x 3 else s

end Sys2Proof.Machine
end

