-- ==== Sys2Proof/Machine/MapImage.lean ====
section
/-! DEFINITION. The map image (R31 to R52, R575, R576): its records, its validation in the order of R62, and the map it gives. -/

namespace Sys2Proof.Machine

/-- A record of a map image: its index (the header is 0) and its bytes. -/
structure MapRec where
  idx : Nat
  bytes : List Byte
  deriving DecidableEq, Repr

/-- A rejection: the code of R62 and DRO_MAP_ERR_INDEX. -/
abbrev MapErr := Nat × Nat

/-- The index of a cause that concerns the whole map (R62). -/
def wholeMap : Nat := 0xFFFFFFFF

def MapRec.ty (r : MapRec) : Nat := leAt r.bytes 0 1
def MapRec.n1 (r : MapRec) (i : Nat) : Nat := leAt r.bytes i 1
def MapRec.n2 (r : MapRec) (i : Nat) : Nat := leAt r.bytes i 2
def MapRec.n4 (r : MapRec) (i : Nat) : Nat := leAt r.bytes i 4

/-- All bytes at the given places are 0. -/
def zeroAt (bs : List Byte) (is : List Nat) : Bool := is.all fun i => decide (leAt bs i 1 = 0)

/-- Splits an image into records by their LENGTH; a record that runs past the end, or whose LENGTH is below 4 or no multiple of 4, ends the
walk and is given with the bytes left (its length then disagrees with its LENGTH). -/
def splitRecs : Nat → Nat → List Byte → List MapRec
  | 0, _, _ => []
  | _, _, [] => []
  | n + 1, i, bs =>
    let len := leAt bs 2 2
    if len < 4 ∨ len % 4 ≠ 0 ∨ bs.length < len then [⟨i, bs⟩]
    else ⟨i, bs.take len⟩ :: splitRecs n (i + 1) (bs.drop len)

/-- The LENGTH that a record's type asks for (R52); any multiple of 4 for a reserved type. -/
def MapRec.lengthOk (r : MapRec) : Bool :=
  let len := r.n2 2
  decide (r.bytes.length = len ∧ 4 ≤ len ∧ len % 4 = 0) &&
  match r.ty with
  | 1 => decide (len = 32)
  | 2 => decide (len = 32)
  | 3 => decide (len = 16)
  | 4 => decide (len = 16)
  | 5 => decide (len = 12 + 4 * r.n1 8)
  | 6 => decide (len = 8 + 4 * r.n2 6)
  | _ => true

/-- The entries of a monitor or aggressor record, from byte `i`. -/
def MapRec.entries (r : MapRec) (i : Nat) : List Nat :=
  (List.range ((r.bytes.length - i) / 4)).map fun k => r.n2 (i + 4 * k)

/-- The reserved halves of the entries are 0 (R46, R48). -/
def MapRec.entryPad (r : MapRec) (i : Nat) : Bool :=
  (List.range ((r.bytes.length - i) / 4)).all fun k => decide (r.n2 (i + 4 * k + 2) = 0)

/-- Reserved bytes and "must be 0" bits of a record (R34, R40, R42, R46, R48). -/
def MapRec.reservedOk (r : MapRec) : Bool :=
  match r.ty with
  | 2 => zeroAt r.bytes (1 :: (List.range 15).map (· + 17)) && decide (r.n1 16 < 2)
  | 3 => zeroAt r.bytes [1] && decide (r.n1 7 < 16)
  | 4 => zeroAt r.bytes [1, 9, 14, 15]
  | 5 => zeroAt r.bytes [10, 11] && r.entryPad 12
  | 6 => zeroAt r.bytes [1] && r.entryPad 8
  | _ => true

/-- The first record of a list that a check finds bad. -/
def firstBad (rs : List MapRec) (bad : MapRec → Bool) : Option Nat := (rs.find? bad).map fun r => r.idx

/-- The records that precede a record in the image. -/
def before (rs : List MapRec) (r : MapRec) : List MapRec := rs.filter fun q => decide (q.idx < r.idx)

/-- MAP_FORMAT in the order of R576. -/
def checkFormat (img : List Byte) (rs : List MapRec) : Option Nat :=
  if 134217728 < img.length then some wholeMap
  else match rs with
    | [] => some 0
    | h :: rest =>
      if !(decide (h.ty = 1 ∧ h.n1 1 = 1) && h.lengthOk && zeroAt h.bytes [18, 19, 24, 25, 26, 27, 28, 29, 30, 31]) then some 0
      else
        match firstBad rest (fun r => !r.lengthOk || !r.reservedOk || decide (r.ty = 1) ||
            (decide (r.ty = 2) && (before rest r).any fun q => decide (q.ty ≠ 2))) with
        | some i => some i
        | none =>
          if h.n4 8 ≠ img.length ∨ h.n4 12 ≠ rs.length ∨
              h.n4 20 ≠ crc32 (img.take 20 ++ zeros 4 ++ img.drop 24) then some wholeMap
          else none

def MapRec.elem (r : MapRec) : Elem :=
  ⟨r.n2 4, r.n1 6, r.n1 7, r.n1 8, r.n1 9, r.n1 10, r.n1 11, r.n2 12, r.n2 14⟩
def MapRec.cell (r : MapRec) : CellRec := ⟨r.n1 4, r.n1 5, r.n2 6, r.n1 8, r.n2 10, r.n2 12⟩
def MapRec.domain (r : MapRec) : DomRec :=
  ⟨r.n1 4, r.n1 5, r.n2 6, r.n2 8, r.n2 10, r.n2 12, r.n2 14, decide (r.n1 16 = 1)⟩
def MapRec.monitor (r : MapRec) : MonRec := ⟨r.n2 4, r.n1 1, r.n2 6, r.n1 9, r.entries 12⟩
def MapRec.aggr (r : MapRec) : AggrRec := ⟨r.n2 4, r.entries 8⟩

/-- The records of a type. -/
def ofTy (rs : List MapRec) (t : Nat) : List MapRec := rs.filter fun r => decide (r.ty = t)

/-- The domain record that carries a domain number. -/
def domRec (rs : List MapRec) (d : Nat) : Option DomRec :=
  ((ofTy rs 2).find? fun r => decide (r.n1 4 = d)).map MapRec.domain

/-- k with 2^k = n, when n is a power of 2 up to 1,024. -/
def log2Exact (n : Nat) : Option Nat := (List.range 11).find? fun k => decide (2 ^ k = n)

/-- Stages of a Benes or dilated Benes domain: 2k - 1 (R36). -/
def DomRec.stages (d : DomRec) : Nat := match log2Exact d.ports with
  | some k => 2 * k - 1
  | none => 0

/-- The cell number of a cell record (R37). -/
def CellRec.num (c : CellRec) (d : DomRec) : Nat := c.stage * (d.ports / 2) + c.index

/-- MAP_PART (R62): the header's paddock count, and channels of absent paddocks. -/
def checkPart (p : Part) (rs : List MapRec) : Option Nat :=
  firstBad rs fun r => match r.ty with
    | 1 => decide (r.n1 16 ≠ p.paddocks)
    | 3 => decide (p.chans ≤ r.n2 4)
    | 5 => decide (p.senses ≤ r.n2 4) || (r.entries 12).any fun c => decide (p.chans ≤ c)
    | 6 => decide (p.chans ≤ r.n2 4) || (r.entries 8).any fun c => decide (p.chans ≤ c)
    | _ => false

/-- A span is allowed for a kind (R31). -/
def spanAllowed (kind span : Nat) : Bool :=
  match kind with
  | 1 => decide (span ≤ 3)
  | 2 => decide (span = 4 ∨ span = 5)
  | 3 => decide (span ≤ 1)
  | _ => false

/-- MAP_ELEMENT for one element record (R31 to R34, R39). A domain of a reserved topology is left to MAP_TOPOLOGY. -/
def elemBad (rs : List MapRec) (r : MapRec) : Bool :=
  let e := r.elem
  !(spanAllowed e.kind e.span) || decide (3 < e.role) ||
  (decide (e.kind = 2) && !dualMode e.ch) ||
  decide (63 < e.walsh ∧ e.walsh ≠ 255) ||
  (if e.cell = 0xFFFF then decide (e.pos ≠ 255) else decide (7 < e.pos)) ||
  (decide (e.cell ≠ 0xFFFF) && (before (ofTy rs 3) r).any fun q =>
    decide (q.elem.dom = e.dom ∧ q.elem.cell = e.cell ∧ q.elem.pos = e.pos)) ||
  decide (e.role = 3 ∧ e.cell ≠ 0xFFFF) ||
  decide (e.dom = 255 ∧ (e.role ≠ 3 ∨ e.cell ≠ 0xFFFF)) ||
  (match domRec rs e.dom with
   | some d => if d.topo = 2 then decide (e.cell ≠ 0xFFFF) else decide (d.topo < 2 ∧ e.role ≠ 3 ∧ e.cell = 0xFFFF)
   | none => false)

/-- MAP_TOPOLOGY for one domain record (R36). -/
def topoBad (r : MapRec) : Bool :=
  let d := r.domain
  match d.topo with
  | 0 => decide (d.ports < 4) || decide (log2Exact d.ports = none)
  | 1 => decide (d.ports < 4 ∨ 512 < d.ports) || decide (log2Exact d.ports = none)
  | 2 => decide (d.ports < 1 ∨ 1024 < d.ports)
  | _ => true

/-- The elements that name a cell (R40). -/
def cellElems (rs : List MapRec) (d n : Nat) : List Elem :=
  ((ofTy rs 3).map MapRec.elem).filter fun e => decide (e.dom = d ∧ e.cell = n)

/-- MAP_CELL for one record (R36, R37, R39, R40, R42). The model's choice (log entry 87): a wrong number of elements in a cell, and a dilated SWITCH outside
positions 0 to 3, have no code in R62's table and get this one; a missing cell is found by counting the cell records and reported at the domain record. -/
def cellBad (rs : List MapRec) (r : MapRec) : Bool :=
  match r.ty with
  | 2 =>
    let d := r.domain
    decide (d.cells ≠ (if d.topo = 2 then 0 else d.ports / 2 * d.stages)) ||
    decide (d.elems ≠ (((ofTy rs 3).map MapRec.elem).filter fun e => decide (e.dom = d.dom)).length) ||
    decide (d.topo ≠ 2 ∧ ((ofTy rs 4).filter fun q => decide (q.n1 4 = d.dom)).length < d.cells)
  | 3 =>
    let e := r.elem
    match domRec rs e.dom with
    | some d => decide (e.cell ≠ 0xFFFF) && (decide (d.cells ≤ e.cell) ||
        !((ofTy rs 4).any fun q => decide (q.cell.dom = e.dom ∧ q.cell.num d = e.cell)))
    | none => false
  | 4 =>
    let c := r.cell
    match domRec rs c.dom with
    | none => false
    | some d =>
      if d.topo = 2 then true
      else
        let es := cellElems rs c.dom (c.num d)
        let sw := es.filter fun e => decide (e.role = 0)
        decide (d.stages ≤ c.stage ∨ d.ports / 2 ≤ c.index) ||
        ((before (ofTy rs 4) r).any fun q => decide (q.cell.dom = c.dom ∧ q.cell.stage = c.stage ∧ q.cell.index = c.index)) ||
        decide (c.elems ≠ es.length) ||
        (if d.topo = 0 then decide (es.length < 1 ∨ 4 < es.length ∨ sw.length < 1 ∨ 2 < sw.length)
         else decide (es.length < 4 ∨ 8 < es.length ∨ sw.length ≠ 4) || sw.any fun e => decide (3 < e.pos))
  | _ => false

/-- The port ranges of two domain records overlap (R43). -/
def portsOverlap (a b : DomRec) : Bool := decide (a.base < b.base + b.ports ∧ b.base < a.base + a.ports)

/-- MAP_PORT for one domain record; `other` are the domains in force that a reload leaves (R43, R57). -/
def portBad (p : Part) (other : List DomRec) (rs : List MapRec) (r : MapRec) : Bool :=
  let d := r.domain
  decide (p.radix < d.base + d.ports) || other.any (portsOverlap d) ||
  (before (ofTy rs 2) r).any fun q => portsOverlap d q.domain

/-- REF of a monitor record against its tap and DOMAIN (R575); records whose DOMAIN names no domain, 0x10 to 0xFE among them, are left to
MAP_DOMAIN (R576; log entry 87). -/
def refBad (p : Part) (doms : Nat → Option DomRec) (m : MonRec) : Bool :=
  match m.tap with
  | 0 => decide (m.ref ≠ 0xFFFF)
  | 1 => if m.dom = 255 then true else match doms m.dom with
    | some d => decide (d.topo = 2 ∨ d.cells ≤ m.ref)
    | none => false
  | 2 => if m.dom = 255 then true else match doms m.dom with
    | some d => decide (d.topo = 2 ∨ d.cells ≤ m.ref)
    | none => false
  | _ => if m.dom = 255 then decide (p.radix ≤ m.ref) else match doms m.dom with
    | some d => decide (m.ref < d.base ∨ d.base + d.ports ≤ m.ref)
    | none => false

/-- MAP_MONITOR for one monitor record. `mapped` says which drive channels have an element record, `taken` which sense channels
other monitors in force hold. -/
def monBad (p : Part) (mapped taken : Nat → Bool) (rs : List MapRec) (r : MapRec) : Bool :=
  let m := r.monitor
  decide (4 < m.tap ∨ 64 < m.infl.length) || taken m.sense ||
  ((before (ofTy rs 5) r).any fun q => decide (q.n2 4 = m.sense)) ||
  (m.infl.any fun c => !mapped c) || refBad p (domRec rs) m

/-- A list with a repeat. -/
def hasDup : List Nat → Bool
  | [] => false
  | x :: r => decide (x ∈ r) || hasDup r

/-- MAP_AGGRESSOR for one aggressor record (R48). `heater` says which channels are TO_HEATER elements, `listed` which victims have a list that a reload
leaves (R57). -/
def aggrBad (mapped heater listed : Nat → Bool) (rs : List MapRec) (r : MapRec) : Bool :=
  let a := r.aggr
  decide (a.list.length < 1 ∨ 512 < a.list.length) || !mapped a.victim ||
  (a.list.any fun c => !heater c || decide (c = a.victim)) || hasDup a.list || listed a.victim ||
  (before (ofTy rs 6) r).any fun q => decide (q.n2 4 = a.victim)

/-- MAP_DOMAIN for one record (R34, R42, R576); `only` is the domain of a reload (R57). The model's choice (log entry 87): a free element or a monitor of
DOMAIN 0xFF in a reload's image belongs to no domain that the reload may replace, and gets this code. -/
def domBad (only : Option Nat) (rs : List MapRec) (r : MapRec) : Bool :=
  let unknown (d : Nat) := decide (domRec rs d = none)
  let outside (d : Nat) := match only with
    | some e => decide (d ≠ e)
    | none => false
  match r.ty with
  | 2 => decide (15 < r.n1 4) || ((before (ofTy rs 2) r).any fun q => decide (q.n1 4 = r.n1 4)) || outside (r.n1 4)
  | 3 => decide (15 < r.n1 10 ∧ r.n1 10 ≠ 255) || (decide (r.n1 10 ≠ 255) && unknown (r.n1 10)) || outside (r.n1 10)
  | 4 => decide (15 < r.n1 4) || unknown (r.n1 4) || outside (r.n1 4)
  | 5 => decide (15 < r.n1 9 ∧ r.n1 9 ≠ 255) || (decide (r.n1 9 ≠ 255) && unknown (r.n1 9)) || outside (r.n1 9)
  | 6 => match only with
    | some e => !((ofTy rs 3).any fun q => decide (q.n2 4 = r.n2 4 ∧ q.n1 10 = e))
    | none => false
  | _ => false

/-- The map in force without the records of a domain: what a reload leaves (R53, R57). -/
def FabricMap.without (m : FabricMap) (d : Nat) : FabricMap :=
  let es := m.elems.filter fun e => decide (e.dom ≠ d)
  { m with
    doms := m.doms.filter fun r => decide (r.dom ≠ d)
    elems := es
    cells := m.cells.filter fun r => decide (r.dom ≠ d)
    mons := m.mons.filter fun r => decide (r.dom ≠ d)
    aggrs := m.aggrs.filter fun a => es.any fun e => decide (e.ch = a.victim) }

/-- The monitors and the aggressor lists that a reload leaves still name mapped channels and heaters (R46, R48, R57). A reload that breaks them reports the whole
map, for no record of its image carries the cause (log entry 87). -/
def leftBad (ok : Bool) : Option Nat := if ok then none else some wholeMap

/-- The first some of a list of options tagged with their codes. -/
def firstErr : List (Nat × Option Nat) → Option MapErr
  | [] => none
  | (c, some i) :: _ => some (c, i)
  | (_, none) :: r => firstErr r

/-- The map that an image's records describe. -/
def mapOf (rs : List MapRec) : FabricMap :=
  { id := (rs.head?.map fun h => h.n4 4).getD 0
    doms := (ofTy rs 2).map MapRec.domain
    elems := (ofTy rs 3).map MapRec.elem
    cells := (ofTy rs 4).map MapRec.cell
    mons := (ofTy rs 5).map MapRec.monitor
    aggrs := (ofTy rs 6).map MapRec.aggr }

/-- Two maps side by side: what a reload leaves and what it brings; MAP_ID is the new image's. -/
def FabricMap.join (a b : FabricMap) : FabricMap :=
  ⟨b.id, a.doms ++ b.doms, a.elems ++ b.elems, a.cells ++ b.cells, a.mons ++ b.mons, a.aggrs ++ b.aggrs⟩

/-- Validates an image in the order of R62. `left` is empty for a full map; for a reload of domain d it is what the map in force keeps,
and `only` is d (R57). Answers the whole new map, or the rejection. Within MAP_DOMAIN the records come before the causes of the whole map, a reload without
exactly one domain record among these (log entry 87). -/
def validateMap (p : Part) (only : Option Nat) (left : FabricMap) (img : List Byte) : Except MapErr FabricMap :=
  let rs := splitRecs img.length 0 img
  let new := left.join (mapOf rs)
  let mapped (c : Nat) := new.elems.any fun e => decide (e.ch = c)
  let heater (c : Nat) := new.elems.any fun e => decide (e.ch = c ∧ e.kind = 2)
  let listed (c : Nat) := left.aggrs.any fun a => decide (a.victim = c)
  let taken (m : Nat) := left.mons.any fun r => decide (r.sense = m)
  let entries := (new.aggrs.map fun a => a.list.length).foldl (· + ·) 0
  match checkFormat img rs with
  | some i => .error (2, i)
  | none =>
    match firstErr [
      (3, firstBad rs fun r => decide (r.ty = 0 ∨ 6 < r.ty)),
      (4, checkPart p rs),
      (5, firstBad (ofTy rs 3) fun r => (left.elems.any fun e => decide (e.ch = r.n2 4)) ||
            (before (ofTy rs 3) r).any fun q => decide (q.n2 4 = r.n2 4)),
      (6, firstBad (ofTy rs 3) (elemBad rs)),
      (7, firstBad (ofTy rs 2) topoBad),
      (8, firstBad rs (cellBad rs)),
      (9, firstBad (ofTy rs 2) (portBad p left.doms rs)),
      (10, firstBad (ofTy rs 5) (monBad p mapped taken rs)),
      (10, leftBad (left.mons.all fun m => m.infl.all mapped)),
      (11, firstBad (ofTy rs 6) (aggrBad mapped heater listed rs)),
      (11, leftBad (left.aggrs.all fun a => a.list.all heater)),
      (12, firstBad rs (domBad only rs)),
      (12, if (rs.head?.map fun h => h.n1 17) = some (ofTy rs 2).length ∧
              (only = none ∨ (ofTy rs 2).length = 1) ∧
              (new.doms.filter fun d => d.bell).length ≤ 4 then none else some wholeMap),
      (13, if entries ≤ p.xtEntries then none else some wholeMap)] with
    | some e => .error e
    | none => .ok new

end Sys2Proof.Machine
end

