-- ==== Sys2Proof/Machine/Alarms.lean ====
section
/-! DEFINITION. Alarms and muster (R515 to R522): reports, the muster window and its root. -/

namespace Sys2Proof.Machine

/-- A window opens at the boundary that begins tick t with some reports; it is lengthened within WINDOW ticks of the last close (R519). -/
def openWindow (s : State) (t : Nat) (rs : List Report) : State :=
  let win := s.sGet ALM_CFG fALM_CFG_WINDOW
  let len := match s.muster.prevClose with
    | some c => if t ≤ c + win then min 1024 (2 * s.muster.prevLen) else win
    | none => win
  { s with muster := { s.muster with win := some {
      openTick := t, openTime := s.timeAt (400 * t), len := len, reports := rs, applied := 0 } } }

/-- A report joins the open window when its boundary, the next one, comes before the close, or opens one (R518, R519). -/
def joinWindow (s : State) (r : Report) : State :=
  match s.muster.win with
  | some w =>
    if s.tick + 1 < w.openTick + w.len then
      { s with muster := { s.muster with win := some { w with reports := w.reports ++ [r] } } }
    else { s with muster := { s.muster with next := s.muster.next ++ [r] } }
  | none => openWindow s (s.tick + 1) [r]

/-- A report reaches muster (R518): FAULT_LATCH by its class word (R528), the window, and the reaction waiting for its boundary (R524).
Before the first grant it is held (R529). -/
def State.report (s : State) (r : Report) : State :=
  let s := if (s.sGet (ALM_CLASS r.code) fALM_CLASS_FAULT_N) = 1 then s.sFlag ALM_STATUS fALM_STATUS_FAULT_LATCH else s
  if s.active = none then { s with muster := { s.muster with held := s.muster.held ++ [r] } }
  else
    let s := joinWindow s r
    { s with muster := { s.muster with waiting := s.muster.waiting ++ [(s.tick + 1, r)] } }

/-- A report of an alarm on a subject that names no rail. -/
def State.alarm (s : State) (code : Nat) (k : SubjKind) (id : Nat) : State := s.report ⟨code, k, id, 4, none, 0⟩

/-- The reports held before the first grant are assigned to the first boundary after it (R529). -/
def State.releaseReports (s : State) : State :=
  let h := s.muster.held
  h.foldl (fun s r =>
    let s := joinWindow s r
    { s with muster := { s.muster with waiting := s.muster.waiting ++ [(s.tick + 1, r)] } })
    { s with muster := { s.muster with held := [] } }

/-- The distinct subjects of a list of reports. -/
def subjects : List Report → List (SubjKind × Nat)
  | [] => []
  | r :: rest => let t := subjects rest; if (r.kind, r.id) ∈ t then t else (r.kind, r.id) :: t

/-- A root candidate (R520). -/
inductive Candidate where
  | supply (p rail : Nat)
  | aggressor (c : Nat)
  | monitor (m : Nat)
  | paddock (p : Nat)
  deriving DecidableEq, Repr

/-- A heater's victims: the channels whose aggressor list names it (R48). -/
def State.victims (s : State) (c : Nat) : List Nat :=
  match s.map with
  | some m => (m.aggrs.filter fun a => decide (c ∈ a.list)).map fun a => a.victim
  | none => []

/-- A monitor's influence list (R46). -/
def State.infl (s : State) (m : Nat) : List Nat :=
  match s.mons.find? fun r => decide (r.sense = m) with
  | some r => r.infl
  | none => []

/-- What a candidate covers (R520). -/
def covers (s : State) (k : Candidate) (subj : SubjKind × Nat) : Bool :=
  match k, subj with
  | .supply p _, (.channel, c) => decide (pdkOf c = p)
  | .supply p _, (.monitor, m) => decide (m / 1024 = p)
  | .supply p _, (.paddock, q) => decide (q = p)
  | .aggressor a, (.channel, c) => decide (c ∈ s.victims a)
  | .aggressor a, (.monitor, m) => (s.infl m).any fun e => decide (e ∈ s.victims a)
  | .monitor n, (.channel, c) => decide (c ∈ s.infl n)
  | .monitor n, (.monitor, m) => decide (m = n)
  | .paddock p, (.channel, c) => decide (pdkOf c = p)
  | .paddock p, (.monitor, m) => decide (m / 1024 = p)
  | .paddock p, (.paddock, q) => decide (q = p)
  | _, _ => false

/-- The candidates of each kind in the order of R520, lower numbers first. -/
def candidates (s : State) (reports : List Report) : List (List Candidate) :=
  [ (List.range 64).filterMap (fun i =>
      if reports.any (fun r => decide (r.kind = .paddock ∧ r.id = i / 4 ∧ r.rail = i % 4)) then some (.supply (i / 4) (i % 4)) else none),
    (match s.map with
     | some m => (m.elems.filter fun e => decide (e.kind = 2)).map fun e => Candidate.aggressor e.ch
     | none => []),
    (s.mons.map (fun r => r.sense) ++ (subjects reports).filterMap fun (j : SubjKind × Nat) => if j.1 = .monitor then some j.2 else none).map fun m =>
      Candidate.monitor m,
    (List.range s.part.paddocks).map fun p => .paddock p ]

/-- The number of subjects a candidate covers. -/
def coverCount (s : State) (subs : List (SubjKind × Nat)) (k : Candidate) : Nat := (subs.filter (covers s k)).length

/-- The number by which a tie is broken. -/
def Candidate.num : Candidate → Nat
  | .supply p r => 4 * p + r
  | .aggressor c => c
  | .monitor m => m
  | .paddock p => p

/-- The candidate that covers the most, the lower number on a tie. -/
def bestOf (s : State) (subs : List (SubjKind × Nat)) : List Candidate → Option Candidate
  | [] => none
  | k :: rest =>
    match bestOf s subs rest with
    | none => some k
    | some b =>
      let n := coverCount s subs k
      let nb := coverCount s subs b
      if nb < n ∨ (nb = n ∧ k.num < b.num) then some k else some b

/-- The root of a window: the first kind's best candidate that covers at least COVER per cent of the subjects (R520). -/
def rootOf (s : State) (reports : List Report) : Option Candidate :=
  let subs := subjects reports
  ((candidates s reports).filterMap fun l => bestOf s subs l).find? fun k =>
    decide (s.sGet ALM_CFG fALM_CFG_COVER * subs.length ≤ 100 * coverCount s subs k)

/-- The bit of a subject in a window's bitmap (R521); none for a number that no subject of the kind has (ALM_INJECT; R532). -/
def bitmapBit : SubjKind × Nat → Option Nat
  | (.channel, c) => if c < 32768 then some c else none
  | (.monitor, m) => if m < 16384 then some (32768 + m) else none
  | (.paddock, p) => if p < 16 then some (49152 + p) else none
  | (.domain, d) => if d < 16 then some (49168 + d) else none
  | (.shepherd, x) => if x < 2 then some (49184 + x) else none
  | (.device, _) => some 49186

/-- The 8,192 bytes of a bitmap from its set bits. -/
def bitmapBytes (bits : List Nat) : List Byte :=
  (List.range 8192).map fun i =>
    BitVec.ofNat 8 (((List.range 8).map fun j => if 8 * i + j ∈ bits then 2 ^ j else 0).foldl (· + ·) 0)

/-- ROOT_KIND, COVER and ROOT_ID of a MUSTER event (R522). -/
def rootFields (s : State) (reports : List Report) : Nat × Nat × Nat :=
  let subs := subjects reports
  match rootOf s reports with
  | none => (0, 0, 0xFFFF)
  | some k =>
    let cover := 100 * coverCount s subs k / subs.length
    match k with
    | .supply p r => (1, cover, p + 256 * r)
    | .aggressor c => (2, cover, c)
    | .monitor m => (3, cover, m)
    | .paddock p => (4, cover, p)

/-- ACTION of a MUSTER event: what was done for the latest BANK_UE of the window (R522). -/
def actionOf (reports : List Report) : Nat := reports.foldl (fun a r => if r.action = 0 then a else r.action) 0

/-- The open window closes (R519): it is numbered, its root is found in the map in force (R520, R529), and the reports of the boundary open the next one. -/
def closeWindow (s : State) : State :=
  match s.muster.win with
  | none => s
  | some w =>
    let no := s.muster.no + 1
    let subs := subjects w.reports
    let (kind, cover, id) := rootFields s w.reports
    let closeTick := w.openTick + w.len
    let alarms := (List.range 32).foldl (fun a i => if w.reports.any (fun r => decide (r.code = i)) then a + 2 ^ i else a) 0
    let pay := leBytes 4 no ++ leBytes 4 w.openTime ++ leBytes 4 (s.timeAt (400 * closeTick)) ++ leBytes 4 w.reports.length ++
      leBytes 2 (min 0xFFFF subs.length) ++ leBytes 1 kind ++ leBytes 1 cover ++ leBytes 2 id ++
      leBytes 1 ((w.reports.head?.map fun r => r.code).getD 0) ++ leBytes 1 w.applied ++ leBytes 4 alarms ++
      leBytes 2 (no % 8192) ++ leBytes 1 (actionOf w.reports)
    let later := s.muster.next
    let s := { s with muster := { s.muster with
      win := none, prevClose := some closeTick, prevLen := w.len, no := no, next := [],
      closed := s.muster.closed ++ [⟨no, pay, subs.filterMap bitmapBit⟩] } }
    if later = [] then s else openWindow s closeTick later

/-- A window closes at the boundary that ends its length (R519). -/
def State.musterBoundary (s : State) : State :=
  match s.muster.win with
  | some w => if w.openTick + w.len ≤ s.tick then closeWindow s else s
  | none => s

/-- MUSTER_WINDOW_CLOSE: the bitmap and the MUSTER event of the oldest closed window are written, and ALM_CNT counts it (R521, R522, R532). -/
def doMusterWindowClose (s : State) : State :=
  match s.muster.closed with
  | [] => s
  | r :: rest =>
    let s := { s with muster := { s.muster with closed := rest, bitmaps := Tab.set s.muster.bitmaps [] (r.no % 8192) r.bits } }
    ((s.event 6 r.pay).pCount .A ALM_CNT fALM_CNT_COUNT 1).pCount .B ALM_CNT fALM_CNT_COUNT 1

/-- FAULT_N is driven low (R528); the BOOT of a lone reset follows no POR and no RESET_N. -/
def faultN (s : State) : Bool :=
  decide (s.mode ≠ .off ∧ s.mode ≠ .reset) &&
  (decide (s.sGet ALM_STATUS fALM_STATUS_FAULT_LATCH = 1) || decide (s.mode = .safe) || (decide (s.mode = .boot) && !s.lone))

/-- A tick ends with a hottest junction temperature (R516): the runs above HOT and at or below HOT - 5.0 degrees. -/
def State.junctionTick (s : State) (temp : Int) : State :=
  let hot : Int := toSigned 16 (s.sGet ALM_TEMP fALM_TEMP_HOT)
  let cool := if temp ≤ hot - 50 then s.muster.coolRun + 1 else 0
  { s with muster := { s.muster with
      hotRun := if hot < temp then s.muster.hotRun + 1 else 0, coolRun := cool,
      hot := s.muster.hot && decide (cool < 16) } }

/-- JUNCTION_HOT (R516): the hottest junction temperature has exceeded HOT for 16 consecutive ticks, reported once until it has
cooled. -/
def doJunctionHot (s : State) : State :=
  if 16 ≤ s.muster.hotRun ∧ s.muster.hot = false then
    { s with muster := { s.muster with hot := true } }.alarm 0x0E .device 0
  else s

end Sys2Proof.Machine
end

