-- ==== Sys2Proof/Machine/Drive.lean ====
section
/-! DEFINITION. Drive outputs (R64 to R96): output states, strobes, the span-change sequence, clear, and writes to the DRV block. -/

namespace Sys2Proof.Machine

/-! ### Fields of a channel -/

def State.spanOf (s : State) (c : Nat) : Nat := s.dGet (DRV_CH_CTRL c) fDRV_CH_CTRL_SPAN
def State.oeOf (s : State) (c : Nat) : Bool := decide (s.dGet (DRV_CH_CTRL c) fDRV_CH_CTRL_OE = 1)
def State.parkCode (s : State) (c : Nat) : Nat := s.dGet (DRV_CH_CTRL c) fDRV_CH_CTRL_PARK_CODE
def State.parkBit (s : State) (c : Nat) : Bool := decide (s.dGet (DRV_CH_CTRL c) fDRV_CH_CTRL_PARK = 1)
def State.dacCode (s : State) (c : Nat) : Nat := s.dGet (DRV_CH_STAT c) fDRV_CH_STAT_DAC_CODE
def State.flockSrc (s : State) (f : Nat) : Nat := s.dGet (DRV_FLOCK_CFG f) fDRV_FLOCK_CFG_SRC

/-- A span of the bipolar voltage class (R64). -/
def bipolar (span : Nat) : Bool := decide (span = 2 ∨ span = 3)
/-- A span of the current class (R64). -/
def current (span : Nat) : Bool := decide (span = 4 ∨ span = 5)

/-- The full scale of a span against a reference of 4.096 V, in uV or nA (R65). -/
def fullScale (span : Nat) : Nat :=
  match span with
  | 0 | 2 => 5000000
  | 1 | 3 => 2500000
  | 4 => 20000000
  | 5 => 5000000
  | _ => 0

/-- The reference of paddock p. -/
def State.vref (s : State) (p : Nat) : RefSt := Tab.get s.vrefs {} p

/-- The reference that the full scales of paddock p follow, in units of 100 uV (R65): REFV on the pins while it is in use, at each moment; after a switch to the
bandgap the REFV of the calibration whose bandgap trim is in force, and 4.096 V with the factory bandgap trim, both within the limits of R261. -/
def State.refInUse (s : State) (p : Nat) : Nat :=
  if s.dGet (SRV_PDK_CAL p) fSRV_PDK_CAL_REF_SRC = 1 then (s.vref p).now.bandgap.getD 40960 else (s.vref p).pins

/-- The full scale of a channel's span in uV or nA (R65). -/
def State.fullScaleOf (s : State) (c : Nat) : Nat := fullScale (s.spanOf c) * s.refInUse (pdkOf c) / 40960

/-- The nominal output of a code in units of FS / 65,536 (R65): signed for the bipolar class, where half the range is negative. -/
def nominal (span code : Nat) : Int := if bipolar span then 2 * (code : Int) - 65536 else code

/-- The nominal output of a channel for a code, in uV or nA (R65, R66). -/
def State.nominalOut (s : State) (c code : Nat) : Int := (s.fullScaleOf c : Int) * nominal (s.spanOf c) code / 65536

/-- The clear code of a flock for a span's class (R86). -/
def State.clearCode (s : State) (f span : Nat) : Nat :=
  if bipolar span then s.dGet (DRV_FLOCK_CLR_V f) fDRV_FLOCK_CLR_V_BIPOLAR
  else if current span then s.dGet (DRV_FLOCK_CLR_I f) fDRV_FLOCK_CLR_I_CURRENT
  else s.dGet (DRV_FLOCK_CLR_V f) fDRV_FLOCK_CLR_V_UNIPOLAR

/-! ### What forces and what parks a channel -/

/-- Flock f is selected in DRV_CLR_MASK0 or DRV_CLR_MASK1 (R87). -/
def State.clrMask (s : State) (f : Nat) : Bool := bitAt (s.rd 0 (DRV_CLR_MASK (f / 32))).toNat (f % 32)

/-- Flock f is cleared by a fault reaction (R89). -/
def State.clearedByAlarm (s : State) (f : Nat) : Bool := bitAt (s.sRd (ALM_CLEARED (f / 32))).toNat (f % 32)

/-- The PARK_SEL strap (R487): 0 HOLD, 1 PARK, 2 CLEAR, 3 RELEASE. -/
def State.parkSel (s : State) : Nat := s.dGet RST_STRAPS fRST_STRAPS_PARK_SEL

/-- Flock f is forced to clear (R89; R487 for orphaned paddocks). -/
def State.forced (s : State) (f : Nat) : Bool :=
  (s.clearHold && s.clrMask f) || s.clearedByAlarm f || decide (s.mode = .safe) || (s.orphan && decide (s.parkSel = 2))

/-- A domain with a channel on a paddock (R472). -/
def State.domOnPdk (s : State) (d p : Nat) : Bool := (s.domChans d).any fun c => decide (pdkOf c = p)

/-- Domain d is out of service (R472). -/
def State.domOut (s : State) (d : Nat) : Bool :=
  decide (s.mode = .maintenance) &&
  match s.oos with
  | .none => false
  | .paddock p => s.domOnPdk d p
  | .domain e => decide (d = e)

/-- Channel c belongs to the part out of service (R472). -/
def State.chanOut (s : State) (c : Nat) : Bool :=
  decide (s.mode = .maintenance) &&
  match s.oos with
  | .none => false
  | .paddock p => decide (pdkOf c = p) || (match s.domOf c with
      | some d => decide (d ≠ 255) && s.domOnPdk d p
      | none => false)
  | .domain d => decide (s.domOf c = some d)

/-- Channel c is parked by a fault reaction (R523). -/
def State.chanReacted (s : State) (c : Nat) : Bool :=
  match s.domOf c with
  | some d => if d = 255 then decide (c ∈ s.parkedFree)
              else bitAt (s.sGet ALM_PARKED fALM_PARKED_DOMAIN) d
  | none => false

/-- The mode or a fault reaction parks the channel (R26, R70); an orphaned paddock with PARK_SEL PARK parks it too (R487). -/
def State.modeParks (s : State) (c : Nat) : Bool :=
  if s.orphan then decide (s.parkSel = 1)
  else decide (s.mode = .parked) || decide (s.mode = .survey) || s.chanOut c || s.chanReacted c

/-- Converter calibration runs in every paddock, with every output switch open (R256). -/
def State.calibrating (s : State) : Bool := (s.survey.map fun v => v.conv && !v.waits && decide (v.phase < 6)).getD false

/-- The output is disabled by R75: its paddock is in reset, being reloaded or off, a drive supply is low, the converters are calibrated
(R256), or the paddock is orphaned with PARK_SEL RELEASE (R487). -/
def State.disabled (s : State) (c : Nat) : Bool :=
  let k := s.pdk (pdkOf c)
  decide (k.mode ≠ .run) || s.calibrating || k.vdrLow || k.railLow || (s.orphan && decide (s.parkSel = 3)) ||
  decide (s.mode = .off ∨ s.mode = .reset)

/-- DRV_CH_CTRL.STATE by the first matching row of R70. -/
def State.outState (s : State) (c : Nat) : Nat :=
  if s.spanOf c = 7 then 0
  else if (s.chan c).phase ≠ .idle then 2
  else if !s.oeOf c || s.disabled c then 1
  else if s.forced (flockOf c) then 3
  else if (s.chan c).sweep ≠ none then 5
  else if s.parkBit c || s.modeParks c then 4
  else 5

/-- The pad is driven (R71). -/
def State.driven (s : State) (c : Nat) : Bool :=
  decide (3 ≤ s.outState c) || (decide ((s.chan c).phase = .closed) && s.oeOf c && !s.disabled c)

/-! ### Loading codes -/

/-- Stores the code last loaded into the DAC. -/
def State.setDac (s : State) (c code : Nat) : State := s.dPut (DRV_CH_STAT c) fDRV_CH_STAT_DAC_CODE code

/-- Paddock p naps and its clock does not run (R75, R87). -/
def State.asleep (s : State) (p : Nat) : Bool := (s.pdk p).nap && decide (p ∉ s.waking)

/-- A free element in a flock whose source is COMMIT, which holds its park code (R81). -/
def State.heldFree (s : State) (c : Nat) : Bool :=
  decide (s.flockSrc (flockOf c) = 1 ∧ s.domOf c = some 255 ∧ (s.chan c).sweep = none)

/-- A channel that is forced to clear takes its clear code, and a parked one or a free element of a COMMIT flock its park code, whatever strobe reaches
it (R81, R85); a napped paddock's DAC holds its last code (R75). -/
def State.takeForced (s : State) (c : Nat) : State :=
  if s.asleep (pdkOf c) then s
  else match s.outState c with
    | 3 => s.setDac c (s.clearCode (flockOf c) (s.spanOf c))
    | 4 => s.setDac c (s.parkCode c)
    | 5 => if s.heldFree c then s.setDac c (s.parkCode c) else s
    | _ => s

/-- The channels that may be driven: those of the map; while the paddocks are orphaned, every channel whose OE is set (R487). -/
def State.outs (s : State) : List Nat := if s.orphan then (List.range s.part.chans).filter fun c => s.oeOf c else s.mapped

/-- Every channel that may be driven takes its clear or park code where its state asks for it. -/
def State.settleAll (s : State) : State := s.outs.foldl State.takeForced s

/-- Popcount of a 6-bit number. -/
def popcount6 (n : Nat) : Nat := ((List.range 6).filter fun i => bitAt n i).length

/-- The Walsh chip W_i(t) (R108). -/
def walsh (i t : Nat) : Int := if popcount6 (Nat.land i t) % 2 = 0 then 1 else -1

/-- The loop rate divider D = DIV + 1 (R136). -/
def State.divOf (s : State) (c : Nat) : Nat := s.sGet (LOOP_CTRL c) fLOOP_CTRL_DIV + 1

/-- The effective code e = (CODE x D) mod 64 (R109). -/
def State.effCode (s : State) (c : Nat) : Nat := s.dGet (SNS_DITHER c) fSNS_DITHER_CODE * s.divOf c % 64

/-- Dither is configured (R114). -/
def State.ditherCfg (s : State) (c : Nat) : Bool :=
  decide (s.dGet (SNS_DITHER c) fSNS_DITHER_CODE ≠ 0 ∧ s.dGet (SNS_DITHER c) fSNS_DITHER_AMP ≠ 0 ∧
    (s.divOf c = 1 ∨ s.divOf c = 2 ∨ s.divOf c = 4 ∨ s.divOf c = 8 ∨ s.divOf c = 16) ∧ s.effCode c ≠ 0)

/-- The channel is dithered in the present tick (R109); a survey's codes carry no dither (R268). -/
def State.dithered (s : State) (c : Nat) : Bool :=
  s.ditherCfg c && decide ((s.chan c).sweep = none) && decide (s.outState c = 5) && decide (s.flockSrc (flockOf c) = 0)

/-- Something in tick t excludes a result of the window that holds it (R113). -/
def Demod.spoil (d : Demod) (t : Nat) : Demod :=
  if d.spoilt = some t then d else { d with spoilt := some t, before := d.spoilt }

/-- Some tick from `a` to before `t` was excluded, where nothing later than tick `t` was. -/
def Demod.spoiled (d : Demod) (a t : Nat) : Bool :=
  let hit := fun (o : Option Nat) => match o with
    | some x => decide (a ≤ x ∧ x < t)
    | none => false
  hit d.spoilt || hit d.before

/-- Something in tick t excludes a result of its window for this element, in both shepherds (R113). -/
def State.spoilTick (s : State) (c t : Nat) : State :=
  let f := fun (h : ShepSt) => { h with demod := Tab.set h.demod {} c ((Tab.get h.demod {} c).spoil t) }
  (s.modSh .A f).modSh .B f

/-- Something in the present tick excludes a result of its window for this element (R113). -/
def State.spoil (s : State) (c : Nat) : State := s.spoilTick c s.tick

/-- The effective code of the element in the tick that begins follows that of the tick that ended, and a result that no evaluation of that tick received is
gone (R111, R128). -/
def State.turnCode (s : State) (c : Nat) : State :=
  let e := s.effCode c
  let f := fun (h : ShepSt) =>
    let d := Tab.get h.demod {} c
    { h with demod := Tab.set h.demod {} c { d with code := d.next, next := e, g := none } }
  (s.modSh .A f).modSh .B f

/-- Loads a loop code or a staged code with dither added and clipped (R110). -/
def State.loadCode (s : State) (c code : Nat) : State :=
  if s.dithered c then
    let v : Int := (code : Int) + walsh (s.effCode c) (s.tick % 64) * (s.dGet (SNS_DITHER c) fSNS_DITHER_AMP : Int)
    let s := s.setDac c (clampI 0 65535 v).toNat
    if v < 0 ∨ 65535 < v then (s.dFlag (SNS_DITHER c) fSNS_DITHER_CLIP).spoil c else s
  else s.setDac c code

/-- Paddock p holds the complete staging seq of domain d (R213). -/
def Pdk.whole (k : Pdk) (d seq : Nat) : Bool := k.staging.any fun r => decide (r.dom = d ∧ r.seq = seq ∧ r.got = r.need)

/-- A commit strobes channel c with a staged code at the present edge, or did so (R85): its code stands before a loop code. -/
def State.commitNow (s : State) (c : Nat) : Bool :=
  let k := s.pdk (pdkOf c)
  decide ((s.chan c).took = s.edge + 1) ||
  k.commits.any fun q => decide (q.fire = s.edge % 2 ^ 32) && k.whole q.dom q.seq &&
    decide ((Tab.get k.shadow none c).map (fun v => v.dom) = some q.dom) && decide (s.domOf c = some q.dom)

/-- A 48-bit tick number is at or past a tick (R288). -/
def tickPast (n t : Nat) : Bool := decide ((n + 2 ^ 48 - t % 2 ^ 48) % 2 ^ 48 < 2 ^ 47)

/-- Loads the loop code of a kept frame on a channel when its state takes it, no commit strobes it at the same edge and it was computed late enough (R23, R72,
R78, R85, R88); a napped paddock's strobes load nothing (R75). -/
def State.strobeLoop (s : State) (fr : LoopFrame) (e : Nat × Nat) : State :=
  if (s.pdk (pdkOf e.1)).nap || s.commitNow e.1 then s
  else match s.outState e.1 with
    | 3 => s.takeForced e.1
    | 4 => s.takeForced e.1
    | 5 => if tickPast fr.tick (s.chan e.1).acceptFrom then s.loadCode e.1 e.2 else s
    | _ => s

/-- A strobe of flock f loads the codes of the most recent complete loop output frame (R83). -/
def State.strobeFlock (s : State) (f : Nat) : State :=
  match (s.pdk (f / 4)).frame with
  | none => s
  | some fr => (fr.codes.filter fun e => decide (flockOf e.1 = f)).foldl (fun s e => s.strobeLoop fr e) s

/-- The codes of paddock p's latest frame load into the flocks whose source is TICK (R81), and a survey's codes whatever the source (R268). -/
def State.strobePdk (s : State) (p : Nat) : State :=
  match (s.pdk p).frame with
  | none => s
  | some fr => (fr.codes.filter fun e => decide (s.flockSrc (flockOf e.1) = 0 ∨ (s.chan e.1).sweep ≠ none)).foldl (fun s e => s.strobeLoop fr e) s

/-- The crossing group of paddock p is fenced (R468). -/
def State.fenced (s : State) (p : Nat) : Bool := bitAt (s.rd 0 CLK_XING_FENCE).toNat p

/-- A strobe that a fence holds back joins the 4-bit pending counter of its crossing, or is lost (R461). -/
def State.xingPend (s : State) (p e : Nat) : State :=
  let l := Tab.get s.xing [] p
  if 15 ≤ l.length then s.wr 0 CLK_XING_OVF (BitVec.ofNat 32 (setBitAt (s.rd 0 CLK_XING_OVF).toNat (p % 16) true))
  else { s with xing := Tab.set s.xing [] p (l ++ [e]) }

/-- The tick strobe: every flock whose source is TICK loads the codes computed in the tick that ended (R22, R81). -/
def State.tickStrobe (s : State) : State :=
  (List.range s.part.paddocks).foldl (fun s p =>
    if s.fenced p then s.xingPend p 256
    else match (s.pdk p).frame with
    | none => s
    | some fr => if (fr.tick + 1) % 2 ^ 48 = s.tick % 2 ^ 48 then s.strobePdk p else s) s

/-! ### Enabling (R72) and writes to DRV_CH_CTRL (R69) -/

/-- The first tick that begins at or after the present edge. -/
def State.nextTick (s : State) : Nat := if s.edge % 400 = 0 then s.tick else s.tick + 1

/-- An output becomes enabled: the park code, or the clear code of a forced flock, loads; loop codes of ticks that began before are not
taken (R72). A napped paddock's DAC takes its code when it wakes (R75). -/
def State.enable (s : State) (c : Nat) : State :=
  let s := s.modChan c fun h => { h with acceptFrom := s.nextTick }
  if s.asleep (pdkOf c) then s
  else if s.forced (flockOf c) then s.setDac c (s.clearCode (flockOf c) (s.spanOf c)) else s.setDac c (s.parkCode c)

/-- SPAN is not NONE, OE is 1 and nothing disables the output. -/
def State.on (s : State) (c : Nat) : Bool := decide (s.spanOf c ≠ 7) && s.oeOf c && !s.disabled c

/-- Every channel of paddock p whose SPAN and OE hold is enabled: at the end of a condition of R75 (R72). -/
def State.enablePdk (s : State) (p : Nat) : State :=
  (s.outs.filter fun c => decide (pdkOf c = p)).foldl (fun s c =>
    if s.on c && decide ((s.chan c).phase = .idle) then s.enable c else s) s

/-- Span divergence (R61): the span in force differs from the element record. -/
def State.checkDiverge (s : State) (c : Nat) : State :=
  match s.elem? c with
  | some e => if s.spanOf c = e.span ∨ s.spanOf c = 7 then s
    else (s.sFlag DRO_MAP_STATUS fDRO_MAP_STATUS_SPAN_DIVERGED).notice DRO_MAP_STATUS 16 c []
  | none => s

/-- Stores PARK_CODE, PARK, OE and SPAN of a written word. -/
def State.storeCtrl (s : State) (c : Nat) (v : Word) (oe : Nat) : State :=
  let s := s.dPut (DRV_CH_CTRL c) fDRV_CH_CTRL_PARK_CODE (fDRV_CH_CTRL_PARK_CODE.get v)
  let s := s.dPut (DRV_CH_CTRL c) fDRV_CH_CTRL_PARK (fDRV_CH_CTRL_PARK.get v)
  let s := s.dPut (DRV_CH_CTRL c) fDRV_CH_CTRL_OE oe
  s.dPut (DRV_CH_CTRL c) fDRV_CH_CTRL_SPAN (fDRV_CH_CTRL_SPAN.get v)

/-- A DRV_STATUS flag with the NOTICE that names the channel. -/
def State.drvNote (s : State) (f : Fld) (c : Nat) : State := (s.dFlag DRV_STATUS f).notice DRV_STATUS f.lo c []

/-- Outside the current spans COMPLIANCE and VLOAD read 0 (R67, R70). -/
def State.leaveCurrent (s : State) (c span : Nat) : State :=
  if current span then s
  else (s.dPut (DRV_CH_CTRL c) fDRV_CH_CTRL_COMPLIANCE 0).dPut (DRV_CH_STAT c) fDRV_CH_STAT_VLOAD 0

/-- A mapped channel of a running paddock follows the word just stored (R69): it is configured, changes its span, is enabled or follows its force. `was` and `wasOn` are
its span and enable before. -/
def State.follow (s : State) (c span was : Nat) (wasOn : Bool) : State :=
  if (s.pdk (pdkOf c)).mode ≠ .run ∨ span = 7 then s
  else if was = 7 then
    (s.modChan c fun h => { h with phase := .config, start := s.tick }).checkDiverge c
  else if span ≠ was then
    (s.modChan c fun h => { h with phase := .hold, start := s.tick }).checkDiverge c
  else if s.on c && !wasOn then s.enable c
  else s.takeForced c

/-- A write to DRV_CH_CTRL(c) taking effect at the present boundary, by the first matching row of R69. While the paddock is in
reset or being reloaded the word is held in the copy and acts through the reload (R486). -/
def State.writeDrvCtrl (s : State) (c : Nat) (v : Word) : State :=
  let span := fDRV_CH_CTRL_SPAN.get v
  let oe := fDRV_CH_CTRL_OE.get v
  if (s.chan c).phase ≠ .idle then s.drvNote fDRV_STATUS_BUSY_WR c
  else if span = 6 ∨ (current span = true ∧ dualMode c = false) then s.drvNote fDRV_STATUS_BAD_SPAN c
  else if s.elem? c = none then
    ((if oe = 1 then s.drvNote fDRV_STATUS_UNMAPPED_WR c else s).storeCtrl c v 0).leaveCurrent c span
  else ((s.storeCtrl c v oe).leaveCurrent c span).follow c span (s.spanOf c) (s.on c)

/-! ### The span-change sequence (R76 to R80) -/

/-- 0.1 us into a span change the output switch opens. -/
def doSpanOpen (c : Nat) (s : State) : State :=
  if (s.chan c).phase = .hold then s.modChan c fun h => { h with phase := .opened } else s

/-- At 2.6 us the switch closes onto the new park code, or the clear code of a forced flock (R80); with OE = 0 it stays open and STATE
leaves SPAN_CHANGE (R76). -/
def doSpanClose (c : Nat) (s : State) : State :=
  if (s.chan c).phase = .opened then
    if s.oeOf c && !s.disabled c then
      (s.setDac c (if s.forced (flockOf c) then s.clearCode (flockOf c) (s.spanOf c) else s.parkCode c)).modChan c
        fun h => { h with phase := .closed }
    else (s.setDac c (s.parkCode c)).modChan c fun h => { h with phase := .idle, acceptFrom := h.start + 3 }
  else s

/-- The pad has settled and STATE leaves SPAN_CHANGE; loop codes are taken from ticks that begin at or after the end (R78). The end
lies at most 4.0 us after the effective boundary: the tick that begins then, or the present one when it comes later. -/
def doSpanEnd (c : Nat) (s : State) : State :=
  if (s.chan c).phase = .closed then
    (s.modChan c fun h => { h with phase := .idle, acceptFrom := s.nextTick }).takeForced c
  else s

/-- Configuration of a span from NONE ends and the output is enabled when OE = 1 (R69, R72). -/
def doSpanConfigEnd (c : Nat) (s : State) : State :=
  if (s.chan c).phase = .config then
    let s := s.modChan c fun h => { h with phase := .idle }
    if s.on c then s.enable c else s
  else s

/-! ### Clear -/

/-- The channels in flock f that may be driven. -/
def State.flockChans (s : State) (f : Nat) : List Nat := s.outs.filter fun c => decide (flockOf c = f)

/-- A recognised high level of CLEAR_N: the release comes at the next tick boundary (R88). -/
def doClearHigh (s : State) : State := { s with clearLow := false }

/-- Flocks that are no longer forced resume loading: codes computed in a tick that began at or after the release (R88). -/
def State.resume (s : State) (fs : List Nat) : State :=
  fs.foldl (fun s f => if s.forced f then s else
    ((s.flockChans f).foldl (fun s c => (s.modChan c fun h => { h with acceptFrom := max h.acceptFrom s.tick }).takeForced c) s)) s

/-- FLOCK_RELEASE: at a tick boundary the flocks that CLEAR_N no longer selects are released (R88). -/
def doFlockRelease (s : State) : State :=
  if s.clearHold && !s.clearLow && decide (s.edge % 400 = 0) then
    let fs := (List.range s.part.flocks).filter fun f => s.clrMask f
    { s with clearHold := false }.resume fs
  else s

/-- A recognised edge of FLOCK_STB[pin] (R83): the flocks that select the pin and this edge load. -/
def doFlockEdge (pin : Nat) (falling : Bool) (s : State) : State :=
  ((List.range s.part.flocks).filter fun f =>
      decide (s.flockSrc f = 2 + pin ∧ s.dGet (DRV_FLOCK_CFG f) fDRV_FLOCK_CFG_EDGE = bitN falling)).foldl State.strobeFlock s

/-- A software strobe word (R84): each flock written as 1 loads when its source is SOFTWARE. -/
def State.softStrobe (s : State) (word : Nat) (v : Word) : State :=
  (bitsOf 32 v.toNat).foldl (fun s i =>
    let f := 32 * word + i
    if s.part.flocks ≤ f then s
    else if s.flockSrc f = 6 then s.strobeFlock f
    else s.dFlag DRV_STATUS fDRV_STATUS_SW_STB_IGNORED) s

/-! ### Supplies and compliance (R75, R90, R91, R93) -/

/-- A powered paddock that is not napped raises reports (R529). -/
def State.pdkReports (s : State) (p : Nat) : Bool := decide ((s.pdk p).mode = .run) && !(s.pdk p).nap

/-- VDRP or VDRN leaves its range (R75): the switches open, VDR_LOW sets and VDR_LOW is reported on the paddock. -/
def doVdrLow (p : Nat) (s : State) : State :=
  if s.part.paddocks ≤ p then s
  else
    let s := (s.modPdk p fun k => { k with vdrLow := true }).dFlag (DRV_PDK_STATUS p) fDRV_PDK_STATUS_VDR_LOW
    if s.pdkReports p then s.report ⟨0x06, .paddock, p, 1, none, 0⟩ else s

/-- VHTR below 3.1 V or above 5.25 V (R91): the sticky flag and a VHTR_FAULT report. -/
def doVhtr (p : Nat) (high : Bool) (s : State) : State :=
  if s.part.paddocks ≤ p then s
  else
    let s := s.dFlag (DRV_PDK_STATUS p) (if high then fDRV_PDK_STATUS_VHTR_HIGH else fDRV_PDK_STATUS_VHTR_LOW)
    let s := s.modPdk p fun k => { k with vhtrOut := true }
    if s.pdkReports p then s.report ⟨0x05, .paddock, p, 0, none, 0⟩ else s

/-- VPARK outside -2.6 V to +2.6 V (R93). -/
def doVpark (p : Nat) (s : State) : State :=
  if s.part.paddocks ≤ p then s else s.dFlag (DRV_PDK_STATUS p) fDRV_PDK_STATUS_VPARK_RANGE

/-- A current shortfall for 4 consecutive ticks (R90). -/
def doComplianceSet (c : Nat) (s : State) : State :=
  if current (s.spanOf c) && decide (c < s.part.chans) then
    (s.dFlag (DRV_CH_CTRL c) fDRV_CH_CTRL_COMPLIANCE).dFlag (DRV_PDK_STATUS (pdkOf c)) fDRV_PDK_STATUS_COMPLIANCE_ANY
  else s

/-- 4 consecutive ticks within the limit (R90). -/
def doComplianceClear (c : Nat) (s : State) : State :=
  if c < s.part.chans then s.dPut (DRV_CH_CTRL c) fDRV_CH_CTRL_COMPLIANCE 0 else s

/-! ### Writes to the other DRV registers -/

/-- A write to DRV_FLOCK_CFG(f): a reserved SRC keeps the field and sets BAD_SRC (R81). -/
def State.writeFlockCfg (s : State) (f : Nat) (v : Word) : State :=
  let s := s.dPut (DRV_FLOCK_CFG f) fDRV_FLOCK_CFG_EDGE (fDRV_FLOCK_CFG_EDGE.get v)
  if fDRV_FLOCK_CFG_SRC.get v = 7 then s.dFlag DRV_STATUS fDRV_STATUS_BAD_SRC
  else
    let s := s.dPut (DRV_FLOCK_CFG f) fDRV_FLOCK_CFG_SRC (fDRV_FLOCK_CFG_SRC.get v)
    if fDRV_FLOCK_CFG_SRC.get v = 1 then
      (s.flockChans f).foldl State.takeForced s
    else s

end Sys2Proof.Machine
end

