-- ==== Sys2Proof/Machine/Sense.lean ====
section
/-! DEFINITION. Sense inputs and dither demodulation (R97 to R120). -/

namespace Sys2Proof.Machine

def VOID : Nat := 0xFFFE
def OVER : Nat := 0xFFFF

def State.rangeOf (s : State) (m : Nat) : Nat := s.dGet (SNS_CH_CTRL m) fSNS_CH_CTRL_RANGE
def State.darkOf (s : State) (m : Nat) : Nat := s.dGet (SNS_CH_CTRL m) fSNS_CH_CTRL_DARK_OFFSET

/-- Feedback resistance in ohms, and the current of a count in fA at a REFV of 4.096 V (R98). -/
def feedback (range : Nat) : Nat := 10000 * 10 ^ range
def countFemto (range : Nat) : Nat := 6250000 / 10 ^ range

/-- The photocurrent that a count of sense channel m stands for, in fA: proportional to the reference in use (R65, R98). -/
def State.photoFemto (s : State) (m count : Nat) : Nat := count * countFemto (s.rangeOf m) * s.refInUse (m / 1024) / 40960

/-- The bias voltage of a sense channel in units of 0.1 mV (R97). -/
def State.biasOf (s : State) (m : Nat) : Nat := 125 * s.dGet (SNS_CH_CTRL m) fSNS_CH_CTRL_BIAS

/-- Window length W of a monitor: 16, 32 or 64 ticks (R111). -/
def State.winLen (s : State) (m : Nat) : Nat := 16 * 2 ^ s.dGet (SNS_CH_CTRL m) fSNS_CH_CTRL_WINDOW

/-- VOID ticks after a change of range (R102). -/
def rangeVoid (range : Nat) : Nat := match range with
  | 2 => 4
  | 3 => 16
  | _ => 2

/-- Length of an open-input measurement (R103): the VOID period and 64 ticks. -/
def measLen (range : Nat) : Nat := rangeVoid range + 64

/-- The channel is VOID in tick t (R102 to R104, R107). -/
def State.isVoid (s : State) (m t : Nat) : Bool :=
  decide (t < (s.sense m).voidUntil) || decide ((s.sense m).meas ≠ none) ||
  decide ((s.pdk (m / 1024)).mode ≠ .run) || (s.pdk (m / 1024)).nap

/-- The count of a raw result (R100): `sat` is the saturation detector. -/
def formCount (void : Bool) (raw : Nat) (sat : Bool) (dark : Nat) : Nat :=
  if void then VOID
  else if raw = 65535 ∨ sat = true then OVER
  else min 65533 (raw - dark)

/-- The count that sense channel m forms for tick t. -/
def State.countOf (s : State) (m t : Nat) : Nat :=
  let r := Tab.get s.raws (0, false) m
  formCount (s.isVoid m t) r.1 r.2 (s.darkOf m)

/-- The sense channels that a raw result has named or for which the paddock holds something. Every other one delivers the raw result 0 in each tick. -/
def State.sampled (s : State) : List Nat :=
  let ms := s.senses.map fun e => e.1
  ms ++ (s.raws.map fun e => e.1).filter fun m => decide (m ∉ ms)

/-- Paddock p sends no sense frames (R107). -/
def State.silent (s : State) (p : Nat) : Bool := decide ((s.pdk p).mode ≠ .run) || (s.pdk p).nap

/-- The sense frame of tick t of a paddock: every channel is sampled, mapped or not (R99, R100, R105). -/
def State.frameOf (s : State) (p t : Nat) : SenseFrame :=
  { tick := t % 2 ^ 48, base := 0
    counts := (s.sampled.filter fun m => decide (m / 1024 = p)).foldl (fun c m => Tab.set c 0 (m % 1024) (s.countOf m t)) [] }

/-- The count of sense channel m in the frame that its paddock sent last; VOID where it sent none. -/
def State.sentCount (s : State) (m : Nat) : Nat :=
  match Tab.get s.pdkCounts none (m / 1024) with
  | some f => f.count (m % 1024)
  | none => VOID

/-- The count of sense channel m that a shepherd took for the tick under work (R105, R106). -/
def ShepSt.count (h : ShepSt) (m : Nat) : Nat := (Tab.get h.counts {} (m / 1024)).count (m % 1024)

/-- OVER_RUN counts a tick's count of a channel (R101). -/
def State.countOver (s : State) (m c : Nat) : State :=
  let run := s.dGet (SNS_CH_STAT m) fSNS_CH_STAT_OVER_RUN
  let s := s.dPut (SNS_CH_STAT m) fSNS_CH_STAT_OVER_RUN (if c = OVER then min 255 (run + 1) else 0)
  if c = OVER then s else s.modSense m fun h => { h with reported := false }

/-- At the boundary that ends tick t every paddock forms its sense frame of tick t and sends it on both links (R105); the counts of a paddock that sends none are
VOID in both shepherds (R107). OVER_RUN counts (R101). -/
def State.formFrames (s : State) (t : Nat) : State :=
  let s := s.sampled.foldl (fun s m => s.countOver m (s.countOf m t)) s
  (List.range s.part.paddocks).foldl (fun s p =>
    if s.silent p then
      both (fun x s => s.modSh x fun h => { h with counts := Tab.set h.counts {} p {} }) { s with pdkCounts := Tab.set s.pdkCounts none p none }
    else { s with pdkCounts := Tab.set s.pdkCounts none p (some (s.frameOf p t)) }) s

/-- OVER_RUN has reached 16: OVER_ANY and a SENSE_OVER alarm, once per run (R101). -/
def doSenseOver (m : Nat) (s : State) : State :=
  if 16 ≤ s.dGet (SNS_CH_STAT m) fSNS_CH_STAT_OVER_RUN ∧ (s.sense m).reported = false then
    ((s.modSense m fun h => { h with reported := true }).dFlag SNS_STATUS fSNS_STATUS_OVER_ANY).alarm 0x01 .monitor m
  else s

/-! ### Demodulation -/

/-- The monitor that an element's primary loop demodulates from: MON_A (R112; LOOP_MON, R124). -/
def State.demodMon (s : State) (c : Nat) : Nat := s.sGet (LOOP_MON c) fLOOP_MON_MON_A

def ShepSt.dm (h : ShepSt) (c : Nat) : Demod := Tab.get h.demod {} c

def State.modDemod (s : State) (x : Shep) (c : Nat) (f : Demod → Demod) : State :=
  s.modSh x fun h => { h with demod := Tab.set h.demod {} c (f (h.dm c)) }

/-- Adds the sample of tick t, the one that has ended, from monitor m to the demodulation of every element that reads m (R111); a window
with a marker lacks a count (R113). -/
def State.accumulate (s : State) (x : Shep) (m t : Nat) : State :=
  let v := (s.sh x).count m
  (s.infl m).foldl (fun s c =>
    if s.demodMon c = m then
      s.modDemod x c fun d =>
        if v = VOID ∨ v = OVER then d
        else { d with sum := d.sum + walsh d.code (t % 64) * (v : Int), n := d.n + 1 }
    else s) s

/-- A shepherd takes a frame as the counts of paddock p in the tick that ended, and demodulates its monitors. -/
def State.takeFrame (s : State) (x : Shep) (p : Nat) (f : SenseFrame) : State :=
  let s := s.modSh x fun h => { h with counts := Tab.set h.counts {} p f }
  ((s.mons.map fun r => r.sense).filter fun m => decide (m / 1024 = p)).foldl (fun s m => s.accumulate x m (s.tick - 1)) s

/-- The sense frame of the tick that ended as shepherd x reads it on its link to paddock p; none where none came, or it is damaged (R105, R106). -/
def State.senseHeard (s : State) (x : Shep) (p : Nat) (noise : Noise) : Option SenseFrame :=
  if (s.sh x).role = .off ∨ s.part.paddocks ≤ p then none
  else ((Tab.get s.pdkCounts none p).bind fun f => f.heard p (s.pdk p).epoch noise).filter fun f => decide ((f.tick + 1) % 2 ^ 48 = s.tick % 2 ^ 48)

/-- A shepherd takes the counts of the tick that ended from the sense frame of paddock p (R105). -/
def takeCounts (x : Shep) (p : Nat) (f : SenseFrame) (s : State) : State := { s with recv := Tab.set s.recv {} p f }.takeFrame x p f

/-- No valid sense frame by the deadline (R106): the shepherd takes the paddock's counts as VOID; MISSED counts and that shepherd raises a NOTICE,
unless the paddock sends none (R107). -/
def voidCounts (x : Shep) (p : Nat) (s : State) : State :=
  if (s.sh x).role = .off ∨ s.part.paddocks ≤ p then s
  else
    let s := s.takeFrame x p {}
    if s.silent p then s
    else (s.pCount x (SNS_LINK_ERR p) fSNS_LINK_ERR_MISSED 1).noticeLocal x (SNS_LINK_ERR p) 0 p

/-- The elements in collision on monitor m (R115): dithered elements that share a class, or whose class is 0. -/
def State.colliding (s : State) (m : Nat) : List Nat :=
  let w := s.winLen m
  let ds := (s.infl m).filter s.ditherCfg
  ds.filter fun c => decide (s.effCode c % w = 0) || ds.any fun e => decide (e ≠ c ∧ s.effCode e % w = s.effCode c % w)

/-- The element is in collision on the monitor it demodulates from (R115, R120). -/
def State.inCollision (s : State) (c : Nat) : Bool := decide (c ∈ (s.sense (s.demodMon c)).col)

/-- A mapped channel that is not dithered at the end of tick t was not dithered in all of it (R113). -/
def State.ditherEnd (s : State) (t : Nat) : State :=
  s.mapped.foldl (fun s c => if s.dithered c then s else s.spoilTick c t) s

/-- SNS_DITHER.INACTIVE of every mapped channel for the tick that begins, and windows without a result where an element is not dithered or is in
collision (R109, R113, R115). -/
def State.ditherFlags (s : State) : State :=
  s.mapped.foldl (fun s c =>
    let s := s.turnCode c
    if s.dithered c then
      let s := s.dPut (SNS_DITHER c) fSNS_DITHER_INACTIVE 0
      if s.inCollision c then s.spoil c else s
    else (s.dPut (SNS_DITHER c) fSNS_DITHER_INACTIVE 1).spoil c) s

/-- The window length of monitor m in the tick that ended (R111): a WINDOW change that took effect at the present boundary did not touch that tick. -/
def State.winEnded (s : State) (m : Nat) : Nat :=
  match (s.sense m).winWas with
  | some (t, w) => if t = s.tick then w else s.winLen m
  | none => s.winLen m

/-- A window of monitor m ends (R111, R113): each element that reads it gets its gradient, or no result. -/
def doWindowResult (x : Shep) (m : Nat) (s : State) : State :=
  if s.tick = 0 ∨ s.tick % s.winEnded m ≠ 0 then s
  else
    let w := s.winEnded m
    (s.infl m).foldl (fun s c =>
      if s.demodMon c = m then
        let d := (s.sh x).dm c
        let bad := decide (d.n ≠ w) || d.spoiled (s.tick - w) s.tick
        let s := s.modDemod x c fun d => { d with sum := 0, n := 0, g := if bad then none else some (d.sum * (64 / w : Nat)), noRes := bad }
        s.dPut (SNS_DITHER c) fSNS_DITHER_VOID_LAST (bitN bad)
      else s) s

/-- Evaluates collisions on every monitor (R116): a new one sets the COLLIDE bits, which are formed from `col` when they are read, and COLLIDE_ANY, and raises one
NOTICE that names the monitor and its colliding elements (R115). -/
def State.evalCollisions (s : State) : State :=
  { s.mons.foldl (fun s r =>
      let col := s.colliding r.sense
      let was := (s.sense r.sense).col
      let fresh := col.filter fun c => decide (c ∉ was)
      if fresh = [] then s
      else
        let s := s.modSense r.sense fun h => { h with col := was ++ fresh }
        let s := fresh.foldl (fun s c => if s.demodMon c = r.sense then s.spoil c else s) s
        (s.dFlag SNS_STATUS fSNS_STATUS_COLLIDE_ANY).notice SNS_STATUS 4 r.sense col) s with
    colDue := false }

/-- A collision that no longer holds ends at a window boundary of its monitor (R116), or with the monitor. -/
def State.endCollisions (s : State) : State :=
  (s.senses.filter fun e => decide (e.2.col ≠ [])).foldl (fun s e =>
    if (s.mons.any fun r => decide (r.sense = e.1)) = false then s.modSense e.1 fun h => { h with col := [] }
    else if s.tick % s.winLen e.1 = 0 then
      s.modSense e.1 fun h => { h with col := h.col.filter fun c => decide (c ∈ s.colliding e.1) }
    else s) s

/-- At a tick boundary collisions end, and are evaluated once where something of R116 changed at it. -/
def State.collisionBoundary (s : State) : State :=
  let s := s.endCollisions
  if s.colDue then s.evalCollisions else s

/-! ### Walsh code assignment (R117) -/

/-- The effective code that a CODE would have on channel c. -/
def State.effWith (s : State) (c code : Nat) : Nat := code * s.divOf c % 64

/-- Code k is usable on channel c: its class is non-zero and unique on every monitor that lists c, against the elements whose code gives a
non-zero effective code (R117). -/
def State.codeFree (s : State) (c k : Nat) : Bool :=
  (s.mons.filter fun r => decide (c ∈ r.infl)).all fun r =>
    let w := s.winLen r.sense
    decide (s.effWith c k % w ≠ 0) &&
    (r.infl.filter fun e => decide (e ≠ c ∧ s.effCode e ≠ 0)).all fun e => decide (s.effCode e % w ≠ s.effWith c k % w)

/-- Assigns CODE to the element records (R117): WALSH 0 to 63 first, then WALSH 0xFF in increasing channel order. The old CODE of an element still to be assigned
is not one in force (log entry 92). -/
def State.assignCodes (s : State) (es : List Elem) : State :=
  let s := es.foldl (fun s e => (s.dPut (SNS_DITHER e.ch) fSNS_DITHER_CODE (if e.walsh ≤ 63 then e.walsh else 0)).spoil e.ch) s
  let auto := sortN ((es.filter fun e => decide (e.walsh = 255)).map fun e => e.ch)
  auto.foldl (fun s c =>
    match ((List.range 63).map (· + 1)).find? (s.codeFree c) with
    | some k => s.dPut (SNS_DITHER c) fSNS_DITHER_CODE k
    | none => (s.dFlag SNS_STATUS fSNS_STATUS_NO_CODE).notice SNS_STATUS 5 c []) s

/-! ### Writes (R102 to R104, R120) -/

/-- An open-input measurement starts at the present boundary on the range in force (R103). -/
def State.startMeasure (s : State) (m : Nat) : State :=
  s.modSense m fun h => { h with meas := some (s.tick + measLen (s.rangeOf m)) }

/-- Every element that demodulates from m has no result for the window under way (R113). -/
def State.spoilMon (s : State) (m : Nat) : State :=
  (s.infl m).foldl (fun s c => if s.demodMon c = m then s.spoil c else s) s

/-- The four fields of a taken word of SNS_CH_CTRL(m) are stored (R102). -/
def State.storeSns (s : State) (m : Nat) (v : Word) : State :=
  let s := s.dPut (SNS_CH_CTRL m) fSNS_CH_CTRL_RANGE (fSNS_CH_CTRL_RANGE.get v)
  let s := s.dPut (SNS_CH_CTRL m) fSNS_CH_CTRL_BIAS (fSNS_CH_CTRL_BIAS.get v)
  let s := s.dPut (SNS_CH_CTRL m) fSNS_CH_CTRL_DARK_OFFSET (fSNS_CH_CTRL_DARK_OFFSET.get v)
  s.dPut (SNS_CH_CTRL m) fSNS_CH_CTRL_WINDOW (fSNS_CH_CTRL_WINDOW.get v)

/-- DARK_VALID after a write (R102): 0 after a change of RANGE or BIAS, else 1 after a change of DARK_OFFSET. -/
def State.newDark (s : State) (m : Nat) (input dark : Bool) : State :=
  if input then s.dPut (SNS_CH_CTRL m) fSNS_CH_CTRL_DARK_VALID 0
  else if dark then s.dPut (SNS_CH_CTRL m) fSNS_CH_CTRL_DARK_VALID 1 else s

/-- A change of any field voids the windows that channel m demodulates (R113), and one of WINDOW keeps the length `was` of the window that ended at this boundary
(R111) and has the collisions evaluated (R116). -/
def State.newSamples (s : State) (m : Nat) (any window : Bool) (was : Nat) : State :=
  let s := if any then s.spoilMon m else s
  if window then { s.modSense m fun h => { h with winWas := some (s.tick, was) } with colDue := true } else s

/-- On a running paddock a change of RANGE or BIAS starts a VOID period, which ends a running measurement (R102, R104), and MEASURE starts one where none runs
(R103). -/
def State.inputSettles (s : State) (m : Nat) (range bias measure : Bool) : State :=
  if (s.pdk (m / 1024)).mode ≠ .run then s
  else
    let running := (s.sense m).meas
    let void := max (if range then rangeVoid (s.rangeOf m) else 0) (if bias then 4 else 0)
    let s := if range || bias then
        s.modSense m fun h => { h with voidUntil := max h.voidUntil (s.tick + void), meas := none }
      else s
    if measure && (decide (running = none) || range || bias) then s.startMeasure m else s

/-- A write to SNS_CH_CTRL(m) taking effect at the present boundary (R102 to R104). In a paddock in reset or reload the word is held (R486), and no VOID period or
measurement begins. VOID periods of separate writes overlap, and the later end stands (log entry 91). -/
def State.writeSnsCtrl (s : State) (m : Nat) (v : Word) : State :=
  if 240 < fSNS_CH_CTRL_BIAS.get v ∨ fSNS_CH_CTRL_WINDOW.get v = 3 then
    let s := if 240 < fSNS_CH_CTRL_BIAS.get v then s.dFlag SNS_STATUS fSNS_STATUS_BAD_BIAS else s
    if fSNS_CH_CTRL_WINDOW.get v = 3 then s.dFlag SNS_STATUS fSNS_STATUS_BAD_WINDOW else s
  else
    let differs := fun (f : Fld) => decide (f.get (s.rd 0 (SNS_CH_CTRL m)) ≠ f.get v)
    let input := differs fSNS_CH_CTRL_RANGE || differs fSNS_CH_CTRL_BIAS
    let dark := differs fSNS_CH_CTRL_DARK_OFFSET
    let window := differs fSNS_CH_CTRL_WINDOW
    (((s.storeSns m v).newDark m input dark).newSamples m (input || dark || window) window (s.winEnded m)).inputSettles m
      (differs fSNS_CH_CTRL_RANGE) (differs fSNS_CH_CTRL_BIAS) (decide (fSNS_CH_CTRL_MEASURE.get v = 1))

/-- A write to SNS_DITHER(c): CODE and AMP are stored, CLIP clears where written as 1; a change spoils the window and is an evaluation
point of collisions (R113, R116). -/
def State.writeDither (s : State) (c : Nat) (v : Word) : State :=
  let off := SNS_DITHER c
  let old := s.rd 0 off
  let s := if fSNS_DITHER_CLIP.get v = 1 then s.dPut off fSNS_DITHER_CLIP 0 else s
  let s := s.dPut off fSNS_DITHER_CODE (fSNS_DITHER_CODE.get v)
  let s := s.dPut off fSNS_DITHER_AMP (fSNS_DITHER_AMP.get v)
  if fSNS_DITHER_CODE.get old ≠ fSNS_DITHER_CODE.get v ∨ fSNS_DITHER_AMP.get old ≠ fSNS_DITHER_AMP.get v
  then { s.spoil c with colDue := true } else s

/-- The VOID period of a channel ends (R102): valid counts resume. -/
def doVoidEnd (m : Nat) (s : State) : State :=
  if (s.sense m).voidUntil ≤ s.tick then s.modSense m fun h => { h with voidUntil := 0 } else s

/-- The open-input measurement of channel m ends with the sum of its 64 raw results: DARK_OFFSET takes the average, halves rounded up
(R103). -/
def doDarkDone (m sum : Nat) (s : State) : State :=
  match (s.sense m).meas with
  | some t =>
    if t ≤ s.tick ∧ (s.pdk (m / 1024)).mode = .run then
      let s := s.dPut (SNS_CH_CTRL m) fSNS_CH_CTRL_DARK_OFFSET ((sum + 32) / 64)
      let s := s.dPut (SNS_CH_CTRL m) fSNS_CH_CTRL_DARK_VALID 1
      (s.modSense m fun h => { h with meas := none }).spoilMon m
    else s
  | none => s

/-- SNS_STATUS.MEAS_BUSY: some measurement runs (R103). -/
def State.measBusy (s : State) : Bool := s.senses.any fun e => decide (e.2.meas ≠ none)

end Sys2Proof.Machine
end

