-- ==== Sys2Proof/Machine/Comp.lean ====
section
/-! DEFINITION. Feed-forward compensation (R156 to R186): hysteresis, ripple and crosstalk terms, the code, the crosstalk passes, the update
queue, the staging window and the background fit. Positions and terms are in units of 2^-6 code LSBs. -/

namespace Sys2Proof.Machine

/-- Saturation to the signed 24-bit demand range (R121). -/
def sat24 (i : Int) : Int := clampI (-8388608) 8388607 i
/-- Saturation to 32 bits (R132). -/
def sat32 (i : Int) : Int := clampI (-2147483648) 2147483647 i

/-- Point k of a table of 16-bit Q12.4 values, two to a word (R169). -/
def tabPoint (s : State) (x : Shep) (word : Nat → Nat) (k : Nat) : Int :=
  toSigned 16 ((s.rd x.bank (word (k / 2))).toNat / 2 ^ (16 * (k % 2)))

/-- H_R (falling false) or H_F (falling true) of channel c at point k (R159, R169). -/
def hysPoint (s : State) (x : Shep) (c : Nat) (falling : Bool) (k : Nat) : Int :=
  tabPoint s x (fun w => HYS_WORD c (w + if falling then 32 else 0)) k

/-- Point k of the ripple table (R161, R169). -/
def ripPoint (s : State) (x : Shep) (c k : Nat) : Int := tabPoint s x (fun w => RIP_WORD c w) k

/-- The hysteresis term at a position (R159). -/
def hysTerm (s : State) (x : Shep) (c : Nat) (falling : Bool) (pos : Nat) : Int :=
  let k := min (pos / 65536) 63
  let f := pos - 65536 * k
  let a := hysPoint s x c falling k
  if k < 63 then roundHalfUp (4 * (a * 65536 + (hysPoint s x c falling (k + 1) - a) * f)) 65536 else 4 * a

/-- The ripple term at a position (R161). -/
def ripTerm (s : State) (x : Shep) (c : Nat) (pos : Nat) : Int :=
  let cfg := s.rd x.bank (CMP_RIP_CFG c)
  let per := 64 * fCMP_RIP_CFG_PERIOD.get cfg
  if per = 0 then 0
  else
    let u := (((pos : Int) - 64 * fCMP_RIP_CFG_ORIGIN.get cfg) % per).toNat
    let k := 32 * u / per
    let a := ripPoint s x c k
    roundHalfUp (4 * (a * per + (ripPoint s x c ((k + 1) % 32) - a) * (32 * u - k * per : Nat))) per

/-- Direction and turning point after an evaluation at a position (R160): falling, tp. -/
def hysStep (falling : Bool) (tp : Option Nat) (db pos : Nat) : Bool × Nat :=
  match tp with
  | none => (false, pos)
  | some t =>
    if falling then (if t + db < pos then (false, pos) else (true, min t pos))
    else (if (pos : Int) < (t : Int) - db then (true, pos) else (false, max t pos))

/-- The rounded sum of R156 before the clamp. -/
def compSum (s : State) (x : Shep) (c : Nat) (falling : Bool) (pos : Nat) : Int :=
  let ctl := s.rd x.bank (CMP_CH_CTRL c)
  let h := if fCMP_CH_CTRL_HYS_EN.bit ctl then hysTerm s x c falling pos else 0
  let r := if fCMP_CH_CTRL_RIP_EN.bit ctl then ripTerm s x c pos else 0
  let t := if fCMP_CH_CTRL_XT_EN.bit ctl then toSigned 24 (s.pGet x (CMP_XT_TERM c) fCMP_XT_TERM_TERM) else 0
  roundHalfUp (pos + h + r + t) 64

/-- The code of R156. -/
def compCode (s : State) (x : Shep) (c : Nat) (falling : Bool) (pos : Nat) : Nat :=
  (clampI 0 65535 (compSum s x c falling pos)).toNat

/-- The direction that an evaluation of channel c at a position would take (R160). -/
def State.dirAt (s : State) (x : Shep) (c pos : Nat) : Bool × Nat :=
  hysStep (decide (s.pGet x (CMP_CH_STAT c) fCMP_CH_STAT_DIR = 1)) (Tab.get (s.sh x).dyn {} c).tp
    (64 * s.pGet x (CMP_CH_CTRL c) fCMP_CH_CTRL_HYS_DB) pos

def State.dynOf (s : State) (x : Shep) (c : Nat) : ChDyn := Tab.get (s.sh x).dyn {} c
def State.modDyn (s : State) (x : Shep) (c : Nat) (f : ChDyn → ChDyn) : State :=
  s.modSh x fun h => { h with dyn := Tab.set h.dyn {} c (f (Tab.get h.dyn {} c)) }

/-- Sets DIR and the turning point of a channel (R160, R176). -/
def State.setDir (s : State) (x : Shep) (c : Nat) (d : Bool × Nat) : State :=
  (s.pPut x (CMP_CH_STAT c) fCMP_CH_STAT_DIR (bitN d.1)).modDyn x c fun y => { y with tp := some d.2 }

/-- One evaluation of the compensation stage: DIR and tp follow the position, CODE_CLIP reports the clamp (R156 to R160). Answers the state, the code
and the sum before the clamp. -/
def compensate (s : State) (x : Shep) (c pos : Nat) : State × Nat × Int :=
  let d := s.dirAt x c pos
  let sum := compSum s x c d.1 pos
  let s := s.setDir x c d
  let s := s.pPut x (CMP_CH_STAT c) fCMP_CH_STAT_CODE_CLIP (bitN (decide (sum < 0 ∨ 65535 < sum)))
  (s, (clampI 0 65535 sum).toNat, sum)

/-! ### Power estimates (R163, R164) -/

/-- Full scale of a current span in nA. -/
def fsNano (span : Nat) : Nat := fullScale (if span = 4 then 4 else 5)

/-- The estimate of a channel for the tick that ends, unsigned Q16.6 in mW (R163): VLOAD times the delivered current, which is the
coded current unless a lower one was measured. -/
def State.powerOf (s : State) (c : Nat) : Nat :=
  if current (s.spanOf c) && s.driven c && dualMode c then
    let v := s.dGet (DRV_CH_STAT c) fDRV_CH_STAT_VLOAD
    let fs := fsNano (s.spanOf c)
    match s.amps.find? fun e => decide (e.1 = c) with
    | some e => (2 * v * e.2 * 64 + 10 ^ 10) / (2 * 10 ^ 10)
    | none => (2 * v * s.dacCode c * fs * 64 + 65536 * 10 ^ 10) / (2 * 65536 * 10 ^ 10)
  else 0

/-- The mapped dual-mode channels, which a current span can be set on whatever their element is (R9, R64): each has a power estimate (R163). -/
def State.heaters (s : State) : List Nat := s.mapped.filter dualMode

/-- At the boundary each paddock forms the power data of its dual-mode channels (R163). -/
def State.formPower (s : State) : State :=
  s.heaters.foldl (fun s c => { s with pdkPwr := Tab.set s.pdkPwr 0 c (s.powerOf c) }) s

/-- The estimate that a shepherd uses for a channel: 0 through a paddock reset, DEEP or off (R164). -/
def State.estimate (s : State) (x : Shep) (c : Nat) : Nat :=
  if (s.pdk (pdkOf c)).mode ≠ .run then 0 else Tab.get (s.sh x).pwr 0 c

/-- A shepherd takes the power data of paddock p. -/
def State.takePower (s : State) (x : Shep) (p : Nat) : State :=
  let s := (s.heaters.filter fun c => decide (pdkOf c = p)).foldl (fun s c =>
    s.modSh x fun h => { h with pwr := Tab.set h.pwr 0 c (Tab.get s.pdkPwr 0 c) }) s
  s.modSh x fun h => { h with pwrMiss := h.pwrMiss.filter fun q => decide (q ≠ p) }

/-- A shepherd has no power data of paddock p for this tick (R164). -/
def State.missPower (s : State) (x : Shep) (p : Nat) : State :=
  s.modSh x fun h => { h with pwrMiss := if p ∈ h.pwrMiss then h.pwrMiss else h.pwrMiss ++ [p] }

/-- SENSE_FRAME_RECEIVE: a shepherd receives the sense frame of the tick that ended from paddock p, with its counts and its power data (R105,
R163); a damaged one is discarded whole (R292). A paddock in NAP, DEEP or reset sends none (R107). -/
def doSenseFrame (x : Shep) (p : Nat) (noise : Noise) (s : State) : State :=
  if s.silent p then s
  else match s.senseHeard x p noise with
  | some f => (takeCounts x p f s).takePower x p
  | none => s

/-- SENSE_FRAME_DEADLINE: no valid sense frame of paddock p in time (R106, R107, R164); the shepherd's frames of this tick carry INPUT_MISS unless the
paddock sends none (R298). -/
def doSenseDeadline (x : Shep) (p : Nat) (s : State) : State :=
  if (s.sh x).role = .off ∨ s.part.paddocks ≤ p then s
  else
    let quiet := s.silent p
    let s := (voidCounts x p s).missPower x p
    if quiet then s else s.modSh x fun h => { h with inputMiss := true }

/-- The estimates of a tick join the sums towards Pbar (R166). -/
def State.sumPower (s : State) (x : Shep) : State :=
  let s := s.heaters.foldl (fun s c =>
    let e := s.estimate x c
    s.modSh x fun h => { h with xt := { h.xt with sums := Tab.set h.xt.sums 0 c (Tab.get h.xt.sums 0 c + e) } }) s
  s.modSh x fun h => { h with xt := { h.xt with ticks := h.xt.ticks + 1 } }

/-! ### The crosstalk matrix (R162) -/

/-- Aggressor records in victim order. -/
def insAggr (a : AggrRec) : List AggrRec → List AggrRec
  | [] => [a]
  | b :: r => if a.victim ≤ b.victim then a :: b :: r else b :: insAggr a r

def sortAggr : List AggrRec → List AggrRec
  | [] => []
  | a :: r => insAggr a (sortAggr r)

/-- Victim, first entry and aggressors of each list, laid out in victim order from entry 0 (R162). -/
def layout : Nat → List AggrRec → List (Nat × Nat × List Nat)
  | _, [] => []
  | b, a :: r => (a.victim, b, a.list) :: layout (b + a.list.length) r

/-- The layout of the map in force. -/
def State.lists (s : State) : List (Nat × Nat × List Nat) :=
  match s.map with
  | some m => layout 0 (sortAggr m.aggrs)
  | none => []

/-- COEF of a matrix entry, signed Q8.8. -/
def State.coef (s : State) (x : Shep) (e : Nat) : Int := toSigned 16 ((s.rd x.bank (XT_WORD e)).toNat / 65536)

def fXT_COEF : Fld := ⟨31, 16⟩
def fXT_AGGR : Fld := ⟨15, 0⟩

/-- Stores one coefficient; a host write also moves the anchor (R180). -/
def State.putCoef (s : State) (x : Shep) (u : XtUpd) : State :=
  let s := s.pPut x (XT_WORD u.entry) fXT_COEF u.coef
  if u.fit then s else s.wr x.bank (XT_ANCHOR u.entry) (BitVec.ofNat 32 (u.coef % 65536))

/-- The queue drains into the matrix: fit updates first, then host writes, in arrival order (R171). -/
def State.drain (s : State) (x : Shep) : State :=
  let q := (s.sh x).xt.queue
  let s := ((q.filter fun u => u.fit) ++ (q.filter fun u => !u.fit)).foldl (fun s u => s.putCoef x u) s
  let s := s.modSh x fun h => { h with xt := { h.xt with queue := [] } }
  if x = s.lead then { s with xtDrains := s.xtDrains + 1 } else s

/-- Passes run (R174). -/
def State.passesRun (s : State) : Bool :=
  decide (s.map ≠ none) && decide (s.lp = .none) &&
  decide (s.mode = .survey ∨ s.mode = .parked ∨ s.mode = .service ∨ s.mode = .maintenance ∨ s.mode = .safe)

/-- The update queue of a shepherd is full (R171). -/
def State.queueFull (s : State) (x : Shep) : Bool := decide (65536 ≤ (s.sh x).xt.queue.length)

/-- Host coefficient writes join both queues, which are alike, or are discarded when they are full, with an event that names the entry by its two halves
(R171; log entry 96). -/
def State.queueCoef (s : State) (entry coef : Nat) : State :=
  let full := s.queueFull s.lead
  let s := both (fun x s =>
    if s.queueFull x then s.pFlag x CMP_STATUS fCMP_STATUS_XT_QFULL
    else s.modSh x fun h => { h with xt := { h.xt with queue := h.xt.queue ++ [⟨false, entry, coef⟩] } }) s
  if full then s.notice CMP_STATUS fCMP_STATUS_XT_QFULL.lo 0xFFFF [entry % 65536, entry / 65536] else s

/-- A shepherd's pass ends without terms: passes stop (R174) or a full map takes effect (R173). The next one begins at the first aligned tick. -/
def State.stopPass (s : State) (x : Shep) : State :=
  (s.pPut x CMP_STATUS fCMP_STATUS_PASS_EXT 0).modSh x fun h => { h with xt := { h.xt with n0 := none, ready := none, ext := false, next := 0 } }

/-- The passes of both shepherds stop at the entry to QUIESCE or DEEP (R174). -/
def State.stopPasses (s : State) : State := both (fun x s => s.stopPass x) s

/-- Pbar: the mean of the estimates since the previous latch, halves up (R166). -/
def latchPbar (t : XtEngine) (c : Nat) : Nat :=
  if t.ticks = 0 then Tab.get t.pbar 0 c else (2 * Tab.get t.sums 0 c + t.ticks) / (2 * t.ticks)

/-- The latch: Pbar of every heater, and the sums start again (R166). -/
def State.latch (s : State) (x : Shep) : State :=
  let hs := s.heaters
  s.modSh x fun h => { h with xt := { h.xt with
    pbarPrev := h.xt.pbar
    pbar := hs.foldl (fun t c => Tab.set t 0 c (latchPbar h.xt c)) []
    sums := [], ticks := 0 } }

/-- The terms of a pass over the matrix (R165): victim, saturated term, whether it saturated. -/
def State.passTerms (s : State) (x : Shep) : List (Nat × Int × Bool) :=
  s.lists.map fun (v, b, l) =>
    let sum := ((List.range l.length).map fun i => s.coef x (b + i) * ((Tab.get (s.sh x).xt.pbar 0 (l.getD i 0) : Nat) : Int)).foldl (· + ·) 0
    let r := roundHalfUp sum 256
    (v, sat24 r, decide (sat24 r ≠ r))

/-- The crosstalk period in force (R175). -/
def State.xtPeriod (s : State) (x : Shep) : Nat := s.pGet x CMP_CFG fCMP_CFG_PERIOD

/-! ### The background fit (R177 to R183) -/

def State.modFit (s : State) (x : Shep) (f : FitSt → FitSt) : State := s.modSh x fun h => { h with fit := f h.fit }

/-- Bytes of the fit log in use (R182). -/
def fitLogUsed (l : List (List Byte)) : Nat := (l.map fun r => r.length).foldl (· + ·) 0

/-- The size of the fit log region in bytes: FLD_FITLOG_CFG.SIZE MiB (R422). -/
def State.fitLogSize (s : State) (x : Shep) : Nat := 1048576 * s.pGet x FLD_FITLOG_CFG fFLD_FITLOG_CFG_SIZE

/-- The new coefficients of one victim (R178): index in its list, new coefficient; with res in Q17.6 and norm in Q24.8. None where the
conditions of the rule do not hold. -/
def fitVictim (s : State) (x : Shep) (v base : Nat) (l : List Nat) : Option (List (Nat × Int) × Int × Nat) :=
  let f := (s.sh x).fit
  let t := (s.sh x).xt
  let cur := Tab.get f.cur {} v
  let prev := Tab.get f.prev {} v
  if cur.num = 0 ∨ prev.num = 0 ∨ cur.excl = true ∨ prev.excl = true then none
  else
    let dP (a : Nat) : Int := ((Tab.get t.pbar 0 a : Nat) : Int) - ((Tab.get t.pbarPrev 0 a : Nat) : Int)
    let norm := (l.map fun a => dP a * dP a).foldl (· + ·) 0
    let den : Nat := cur.num * prev.num * 16384
    let pred := ((List.range l.length).map fun i => s.coef x (base + i) * dP (l.getD i 0)).foldl (· + ·) 0
    let res : Int := ((cur.sum * prev.num : Nat) - (prev.sum * cur.num : Nat) : Int) * 16384 - pred * (cur.num * prev.num : Nat)
    if norm < 16 * (s.pGet x CMP_FIT_EXCITE fCMP_FIT_EXCITE_EXCITE : Int) ∨ norm = 0 then none
    else
      let mu : Int := s.pGet x CMP_FIT_CTRL fCMP_FIT_CTRL_MU
      let smax : Int := s.pGet x CMP_FIT_LIMIT fCMP_FIT_LIMIT_STEP_MAX
      let band : Int := s.pGet x CMP_FIT_LIMIT fCMP_FIT_LIMIT_BAND
      let news := (List.range l.length).filterMap fun i =>
        let c := s.coef x (base + i)
        let anchor := toSigned 16 (s.rd x.bank (XT_ANCHOR (base + i))).toNat
        let step := clampI (-smax) smax (roundHalfUp (mu * res * dP (l.getD i 0) * 1048576) (4194304 * den * norm.toNat))
        let n := clampI (-32768) 32767 (clampI (anchor - band) (anchor + band) (c + step))
        if n = c then none else some (i, n)
      some (news, sat24 (roundHalfUp (res * 64) den), (norm / 16).toNat)

/-- The free space of the fit log is looked at: below 2,064 bytes the fit pauses, with an event; otherwise it does not (R182). -/
def State.fitRoom (s : State) (x : Shep) : State :=
  let full := decide (s.fitLogSize x < fitLogUsed (s.sh x).fit.log + 2064)
  let was := decide (s.pGet x CMP_FIT_STATUS fCMP_FIT_STATUS_LOG_FULL = 1)
  let s := s.pPut x CMP_FIT_STATUS fCMP_FIT_STATUS_LOG_FULL (bitN full)
  if full && !was then s.noticeLocal x CMP_FIT_STATUS fCMP_FIT_STATUS_LOG_FULL.lo 0xFFFF else s

/-- The fit handles one victim: the log record, then its updates in both queues; `left` is what remains of the budget. -/
def fitOne (x : Shep) (acc : State × Nat) (e : Nat × Nat × List Nat) : State × Nat :=
  let (s, left) := acc
  let (v, base, l) := e
  if s.pGet x (CMP_CH_CTRL v) fCMP_CH_CTRL_FIT ≠ 1 ∨ s.pGet x CMP_FIT_STATUS fCMP_FIT_STATUS_LOG_FULL = 1 then acc
  else match fitVictim s x v base l with
    | none => acc
    | some (news, res, norm) =>
      if news = [] ∨ left < news.length ∨ 65536 < (s.sh x).xt.queue.length + news.length then acc
      else
        let rec8 := leBytes 4 (s.pGet x CMP_PASS_CNT fCMP_PASS_CNT_COUNT) ++ leBytes 2 v ++ leBytes 2 news.length ++
          leBytes 4 (ofSigned 32 res) ++ leBytes 4 norm ++ news.flatMap fun n => leBytes 2 n.1 ++ leBytes 2 (ofSigned 16 n.2)
        let s := s.modFit x fun f => { f with log := f.log ++ [rec8], last := v }
        let s := if s.fitLogSize x < 2 * fitLogUsed (s.sh x).fit.log ∧
            2 * (fitLogUsed (s.sh x).fit.log - rec8.length) ≤ s.fitLogSize x then s.pFlag x CMP_FIT_STATUS fCMP_FIT_STATUS_LOG_HALF else s
        let s := both (fun y s => s.modSh y fun h => { h with xt := { h.xt with
          queue := h.xt.queue ++ news.map fun n => ⟨true, base + n.1, ofSigned 16 n.2⟩ } }) s
        let s := both (fun y s => s.pCount y CMP_FIT_UPD fCMP_FIT_UPD_UPDATES news.length) s
        (s.fitRoom x, left - news.length)

/-- CMP_CH_STAT.FIT_NOREC of every victim, in both shepherds, at a latch of the active one: set for a victim with FIT = 1 that the recorder has not covered in
the period, while the fit is enabled (R177). -/
def State.fitCover (s : State) (x : Shep) (enabled : Bool) : State :=
  s.lists.foldl (fun s e =>
    let miss := enabled && decide (s.pGet x (CMP_CH_CTRL e.1) fCMP_CH_CTRL_FIT = 1) && !(Tab.get (s.sh x).fit.cur {} e.1).covered
    both (fun y s => s.pPut y (CMP_CH_STAT e.1) fCMP_CH_STAT_FIT_NOREC (bitN miss)) s) s

/-- The fit at a latch of the active shepherd (R177 to R183). Victims are taken round-robin after the last one updated (R181); the first latch after a
switch-over gives no update (R183). The period means then roll. -/
def State.runFit (s : State) (x : Shep) : State :=
  let enabled := decide ((s.sh x).role = .active ∧ s.pGet x CMP_FIT_CTRL fCMP_FIT_CTRL_EN = 1)
  let s := s.pPut x CMP_FIT_STATUS fCMP_FIT_STATUS_RUNNING (bitN enabled)
  let s := if (s.sh x).role = .active then s.fitCover x enabled else s
  let s :=
    if enabled && decide (1 ≤ (s.sh x).fit.latches) then
      let s := s.fitRoom x
      let ls := s.lists
      let last := (s.sh x).fit.last
      ((ls.filter (fun e => decide (last < e.1)) ++ ls.filter (fun e => decide (e.1 ≤ last))).foldl (fitOne x)
        (s, s.pGet x CMP_FIT_BUDGET fCMP_FIT_BUDGET_MAX_UPD)).1
    else s
  s.modFit x fun f => { f with prev := f.cur, cur := [], latches := if enabled then f.latches + 1 else 0 }

/-- A tick excludes the present period for a victim (R179). -/
def State.fitExclude (s : State) (x : Shep) (v : Nat) : State :=
  if s.pGet x (CMP_CH_CTRL v) fCMP_CH_CTRL_FIT = 1 then
    s.modFit x fun f => { f with cur := Tab.set f.cur {} v { Tab.get f.cur {} v with excl := true } }
  else s

/-- A record of a victim, with the code that its loop output frame carries if any, joins its period (R177). -/
def State.fitRecord (s : State) (x : Shep) (v : Nat) (code? : Option Nat) : State :=
  if s.pGet x (CMP_CH_CTRL v) fCMP_CH_CTRL_FIT = 1 then
    s.modFit x fun f =>
      let p := Tab.get f.cur {} v
      { f with cur := Tab.set f.cur {} v { p with
        sum := p.sum + code?.getD 0, num := p.num + bitN (decide (code? ≠ none)), covered := true } }
  else s

/-- The victims whose tick excludes the period in shepherd x after the evaluations of the tick (R179): the loop not in RUN with its primary winning, saturated or
without valid input, or no power data from an aggressor's paddock. -/
def State.fitTick (s : State) (x : Shep) (running : Nat → Bool) : State :=
  s.lists.foldl (fun s e =>
    let st := s.rd x.bank (LOOP_STAT e.1)
    let calm := running e.1 && decide (fLOOP_STAT_WINNER.get st = 0 ∧ fLOOP_STAT_SAT_HI.get st = 0 ∧ fLOOP_STAT_SAT_LO.get st = 0 ∧
      fLOOP_STAT_NO_INPUT.get st = 0) && !e.2.2.any fun a => decide (pdkOf a ∈ (s.sh x).pwrMiss)
    if calm then s else s.fitExclude x e.1) s

/-! ### Passes (R166, R167) -/

/-- CROSSTALK_PASS_START of a shepherd: at an aligned boundary with no pass running, a new period takes effect, the queue drains, Pbar is
latched, the latch is recorded by `frame`, the fit works on it, and the pass starts (R166, R171, R175, R177, R178). -/
def doPassStart (x : Shep) (frame : State → State) (s : State) : State :=
  let t := (s.sh x).xt
  if s.passesRun && s.runs x && decide (s.edge % 400 = 0 ∧ t.n0 = none ∧ t.next ≤ s.tick ∧ s.tick % s.xtPeriod x = 0) then
    let s := match t.period with
      | some p => (s.pPut x CMP_CFG fCMP_CFG_PERIOD p).modSh x fun h => { h with xt := { h.xt with period := none } }
      | none => s
    let s := (frame ((s.drain x).latch x)).runFit x
    s.modSh x fun h => { h with xt := { h.xt with n0 := some s.tick, ext := false } }
  else s

/-- The pass that runs is extended (R167). -/
def State.extendPass (s : State) (x : Shep) (n0 : Nat) : State :=
  let p := s.xtPeriod x
  let s := if (s.sh x).xt.lastExt then s else s.noticeLocal x CMP_STATUS 5 0xFFFF
  let s := (s.pPut x CMP_STATUS fCMP_STATUS_PASS_EXT 1).pFlag x CMP_STATUS fCMP_STATUS_EXT_SEEN
  let s := s.pPut x CMP_EXT_CNT fCMP_EXT_CNT_COUNT (s.pGet x CMP_EXT_CNT fCMP_EXT_CNT_COUNT + 1)
  s.modSh x fun h => { h with xt := { h.xt with ext := true, lastExt := true, next := ceilDiv (n0 + 64) p * p } }

/-- CROSSTALK_PASS_DONE: the terms are ready for tick n0 + P, or n0 + 64 when the pass ran past n0 + P - 1 (R165 to R167). -/
def doPassDone (x : Shep) (s : State) : State :=
  if !(s.passesRun && s.runs x) then s else
  match (s.sh x).xt.n0 with
  | none => s
  | some n0 =>
    let s := if n0 + s.xtPeriod x ≤ s.tick ∧ (s.sh x).xt.ext = false then s.extendPass x n0 else s
    let ext := (s.sh x).xt.ext
    let terms := s.passTerms x
    let s := s.pPut x CMP_PASS_CNT fCMP_PASS_CNT_COUNT (s.pGet x CMP_PASS_CNT fCMP_PASS_CNT_COUNT + 1)
    s.modSh x fun h => { h with xt := { h.xt with
      n0 := none, lastExt := ext, ready := some ⟨if ext then n0 + 64 else n0 + s.xtPeriod x, terms⟩ } }

/-- CROSSTALK_TERMS_IN_FORCE: at its tick the terms of a finished pass come into force; a pass that has not finished by then is
extended (R166, R167). -/
def doTermsInForce (x : Shep) (s : State) : State :=
  if !(s.passesRun && s.runs x) then s else
  match (s.sh x).xt.ready with
  | some r =>
    if r.tick ≤ s.tick then
      let s := r.terms.foldl (fun s (v, t, sat) =>
        let s := s.pPut x (CMP_XT_TERM v) fCMP_XT_TERM_TERM (ofSigned 24 t)
        if sat then (s.pFlag x (CMP_CH_STAT v) fCMP_CH_STAT_XT_SAT).pFlag x CMP_STATUS fCMP_STATUS_XT_SAT_ANY else s) s
      (s.pPut x CMP_STATUS fCMP_STATUS_PASS_EXT 0).modSh x fun h => { h with xt := { h.xt with ready := none } }
    else s
  | none =>
    match (s.sh x).xt.n0 with
    | some n0 => if n0 + s.xtPeriod x ≤ s.tick ∧ (s.sh x).xt.ext = false then s.extendPass x n0 else s
    | none => s

/-! ### Writes to the CMP block and windows -/

/-- A write to CMP_WIN_SEL of one function (R169): a reserved table discards it; an absent page is selected, with BAD_WIN set as well. -/
def State.writeWinSel (s : State) (x : Shep) (v : Word) : State :=
  let t := fCMP_WIN_SEL_TABLE.get v
  let pages := match t with
    | 0 => s.part.paddocks / 2
    | 1 => max 1 (s.part.paddocks / 8)
    | 2 => 4 * s.part.paddocks
    | _ => 0
  let s := if pages ≤ fCMP_WIN_SEL_PAGE.get v then s.pFlag x CMP_STATUS fCMP_STATUS_BAD_WIN else s
  if 2 < t then s else (s.pPut x CMP_WIN_SEL fCMP_WIN_SEL_TABLE t).pPut x CMP_WIN_SEL fCMP_WIN_SEL_PAGE (fCMP_WIN_SEL_PAGE.get v)

/-- What word w of the table window shows through a selector (R169): a hysteresis word, a ripple word, or a matrix entry. -/
inductive WinWord where
  | hys (c w : Nat)
  | rip (c w : Nat)
  | xt (e : Nat)
  deriving DecidableEq, Repr

def winWord (sel : Word) (w : Nat) : WinWord :=
  let page := fCMP_WIN_SEL_PAGE.get sel
  match fCMP_WIN_SEL_TABLE.get sel with
  | 0 => .hys (page * 4096 + w / 64) (w % 64)
  | 1 => .rip (page * 16384 + w / 16) (w % 16)
  | _ => .xt (page * 262144 + w)

/-- The part has the word (R169): its channel, or its entry of the matrix. -/
def WinWord.present (p : Part) : WinWord → Bool
  | .hys c _ => decide (c < p.chans)
  | .rip c _ => decide (c < p.chans)
  | .xt e => decide (e < 1048576 * p.paddocks)

/-- A hysteresis, ripple or control word of a channel is stored in both shepherds; a change excludes the victim's period from the fit (R179). -/
def State.cmpWord (s : State) (c off : Nat) (v : Word) : State :=
  let same := decide (s.sRd off = v)
  let s := s.sWr off v
  if same then s else both (fun x s => s.fitExclude x c) s

/-- A write to CMP_RIP_CFG(c): PERIOD 1 to 31 discards it whole (R161). -/
def State.writeRipCfg (s : State) (c : Nat) (v : Word) : State :=
  let p := fCMP_RIP_CFG_PERIOD.get v
  if 1 ≤ p ∧ p ≤ 31 then both (fun x s => s.pFlag x CMP_STATUS fCMP_STATUS_BAD_PERIOD) s
  else s.cmpWord c (CMP_RIP_CFG c) v

/-- A write to CMP_CH_CTRL(c). -/
def State.writeCmpCtrl (s : State) (c : Nat) (v : Word) : State :=
  s.cmpWord c (CMP_CH_CTRL c) (v &&& 0xFF00000F)

/-- A write to CMP_CFG: a new period waits for the next pass boundary, also while no passes run (R175). -/
def State.writeCmpPeriod (s : State) (v : Word) : State :=
  let p := fCMP_CFG_PERIOD.get v
  if p < 32 ∨ 1024 < p then both (fun x s => s.pFlag x CMP_STATUS fCMP_STATUS_BAD_PERIOD) s
  else both (fun x s => s.modSh x fun h => { h with xt := { h.xt with period := some p } }) s

/-- The staging window's word w in the lead's copy. -/
def State.stageWord (s : State) (w : Nat) : Word := s.sRd (CMP_STAGING w)

/-- APPLY of the staging window to channel c with its parts (R172). -/
def State.applyStage (s : State) (v : Word) : State :=
  let c := fCMP_STAGE_CTRL_CHANNEL.get v
  let hys := fCMP_STAGE_CTRL_P_HYS.bit v
  let rip := fCMP_STAGE_CTRL_P_RIP.bit v
  let xt := fCMP_STAGE_CTRL_P_XT.bit v
  let ctl := fCMP_STAGE_CTRL_P_CTRL.bit v
  let cnt := s.sGet (CMP_XT_COUNT c) fCMP_XT_COUNT_COUNT
  let base := s.sGet (CMP_XT_BASE c) fCMP_XT_BASE_BASE
  let per := fCMP_RIP_CFG_PERIOD.get (s.stageWord 337)
  let fail (s : State) : State :=
    (both (fun x s => s.pFlag x CMP_STATUS fCMP_STATUS_STAGE_FAIL) s).notice CMP_STATUS 3 c []
  if s.part.chans ≤ c then fail s
  else if ctl && decide (1 ≤ per ∧ per ≤ 31) then fail (both (fun x s => s.pFlag x CMP_STATUS fCMP_STATUS_BAD_PERIOD) s)
  else if xt && decide (65536 < (s.sh s.lead).xt.queue.length + cnt) then fail s
  else
    let s := if hys then (List.range 64).foldl (fun s w => s.cmpWord c (HYS_WORD c w) (s.stageWord w)) s else s
    let s := if rip then (List.range 16).foldl (fun s w => s.cmpWord c (RIP_WORD c w) (s.stageWord (64 + w))) s else s
    let s := if ctl then (s.writeCmpCtrl c (s.stageWord 336)).writeRipCfg c (s.stageWord 337) else s
    if xt then (List.range cnt).foldl (fun s i =>
      s.queueCoef (base + i) ((s.stageWord (80 + i / 2)).toNat / 2 ^ (16 * (i % 2)) % 65536)) s else s

/-- A write to CMP_STAGE_CTRL: its fields are stored, then APPLY acts (R172). -/
def State.writeStageCtrl (s : State) (v : Word) : State :=
  let s := s.sWr CMP_STAGE_CTRL (v &&& 0x0F00FFFF)
  if fCMP_STAGE_CTRL_APPLY.bit v then s.applyStage v else s

/-- A write to CMP_FIT_CTRL: MU above 0x4000 discards it (R186). -/
def State.writeFitCtrl (s : State) (v : Word) : State :=
  if 0x4000 < fCMP_FIT_CTRL_MU.get v then both (fun x s => s.pFlag x CMP_FIT_STATUS fCMP_FIT_STATUS_BAD_FIT) s
  else s.sWr CMP_FIT_CTRL (v &&& 0x8000FFFF)

/-- A write to CMP_FIT_BUDGET: MAX_UPD above 32,768 discards it (R186). -/
def State.writeFitBudget (s : State) (v : Word) : State :=
  if 32768 < fCMP_FIT_BUDGET_MAX_UPD.get v then both (fun x s => s.pFlag x CMP_FIT_STATUS fCMP_FIT_STATUS_BAD_FIT) s
  else s.sWr CMP_FIT_BUDGET (v &&& 0xFFFF)

/-- Lays out the matrix of the map now in force in both shepherds: CMP_XT_LIST, aggressors, and the coefficients, anchors and queued updates of the
victims that `kept` maps from their old first entry; every other coefficient and anchor is 0 (R162, R173). -/
def State.layMatrix (s : State) (kept : List (Nat × Nat)) : State :=
  let ls := s.lists
  let find (v : Nat) : Option Nat := (kept.find? fun e => decide (e.1 = v)).map fun e => e.2
  let newPlace (e : Nat) : Option Nat := ls.findSome? fun (v, b, l) => match find v with
    | some ob => if ob ≤ e ∧ e < ob + l.length then some (b + (e - ob)) else none
    | none => none
  both (fun x s =>
    let old := s
    let s := s.dropRegs x.bank fun o => decide (0x280000 ≤ o ∧ o < 0x300000 ∨ 0x2000000 ≤ o)
    let s := ls.foldl (fun s (v, b, l) =>
      let s := (s.wr x.bank (CMP_XT_BASE v) (BitVec.ofNat 32 b)).wr x.bank (CMP_XT_COUNT v) (BitVec.ofNat 32 l.length)
      (List.range l.length).foldl (fun s i =>
        let co := match find v with
          | some ob => (old.rd x.bank (XT_WORD (ob + i))).toNat / 65536
          | none => 0
        let an := match find v with
          | some ob => old.rd x.bank (XT_ANCHOR (ob + i))
          | none => 0
        (s.wr x.bank (XT_WORD (b + i)) (BitVec.ofNat 32 (co * 65536 + l.getD i 0))).wr x.bank (XT_ANCHOR (b + i)) an) s) s
    s.modSh x fun h => { h with
      xt := { h.xt with queue := h.xt.queue.filterMap fun u => (newPlace u.entry).map fun e => { u with entry := e } } }) s

/-- What a full map sets to 0 on every channel (R173). -/
def State.resetComp (s : State) : State :=
  let s := both (fun x s =>
    let s := s.dropRegs x.bank fun o => decide (0x200000 ≤ o ∧ o < 0x280000 ∨ 0x1000000 ≤ o ∧ o < 0x2000000)
    (s.stopPass x).modSh x fun h => { h with
      dyn := (h.dyn.map fun e => (e.1, { e.2 with tp := none })).filter fun e => decide (e.2 ≠ {}),
      xt := { h.xt with queue := [], sums := [], ticks := 0 } }) s
  s.layMatrix []

/-- What a domain reload sets to 0: the channels of the domain, with the terms that a finished pass has ready for them; `kept` are the victims outside with
their old first entries (R162, R173). -/
def State.resetCompDom (s : State) (cs : List Nat) (kept : List (Nat × Nat)) : State :=
  let s := both (fun x s =>
    let s := s.dropRegs x.bank fun o =>
      (decide (0x200000 ≤ o ∧ o < 0x280000) && decide ((o - 0x200000) / 16 ∈ cs)) ||
      (decide (0x1000000 ≤ o ∧ o < 0x1800000) && decide ((o - 0x1000000) / 256 ∈ cs)) ||
      (decide (0x1800000 ≤ o ∧ o < 0x2000000) && decide ((o - 0x1800000) / 64 ∈ cs))
    let s := s.modSh x fun h => { h with xt := { h.xt with
      ready := h.xt.ready.map fun r => { r with terms := r.terms.filter fun t => decide (t.1 ∉ cs) } } }
    cs.foldl (fun s c => s.modDyn x c fun d => { d with tp := none }) s) s
  s.layMatrix kept

end Sys2Proof.Machine
end

