-- ==== Sys2Proof/Machine/Loop.lean ====
section
/-! DEFINITION. Control loops (R121 to R155): measurements, errors, the PI controller, competitors and selection, loop states, capacity, and writes to
the LOOP windows. Demands and errors are signed Q17.6, integrals signed Q18.14. -/

namespace Sys2Proof.Machine

/-! ### Fields -/

def State.loopKind (s : State) (x : Shep) (c : Nat) : Nat := s.pGet x (LOOP_CTRL c) fLOOP_CTRL_KIND
def State.loopPol (s : State) (x : Shep) (c : Nat) : Bool := decide (s.pGet x (LOOP_CTRL c) fLOOP_CTRL_POL = 1)
def State.loopAct (s : State) (x : Shep) (c : Nat) : Bool := decide (s.pGet x (LOOP_CTRL c) fLOOP_CTRL_ACT = 1)
def State.loopHold (s : State) (c : Nat) : Bool := decide (s.sGet (LOOP_CTRL c) fLOOP_CTRL_HOLD = 1)
def State.loopInt (s : State) (x : Shep) (c : Nat) : Int := toSigned 32 (s.rd x.bank (LOOP_INT c)).toNat
def State.cmpInt (s : State) (x : Shep) (k : Nat) : Int := toSigned 32 (s.rd x.bank (LOOP_CMP_INT k)).toNat
def State.demand (s : State) (x : Shep) (c : Nat) : Int := toSigned 24 (s.pGet x (LOOP_DEMAND c) fLOOP_DEMAND_DEMAND)
def State.eLast (s : State) (x : Shep) (c : Nat) : Int := toSigned 24 (s.pGet x (LOOP_ERR c) fLOOP_ERR_E_LAST)

/-- The competitor slots that a channel owns (R143). -/
def State.slotsOf (s : State) (x : Shep) (c : Nat) : List Nat :=
  (List.range (s.pGet x (LOOP_CTRL c) fLOOP_CTRL_COMP_COUNT)).map fun i => s.pGet x (LOOP_CTRL c) fLOOP_CTRL_COMP_BASE + i

/-- The armed competitors of a channel: owned slots of a kind other than NONE (R129). -/
def State.armed (s : State) (x : Shep) (c : Nat) : List Nat :=
  (s.slotsOf x c).filter fun k => decide (s.pGet x (LOOP_CMP_CTRL k) fLOOP_CMP_CTRL_KIND ≠ 0)

/-! ### Loop states (R138) -/

/-- Codes of R138: 0 OPEN, 1 IDLE, 2 HELD, 3 SETTLING, 4 RUN. A loop whose output is not DRIVEN is IDLE through a span change too (R138; log entry 88), and
SETTLING under way goes on when the loop leaves OPEN, IDLE or HELD (log entry 95). -/
def State.loopState (s : State) (x : Shep) (c : Nat) : Nat :=
  if (s.mode ≠ .service ∧ s.mode ≠ .maintenance) ∨ s.chanOut c = true then 0
  else if s.elem? c = none ∨ s.outState c ≠ 5 ∨ s.flockSrc (flockOf c) = 1 then 1
  else if s.loopHold c then 2
  else match (s.dynOf x c).settle with
    | some _ => 3
    | none => 4

/-- The position of a demand (R122), in units of 2^-6 LSB. -/
def posOf (pol : Bool) (d : Int) : Nat :=
  let dc := (clampI 0 4194240 d).toNat
  if pol then 4194240 - dc else dc

/-- The integral that seeds a loop to a position in whole LSBs (R143). -/
def seedInt (pol : Bool) (p : Nat) : Int := (if pol then 65535 - (p : Int) else p) * 16384

/-! ### Measurements and errors (R124 to R128) -/

/-- The count of a monitor as a LEVEL, RATIO or CEILING uses it: none where it is VOID, not named or unmapped; OVER is 65,534 (R127). -/
def State.meas (s : State) (x : Shep) (m : Nat) : Option Nat :=
  if m = 0xFFFF ∨ (s.mons.any fun r => decide (r.sense = m)) = false then none
  else
    let v := (s.sh x).count m
    if v = VOID then none else if v = OVER then some 65534 else some v

/-- The error of a primary evaluation, none where the input is not valid (R125, R127, R128). `spNow` is SP_NOW of this evaluation. -/
def primaryErr (s : State) (x : Shep) (c spNow : Nat) : Option Int :=
  let sg : Int := if s.loopAct x c then -1 else 1
  let q : Int := if s.loopPol x c then -1 else 1
  let a := s.pGet x (LOOP_MON c) fLOOP_MON_MON_A
  let b := s.pGet x (LOOP_MON c) fLOOP_MON_MON_B
  match s.loopKind x c with
  | 0 => some 0
  | 1 => (s.meas x a).map fun m => sat24 (sg * ((spNow : Int) - 64 * m))
  | 2 => match s.meas x a, s.meas x b with
    | some ma, some mb => some (sat24 (sg * (roundHalfUp (spNow * mb : Nat) 16384 - 64 * ma)))
    | _, _ => none
  | 3 => ((s.sh x).dm c).g.map fun g => sat24 (-q * g)
  | _ => ((s.sh x).dm c).g.map fun g => sat24 (q * g)

/-- NO_INPUT of an evaluation (R127, R128): an EXTREMUM loop reads it from whether its last window gave a result, and where no result can arrive. -/
def noInput (s : State) (x : Shep) (c : Nat) (e : Option Int) : Bool :=
  if 3 ≤ s.loopKind x c then ((s.sh x).dm c).noRes || decide (c ∉ s.infl (s.demodMon c)) || !s.dithered c else decide (e = none)

/-- SP_NOW after the slew limiter (R133 to R135). -/
def slewStep (kind slew now target : Nat) : Nat :=
  if kind ≠ 1 ∧ kind ≠ 2 then target
  else if slew = 0 then target
  else if now < target then min target (now + slew) else max target (now - slew)

/-- round(I / 2^8) + p, saturated (R126, R130). -/
def piDemand (i : Int) (kp : Nat) (e : Int) : Int := sat24 (roundHalfUp i 256 + sat24 (roundHalfUp (kp * e) 4096))

/-- The demand of a competitor, saturated as a sum (R130). -/
def cmpDemand (i : Int) (kp : Nat) (e : Int) : Int := sat24 (roundHalfUp i 256 + roundHalfUp (kp * e) 4096)

/-- The increment of an integral (R126). -/
def piInc (ki : Nat) (e : Int) : Int := roundHalfUp (ki * e) 256

/-! ### Competitors (R129, R130) -/

/-- The error of a competitor's evaluation, none where its input is not valid. -/
def cmpErrNow (s : State) (x : Shep) (c k : Nat) : Option Int :=
  let lim : Int := s.pGet x (LOOP_CMP_LIMIT k) fLOOP_CMP_LIMIT_LIMIT
  match s.pGet x (LOOP_CMP_CTRL k) fLOOP_CMP_CTRL_KIND with
  | 1 => (s.meas x (s.pGet x (LOOP_CMP_CTRL k) fLOOP_CMP_CTRL_MON)).map fun m => sat24 (lim - 64 * m)
  | 2 =>
    if pdkOf c ∈ (s.sh x).pwrMiss then none
    else
      let sum : Nat := ((s.heaters.filter fun h => decide (flockOf h = flockOf c)).map fun h => s.estimate x h).foldl (· + ·) 0
      some (sat24 (lim - sum))
  | _ => some 0

/-- The evaluation of a competitor: its new e_last and its demand. -/
def evalCmp (s : State) (x : Shep) (c k : Nat) : State :=
  let e? := cmpErrNow s x c k
  let e := e?.getD (Tab.get (s.sh x).cmpErr 0 k)
  let s := s.modSh x fun h => { h with cmpErr := Tab.set h.cmpErr 0 k e }
  let d := if s.pGet x (LOOP_CMP_CTRL k) fLOOP_CMP_CTRL_KIND = 3
    then toSigned 24 (s.pGet x (LOOP_CMP_LIMIT k) fLOOP_CMP_LIMIT_LIMIT)
    else cmpDemand (s.cmpInt x k) (s.pGet x (LOOP_CMP_GAIN k) fLOOP_CMP_GAIN_KP) e
  s.pPut x (LOOP_CMP_DEMAND k) fLOOP_CMP_DEMAND_DEMAND (ofSigned 24 d)

/-- The increment that a competitor would add, 0 where its input was not valid or it has no integral. -/
def cmpInc (s : State) (x : Shep) (c k : Nat) : Int :=
  if s.pGet x (LOOP_CMP_CTRL k) fLOOP_CMP_CTRL_KIND = 3 then 0
  else piInc (s.pGet x (LOOP_CMP_GAIN k) fLOOP_CMP_GAIN_KI) ((cmpErrNow s x c k).getD 0)

/-- The winner among the primary (index 0) and competitor demands (index 1 and up): the lowest; the primary, then the lower slot, on a tie (R131). -/
def select (prim : Int) : Nat → List (Option Int) → Int × Nat
  | _, [] => (prim, 0)
  | i, none :: r => select prim (i + 1) r
  | i, some d :: r =>
    let (b, w) := select prim (i + 1) r
    if d < prim ∧ (w = 0 ∨ d ≤ b) then (d, i) else (b, w)

/-! ### One channel (R126, R131, R132, R147) -/

/-- Saturation of an evaluation (R123): high, low. -/
def satOf (pol : Bool) (d sum : Int) : Bool × Bool :=
  let clipHi := decide (65535 < sum)
  let clipLo := decide (sum < 0)
  (decide (4194240 ≤ d) || (if pol then clipLo else clipHi), decide (d ≤ 0) || (if pol then clipHi else clipLo))

/-- The runs of R517 after an evaluation in RUN. -/
def runsAfter (s : State) (x : Shep) (c : Nat) (sat : Bool) : State :=
  let lim : Int := 64 * 256 * s.sGet ALM_LOOP fALM_LOOP_ERR_LIM
  let big := decide (0 < lim) && decide (lim < (s.eLast x c).natAbs)
  s.modDyn x c fun d => { d with
    satRun := if sat then d.satRun + 1 else 0, satRep := sat && d.satRep,
    errRun := if big then d.errRun + 1 else 0, errRep := big && d.errRep }

/-- Compensates the repeated demand of a channel that is not evaluated (R137, R138). Answers the state and the code. -/
def repeatDemand (s : State) (x : Shep) (c : Nat) : State × Nat :=
  let r := compensate s x c (posOf (s.loopPol x c) (s.demand x c))
  (r.1, r.2.1)

/-- The reports of an evaluation in LOOP_STAT, LOOP_DEMAND and LOOP_CMP_STAT (R123, R131). -/
def putResult (s : State) (x : Shep) (c : Nat) (d : Int) (w : Nat) (sat : Bool × Bool) (noIn : Bool) : State :=
  let s := s.pPut x (LOOP_DEMAND c) fLOOP_DEMAND_DEMAND (ofSigned 24 d)
  let s := s.pPut x (LOOP_STAT c) fLOOP_STAT_WINNER w
  let s := s.pPut x (LOOP_STAT c) fLOOP_STAT_SAT_HI (bitN sat.1)
  let s := s.pPut x (LOOP_STAT c) fLOOP_STAT_SAT_LO (bitN sat.2)
  let s := s.pPut x (LOOP_STAT c) fLOOP_STAT_NO_INPUT (bitN noIn)
  let base := s.pGet x (LOOP_CTRL c) fLOOP_CTRL_COMP_BASE
  (s.slotsOf x c).foldl (fun s k => s.pPut x (LOOP_CMP_STAT k) fLOOP_CMP_STAT_WON (bitN (decide (k + 1 = base + w)))) s

/-- The settling count after an evaluation in tick n (R147): evaluations on samples of a tick that began before the instant come first. -/
def settleStep (n : Nat) (t : Settle) : Settle :=
  if 400 * (n - 1) < t.fire then t else { t with left := t.left - 1 }

/-- A loop in SETTLING has made its evaluations (R147). -/
def settleOver (n : Nat) (t : Settle) : Bool := decide (t.fire ≤ 400 * (n - 1) ∧ t.left = 0)

/-- One due evaluation of channel c in SETTLING or RUN; `done` are the competitor slots evaluated in this tick: the integral of a skipped one does
not change (R151), and one that has not been evaluated since it was armed takes part with what LOOP_CMP_DEMAND holds (log entry 93). In SETTLING the primary's
e_last stays (log entry 94). Answers the state and the code. -/
def evalLoop (s : State) (x : Shep) (done : List Nat) (c : Nat) : State × Nat :=
  let s := match (s.dynOf x c).settle with
    | some t => if settleOver s.tick t then s.modDyn x c fun d => { d with settle := none } else s
    | none => s
  let settling := decide ((s.dynOf x c).settle ≠ none)
  let kind := s.loopKind x c
  let pol := s.loopPol x c
  let now := slewStep kind (s.pGet x (LOOP_SLEW c) fLOOP_SLEW_SLEW) (s.pGet x (LOOP_SP_NOW c) fLOOP_SP_NOW_SP_NOW)
    (s.pGet x (LOOP_SP c) fLOOP_SP_TARGET)
  let spMoved := decide (now ≠ s.pGet x (LOOP_SP_NOW c) fLOOP_SP_NOW_SP_NOW)
  let s := s.pPut x (LOOP_SP_NOW c) fLOOP_SP_NOW_SP_NOW now
  let e? := primaryErr s x c now
  let noIn := noInput s x c e?
  let s := if settling then s else match e? with
    | some e => s.pPut x (LOOP_ERR c) fLOOP_ERR_E_LAST (ofSigned 24 e)
    | none => s
  let s := s.modDemod x c fun m => { m with g := none }
  let prim := if settling then sat24 (roundHalfUp (s.loopInt x c) 256)
    else piDemand (s.loopInt x c) (s.pGet x (LOOP_KP c) fLOOP_KP_KP) (s.eLast x c)
  let armed := s.armed x c
  let cds := (s.slotsOf x c).map fun k =>
    if k ∈ armed then some (toSigned 24 (s.pGet x (LOOP_CMP_DEMAND k) fLOOP_CMP_DEMAND_DEMAND)) else none
  let (d, w) := select prim 1 cds
  let (s, code, sum) := compensate s x c (posOf pol d)
  let sat := satOf pol d sum
  let s := putResult s x c d w sat noIn
  let k := s.pGet x (LOOP_CTRL c) fLOOP_CTRL_COMP_BASE + w - 1
  let skipped := decide (w ≠ 0 ∧ k ∉ done)
  let di := if w = 0 then piInc (s.pGet x (LOOP_KI c) fLOOP_KI_KI) (e?.getD 0) else cmpInc s x c k
  let blocked := (decide (0 < di) && sat.1) || (decide (di < 0) && sat.2)
  let s :=
    if settling then s.modDyn x c fun y => { y with settle := y.settle.map (settleStep s.tick) }
    else if blocked then s
    else if w = 0 then s.wr x.bank (LOOP_INT c) (BitVec.ofNat 32 (ofSigned 32 (sat32 (s.loopInt x c + di))))
    else if skipped then s
    else s.wr x.bank (LOOP_CMP_INT k) (BitVec.ofNat 32 (ofSigned 32 (sat32 (s.cmpInt x k + di))))
  let s := if settling then s else runsAfter s x c (sat.1 || sat.2)
  let s := if spMoved then s.fitExclude x c else s
  (s, code)

/-! ### The tick (R137, R149 to R152) -/

/-- The round-robin order of competitors (R150): local index, then paddock, then slot. -/
def cmpOrder (c i : Nat) : Nat := 4 * (16 * (c % 2048) + c / 2048) + i

/-- Due competitors as (order, channel, slot). -/
def dueCmps (s : State) (x : Shep) (due : List Nat) : List (Nat × Nat × Nat) :=
  due.flatMap fun c => (s.armed x c).map fun k => (cmpOrder c (k - s.pGet x (LOOP_CTRL c) fLOOP_CTRL_COMP_BASE), c, k)

def insOrd (e : Nat × Nat × Nat) : List (Nat × Nat × Nat) → List (Nat × Nat × Nat)
  | [] => [e]
  | f :: r => if e.1 ≤ f.1 then e :: f :: r else f :: insOrd e r

def sortOrd : List (Nat × Nat × Nat) → List (Nat × Nat × Nat)
  | [] => []
  | e :: r => insOrd e (sortOrd r)

/-- What a tick's stage 3 works on with a capacity of `cap` evaluations (R136 to R138, R149, R150): the live channels, the due ones, and the due
competitors, in their order from the resume position on, that the capacity reaches and that it skips. -/
structure TickWork where
  live : List Nat
  due : List Nat
  todo : List (Nat × Nat × Nat)
  skips : List (Nat × Nat × Nat)

def tickWork (s : State) (x : Shep) (cap : Nat) : TickWork :=
  let live := s.mapped.filter fun c => decide (2 ≤ s.loopState x c)
  let due := live.filter fun c => decide (3 ≤ s.loopState x c) && decide (s.tick % (s.pGet x (LOOP_CTRL c) fLOOP_CTRL_DIV + 1) = 0)
  let all := sortOrd (dueCmps s x due)
  let rot := (all.filter fun e => decide ((s.sh x).resume ≤ e.1)) ++ all.filter fun e => decide (e.1 < (s.sh x).resume)
  ⟨live, due, rot.take (cap - due.length), rot.drop (cap - due.length)⟩

/-- The capacity of a tick (R149): 153,600 evaluations at full CCLK, 76,800 with CCLK stretched throughout, and in a partly stretched tick between the two. -/
def State.loopCap (s : State) (x : Shep) (cap : Nat) : Nat :=
  if (s.sh x).sawStretch = false then 153600 else if (s.sh x).sawFull = false then 76800 else clampN 76800 153600 cap

/-- The tick that begins has CCLK as it stands (R149). -/
def State.capTick (s : State) : State :=
  both (fun x s => s.modSh x fun h => { h with sawFull := !h.stretched, sawStretch := h.stretched }) s

/-- The codes that a survey sends in the loop output frames of the present tick (R268). -/
def State.sweepSent (s : State) : List (Nat × Nat) := s.chans.filterMap fun e => e.2.sweep.map fun v => (e.1, v)

/-- Stage 3 of R22 in shepherd x with a capacity of `cap` evaluations: the due primaries, the competitors that the capacity reaches from the resume position on,
selection, compensation, and the loop output frame of the tick. -/
def evalLoops (x : Shep) (cap : Nat) (s : State) : State :=
  if !s.runs x then s
  else
    let n := s.tick
    let s := s.sumPower x
    let w := tickWork s x cap
    let live := w.live
    let due := w.due
    let todo := w.todo
    let skips := w.skips
    let s := todo.foldl (fun s e => (evalCmp s x e.2.1 e.2.2)) s
    let s := match todo.getLast? with
      | some e => s.modSh x fun h => { h with resume := e.1 + 1 }
      | none => s
    let s := skips.foldl (fun s e =>
      (s.pFlag x (LOOP_STAT e.2.1) fLOOP_STAT_SKIPPED).pFlag x (LOOP_CMP_STAT e.2.2) fLOOP_CMP_STAT_SKIPPED) s
    let r := live.foldl (fun (a : State × List (Nat × Nat)) c =>
      let q := if c ∈ due then evalLoop a.1 x (todo.map fun e => e.2.2) c else repeatDemand a.1 x c
      (q.1, a.2 ++ [(c, q.2)])) (s, [])
    let s := r.1
    let s := s.fitTick x fun c => decide (s.loopState x c = 4)
    let s := s.pPut x LOOP_DUE fLOOP_DUE_DUE (due.length + todo.length + skips.length)
    let s := s.pPut x LOOP_DONE fLOOP_DONE_DONE (due.length + todo.length)
    let ovr := decide (skips ≠ [])
    let was := decide (s.pGet x LOOP_STATUS fLOOP_STATUS_OVERRUN = 1)
    let s := s.pPut x LOOP_STATUS fLOOP_STATUS_OVERRUN (bitN ovr)
    let s := if ovr then
        ((s.pFlag x LOOP_STATUS fLOOP_STATUS_OVR_SEEN).pCount x LOOP_OVR_TICKS fLOOP_OVR_TICKS_TICKS 1).pCount x
          LOOP_OVR_SKIPS fLOOP_OVR_SKIPS_SKIPS skips.length
      else s
    let s := if ovr ≠ was then s.noticeLocal x LOOP_STATUS 4 0xFFFF else s
    s.modSh x fun h => { h with
      ovrRun := if ovr then h.ovrRun + 1 else 0
      frame := some ⟨n % 2 ^ 48, x, s.epoch, ovr, decide (h.xt.ext = true ∧ s.pGet x CMP_STATUS fCMP_STATUS_PASS_EXT = 1), h.inputMiss, r.2 ++ s.sweepSent⟩
      inputMiss := false }

/-- LOOP_OVERRUN: OVR_ALARM consecutive overrun ticks (R152). -/
def doLoopOverrun (x : Shep) (s : State) : State :=
  let lim := s.pGet x LOOP_CFG fLOOP_CFG_OVR_ALARM
  if lim ≠ 0 ∧ (s.sh x).ovrRun = lim then s.alarm 0x02 .shepherd x.num else s

/-- SETTLING_END of channel c (R147). -/
def doSettlingEnd (c : Nat) (s : State) : State :=
  both (fun x s => match (s.dynOf x c).settle with
    | some t => if settleOver s.tick t then s.modDyn x c fun d => { d with settle := none } else s
    | none => s) s

/-- LOOP_SAT of channel c: SAT_TICKS consecutive saturated evaluations in RUN, once per run (R517). -/
def doLoopSat (c : Nat) (s : State) : State :=
  let d := s.dynOf s.lead c
  let lim := s.sGet ALM_LOOP fALM_LOOP_SAT_TICKS
  if lim ≠ 0 ∧ lim ≤ d.satRun ∧ d.satRep = false then
    (both (fun x s => s.modDyn x c fun d => { d with satRep := true }) s).alarm 0x0F .channel c
  else s

/-- LOOP_ERROR of channel c (R517). -/
def doLoopError (c : Nat) (s : State) : State :=
  let d := s.dynOf s.lead c
  let lim := s.sGet ALM_LOOP fALM_LOOP_ERR_TICKS
  if lim ≠ 0 ∧ lim ≤ d.errRun ∧ d.errRep = false then
    (both (fun x s => s.modDyn x c fun d => { d with errRep := true }) s).alarm 0x10 .channel c
  else s

/-! ### Seeds (R143, R145, R146) -/

/-- Seeds the primary integral and the integral of each armed competitor to a position, and sets every e_last to 0, in both shepherds. -/
def State.seedLoop (s : State) (c p : Nat) : State :=
  both (fun x s =>
    let v : Word := BitVec.ofNat 32 (ofSigned 32 (seedInt (s.loopPol x c) p))
    let s := s.wr x.bank (LOOP_INT c) v
    let s := s.pPut x (LOOP_ERR c) fLOOP_ERR_E_LAST 0
    (s.armed x c).foldl (fun s k =>
      (s.wr x.bank (LOOP_CMP_INT k) v).modSh x fun h => { h with cmpErr := Tab.set h.cmpErr 0 k 0 }) s) s

/-- The setpoint actions of a plan (R146). -/
inductive SpAction where
  | keep | step | slew
  deriving DecidableEq, Repr

/-- A commit reaches the loop of a channel (R146): the seed, the setpoint action of a LEVEL or RATIO loop, and SETTLING unless it is HELD. -/
def State.commitLoop (s : State) (c ff : Nat) (a : SpAction) (target fire : Nat) : State :=
  let s := s.seedLoop c ff
  both (fun x s =>
    let sp := decide (s.loopKind x c = 1 ∨ s.loopKind x c = 2)
    let s := if sp && decide (a ≠ .keep) then s.pPut x (LOOP_SP c) fLOOP_SP_TARGET target else s
    let s := if sp && decide (a = .step) then s.pPut x (LOOP_SP_NOW c) fLOOP_SP_NOW_SP_NOW target else s
    let s := s.fitExclude x c
    if s.loopHold c then s
    else s.modDyn x c fun d => { d with settle := some ⟨fire, s.pGet x LOOP_CFG fLOOP_CFG_SETTLE⟩ })
    { s with seeded := c :: s.seeded }

/-! ### Writes (R124, R136, R140 to R143, R151) -/

/-- A competitor is armed: its integral takes the channel's selected demand of the previous evaluation, its e_last 0 (R142). -/
def State.armCmp (s : State) (x : Shep) (c k : Nat) : State :=
  (s.wr x.bank (LOOP_CMP_INT k) (BitVec.ofNat 32 (ofSigned 32 (sat32 (256 * s.demand x c))))).modSh x
    fun h => { h with cmpErr := Tab.set h.cmpErr 0 k 0 }

/-- A LOOP_STATUS flag in both shepherds with one NOTICE that names the channel. -/
def State.loopNote (s : State) (f : Fld) (c : Nat) : State :=
  (both (fun x s => s.pFlag x LOOP_STATUS f) s).notice LOOP_STATUS f.lo c []

/-- The slots that a LOOP_CTRL word names. -/
def slotsNamed (v : Word) : List Nat :=
  (List.range (fLOOP_CTRL_COMP_COUNT.get v)).map fun i => fLOOP_CTRL_COMP_BASE.get v + i

/-- A write to LOOP_CTRL(c) breaks R143: a slot outside the pool, or owned by another channel. -/
def State.slotsBad (s : State) (c : Nat) (v : Word) : Bool :=
  (slotsNamed v).any fun k => decide (65535 < k) ||
    (decide (s.sGet (LOOP_CMP_STAT k) fLOOP_CMP_STAT_OWNER ≠ 0xFFFF) && decide (s.sGet (LOOP_CMP_STAT k) fLOOP_CMP_STAT_OWNER ≠ c))

/-- Channel c is a TO_HEATER element of the map (R136). -/
def State.isHeater (s : State) (c : Nat) : Bool := decide ((s.elem? c).map (fun e => e.kind) = some 2)

/-- Shepherd x records slots as owned by no channel (R143). -/
def State.leaveSlots (s : State) (x : Shep) (ks : List Nat) : State :=
  ks.foldl (fun s k => s.pPut x (LOOP_CMP_STAT k) fLOOP_CMP_STAT_OWNER 0xFFFF) s

/-- Channel c of shepherd x comes to own slots, whose competitors are armed (R143). -/
def State.joinSlots (s : State) (x : Shep) (c : Nat) (ks : List Nat) : State :=
  ks.foldl (fun s k =>
    let s := s.pPut x (LOOP_CMP_STAT k) fLOOP_CMP_STAT_OWNER c
    if s.pGet x (LOOP_CMP_CTRL k) fLOOP_CMP_CTRL_KIND ≠ 0 then s.armCmp x c k else s) s

/-- A new KIND: SP_NOW at the target and e_last at 0 (R135, R142). -/
def State.freshLoop (s : State) (x : Shep) (c : Nat) : State :=
  ((s.pPut x (LOOP_SP_NOW c) fLOOP_SP_NOW_SP_NOW (s.pGet x (LOOP_SP c) fLOOP_SP_TARGET)).pPut x (LOOP_ERR c) fLOOP_ERR_E_LAST 0).fitExclude x c

/-- The copy of shepherd x takes a word of LOOP_CTRL(c) that passed the checks (R142, R143). -/
def State.takeLoop (s : State) (x : Shep) (c : Nat) (v : Word) : State :=
  let was := s.slotsOf x c
  let kindCh := decide (s.pGet x (LOOP_CTRL c) fLOOP_CTRL_KIND ≠ fLOOP_CTRL_KIND.get v)
  let s := s.wr x.bank (LOOP_CTRL c) (v &&& 0xFFFFFCE7)
  let s := s.leaveSlots x (was.filter fun k => decide (k ∉ slotsNamed v))
  let s := s.joinSlots x c ((slotsNamed v).filter fun k => decide (k ∉ was))
  if kindCh then s.freshLoop x c else s

/-- A write to LOOP_CTRL(c) at its boundary (R124, R136, R142, R143). -/
def State.writeLoopCtrl (s : State) (c : Nat) (v : Word) : State :=
  let badK := decide (4 < fLOOP_CTRL_KIND.get v)
  let badD := decide (fLOOP_CTRL_DIV.get v ≠ 0) && !s.isHeater c
  let badS := s.slotsBad c v
  if badK || badD || badS then
    let s := if badK then s.loopNote fLOOP_STATUS_BAD_KIND c else s
    let s := if badD then s.loopNote fLOOP_STATUS_BAD_DIV c else s
    if badS then s.loopNote fLOOP_STATUS_BAD_SLOTS c else s
  else
    let oldDiv := s.divOf c
    let s := both (fun x s => s.takeLoop x c v) s
    if s.divOf c ≠ oldDiv then { s.spoil c with colDue := true } else s

/-- A write to LOOP_SP(c): a new target excludes the victim's period from the fit (R179). -/
def State.writeLoopSp (s : State) (c : Nat) (v : Word) : State :=
  let same := decide (s.sGet (LOOP_SP c) fLOOP_SP_TARGET = fLOOP_SP_TARGET.get v)
  let s := s.sWr (LOOP_SP c) (fLOOP_SP_TARGET.put 0 (fLOOP_SP_TARGET.get v))
  if same then s else both (fun x s => s.fitExclude x c) s

/-- A write to LOOP_MON(c): the next evaluation reads the new monitors; the window under way gives no result (R113, R142). -/
def State.writeLoopMon (s : State) (c : Nat) (v : Word) : State := (s.sWr (LOOP_MON c) v).spoil c

/-- A write to LOOP_CMP_CTRL(k): a kind other than NONE in a slot that had NONE arms the competitor of its owner, and any other change of kind sets its e_last
to 0 (R142). -/
def State.writeCmpSlot (s : State) (k : Nat) (v : Word) : State :=
  both (fun x s =>
    let was := s.pGet x (LOOP_CMP_CTRL k) fLOOP_CMP_CTRL_KIND
    let owner := s.pGet x (LOOP_CMP_STAT k) fLOOP_CMP_STAT_OWNER
    let s := s.wr x.bank (LOOP_CMP_CTRL k) (v &&& 0xFFFF0003)
    if was = 0 ∧ fLOOP_CMP_CTRL_KIND.get v ≠ 0 ∧ owner ≠ 0xFFFF then s.armCmp x owner k
    else if was ≠ fLOOP_CMP_CTRL_KIND.get v then s.modSh x fun h => { h with cmpErr := Tab.set h.cmpErr 0 k 0 }
    else s) s

end Sys2Proof.Machine
end

