-- ==== Sys2Proof/Machine/Desc.lean ====
section
/-! DEFINITION. Descriptors (R336 to R342): fields, the checks that every descriptor passes first, completions, and the commands that have started and
not completed. -/

namespace Sys2Proof

/-! ### Fields -/

/-- One, two or four bytes of a descriptor at a descriptor offset of INLINE, 32 to 63 (R336). -/
def Desc.in1 (d : Desc) (i : Nat) : Nat := leAt d.inl (i - 32) 1
def Desc.in2 (d : Desc) (i : Nat) : Nat := leAt d.inl (i - 32) 2
def Desc.in4 (d : Desc) (i : Nat) : Nat := leAt d.inl (i - 32) 4
def Desc.in8 (d : Desc) (i : Nat) : Nat := leAt d.inl (i - 32) 8

/-- The payload bytes. -/
def Desc.pay (d : Desc) : List Byte := d.payload.getD []

/-- FLAGS.EXPERT and FLAGS.FENCE (R336). -/
def Desc.expert (d : Desc) : Bool := Machine.bitAt d.flags 0
def Desc.fence (d : Desc) : Bool := Machine.bitAt d.flags 1

/-- The 64 bytes of a descriptor (R336). -/
def Desc.bytes (d : Desc) : List Byte :=
  leBytes 1 d.op ++ leBytes 1 d.flags ++ leBytes 2 d.rsv2 ++ leBytes 4 d.tag ++ leBytes 8 d.addr ++ leBytes 4 d.len ++
  leBytes 4 d.rsv20 ++ leBytes 8 d.outAddr ++ (d.inl ++ zeros 32).take 32

/-- The descriptor that 64 bytes spell, at an index of a ring, with its payload (R336). -/
def descOf (ring index : Nat) (bs : List Byte) (payload : Option (List Byte)) : Desc :=
  ⟨ring, index, leAt bs 0 1, leAt bs 1 1, leAt bs 2 2, leAt bs 4 4, leAt bs 8 8, leAt bs 16 4, leAt bs 20 4, leAt bs 24 8,
    (bs.drop 32).take 32, payload⟩

end Sys2Proof

namespace Sys2Proof.Machine

/-! ### The opcode table (R338) -/

/-- The opcodes that are not reserved (R338). -/
def opcodes : List Nat :=
  [0x00, 0x01, 0x02, 0x03, 0x04, 0x08, 0x09, 0x10, 0x11, 0x12, 0x18, 0x19, 0x1A, 0x1B, 0x1C, 0x1D, 0x20, 0x21, 0x22, 0x23, 0x24, 0x25] ++
  [0x28, 0x29, 0x2A, 0x2B, 0x2C, 0x2D, 0x2E, 0x2F, 0x30, 0x31, 0x38, 0x39, 0x3A, 0x3B, 0x3C, 0x40, 0x41, 0x42, 0x48, 0x49] ++
  [0x50, 0x51, 0x52, 0x53, 0x58, 0x59, 0x5C, 0x5D, 0x5E, 0x60, 0x61, 0x62, 0x63, 0x68]

/-- The opcodes that start in SAFE (R335). -/
def safeOps : List Nat := [0x00, 0x03, 0x58, 0x24, 0x42, 0x30, 0x50, 0x51, 0x52, 0x48, 0x49]

/-- The opcodes that NET accepts (R386). -/
def netOps : List Nat := [0x00, 0x28, 0x2B, 0x2E, 0x2D, 0x38, 0x39, 0x3A, 0x3B, 0x3C]

/-- The opcodes whose payload is read from ADDR (R338). -/
def payloadOps : List Nat :=
  [0x01, 0x08, 0x09, 0x10, 0x11, 0x12, 0x18, 0x19, 0x1A, 0x1B, 0x1C, 0x1D, 0x20, 0x21, 0x22, 0x28, 0x29, 0x2A, 0x2F, 0x39, 0x3B, 0x40] ++
  [0x50, 0x59, 0x5C, 0x5D, 0x5E, 0x60, 0x61, 0x62, 0x63]

/-- A descriptor reads its payload: of the opcodes with subcommands, only TIME PTP_CONFIG and FW_UPDATE WRITE have one (R389, R499). -/
def needsPayload (d : Desc) : Bool :=
  decide (d.op ∈ payloadOps ∧ d.len ≠ 0) && !(decide (d.op = 0x5C) && decide (d.in1 32 ≠ 2)) &&
  !(decide (d.op = 0x63) && decide (d.in1 32 ≠ 0))

/-- The descriptor offsets of INLINE that an opcode uses; every other byte must be 0 (R336, R338 and the defining chapters). -/
def inlineUsed (op : Nat) : List Nat :=
  let rng (a b : Nat) : List Nat := (List.range (b + 1 - a)).map (· + a)
  match op with
  | 0x03 => rng 32 35
  | 0x04 => rng 32 35
  | 0x09 => [32]
  | 0x11 => [32]
  | 0x22 => rng 32 44
  | 0x25 => rng 32 35
  | 0x2B => [32]
  | 0x2C => [32]
  | 0x2D => 32 :: rng 36 39
  | 0x2E => 32 :: rng 36 39
  | 0x30 => rng 36 39
  | 0x31 => rng 36 39
  | 0x38 => rng 32 47
  | 0x3A => [32, 33] ++ rng 36 39
  | 0x3C => 32 :: rng 36 39
  | 0x51 => 32 :: rng 36 39
  | 0x52 => rng 32 55
  | 0x53 => rng 32 50 ++ [52, 53]
  | 0x58 => rng 32 35
  | 0x59 => rng 32 47
  | 0x5C => [32, 33] ++ rng 36 43
  | 0x5D => [32]
  | 0x60 => [32]
  | 0x63 => [32, 33]
  | 0x68 => rng 32 34
  | _ => []

/-! ### Completions (R341) -/

/-- The body of a completion: bytes 0 to 23 (R341). -/
def cplBody (seq epoch ring op index code space tag : Nat) (result : List Byte) : List Byte :=
  leBytes 4 seq ++ leBytes 2 epoch ++ leBytes 1 ring ++ leBytes 1 op ++ leBytes 2 index ++ leBytes 1 code ++ leBytes 1 space ++
  leBytes 4 tag ++ (result ++ zeros 8).take 8

/-- A descriptor completes with a code and RESULT: both writing shepherds write the completion under one sequence number (R341, R351); the completion of
a NET command waits to be sent in a REPLY frame (R387). -/
def State.complete (s : State) (d : Desc) (space code : Nat) (result : List Byte) : State :=
  if d.ring = 16 then
    let body := cplBody s.netSeq s.epoch 0xFF d.op d.index code space d.tag result
    { s with netSeq := (s.netSeq + 1) % 2 ^ 64, replies := s.replies ++ [(s.netSeq, d, body)] }
  else
    let body := cplBody s.cplSeq s.epoch d.ring d.op d.index code space d.tag result
    let s := { s with cplSeq := (s.cplSeq + 1) % 2 ^ 32 }
    (s.pushCpl .A body).pushCpl .B body

/-- A completion in the HIF code space without RESULT (R342). -/
def State.completeHif (s : State) (d : Desc) (code : Nat) : State := s.complete d 0 code []

/-- RESULT of a list opcode: records applied, and the first not applied or all ones (R341). -/
def listResult (applied : Nat) (first : Option Nat) : List Byte :=
  leBytes 4 applied ++ leBytes 4 (first.getD 0xFFFFFFFF)

/-- Data that both shepherds write to OUT_ADDR before the completion (R323). -/
def State.writeOut (s : State) (addr : Nat) (bytes : List Byte) : State :=
  let s := if s.shA.writes then s.send (.buf .A addr bytes) else s
  if s.shB.writes then s.send (.buf .B addr bytes) else s

/-! ### Commands that have started and not completed -/

/-- A command goes on after its start boundary. -/
def State.addJob (s : State) (j : Job) : State := { s with jobs := s.jobs ++ [j] }

/-- The oldest job of a kind. -/
def State.job? (s : State) (k : JobKind) : Option Job := s.jobs.find? fun j => decide (j.kind = k)

/-- Some job of a kind runs. -/
def State.busyWith (s : State) (k : JobKind) : Bool := s.jobs.any fun j => decide (j.kind = k)

/-- A job ends. -/
def State.endJob (s : State) (j : Job) : State := { s with jobs := s.jobs.erase j }

/-- A job moves to another phase. -/
def State.setJob (s : State) (j j' : Job) : State :=
  { s with jobs := s.jobs.map fun k => if k = j then j' else k }

/-- A survey runs (R254). -/
def State.surveying (s : State) : Bool := decide (s.mode = .survey) || decide (s.survey ≠ none)

/-! ### The checks of every descriptor (R335, R337, R338, R386) -/

/-- The first failure of the checks that do not depend on the opcode's own rules, as a code of the HIF space: a reserved opcode, the limits of
SAFE, reserved fields, flags, alignment, unused INLINE bytes, and a payload that could not be read. -/
def descFail (d : Desc) (safe : Bool) : Option Nat :=
  let netBad := decide (d.ring = 16) && !decide (d.op ∈ netOps)
  let lenBad := decide (d.ring = 16) && (decide (d.addr ≠ 0 ∨ d.outAddr ≠ 0) || decide (d.pay.length ≠ d.len))
  let unused := ((List.range 32).map (· + 32)).any fun i => decide (i ∉ inlineUsed d.op ∧ d.in1 i ≠ 0)
  let flagBad := decide (4 ≤ d.flags) || (d.expert && decide (d.op ≠ 0x08))
  let needs := needsPayload d
  let payBad := match d.payload with
    | some p => if d.op = 0x40 then decide (p.length < d.len) else decide (p.length ≠ d.len)
    | none => true
  if d.op ∉ opcodes ∨ netBad = true then some 0x01
  else if safe = true ∧ d.op ∉ safeOps then some 0x07
  else if d.rsv2 ≠ 0 ∨ d.rsv20 ≠ 0 ∨ flagBad = true ∨ d.addr % 8 ≠ 0 ∨ d.outAddr % 8 ≠ 0 ∨ unused = true ∨ lenBad = true then some 0x02
  else if needs = true ∧ payBad = true then some 0x03
  else none

/-- The device serves commands (R335): not in BOOT, RESET, OFF or DEEP. In QUIESCE only MODE and POWER start. -/
def State.serves (s : State) (d : Desc) : Bool :=
  decide (s.mode ≠ .off ∧ s.mode ≠ .reset ∧ s.mode ≠ .boot) && decide (s.lp ≠ .deep) &&
  (decide (s.lp ≠ .quiesce) || decide (d.op = 0x03 ∨ d.op = 0x04)) &&
  ((s.active.map fun x => !(s.sh x).halted).getD false)

/-- A descriptor starts: where the device does not serve it, it waits and nothing changes (R335); where a common check fails, it completes with that
code (R337); else its opcode's own function `f` takes it. -/
def State.startWith (s : State) (d : Desc) (f : Desc → State → State) : State :=
  if !s.serves d then s
  else match descFail d (decide (s.mode = .safe)) with
    | some c => s.completeHif d c
    | none => f d s

end Sys2Proof.Machine
end

