-- ==== Sys2Proof/Machine/Route.lean ====
section
/-! DEFINITION. The drover (R36 to R41, R198 to R205): wiring, routing of a Beneš domain level by level, tracing, and the judgement of
pins, protection and collateral. Cells and ports are numbers within the domain. -/

namespace Sys2Proof.Machine

/-! ### Wiring (R37, R38) -/

/-- next_position of R38 for N = 2^k ports. -/
def nextPos (k s j : Nat) : Nat :=
  if s + 2 ≤ k then
    let b := 2 ^ (k - s)
    let r := j % b
    (j - r) + (r % 2) * (b / 2) + r / 2
  else
    let b := 2 ^ (k - (2 * k - 3 - s))
    let r := j % b
    (j - r) + 2 * (r % (b / 2)) + r / (b / 2)

/-- The path of a circuit from position j of stage s on through n stages: the cells it crosses, and the position it leaves at. `st c` is
true where cell c is in cross. -/
def tracePath (k : Nat) (st : Nat → Bool) : Nat → Nat → Nat → List Nat × Nat
  | 0, _, j => ([], j)
  | n + 1, s, j =>
    let c := s * 2 ^ (k - 1) + j / 2
    let o := if st c then j / 2 * 2 + (1 - j % 2) else j
    if n = 0 then ([c], o)
    else
      let (cs, e) := tracePath k st n (s + 1) (nextPos k s o)
      (c :: cs, e)

/-- The path of input i through the 2k - 1 stages. -/
def pathOf (k : Nat) (st : Nat → Bool) (i : Nat) : List Nat × Nat := tracePath k st (2 * k - 1) 0 i

/-! ### What a request routes with -/

/-- The inputs of a routing (R198 to R202): log2 of the ports, reference states, pins (1 BAR, 2 CROSS, 3 KEEP; 0 none), protected circuits by
input, cell losses by state, and LOSS_FIRST. -/
structure RouteCtx where
  k : Nat
  ref : Nat → Bool
  pin : Nat → Nat
  prot : Nat → Bool
  loss : Nat → Bool → Nat
  lossFirst : Bool

/-- The pinned state of a cell, if any (R197). -/
def RouteCtx.pinned (x : RouteCtx) (c : Nat) : Option Bool :=
  match x.pin c with
  | 1 => some false
  | 2 => some true
  | 3 => some (x.ref c)
  | _ => none

/-- A connection of a sub-network: its input, its output, and the input port of the domain. -/
abbrev Conn := Nat × Nat × Nat

/-- The other port of a cell. -/
def partner (i : Nat) : Nat := if i % 2 = 0 then i + 1 else i - 1

/-- Walks a cycle or chain from a connection over partners, alternately by output and by input; `up` says whether the connection takes the upper
sub-network in orientation A. Answers the connections met and whether the walk came back to the start. -/
def walkChain (conns : List Conn) (start : Conn) : Nat → Conn → Bool → Bool → List (Conn × Bool) × Bool
  | 0, _, _, _ => ([], false)
  | n + 1, c, up, byOut =>
    let next := if byOut then conns.find? fun d => decide (d.2.1 = partner c.2.1)
      else conns.find? fun d => decide (d.1 = partner c.1)
    match next with
    | none => ([], false)
    | some d =>
      if d = start then ([], true)
      else
        let (r, closed) := walkChain conns start n d (!up) (!byOut)
        ((d, !up) :: r, closed)

/-- The cycle or chain of a connection with the side of each of its connections in orientation A (R199, R200). -/
def component (conns : List Conn) (start : Conn) : List (Conn × Bool) :=
  let (r, closed) := walkChain conns start conns.length start true true
  if closed then (start, true) :: r
  else (start, true) :: r ++ (walkChain conns start conns.length start true false).1

/-- The cycles and chains in increasing order of their lowest connected input. -/
def components : Nat → List Conn → List Conn → List (List (Conn × Bool))
  | 0, _, _ => []
  | n + 1, conns, rest =>
    match rest with
    | [] => []
    | c :: r =>
      let comp := component conns c
      comp :: components n conns (r.filter fun d => decide (d ∉ comp.map fun e => e.1))

/-- The state of an input or output cell whose port p goes by the upper sub-network or not (R38, R199). -/
def cellState (p : Nat) (up : Bool) : Bool := if p % 2 = 0 then !up else up

/-- The first entry of each cell. -/
def dedupe : List (Nat × Bool) → List (Nat × Bool)
  | [] => []
  | e :: r => e :: (dedupe r).filter fun f => decide (f.1 ≠ e.1)

/-- The states that an orientation gives the cells of a component; `a` and `b` are the numbers of the first input cell and the first output cell
of the sub-network. -/
def orient (a b : Nat) (comp : List (Conn × Bool)) (flip : Bool) : List (Nat × Bool) :=
  dedupe (comp.flatMap fun e =>
    let up := if flip then !e.2 else e.2
    [(a + e.1.1 / 2, cellState e.1.1 up), (b + e.1.2.1 / 2, cellState e.1.2.1 up)])

/-- Cells whose state changes from the reference. -/
def changedIn (x : RouteCtx) (cells : List (Nat × Bool)) : List Nat :=
  (cells.filter fun e => decide (x.ref e.1 ≠ e.2)).map fun e => e.1

/-- Protected circuits of a component that pass through a changed cell (R200). -/
def protIn (x : RouteCtx) (a b : Nat) (comp : List (Conn × Bool)) (changed : List Nat) : Nat :=
  (comp.filter fun e => x.prot e.1.2.2 && (decide (a + e.1.1 / 2 ∈ changed) || decide (b + e.1.2.1 / 2 ∈ changed))).length

/-- The loss of cells in their states (R200). -/
def lossIn (x : RouteCtx) (cells : List (Nat × Bool)) : Nat := (cells.map fun e => x.loss e.1 e.2).foldl (· + ·) 0

/-- The pinned cells of a component in increasing cell number (R201). -/
def pinsIn (x : RouteCtx) (cells : List (Nat × Bool)) : List Nat :=
  sortN ((cells.filter fun e => decide (x.pinned e.1 ≠ none)).map fun e => e.1)

/-- The state that a list of cell states gives a cell. -/
def stateIn (cells : List (Nat × Bool)) (c : Nat) : Option Bool := (cells.find? fun e => decide (e.1 = c)).map fun e => e.2

/-- The choice between the orientations of a component (R200, R201): true for B. -/
def chooseFlip (x : RouteCtx) (a b : Nat) (comp : List (Conn × Bool)) : Bool :=
  let A := orient a b comp false
  let B := orient a b comp true
  match pinsIn x A with
  | c :: _ => decide (x.pinned c ≠ stateIn A c)
  | [] =>
    let pa := protIn x a b comp (changedIn x A)
    let pb := protIn x a b comp (changedIn x B)
    let ca := (changedIn x A).length
    let cb := (changedIn x B).length
    let la := lossIn x A
    let lb := lossIn x B
    if pa ≠ pb then decide (pb < pa)
    else if x.lossFirst then (if la ≠ lb then decide (lb < la) else decide (cb < ca))
    else (if ca ≠ cb then decide (cb < ca) else decide (lb < la))

/-- Pins of a component that the chosen states do not honour (R201). -/
def droppedIn (x : RouteCtx) (cells : List (Nat × Bool)) : List Nat :=
  (pinsIn x cells).filter fun c => decide (x.pinned c ≠ stateIn cells c)

/-- A cell that no cycle or chain touches takes its pinned state, or its reference state (R199, R201). -/
def idleState (x : RouteCtx) (c : Nat) : Bool := (x.pinned c).getD (x.ref c)

/-- Routes the sub-network of 2^m ports that is block `blk` of level k - m (R199). Answers the state of each of its cells and the pins
dropped. -/
def routeNet (x : RouteCtx) : Nat → Nat → List Conn → List (Nat × Bool) × List Nat
  | 0, _, _ => ([], [])
  | 1, blk, conns =>
    let c := (x.k - 1) * 2 ^ (x.k - 1) + blk
    match conns with
    | [] => ([(c, idleState x c)], [])
    | e :: _ =>
      let st := decide (e.1 ≠ e.2.1)
      ([(c, st)], if x.pinned c = some (!st) then [c] else [])
  | m + 2, blk, conns =>
    let lev := x.k - (m + 2)
    let half := 2 ^ (m + 1)
    let a := lev * 2 ^ (x.k - 1) + blk * half
    let b := (2 * x.k - 2 - lev) * 2 ^ (x.k - 1) + blk * half
    let comps := (components (conns.length + 1) conns conns).map fun comp => (comp, chooseFlip x a b comp)
    let touched := comps.flatMap fun e => orient a b e.1 e.2
    let drops := comps.flatMap fun e => droppedIn x (orient a b e.1 e.2)
    let idle := (((List.range half).map (a + ·)) ++ ((List.range half).map (b + ·))).filter fun c => decide (stateIn touched c = none)
    let sides := comps.flatMap fun e => e.1.map fun f => (f.1, if e.2 then !f.2 else f.2)
    let sub (up : Bool) : List Conn :=
      (conns.filter fun c => decide ((c, up) ∈ sides)).map fun c => (c.1 / 2, c.2.1 / 2, c.2.2)
    let u := routeNet x (m + 1) (2 * blk) (sub true)
    let l := routeNet x (m + 1) (2 * blk + 1) (sub false)
    (touched ++ (idle.map fun c => (c, idleState x c)) ++ u.1 ++ l.1, drops ++ u.2 ++ l.2)

/-- The connections of a permutation: output offset by input, 0xFFFF idle (R195). -/
def connsFrom : Nat → List Nat → List Conn
  | _, [] => []
  | i, o :: r => if o = 0xFFFF then connsFrom (i + 1) r else (i, o, i) :: connsFrom (i + 1) r

/-- Routes a permutation: the cells in cross, rising, and the dropped pins, rising. -/
def routePerm (x : RouteCtx) (perm : List Nat) : List Nat × List Nat :=
  let r := routeNet x x.k 0 (connsFrom 0 perm)
  (sortN ((r.1.filter fun e => e.2).map fun e => e.1), sortN r.2)

/-- Traces cell states into the permutation they realise (R205). -/
def tracePerm (k : Nat) (st : Nat → Bool) : List Nat := (List.range (2 ^ k)).map fun i => (pathOf k st i).2

/-! ### The judgement of a route (R201 to R203, R217) -/

/-- What a route does against its reference (R217): changed cells and circuits, collateral inputs, protected ones among them, the highest path loss. -/
structure RouteReport where
  changedCells : Nat
  changedCircuits : Nat
  collateral : List Nat
  hit : List Nat
  worst : Nat
  deriving DecidableEq, Repr

/-- Counts of two lists where they differ. -/
def diffCount : List Nat → List Nat → Nat
  | a :: r, b :: q => (if a = b then 0 else 1) + diffCount r q
  | [], q => q.length
  | r, [] => r.length

/-- Judges states and permutation of a route against the reference (R202, R203, R217); `cells` is the domain's cell count. -/
def judge (x : RouteCtx) (cells : Nat) (st : Nat → Bool) (perm refPerm : List Nat) : RouteReport :=
  let conns := connsFrom 0 perm
  let paths := conns.map fun c => (c, (pathOf x.k st c.1).1)
  let col := (paths.filter fun p =>
    decide (refPerm.getD p.1.1 0xFFFF = p.1.2.1) && p.2.any fun c => decide (st c ≠ x.ref c)).map fun p => p.1.1
  let worst := (paths.map fun p => (p.2.map fun c => x.loss c (st c)).foldl (· + ·) 0).foldl max 0
  { changedCells := ((List.range cells).filter fun c => decide (st c ≠ x.ref c)).length
    changedCircuits := diffCount perm refPerm
    collateral := col
    hit := col.filter fun i => x.prot i
    worst := min worst 0xFFFF }

/-- The bytes of the route report (R217). -/
def reportBytes (code dom slot base time : Nat) (r : RouteReport) (dropped : List Nat) : List Byte :=
  leBytes 1 code ++ leBytes 1 dom ++ leBytes 1 slot ++ zeros 1 ++ leBytes 2 r.changedCells ++ leBytes 2 r.changedCircuits ++
  leBytes 2 r.collateral.length ++ leBytes 2 r.hit.length ++ leBytes 2 dropped.length ++ leBytes 2 r.worst ++ leBytes 4 time ++
  zeros 12 ++ (r.collateral.flatMap fun i => leBytes 2 (base + i)) ++ (r.hit.flatMap fun i => leBytes 2 (base + i)) ++
  dropped.flatMap (leBytes 2)

end Sys2Proof.Machine
end

