-- ==== Sys2Proof/Machine/Plan.lean ====
section
/-! DEFINITION. Plan slots, plan requests, the plan library and the drover's queue (R187 to R222). -/

namespace Sys2Proof.Machine

/-! ### Slots (R189, R190) -/

def State.slot (s : State) (i : Nat) : Slot := Tab.get s.slots {} i
def State.setSlot (s : State) (i : Nat) (v : Slot) : State := { s with slots := Tab.set s.slots {} i v }
def State.modSlot (s : State) (i : Nat) (f : Slot → Slot) : State := s.setSlot i (f (s.slot i))

/-- The entries of a rotation's lists that name a slot. -/
def rotNames (r : Rot) (i : Nat) : Nat :=
  (r.run.ents.filter fun e => decide (e.1 = i)).length +
  match r.pend with
  | some p => (p.ents.filter fun e => decide (e.1 = i)).length
  | none => 0

/-- REFS: the turnout and rotation entries that name slot i (R189, R244). -/
def State.refs (s : State) (i : Nat) : Nat :=
  (s.commits.filter fun c => decide (c.src = 0 ∧ c.slot = i)).length +
  (s.rots.map fun e => match e.2 with
    | some r => rotNames r i
    | none => 0).foldl (· + ·) 0

/-- A command that would write into or free slot i is refused (R190). -/
def State.slotBusy (s : State) (i : Nat) : Bool :=
  let k := s.slot i
  decide (k.state = 1 ∨ k.state = 3) || k.staged || k.refresh || decide (0 < s.refs i)

/-- Slot i holds a complete plan of domain d: READY or LIVE (R189). -/
def State.slotReady (s : State) (i d : Nat) : Bool :=
  decide (2 ≤ (s.slot i).state) && decide ((s.slot i).plan.map (fun p => p.dom) = some d)

/-- The LIVE slot of domain d, if any (R189). -/
def State.liveSlot (s : State) (d : Nat) : Option Nat :=
  (s.slots.find? fun e => decide (e.2.state = 3 ∧ e.2.plan.map (fun p => p.dom) = some d)).map fun e => e.1

/-! ### The compensated entries of an image (R176, R188, R207) -/

/-- The entry of channel c for feed-forward position ff with the values in force (R176, R207). -/
def State.imgEntry (s : State) (c ff : Nat) : ImgEntry :=
  let x := s.lead
  let d := s.dirAt x c (64 * ff)
  ⟨c, ff, compCode s x c d.1 (64 * ff), d.1, d.2⟩

/-- The position of an element for a plan's cell states (R192). -/
def State.posFor (s : State) (cells : List Nat) (c : Nat) : Nat :=
  let cell := ((s.elem? c).map fun e => e.cell).getD 0xFFFF
  if cell ≠ 0xFFFF ∧ cell ∈ cells then s.sGet (DRO_POS c) fDRO_POS_CROSS_POS else s.sGet (DRO_POS c) fDRO_POS_BAR_POS

/-- A plan whose entries take their positions from the position table: plan-route and plan-cells. -/
def routed (op : Nat) : Bool := decide (op = 0x28 ∨ op = 0x29)

/-- The entry that the commit engine writes for one element of the plan under work. -/
def State.buildEntry (s : State) (w : Drover) (e : ImgEntry) : ImgEntry :=
  s.imgEntry e.ch (if routed w.d.op then s.posFor w.plan.cells e.ch else e.ff)

/-- The elements of the plan under work that have no entry yet. -/
def Drover.left (w : Drover) : List ImgEntry :=
  w.plan.image.filter fun e => decide (e.ch ∉ w.built.map fun b => b.ch)

/-- Before a tick boundary that a build spans, some of its entries are built with the old values: which ones is open (R207). -/
def State.buildSome (s : State) : State :=
  match s.drover with
  | none => s
  | some w =>
    if w.phase ≠ 2 then s
    else
      let r := w.left.foldl (fun (a : State × List ImgEntry) e =>
        let b := a.1.draw 1
        (b.2, if b.1 = 1 then a.2 ++ [s.buildEntry w e] else a.2)) (s, [])
      { r.1 with drover := some { w with built := w.built ++ r.2 } }

/-- The complete image when the last entry is written. -/
def State.buildAll (s : State) (w : Drover) : List ImgEntry :=
  w.plan.image.map fun e => (w.built.find? fun b => decide (b.ch = e.ch)).getD (s.buildEntry w e)

/-! ### The library (R214, R215, R421) -/

/-- The size of a library record in bytes (R214). -/
def Part.recBytes : Part → Nat
  | .gl3280 => 147456
  | .gl3240 => 81920
  | .gl3220 => 49152

/-- The records the library region holds (R214, R421). -/
def State.libCap (s : State) : Nat := min 65536 (s.sGet FLD_LIB_CFG fFLD_LIB_CFG_RECORDS)

def State.libGet (s : State) (id : Nat) : Option Plan := Tab.get s.library none id
def State.libPut (s : State) (id : Nat) (p : Option Plan) : State :=
  { s with library := Tab.set s.library none id p, badLib := s.badLib.erase id }
/-- A record as a command reads it: a record with an uncorrectable error cannot be read (R423). -/
def State.libRead (s : State) (id : Nat) : Option Plan := if id ∈ s.badLib then none else s.libGet id

/-- The library has no room for a record with this ID. -/
def State.libFull (s : State) (id : Nat) : Bool :=
  decide (s.libGet id = none) && decide (s.libCap ≤ s.library.length)

/-- A library or scratch record is written to, or read from, both folds, ahead of the recorder's frames (R208, R417 order 2). -/
def State.foldRecord (s : State) : State :=
  both (fun x s => s.modSh x fun h => { h with recorder := { h.recorder with library := h.recorder.library + s.part.recBytes } }) s

/-- The image of a plan is built by way of a record: that of `id` in the library, or the scratch record of the slot (R208). -/
def State.putRecord (s : State) (slot : Nat) (id : Option Nat) (p : Plan) : State :=
  match id with
  | some i => (s.libPut i (some p)).foldRecord
  | none => { s with scratch := Tab.set s.scratch none slot (some p) }.foldRecord

/-- 2 bits per cell for `n` cells (R205, R214). -/
def cellBytes (cells : List Nat) (n : Nat) : List Byte :=
  (List.range ((n + 3) / 4)).map fun i =>
    BitVec.ofNat 8 (((List.range 4).map fun j => if 4 * i + j ∈ cells then 2 ^ (2 * j) else 0).foldl (· + ·) 0)

/-- A target of 8 bytes (R196). -/
def Target.bytes (t : Target) : List Byte := leBytes 2 t.port ++ leBytes 1 t.action ++ zeros 1 ++ leBytes 4 t.sp

/-- The bytes of a library record (R214; the layout inside its sections is the model's, log entry 6). -/
def planBytes (p : Part) (r : Plan) : List Byte :=
  let head := leBytes 4 r.planId ++ leBytes 1 r.dom ++ zeros 3 ++ leBytes 4 r.mapId ++ leBytes 2 r.perm.length ++
    leBytes 2 r.targets.length ++ leBytes 4 r.image.length ++ zeros 12 ++ r.perm.flatMap (leBytes 2)
  let pad (l : List Byte) (n : Nat) : List Byte := (l ++ zeros n).take n
  pad head 4096 ++ pad (r.targets.flatMap Target.bytes) 8192 ++ pad (cellBytes r.cells 16384) 4096 ++
  (List.range p.chans).flatMap fun c => match r.image.find? fun e => decide (e.ch = c) with
    | some e => leBytes 2 e.code ++ leBytes 2 e.ff
    | none => zeros 4

/-- The n-th 2-bit cell state of a cell array (R205). -/
def cellAt (bs : List Byte) (c : Nat) : Nat := leAt bs (c / 4) 1 / 2 ^ (2 * (c % 4)) % 4

/-- `n` numbers of `w` bytes from byte `o`. -/
def numsAt (bs : List Byte) (o w n : Nat) : List Nat := (List.range n).map fun i => leAt bs (o + w * i) w

/-- Targets from byte `o`. -/
def targetsAt (bs : List Byte) (o n : Nat) : List Target :=
  (List.range n).map fun i => ⟨leAt bs (o + 8 * i) 2, leAt bs (o + 8 * i + 2) 1, leAt bs (o + 8 * i + 4) 3⟩

/-- The plan that a record's bytes spell for a domain's channels. -/
def planOf (chs : List Nat) (bs : List Byte) : Plan :=
  { dom := leAt bs 4 1, planId := leAt bs 0 4, mapId := leAt bs 8 4
    cells := (List.range 16384).filter fun c => decide (cellAt (bs.drop 12288) c = 1)
    perm := numsAt bs 32 2 (leAt bs 12 2)
    targets := targetsAt bs 4096 (leAt bs 14 2)
    image := chs.map fun c => ⟨c, leAt bs (16384 + 4 * c + 2) 2, leAt bs (16384 + 4 * c) 2, false, 64 * leAt bs (16384 + 4 * c + 2) 2⟩ }

/-! ### Plan requests (R194 to R197, R205, R206, R216) -/

/-- A plan request: its header and what follows it. -/
structure PlanReq where
  dom : Nat
  slot : Nat
  flags : Nat
  planId : Nat
  ports : Nat
  nTargets : Nat
  nPins : Nat
  refSlot : Nat
  body : List Byte
  deriving DecidableEq, Repr

def planReq (p : List Byte) : PlanReq :=
  ⟨leAt p 0 1, leAt p 1 1, leAt p 2 2, leAt p 4 4, leAt p 8 2, leAt p 10 2, leAt p 12 2, leAt p 14 1, p.drop 32⟩

def PlanReq.store (r : PlanReq) : Bool := bitAt r.flags 0
def PlanReq.strict (r : PlanReq) : Bool := bitAt r.flags 1
def PlanReq.noCollateral (r : PlanReq) : Bool := bitAt r.flags 2
def PlanReq.dryRun (r : PlanReq) : Bool := bitAt r.flags 3

/-- Bytes of the part between the header and the targets: permutation, cell states or direct entries (R195, R205, R206). How many direct entries a
request carries follows from its length (log entry 14). -/
def PlanReq.firstLen (r : PlanReq) (op : Nat) (d : DomRec) : Nat :=
  match op with
  | 0x28 => 4 * ((2 * d.ports + 3) / 4)
  | 0x29 => 4 * ((d.cells + 15) / 16)
  | _ => r.body.length - 8 * r.nTargets - 4 * r.nPins

def PlanReq.targets (r : PlanReq) (op : Nat) (d : DomRec) : List Target := targetsAt r.body (r.firstLen op d) r.nTargets

/-- The request's pins: cell and state (R197). -/
def PlanReq.pins (r : PlanReq) (op : Nat) (d : DomRec) : List (Nat × Nat) :=
  let o := r.firstLen op d + 8 * r.nTargets
  (List.range r.nPins).map fun i => (leAt r.body (o + 4 * i) 2, leAt r.body (o + 4 * i + 2) 1)

/-- Reserved bytes of targets and pins are 0, and the padding of the first part. -/
def PlanReq.reservedOk (r : PlanReq) (op : Nat) (d : DomRec) : Bool :=
  let o := r.firstLen op d
  let q := o + 8 * r.nTargets
  ((List.range r.nTargets).all fun i => decide (leAt r.body (o + 8 * i + 3) 1 = 0 ∧ leAt r.body (o + 8 * i + 7) 1 = 0)) &&
  ((List.range r.nPins).all fun i => decide (leAt r.body (q + 4 * i + 3) 1 = 0)) &&
  (decide (op ≠ 0x28 ∨ d.ports % 2 = 0) || decide (leAt r.body (2 * d.ports) 2 = 0))

/-- A plan of a direct-map domain names every element once in rising order (R206). -/
def directBad (s : State) (r : PlanReq) (d : DomRec) : Bool :=
  decide (((List.range (r.firstLen 0x2A d / 4)).map fun i => leAt r.body (4 * i) 2) ≠ sortN (s.domChans d.dom))

/-- Two entries of a list of keys agree. -/
def dupKeys (l : List Nat) : Bool := hasDup l

/-- The mode in which plan commands are taken (R216, ROUTE_MODE); PLAN_EXPORT also in SAFE (R335, log entry 7). -/
def State.routeModeOk (s : State) (op : Nat) : Bool :=
  (decide (s.mode = .parked ∨ s.mode = .service ∨ s.mode = .maintenance) && decide (s.map ≠ none) && !s.surveying) ||
  (decide (op = 0x30) && decide (s.mode = .safe))

/-- The first cause that rejects a plan request before routing (R216); 0 where none does. -/
def planCode (s : State) (op : Nat) (p : List Byte) : Nat :=
  let r := planReq p
  let rsv := decide (16 ≤ r.flags) || !zeroAt p ((List.range 17).map (· + 15)) || decide (4096 < r.nPins)
  if !s.routeModeOk op then 0x01
  else if rsv then 0x02
  else match s.dom? r.dom with
    | none => 0x03
    | some d =>
      let need := 32 + r.firstLen op d + 8 * r.nTargets + 4 * r.nPins
      let ts := r.targets op d
      let ps := r.pins op d
      let perm := numsAt r.body 0 2 d.ports
      let used := perm.filter fun o => decide (o ≠ 0xFFFF)
      if p.length < 32 ∨ r.ports ≠ d.ports ∨ d.ports < r.nTargets ∨ p.length < need ∨ r.firstLen op d % 4 ≠ 0 ∨ r.reservedOk op d = false then 0x02
      else if decide (op = 0x2A) != decide (d.topo = 2) then 0x04
      else if r.dryRun = false ∧ s.slotBusy r.slot = true then 0x05
      else if (op = 0x28 ∧ ((used.any fun o => decide (d.ports ≤ o)) = true ∨ dupKeys used = true)) ∨
          (op = 0x29 ∧ ((List.range d.cells).any fun c => decide (2 ≤ cellAt r.body c)) = true) ∨
          (op = 0x2A ∧ directBad s r d = true) then 0x06
      else if (ts.any fun t => decide (2 < t.action ∨ d.ports ≤ t.port)) = true ∨ dupKeys (ts.map fun t => t.port) = true then 0x07
      else if (ps.any fun q => decide (d.cells ≤ q.1 ∨ q.2 = 0 ∨ 3 < q.2)) = true ∨ dupKeys (ps.map fun q => q.1) = true then 0x08
      else 0

/-- The reference plan of a request: cells in cross and permutation (R198). -/
def State.refPlan (s : State) (r : PlanReq) (ports : Nat) : List Nat × List Nat :=
  let slot := if r.refSlot = 0xFF then s.liveSlot r.dom else if s.slotReady r.refSlot r.dom then some r.refSlot else none
  match slot.bind fun i => (s.slot i).plan with
  | some p => (p.cells, p.perm)
  | none => ([], List.replicate ports 0xFFFF)

/-- The routing context of a request (R41, R198 to R202). -/
def State.routeCtx (s : State) (d : DomRec) (refCells refPerm perm : List Nat) (pins : List (Nat × Nat)) : RouteCtx :=
  { k := (log2Exact d.ports).getD 0
    ref := fun c => decide (c ∈ refCells)
    pin := fun c => match pins.find? fun q => decide (q.1 = c) with
      | some q => q.2
      | none => (s.sRd (DRO_PIN d.dom (c / 16))).toNat / 2 ^ (2 * (c % 16)) % 4
    prot := fun i =>
      bitAt (s.sRd (DRO_PROTECT ((d.base + i) / 32))).toNat ((d.base + i) % 32) &&
      decide (refPerm.getD i 0xFFFF = perm.getD i 0xFFFF ∧ perm.getD i 0xFFFF ≠ 0xFFFF)
    loss := fun c cross =>
      let v := s.sGet (SRV_LOSS d.dom c) (if cross then fSRV_LOSS_LOSS_CROSS else fSRV_LOSS_LOSS_BAR)
      if v = 0xFFFF then d.lossDef else v
    lossFirst := decide (s.sGet DRO_ROUTE_CFG fDRO_ROUTE_CFG_LOSS_FIRST = 1) }

/-! ### The drover's queue (R218) -/

/-- A plan command ends: its completion, LAST_CODE, and the drover is free (R216, R218). -/
def State.planEnd (s : State) (d : Desc) (code : Nat) (result : List Byte) : State :=
  let s := both (fun x s => s.pPut x DRO_ROUTE_STATUS fDRO_ROUTE_STATUS_LAST_CODE code) s
  let s := { s with drover := none, jobs := s.jobs.filter fun j => decide (j.d ≠ d ∨ j.kind ≠ JobKind.planRoute) }
  s.complete d 2 code result

/-- The commit engine begins to build a plan into a slot; a request of `state` 1 reserves it (R190, R207). -/
def State.beginBuild (s : State) (d : Desc) (slot : Nat) (p : Plan) (result report : List Byte) : State :=
  { s with drover := some ⟨d, 2, slot, [], [], p, [], result, report⟩ }

/-- The route report goes to the OUT buffer of the descriptor (R217). -/
def State.writeReport (s : State) (d : Desc) (report : List Byte) : State :=
  if d.ring = 16 ∨ d.outAddr = 0 ∨ report = [] then s else s.writeOut d.outAddr report

/-- A plan request ends without a route: every plan-route and plan-cells request, and a plan-direct one that is a dry run, still writes a report, whose counts
are 0 and whose collateral is empty (R206, R217; log entries 101, 102). -/
def State.endRequest (s : State) (d : Desc) (code : Nat) : State :=
  let r := planReq d.pay
  let s := if d.op = 0x2A ∧ r.dryRun = false then s else s.writeReport d (reportBytes code r.dom r.slot 0 0 ⟨0, 0, [], [], 0⟩ [])
  s.planEnd d code []

/-- A slot is reserved: it reads BUILDING (R190). -/
def State.reserve (s : State) (i : Nat) : State := s.modSlot i fun k => { k with state := 1, was := k.state }

/-- A rejected request returns the slot to what it held (R190). -/
def State.unreserve (s : State) (i : Nat) : State := s.modSlot i fun k => if k.state = 1 then { k with state := k.was } else k

/-- PLAN_ROUTE, PLAN_CELLS and PLAN_DIRECT begin their own work (R194 to R206, R216). -/
def State.beginRequest (s : State) (d : Desc) : State :=
  let code := planCode s d.op d.pay
  let r := planReq d.pay
  match s.dom? r.dom with
  | none => s.endRequest d (if code = 0 then 0x03 else code)
  | some dr =>
    if code ≠ 0 then s.endRequest d code
    else
      let mapId := (s.map.map fun m => m.id).getD 0
      let chs := sortN (s.domChans r.dom)
      let blank (ff : Nat → Nat) : List ImgEntry := chs.map fun c => ⟨c, ff c, 0, false, 0⟩
      if d.op = 0x2A then
        if r.dryRun then s.endRequest d 0
        else if r.store ∧ s.libFull r.planId then s.endRequest d 0x0C
        else
          let ff (c : Nat) : Nat := (((List.range dr.elems).find? fun i => decide (leAt r.body (4 * i) 2 = c)).map
            fun i => leAt r.body (4 * i + 2) 2).getD 0
          (s.reserve r.slot).beginBuild d r.slot ⟨r.dom, r.planId, mapId, [], [], r.targets d.op dr, blank ff⟩ [] []
      else
        let s := if r.dryRun then s else s.reserve r.slot
        let ref := s.refPlan r dr.ports
        let cells := if d.op = 0x29 then (List.range dr.cells).filter fun c => decide (cellAt r.body c = 1) else []
        let perm := if d.op = 0x28 then numsAt r.body 0 2 dr.ports else []
        { s with drover := some ⟨d, 1, r.slot, ref.1, ref.2,
            ⟨r.dom, r.planId, mapId, cells, perm, r.targets d.op dr, blank fun _ => 0⟩, [], [], []⟩ }

/-- The plan commands other than requests begin, and those that take no building end at once (R190, R209, R215). -/
def State.beginOther (s : State) (d : Desc) : State :=
  let slot := d.in1 32
  let id := d.in4 36
  let k := s.slot slot
  let mapId := (s.map.map fun m => m.id).getD 0
  if !s.routeModeOk d.op then s.planEnd d 0x01 []
  else match d.op with
  | 0x2B => if s.slotBusy slot then s.planEnd d 0x05 [] else (s.setSlot slot {}).planEnd d 0 []
  | 0x2C =>
    match k.plan with
    | some p =>
      if k.state < 2 ∨ k.refresh = true then s.planEnd d 0x05 []
      else (s.modSlot slot fun k => { k with refresh := true }).beginBuild d slot p [] []
    | none => s.planEnd d 0x05 []
  | 0x2D =>
    match k.plan with
    | some p =>
      if k.state < 2 then s.planEnd d 0x05 []
      else if s.libFull id then s.planEnd d 0x0C []
      else (s.putRecord slot (some id) { p with planId := id }).planEnd d 0 []
    | none => s.planEnd d 0x05 []
  | 0x2E =>
    match s.libRead id with
    | none => s.planEnd d (if s.slotBusy slot then 0x05 else 0x0C) []
    | some p =>
      match s.dom? p.dom with
      | none => s.planEnd d 0x03 []
      | some dr =>
        if s.slotBusy slot then s.planEnd d 0x05 []
        else if p.mapId = mapId ∧ p.image.map (fun e => e.ch) ≠ sortN (s.domChans dr.dom) then s.planEnd d 0x0C []
        else if p.mapId ≠ mapId then s.planEnd d 0x0D []
        else (s.reserve slot).foldRecord.beginBuild d slot p [] []
  | 0x2F =>
    let p := planOf (sortN (s.domChans (leAt d.pay 4 1))) d.pay
    if d.len ≠ s.part.recBytes ∨ zeroAt d.pay [5, 6, 7] = false ∨ zeroAt d.pay ((List.range 12).map (· + 20)) = false ∨
        1024 < leAt d.pay 12 2 ∨ 1024 < leAt d.pay 14 2 then s.planEnd d 0x02 []
    else match s.dom? p.dom with
      | none => s.planEnd d 0x03 []
      | some _ =>
        if s.libFull p.planId then s.planEnd d 0x0C []
        else if p.mapId ≠ mapId then s.planEnd d 0x0D []
        else (s.putRecord 0 (some p.planId) p).planEnd d 0 []
  | 0x30 =>
    match s.libRead id with
    | none => s.planEnd d 0x0C []
    | some p => (s.writeOut d.outAddr (planBytes s.part p)).planEnd d 0 (leBytes 4 s.part.recBytes ++ leBytes 4 1)
  | 0x31 => if s.libGet id = none then s.planEnd d 0x0C [] else (s.libPut id none).planEnd d 0 []
  | _ => s.planEnd d 0 []

/-- The drover serves the waiting plan commands in their order until one needs time (R218). While a map is validated or takes effect they wait (R219). -/
def droverN : Nat → State → State
  | 0, s => s
  | n + 1, s =>
    if s.drover ≠ none ∨ s.busyWith .mapLoad = true then s
    else match s.job? .planRoute with
      | none => s
      | some j =>
        droverN n (if 0x28 ≤ j.d.op ∧ j.d.op ≤ 0x2A then s.beginRequest j.d else s.beginOther j.d)

def State.droverNext (s : State) : State := droverN s.jobs.length s

/-- A plan command starts: it joins the drover's queue (R218). An OUT buffer too small for an export is refused at once (R342). -/
def startPlan (d : Desc) (s : State) : State :=
  if d.op = 0x30 ∧ d.len < s.part.recBytes then s.completeHif d 0x05
  else (s.addJob ⟨d, .planRoute, 0, 0, []⟩).droverNext

/-- Plan commands that have started and wait for the drover (R218). -/
def State.planQueued (s : State) : Nat :=
  (s.jobs.filter fun j => decide (j.kind = .planRoute)).length - (if s.drover = none then 0 else 1)

/-! ### What ends the work of a plan command -/

/-- ROUTE_COMPLETE after `cycles` PCLK periods: the route or trace is judged, and the request is rejected or ends as a dry run, with its report, or goes on to its
build, which the report follows (R199 to R205, R216, R217, R220). -/
def doRouteComplete (cycles : Nat) (s : State) : State :=
  match s.drover with
  | none => s
  | some w =>
    match s.dom? w.plan.dom with
    | none => s
    | some dr =>
      if w.phase ≠ 1 then s
      else
        let r := planReq w.d.pay
        let k := (log2Exact dr.ports).getD 0
        let pins := if w.d.op = 0x28 then r.pins w.d.op dr else []
        let perm := if w.d.op = 0x28 then w.plan.perm else tracePerm k fun c => decide (c ∈ w.plan.cells)
        let ctx := s.routeCtx dr w.refCells w.refPerm perm pins
        let routed := if w.d.op = 0x28 then routePerm ctx perm else (w.plan.cells, [])
        let rep := judge ctx dr.cells (fun c => decide (c ∈ routed.1)) perm w.refPerm
        let outer (c : Nat) : Bool := decide (c / (dr.ports / 2) = 0 ∨ c / (dr.ports / 2) = 2 * k - 2)
        let code :=
          if routed.2.any outer || (r.strict && decide (routed.2 ≠ [])) then 0x09
          else if rep.hit ≠ [] then 0x0A
          else if r.noCollateral = true ∧ rep.collateral ≠ [] then 0x0B
          else if r.dryRun = false ∧ r.store = true ∧ s.libFull r.planId = true then 0x0C
          else 0
        let result := leBytes 2 rep.changedCells ++ leBytes 2 rep.changedCircuits ++ leBytes 2 rep.collateral.length ++
          leBytes 2 routed.2.length
        let s := both (fun x s => s.wr x.bank DRO_ROUTE_TIME (BitVec.ofNat 32 cycles)) s
        let report := reportBytes code r.dom r.slot dr.base cycles rep routed.2
        if code ≠ 0 then ((((if r.dryRun then s else s.unreserve r.slot).writeReport w.d report).planEnd w.d code result)).droverNext
        else if r.dryRun then ((s.writeReport w.d report).planEnd w.d 0 result).droverNext
        else s.beginBuild w.d w.slot { w.plan with cells := routed.1, perm := perm } result report

/-- IMAGE_BUILD_DONE: the last entry is written (R207 to R209), then the report (R220). A refresh replaces every CODE and leaves the rest. -/
def doImageBuildDone (s : State) : State :=
  match s.drover with
  | none => s
  | some w =>
    if w.phase ≠ 2 then s
    else
      let p := { w.plan with image := s.buildAll w }
      let r := planReq w.d.pay
      let s :=
        if w.d.op = 0x2C then s.modSlot w.slot fun k => { k with refresh := false, plan := some p }
        else s.modSlot w.slot fun k => { k with state := 2, was := 0, plan := some p }
      let s := s.putRecord w.slot (if 0x28 ≤ w.d.op ∧ w.d.op ≤ 0x2A ∧ r.store = true then some r.planId else none) p
      ((s.writeReport w.d w.report).planEnd w.d 0 w.result).droverNext

/-- POSITION_TRACK at a boundary whose tick number is a multiple of 1,024 (R193): positions of running unsaturated elements of domains with a LIVE slot. A
host write of the same boundary stands. -/
def doPositionTrack (s : State) : State :=
  if s.edge % 400 ≠ 0 ∨ s.tick % 1024 ≠ 0 ∨ s.sGet DRO_ROUTE_CFG fDRO_ROUTE_CFG_TRACK ≠ 1 then s
  else s.mapped.foldl (fun s c =>
    match s.elem? c with
    | none => s
    | some e =>
      match (s.liveSlot e.dom).bind fun i => (s.slot i).plan with
      | none => s
      | some p =>
        let st := s.rd s.lead.bank (LOOP_STAT c)
        if e.cell = 0xFFFF ∨ c ∈ s.posWr ∨ s.loopState s.lead c ≠ 4 ∨ fLOOP_STAT_WINNER.get st ≠ 0 ∨
            fLOOP_STAT_SAT_HI.get st = 1 ∨ fLOOP_STAT_SAT_LO.get st = 1 then s
        else
          let pos := posOf (s.loopPol s.lead c) (s.demand s.lead c) / 64
          s.sPut (DRO_POS c) (if e.cell ∈ p.cells then fDRO_POS_CROSS_POS else fDRO_POS_BAR_POS) pos) s

end Sys2Proof.Machine
end

