-- ==== Sys2Proof/Machine/Link.lean ====
section
/-! DEFINITION. The paddock links (R210, R213, R228, R288 to R298): control frames sent by the shepherds, what a paddock does with each frame, and the
strobe of a commit. -/

namespace Sys2Proof.Machine

/-! ### Sending (R290, R295) -/

/-- The key of the link of a paddock and a shepherd. -/
def linkKey (p : Nat) (x : Shep) : Nat := 2 * p + x.num

/-- Both writing shepherds send one control frame to paddock p under the next CTL_SEQ (R290). -/
def State.sendCtl (s : State) (p : Nat) (f : CtlFrame) : State :=
  let n := Tab.get s.ctlSeq 1 p
  let s := { s with ctlSeq := Tab.set s.ctlSeq 1 p ((n + 1) % 2 ^ 32) }
  both (fun x s =>
    let q := Tab.get s.links [] (linkKey p x) ++ [{ f with src := x, epoch := s.epoch, pdk := p, ctlSeq := n, fire := f.fire % 2 ^ 32 }]
    if (s.sh x).writes then { s with links := Tab.set s.links [] (linkKey p x) q } else s) s

/-- A hub forwards a frame of a shepherd that the referee records as ACTIVE or STANDBY when it carries the referee's epoch or, within the tick of a grant,
the one before (R295). -/
def State.hubPasses (s : State) (x : Shep) (epoch : Nat) : Bool :=
  decide ((s.sh x).role = .active ∨ (s.sh x).role = .standby) &&
  (decide (epoch = s.epoch) || (decide (s.grantTick = some s.tick) && decide ((epoch + 1) % 65536 = s.epoch)))

/-- A frame that the hub discards (R295). -/
def State.hubDrop (s : State) : State := s.dCount SHP_HUB_DROP fSHP_HUB_DROP_COUNT 1

/-! ### Receiving -/

/-- The counts of SHP_PDK_ERR(p), by the low bit of their field. -/
def pdkErrFlds : List Fld :=
  [fSHP_PDK_ERR_GAP, fSHP_PDK_ERR_MISSING, fSHP_PDK_ERR_DAMAGED, fSHP_PDK_ERR_STALE_EPOCH, fSHP_PDK_ERR_DIVERGE]

/-- An error that paddock p counts in the field from bit `lo`. Its crossing is of the group of the paddock, whose fence holds the event back in a pending
counter of its own (R461, R467, R468). -/
def State.pdkErr (s : State) (p lo : Nat) : State :=
  if s.fenced p then s.xingPend (16 + p) lo
  else (pdkErrFlds.filter fun f => decide (f.lo = lo)).foldl (fun s f => s.dCount (SHP_PDK_ERR p) f 1) s

/-- The epoch rule of a paddock (R294): whether it takes the frame, and the state after. -/
def State.takeEpoch (s : State) (p epoch : Nat) : Bool × State :=
  let k := s.pdk p
  let d := (epoch + 65536 - k.epoch) % 65536
  if d = 0 then (true, s)
  else if d ≤ 32767 then (true, s.setPdk p { k with epoch := epoch, epochTick := s.tick })
  else if d = 65535 ∧ k.epochTick = s.tick then (true, s)
  else (false, s.pdkErr p fSHP_PDK_ERR_STALE_EPOCH.lo)

/-- A divergence is counted and marks the tick (R298, R299). -/
def State.diverge (s : State) (p : Nat) : State :=
  { s.pdkErr p fSHP_PDK_ERR_DIVERGE.lo with divNow := true }

/-- A frame that fails its checks is discarded whole and counted (R292). -/
def State.damaged (s : State) (p : Nat) : State := s.pdkErr p fSHP_PDK_ERR_DAMAGED.lo

/-- A paddock that runs and whose PCLK runs. -/
def State.pdkHears (s : State) (p : Nat) : Bool :=
  decide (p < s.part.paddocks) && decide ((s.pdk p).mode = .run) && !(s.pdk p).nap

/-- Two copies of a loop output frame at paddock p differ in a divergence (R298). -/
def LoopFrame.diverges (g f : LoopFrame) (p : Nat) : Bool :=
  decide (g.epoch = f.epoch) && !(g.overrun || f.overrun || g.extended || f.extended || g.inputMiss || f.inputMiss) &&
  decide (g.codes ≠ f.codes) && decide (crc32c (g.payload p) ≠ crc32c (f.payload p))

/-- LOOP_OUTPUT_FRAME_RECEIVE: the frame that shepherd x sent in the present tick reaches paddock p; the first of its tick is kept (R291), a later one is
compared and discarded (R298). -/
def doLoopFrame (x : Shep) (p : Nat) (noise : Noise) (s : State) : State :=
  match (s.sh x).frame with
  | none => s
  | some f =>
    if f.tick ≠ s.tick % 2 ^ 48 then s
    else if !s.hubPasses x f.epoch then s.hubDrop
    else if !s.pdkHears p then s
    else match f.heard p noise with
    | none => s.damaged p
    | some f =>
      let (take, s) := s.takeEpoch p f.epoch
      if !take || decide (f.tick ≠ s.tick % 2 ^ 48) then s
      else
        match (s.pdk p).frame with
        | none => s.modPdk p fun k => { k with frame := some f }
        | some g =>
          if g.tick ≠ f.tick then s.modPdk p fun k => { k with frame := some f }
          else if g.diverges f p then s.diverge p else s

/-- The channels of domain d on paddock p: those with its domain tag (R210). -/
def State.tagged (s : State) (p d : Nat) : List Nat := (s.domChans d).filter fun c => decide (pdkOf c = p)

/-- What a paddock keeps of a control frame for the comparison with its duplicate: the last 64 it applied (log entry 115). -/
def Pdk.keepCopy (k : Pdk) (f : CtlFrame) : Pdk := { k with copies := ((f.ctlSeq, f.epoch, crc32c f.payload) :: k.copies).take 64 }

/-- A paddock discards a control frame whose number it has applied or holds, and compares it with the copy it kept (R291, R298). -/
def State.ctlDuplicate (s : State) (p : Nat) (f : CtlFrame) : State :=
  let k := s.pdk p
  let kept : Option (Nat × Nat) := match k.held.find? fun g => decide (g.ctlSeq = f.ctlSeq) with
    | some g => some (g.epoch, crc32c g.payload)
    | none => (k.copies.find? fun q => decide (q.1 = f.ctlSeq)).map fun q => q.2
  match kept with
  | some q => if q.1 = f.epoch ∧ q.2 ≠ crc32c f.payload then s.diverge p else s
  | none => s

/-- A paddock applies a control frame (R210, R228). -/
def State.applyCtl (s : State) (p : Nat) (f : CtlFrame) : State :=
  s.modPdk p fun k =>
    let k := { k.keepCopy f with ctlSeq := f.ctlSeq }
    match f.kind with
    | .stage =>
      let tags := s.tagged p f.dom
      let mine := f.codes.filter fun e => decide (e.1 ∈ tags)
      let got := match k.staging.find? fun r => decide (r.dom = f.dom ∧ r.seq = f.stageSeq) with
        | some r => r.got
        | none => 0
      { k with
        shadow := mine.foldl (fun t e => Tab.set t none e.1 (some ⟨f.dom, e.2, f.stageSeq⟩)) k.shadow
        staging := (k.staging.filter fun r => decide (r.dom ≠ f.dom)) ++ [⟨f.dom, f.stageSeq, got + mine.length, tags.length⟩] }
    | .commit => { k with commits := (k.commits.filter fun c => decide (c.dom ≠ f.dom)) ++ [⟨f.dom, f.slot, f.stageSeq, f.fire⟩] }
    | .retime => { k with commits := k.commits.map fun c => if c.dom = f.dom ∧ c.seq = f.stageSeq then { c with fire := f.fire } else c }
    | .cancel => { k with commits := k.commits.filter fun c => decide (c.dom ≠ f.dom ∨ c.seq ≠ f.stageSeq) }

/-- Applies held frames in order while no number is missing (R291). -/
def applyHeld (p : Nat) : Nat → State → State
  | 0, s => s
  | n + 1, s =>
    let k := s.pdk p
    match k.held.find? fun f => decide (f.ctlSeq = (k.ctlSeq + 1) % 2 ^ 32) with
    | none => s
    | some f => applyHeld p n ((s.modPdk p fun k => { k with held := k.held.filter fun g => decide (g.ctlSeq ≠ f.ctlSeq) }).applyCtl p f)

/-- A control frame of a kind arrives at paddock p on the link of shepherd x (R291 to R295): the oldest frame on that link, when it is of the kind. -/
def doCtlFrame (kind : CtlKind) (x : Shep) (p : Nat) (noise : Noise) (s : State) : State :=
  match Tab.get s.links [] (linkKey p x) with
  | [] => s
  | f :: rest =>
    if f.kind ≠ kind then s
    else
      let s := { s with links := Tab.set s.links [] (linkKey p x) rest }
      if !s.hubPasses x f.epoch then s.hubDrop
      else if !s.pdkHears p then s
      else match f.heard p noise with
      | none => s.damaged p
      | some f =>
        let (take, s) := s.takeEpoch p f.epoch
        if !take then s
        else
          let s := if (s.pdk p).ctlAny then
              s.modPdk p fun k => { k with ctlAny := false, ctlSeq := (f.ctlSeq + 2 ^ 32 - 1) % 2 ^ 32 } else s
          let k := s.pdk p
          let ahead := (f.ctlSeq + 2 ^ 32 - k.ctlSeq) % 2 ^ 32
          if ahead = 0 ∨ 2 ^ 31 ≤ ahead ∨ k.held.any (fun g => decide (g.ctlSeq = f.ctlSeq)) = true then s.ctlDuplicate p f
          else if ahead = 1 then applyHeld p 8 (s.applyCtl p f)
          else if 8 ≤ k.held.length then s
          else s.setPdk p { k with held := k.held ++ [f] }

/-- The frame of the lowest number ahead of the last applied one. -/
def firstHeld (last : Nat) : List CtlFrame → Option CtlFrame
  | [] => none
  | f :: r =>
    match firstHeld last r with
    | none => some f
    | some g => if (f.ctlSeq + 2 ^ 32 - last) % 2 ^ 32 ≤ (g.ctlSeq + 2 ^ 32 - last) % 2 ^ 32 then some f else some g

/-- Applies every held frame in order, gaps or not. -/
def applyAllHeld (p : Nat) : Nat → State → State
  | 0, s => s
  | n + 1, s =>
    match firstHeld (s.pdk p).ctlSeq (s.pdk p).held with
    | none => s
    | some f => applyAllHeld p n ((s.modPdk p fun k => { k with held := k.held.filter fun g => decide (g.ctlSeq ≠ f.ctlSeq) }).applyCtl p f)

/-- CONTROL_FRAME_GAP: a gap not filled in time is counted, the missing numbers are skipped, and what is held is applied (R291). -/
def doCtlGap (p : Nat) (s : State) : State :=
  if (s.pdk p).held = [] then s
  else applyAllHeld p 8 ((s.pdkErr p fSHP_PDK_ERR_GAP.lo).notice 0xFFFFFFFF 0 p [])

/-! ### The strobe of a commit (R23, R79, R85, R213) -/

/-- A channel meets the strobe of a commit of its domain (R79, R85). While its span is configured from NONE, for which R79 names no case, the code is skipped
as in a span change (log entry 89). -/
def State.commitChan (s : State) (slot : Nat) (e : Nat × Nat) : State :=
  let c := e.1
  if (s.pdk (pdkOf c)).nap then s
  else if (s.chan c).phase ≠ .idle then
    (s.dFlag DRV_STATUS fDRV_STATUS_COMMIT_SKIPPED).notice DRV_STATUS fDRV_STATUS_COMMIT_SKIPPED.lo c [slot]
  else if s.outState c = 5 then
    (s.loadCode c e.2).modChan c fun h => { h with acceptFrom := max h.acceptFrom (s.tick + 1), took := s.edge + 1 }
  else s.takeForced c

/-- Paddock p strobes a commit that it has armed, at the present edge (R228). Answers the state and whether its shadow lacks the complete staging (R213). -/
def State.strobeCommit (s : State) (p : Nat) (c : PdkCommit) : State × Bool :=
  let k := s.pdk p
  let s := s.setPdk p { k with commits := k.commits.filter fun q => decide (q.dom ≠ c.dom) }
  if k.mode ≠ .run then (s, true)
  else if k.whole c.dom c.seq then
    let codes := (s.tagged p c.dom).filterMap fun ch => (Tab.get k.shadow none ch).map fun v => (ch, v.code)
    (codes.foldl (fun s e => s.commitChan c.slot e) s, false)
  else (s, true)

/-- Paddock p at the fire edge of the commit of domain d with staging number seq: it strobes when that is what it has armed for this edge, and nothing
otherwise (R228). Answers the state and whether its shadow lacks the complete staging (R213). -/
def State.firePdk (s : State) (d p seq fire : Nat) : State × Bool :=
  match (s.pdk p).commits.find? fun c => decide (c.dom = d ∧ c.seq = seq ∧ c.fire = fire % 2 ^ 32) with
  | none => (s, !(s.pdk p).whole d seq)
  | some c => s.strobeCommit p c

/-- A tick without a loop output frame at a paddock (R291). -/
def State.frameMissing (s : State) : State :=
  (List.range s.part.paddocks).foldl (fun s p =>
    if s.pdkHears p = true ∧ ((s.pdk p).frame.map fun f => (f.tick + 1) % 2 ^ 48) ≠ some (s.tick % 2 ^ 48) then
      s.pdkErr p fSHP_PDK_ERR_MISSING.lo
    else s) s

end Sys2Proof.Machine
end

