-- ==== Sys2Proof/Machine/Seq.lean ====
section
/-! DEFINITION. The sequencer (R223 to R252): instants, scheduled commits, staging dispatch, turnout lists, rotation lists, time steps and the
expert commit. -/

namespace Sys2Proof.Machine

/-! ### Instants (R223 to R226) -/

/-- The staging lead L in PCLK periods (R13, R252). -/
def State.leadEdges (s : State) : Nat := (s.sRd SEQ_LEAD).toNat

/-- (T - now) mod 2^32. -/
def State.ahead (s : State) (t : Nat) : Nat := (t + 2 ^ 32 - s.now) % 2 ^ 32

/-- An instant is future (R224): L ≤ (T - now) mod 2^32 < 2^31, with L = 2.5 ns times the lead. -/
def State.future (s : State) (t : Nat) : Bool := decide (5 * s.leadEdges ≤ 2 * s.ahead t ∧ s.ahead t < 2 ^ 31)

/-- The fire edge of an instant: the PCLK edge at which TB0 is nearest to it, the later one on a tie (R225). Instants behind the present by the sense of
two's complement answer an edge that has passed, not below 0. -/
def State.edgeOf (s : State) (t : Nat) : Nat :=
  let diff := toSigned 56 (t * 2 ^ 24 + 2 ^ 56 - s.tb0 % 2 ^ 56)
  let inc := (s.rd 0 TIM_INCR).toNat
  ((s.edge : Int) + (if inc = 0 then 0 else roundHalfUp diff inc)).toNat

/-- Device time in whole ns with its wraps (R366). -/
def State.unwrapped (s : State) : Int := (s.tb0 / 2 ^ 24 : Nat)

/-- The PCLK edge at which TB0 is nearest to an unwrapped instant (R225, R251). -/
def State.edgeAbs (s : State) (t : Int) : Nat :=
  let inc := (s.rd 0 TIM_INCR).toNat
  ((s.edge : Int) + (if inc = 0 then 0 else roundHalfUp (t * 2 ^ 24 - s.tb0) inc)).toNat

/-- 100 ns, 2.0 us and 5 ns in PCLK periods. -/
def edges100ns : Nat := 40
def edges2us : Nat := 800

/-! ### Scheduled commits -/

def State.domSeqOf (s : State) (d : Nat) : DomSeq := Tab.get s.domSeq {} d
def State.setDomSeq (s : State) (d : Nat) (v : DomSeq) : State := { s with domSeq := Tab.set s.domSeq {} d v }

/-- The scheduled commits of a domain in the order in which they fire. -/
def State.domCommits (s : State) (d : Nat) : List Commit := s.commits.filter fun c => decide (c.dom = d)

/-- The paddocks that hold channels of a domain. -/
def State.domPdks (s : State) (d : Nat) : List Nat := (List.range s.part.paddocks).filter fun p => s.domOnPdk d p

/-- The shadows of paddocks are lost: no domain with channels on them has a staged slot any more (R189, R486, R489). -/
def State.shadowsLost (s : State) (ps : List Nat) : State :=
  { s with slots := s.slots.map fun e =>
      if (e.2.plan.map fun q => ps.any fun p => s.domOnPdk q.dom p) = some true then (e.1, { e.2 with staged := false }) else e }

/-- A commit that no decision changes any more: armed, and its fire edge less than 100 ns ahead (R228). -/
def State.frozen (s : State) (c : Commit) : Bool := decide (c.stage = 2 ∧ c.fire < s.edge + edges100ns)

/-- A frame of a kind for a commit, to every paddock concerned (R228). -/
def State.sendCommit (s : State) (kind : CtlKind) (c : Commit) : State :=
  (s.domPdks c.dom).foldl (fun s p => s.sendCtl p ⟨kind, .A, 0, p, 0, c.seq, c.dom, c.slot, 0, c.fire, 0, []⟩) s

/-- The fire edge of a commit's instant (R225, R251). -/
def State.instantEdge (s : State) (c : Commit) : Nat :=
  if c.fixed then c.fire else if c.src = 2 then s.edgeAbs c.abs else s.edgeOf c.instant

/-- How far ahead a commit's instant lies, in ns; below 0 where it has passed. -/
def State.until (s : State) (c : Commit) : Int :=
  if c.src = 2 then c.abs - s.unwrapped else toSigned 32 (s.ahead c.instant)

/-- An armed expert commit whose fire edge a forward step has put less than 100 ns ahead fires 100 ns after it, late (R228, R251). -/
def State.passed (s : State) (c : Commit) : Commit :=
  let f := s.instantEdge c
  if c.src = 2 ∧ c.stage = 2 ∧ f < s.edge + edges100ns then { c with fire := s.edge + edges100ns, late := true, fixed := true } else { c with fire := f }

/-- The commit with its fire edge moved to 2.0 us after the domain's previous one where that asks for it; a moved one is late (R226). Rotation starts are
left to R247. -/
def State.settle (s : State) (prev : Option Nat) (c : Commit) : Commit :=
  if s.frozen c then c
  else
    let c := s.passed c
    match prev with
    | some p => if c.src ≠ 1 ∧ c.fire < p + edges2us then { c with fire := p + edges2us, late := true } else c
    | none => c

/-- Settles the commits of one domain in order. -/
def State.settleDom (s : State) : Option Nat → List Commit → List Commit
  | _, [] => []
  | prev, c :: r => let c' := s.settle prev c; c' :: s.settleDom (some c'.fire) r

/-- The commits put in order of their fire edges; the order of equal ones stays. -/
def insCommit (c : Commit) : List Commit → List Commit
  | [] => [c]
  | d :: r => if c.fire ≤ d.fire then c :: d :: r else d :: insCommit c r

def sortCommits : List Commit → List Commit
  | [] => []
  | c :: r => insCommit c (sortCommits r)

/-- Recomputes the fire edges of a domain's commits and sends a retime frame for every armed one that moves (R225, R226, R228). -/
def State.refire (s : State) (d : Nat) : State :=
  let old := s.domCommits d
  let new := s.settleDom (s.domSeqOf d).last (sortCommits (old.map (s.settle none)))
  let s := { s with commits := sortCommits ((s.commits.filter fun c => decide (c.dom ≠ d)) ++ new) }
  new.foldl (fun s c =>
    if c.stage = 2 ∧ (old.any fun o => decide (o.seq = c.seq ∧ o.stage = 2 ∧ o.fire ≠ c.fire)) = true
    then s.sendCommit .retime c else s) s

/-- A commit joins the schedule. -/
def State.schedule (s : State) (c : Commit) : State :=
  { s with commits := sortCommits (s.commits ++ [s.settle none c]) }.refire c.dom

/-- Adds to a counter that wraps at 2^32, in both shepherds (R252). -/
def State.wrapCount (s : State) (off k : Nat) : State :=
  both (fun x s => s.wr x.bank off (s.rd x.bank off + BitVec.ofNat 32 k)) s

def State.seqFlag (s : State) (f : Fld) : State := both (fun x s => s.pFlag x SEQ_STATUS f) s

/-- The flags and counters of an outcome (R246, R252). -/
def State.countOutcome (s : State) (outcome : Nat) : State :=
  match outcome with
  | 1 => s.wrapCount SEQ_CNT_COMMIT 1
  | 2 => ((s.wrapCount SEQ_CNT_COMMIT 1).wrapCount SEQ_CNT_LATE 1).seqFlag fSEQ_STATUS_LATE_SEEN
  | 3 => (s.wrapCount SEQ_CNT_MISS 1).seqFlag fSEQ_STATUS_STALE_SEEN
  | 4 => (s.wrapCount SEQ_CNT_MISS 1).seqFlag fSEQ_STATUS_LATE_STAGE_SEEN
  | 6 => (s.wrapCount SEQ_CNT_MISS 1).seqFlag fSEQ_STATUS_OMIT_SEEN
  | 7 => (s.wrapCount SEQ_CNT_MISS 1).seqFlag fSEQ_STATUS_SKIP_SEEN
  | 8 => s.wrapCount SEQ_CNT_COMMIT 1
  | 9 => s.wrapCount SEQ_CNT_COMMIT 1
  | _ => s

/-- PLAN_ID of a slot; 0 where it holds no plan. -/
def State.planIdOf (s : State) (slot : Nat) : Nat := (((s.slot slot).plan).map fun p => p.planId).getD 0

/-- A COMMIT event and SEQ_DOM_STAT.OUTCOME for an outcome (R246, R348). -/
def State.reportCommit (s : State) (dom slot outcome src instant time tag seq : Nat) : State :=
  let pid := if slot < 256 then s.planIdOf slot else 0
  let s := (s.countOutcome outcome).sPut (SEQ_DOM_STAT dom) fSEQ_DOM_STAT_OUTCOME outcome
  s.event 2 (leBytes 1 dom ++ leBytes 1 slot ++ leBytes 1 outcome ++ leBytes 1 src ++ leBytes 4 instant ++ leBytes 4 time ++
    leBytes 4 tag ++ leBytes 4 seq ++ leBytes 4 pid)

/-- A scheduled commit leaves the schedule. -/
def State.drop (s : State) (c : Commit) : State := { s with commits := s.commits.erase c }

/-- A commit is disposed of without firing: an armed one is cancelled in the paddocks (R228, R246). -/
def State.dispose (s : State) (c : Commit) (outcome : Nat) : State :=
  let s := if c.stage = 2 then s.sendCommit .cancel c else s
  (s.drop c).reportCommit c.dom c.slot outcome c.src c.instant s.now c.tag c.seq

/-! ### Rotation grids (R241 to R243) -/

/-- The entry starts of one cycle: offset, entry index, slot, duration. -/
def entryStarts : Nat → Nat → List (Nat × Nat) → List (Nat × Nat × Nat × Nat)
  | _, _, [] => []
  | off, j, e :: r => (off, j, e.1, e.2) :: entryStarts (off + e.2) (j + 1) r

/-- The first start of a list at or after an offset: offset, entry index, slot, duration. -/
def RotList.startAt (l : RotList) (off : Nat) : Option (Nat × Nat × Nat × Nat) :=
  let m := off / l.cycle
  let starts := entryStarts 0 0 l.ents
  match starts.find? fun e => decide (off ≤ m * l.cycle + e.1) with
  | some e => some (m * l.cycle + e.1, e.2)
  | none => match starts with
    | e :: _ => some ((m + 1) * l.cycle + e.1, e.2)
    | [] => none

/-- The offset at which the pending list's own grid begins: its first boundary, at or after B. -/
def Rot.pendOff (r : Rot) (p : RotList) : Nat := r.takeOff + (p.first + 2 ^ 32 - (r.run.first + r.takeOff) % 2 ^ 32) % 2 ^ 32

/-- The first start of the rotation at or after an offset: the running list before B, the pending list from its first boundary on (R243). -/
def Rot.startAt (r : Rot) (off : Nat) : Option (Nat × Nat × Nat × Nat) :=
  let pendStart (p : RotList) : Option (Nat × Nat × Nat × Nat) :=
    let b := r.pendOff p
    if p.ents = [] then none else (p.startAt (off - b)).map fun e => (b + e.1, e.2)
  match r.run.startAt off, r.pend with
  | some e, none => some e
  | some e, some p => if e.1 < r.takeOff then some e else pendStart p
  | none, some p => pendStart p
  | none, none => none

/-- The instant of a start. -/
def Rot.instantAt (r : Rot) (off : Nat) : Nat := (r.run.first + off) % 2 ^ 32

/-- The next start of one list, within `n` starts from an offset, whose slot is not a given one. -/
def RotList.nextOther (l : RotList) (slot : Nat) : Nat → Nat → Option (Nat × Nat × Nat × Nat)
  | 0, _ => none
  | n + 1, off =>
    match l.startAt off with
    | none => none
    | some e => if e.2.2.1 = slot then l.nextOther slot n (e.1 + 1) else some e

/-- The next start whose slot is not the slot of the commit before it (R241): of the running list before B, else of the pending list from its first
boundary on (R243). One cycle of a list shows every slot that it names. -/
def Rot.nextDistinct (r : Rot) (slot off : Nat) : Option (Nat × Nat × Nat × Nat) :=
  let run := r.run.nextOther slot (r.run.ents.length + 1) off
  match r.pend with
  | none => run
  | some p =>
    let b := r.pendOff p
    let later := (p.nextOther slot (p.ents.length + 1) (off - b)).map fun e => (b + e.1, e.2)
    match run with
    | some e => if e.1 < r.takeOff then some e else later
    | none => later

def State.rotOf (s : State) (d : Nat) : Option Rot := Tab.get s.rots none d
def State.setRot (s : State) (d : Nat) (r : Option Rot) : State := { s with rots := Tab.set s.rots none d r }

/-- The scheduled start of a domain's rotation. -/
def State.rotCommit (s : State) (d : Nat) : Option Commit := s.commits.find? fun c => decide (c.src = 1 ∧ c.dom = d)

/-- A fire edge comes less than 2.0 us after that of the domain's commit before it (R226): the last one fired, or one scheduled before it. -/
def State.near (s : State) (d f : Nat) : Bool :=
  let own := ((s.domCommits d).filter fun c => decide (c.src ≠ 1 ∧ c.fire ≤ f)).map fun c => c.fire
  match (s.domSeqOf d).last.toList ++ own with
  | [] => false
  | l => decide (f < l.foldl max 0 + edges2us)

/-- The next start of a rotation that fires a commit, from an offset on; those that R226 does not let fire report OMITTED, as R247 has it. -/
def rotPick (d : Nat) (r : Rot) : Nat → Nat → State → State × Option (Nat × Nat × Nat × Nat)
  | 0, off, s => (s, r.nextDistinct (s.domSeqOf d).slot off)
  | n + 1, off, s =>
    match r.nextDistinct (s.domSeqOf d).slot off with
    | none => (s, none)
    | some e =>
      if s.near d (s.edgeOf (r.instantAt e.1)) then
        rotPick d r n (e.1 + 1) (s.reportCommit d e.2.2.1 6 1 (r.instantAt e.1) s.now e.2.1 0)
      else (s, some e)

/-- Schedules the next start of a domain's rotation at or after its offset, when none is scheduled. -/
def State.rotNext (s : State) (d : Nat) : State :=
  match s.rotOf d, s.rotCommit d with
  | some r, none =>
    match rotPick d r 8 r.off s with
    | (s, some (off, j, slot, _)) =>
      (s.setRot d (some { r with off := off })).schedule ⟨1, d, slot, r.instantAt off, j, 0, 0, 0, false, 0, 0, 0, false⟩
    | (s, none) => s
  | _, _ => s

/-- After a start was disposed of or fired, the rotation goes on to the next one. -/
def State.rotAdvance (s : State) (d : Nat) : State :=
  match s.rotOf d with
  | some r => (s.setRot d (some { r with off := r.off + 1 })).rotNext d
  | none => s

/-- A scheduled start that has come less than 2.0 us after the domain's last commit reports OMITTED (R226, R247). -/
def State.rotGuard (s : State) (d : Nat) : State :=
  match s.rotCommit d with
  | none => s
  | some c => if !s.frozen c && s.near d c.fire then (s.dispose c 6).rotAdvance d else s

/-- Recomputes every domain's fire edges: when the increment or the time changes (R225, R226, R248). -/
def State.refireAll (s : State) : State := (List.range 16).foldl (fun s d => (s.refire d).rotGuard d) s

/-- The scheduled start gives way where the lists have changed, unless it still is the next start (R243). -/
def State.rotReplan (s : State) (d : Nat) : State :=
  match s.rotOf d, s.rotCommit d with
  | some r, some c =>
    match r.nextDistinct (s.domSeqOf d).slot r.off with
    | some (off, _, slot, _) =>
      if r.instantAt off = c.instant ∧ slot = c.slot then s
      else ((if c.stage = 2 then s.sendCommit .cancel c else s).drop c).rotNext d
    | none => (if c.stage = 2 then s.sendCommit .cancel c else s).drop c
  | _, none => s.rotNext d
  | none, _ => s

/-- The first boundary of a grid (R242) against an edge in time: `lead2` is twice now + L, or twice B, in ns. -/
def firstBoundary (base cycle lead2 : Nat) (atOrAfter : Bool) : Nat :=
  if atOrAfter then base
  else
    let e2 := (lead2 + 2 ^ 34 - 2 * base) % 2 ^ 33
    (base + ceilDiv e2 (2 * cycle) * cycle) % 2 ^ 32

/-! ### Time steps (R247, R248) -/

/-- A start that R247 omits: less than 2.0 us after the domain's last commit, or the entry last committed within its DURATION of elapsed time. -/
def State.omitted (s : State) (d : Nat) (r : Rot) (e : Nat × Nat × Nat × Nat) : Bool :=
  let q := s.domSeqOf d
  let f := s.edgeOf (r.instantAt e.1)
  match q.last with
  | none => false
  | some l => decide (f < l + edges2us) ||
    (match q.rotEnt with
     | some (j, dur) => decide (e.2.1 = j) && decide (5 * (f - l) < 2 * dur)
     | none => false)

/-- The starts from an offset up to a bound report SKIPPED, but those that would fire no commit (R241, R247). -/
def skipStarts (d : Nat) (r : Rot) (upTo : Int) : Nat → Nat → State → State
  | 0, _, s => s
  | n + 1, off, s =>
    match r.startAt off with
    | none => s
    | some e =>
      if upTo ≤ (e.1 : Int) then s
      else
        let s := if e.2.2.1 = (s.domSeqOf d).slot then s
          else s.reportCommit d e.2.2.1 7 1 (r.instantAt e.1) s.now e.2.1 0
        skipStarts d r upTo n (e.1 + 1) s

/-- The starts from an offset on that R247 omits report OMITTED; answers the state and the offset of the first one that stands. -/
def omitStarts (d : Nat) (r : Rot) : Nat → Nat → State → State × Nat
  | 0, off, s => (s, off)
  | n + 1, off, s =>
    match r.startAt off with
    | none => (s, off)
    | some e =>
      if s.omitted d r e then
        omitStarts d r n (e.1 + 1) (s.reportCommit d e.2.2.1 6 1 (r.instantAt e.1) s.now e.2.1 0)
      else (s, e.1)

/-- R247 selects a rotation's next commit: at a time step, and when a domain returns to service (R249). A start that is no longer to be changed fires first
(R228). -/
def State.rotSelect (s : State) (d : Nat) : State :=
  match s.rotOf d with
  | none => s
  | some r =>
    match s.rotCommit d with
    | some c => if s.frozen c then s.setDomSeq d { s.domSeqOf d with reselect := true } else go s r (some c)
    | none => go s r none
where
  go (s : State) (r : Rot) (c : Option Commit) : State :=
    let lo : Int := s.unwrapped - r.org + ((5 * s.leadEdges + 1) / 2 : Nat)
    let fuel := 2 * ((lo - r.off).toNat / 2000 + 4)
    let s := skipStarts d r lo fuel r.off s
    let (s, off) := omitStarts d r 600000 (max lo 0).toNat s
    let r := { r with off := off }
    let s := s.setRot d (some r)
    match c with
    | none => s.rotNext d
    | some c =>
      match r.nextDistinct (s.domSeqOf d).slot off with
      | some (o, _, slot, _) =>
        if r.instantAt o = c.instant ∧ slot = c.slot then s.setRot d (some { r with off := o })
        else (((if c.stage = 2 then s.sendCommit .cancel c else s).drop c)).rotNext d
      | none => (if c.stage = 2 then s.sendCommit .cancel c else s).drop c

/-! ### The earliest feasible instant (R231, R236) -/

/-- The links of a staging of a domain with the time that each is busy, in PCLK periods (R231). -/
def State.stagingLinks (s : State) (d : Nat) : List (Nat × Nat) :=
  (s.domPdks d).map fun p =>
    let ls := (s.tagged p d).map fun c => c % 2048
    (p, 30 * ceilDiv (ls.foldl max 0 + 1 - ls.foldl min 2047) 128)

/-- Link p is free from `a` for `len` in a projection of busy intervals (link, start, end). -/
def linkFree (busy : List (Nat × Nat × Nat)) (p a len : Nat) : Bool :=
  busy.all fun b => decide (b.1 ≠ p ∨ b.2.2 ≤ a ∨ a + len ≤ b.2.1)

/-- The first edge not before `lb` at which every link is free for its time. -/
def placeAt (busy : List (Nat × Nat × Nat)) (links : List (Nat × Nat)) (lb : Nat) : Nat :=
  let cands := sortN (lb :: (busy.map fun b => b.2.2).filter fun e => decide (lb < e))
  ((cands.find? fun a => links.all fun l => linkFree busy l.1 a l.2)).getD (cands.foldl max lb)

/-- Starts of a rotation in a domain out of service or parked by a reaction report SKIPPED (R249, R523). -/
def State.skipsStart (s : State) (c : Commit) : Bool :=
  decide (c.src = 1) && (s.domOut c.dom || bitAt (s.sGet ALM_PARKED fALM_PARKED_DOMAIN) c.dom) && !s.frozen c

/-- The busy intervals of stagings with those of a list of commits placed one after another behind them (R236); `all` are the commits among which the one before
each in its domain is found. A rotation start that will be skipped needs no staging. -/
def projectOf (s : State) (all : List Commit) : List Commit → List (Nat × Nat × Nat) → List (Nat × Nat × Nat)
  | [], busy => busy
  | c :: r, busy =>
    if s.skipsStart c || decide (c.stage ≠ 0) then projectOf s all r busy
    else
      let own := (all.filter fun k => decide (k.dom = c.dom ∧ k.fire < c.fire)).map fun k => k.fire
      let lb := ((s.domSeqOf c.dom).last.toList ++ own).foldl (fun e f => max e (f + 1)) s.edge
      let links := s.stagingLinks c.dom
      let a := placeAt busy links lb
      projectOf s all r (busy ++ links.map fun l => (l.1, a, a + l.2))

/-- Commits in order of their instants, equal ones in increasing domain number (R230, R236). -/
def insInstant (s : State) (c : Commit) : List Commit → List Commit
  | [] => [c]
  | d :: r => if s.until c < s.until d ∨ (s.until c = s.until d ∧ c.dom ≤ d.dom) then c :: d :: r else d :: insInstant s c r

def sortInstant (s : State) : List Commit → List Commit
  | [] => []
  | c :: r => insInstant s c (sortInstant s r)

/-- The edge at which an entry of domain d fires at the earliest: L after the first edge at which its staging can start, and 2.0 us after the commit before
it. `extra` are the earlier entries of the same command. -/
def earliestEdge (s : State) (d : Nat) (extra : List Commit) : Nat → Nat → Nat
  | 0, prev => max s.edge prev + s.leadEdges
  | n + 1, prev =>
    let started := s.stagings.flatMap fun t => t.links.filterMap fun l => if s.edge < l.2 then some (l.1, s.edge, l.2) else none
    let busy := projectOf s (s.commits ++ extra) extra (projectOf s s.commits (sortInstant s s.commits) started)
    let lb := if prev = 0 then s.edge else max s.edge (prev + 1)
    let a := placeAt busy (s.stagingLinks d) lb
    let f := max (a + s.leadEdges) (if prev = 0 then 0 else prev + edges2us)
    let later := (s.domCommits d).filter fun c => decide (prev < c.fire ∧ c.fire ≤ f)
    if later = [] then f else earliestEdge s d extra n ((later.map fun c => c.fire).foldl max prev)

/-- The earliest feasible instant (R236). -/
def State.earliest (s : State) (d : Nat) (extra : List Commit) : Nat :=
  let own := (((s.domCommits d).filter fun c => decide (c.stage ≠ 0)) ++ extra).map fun c => c.fire
  s.timeAt (earliestEdge s d extra (s.commits.length + 1) (own.foldl max ((s.domSeqOf d).last.getD 0)))

/-! ### Turnouts (R233 to R238) -/

/-- A turnout entry of 16 bytes (R233): instant, slot, domain, flags, tag, whether its reserved bits are 0. -/
structure TurnEnt where
  instant : Nat
  slot : Nat
  dom : Nat
  flags : Nat
  tag : Nat
  ok : Bool
  deriving DecidableEq, Repr

def turnEnt (bs : List Byte) : TurnEnt :=
  ⟨leAt bs 0 4, leAt bs 4 1, leAt bs 5 1, leAt bs 6 2, leAt bs 8 4, decide (leAt bs 6 2 < 4 ∧ leAt bs 12 4 = 0)⟩

/-- Schedule commands for domain d are refused with SEQ_MODE (R245). -/
def State.seqModeBad (s : State) (d : Nat) : Bool :=
  decide (s.mode ≠ .service ∧ s.mode ≠ .maintenance) || s.domOut d || bitAt (s.sGet ALM_PARKED fALM_PARKED_DOMAIN) d

/-- The instants that the entries of a command receive (R235, R236): commits in order, and whether some entry is stale. -/
def assignInstants (s : State) (d : Nat) : List TurnEnt → List Commit → List Commit × Bool
  | [], acc => (acc, false)
  | e :: r, acc =>
    let mk (t : Nat) (late : Bool) : Commit := ⟨0, d, e.slot, t, e.tag, 0, e.flags, s.edgeOf t, late, 0, 0, 0, false⟩
    if bitAt e.flags 1 then assignInstants s d r (acc ++ [mk (s.earliest d acc) false])
    else if s.future e.instant then assignInstants s d r (acc ++ [mk e.instant false])
    else if bitAt e.flags 0 then assignInstants s d r (acc ++ [mk (s.earliest d acc) true])
    else
      let q := assignInstants s d r (acc ++ [mk e.instant false])
      (q.1, true)

/-- Two instants lie less than 2.0 us apart. -/
def tooClose (a b : Nat) : Bool := decide ((toSigned 32 (a + 2 ^ 32 - b)).natAbs < 2000)

/-- Each entry's instant is later than that of the one before it. -/
def rising : List Nat → Bool
  | a :: b :: r => decide (0 < (b + 2 ^ 32 - a) % 2 ^ 32 ∧ (b + 2 ^ 32 - a) % 2 ^ 32 < 2 ^ 31) && rising (b :: r)
  | _ => true

/-- Some two of the new instants, or a new and a kept one, are too close (R235). -/
def crowded (kept : List Nat) : List Nat → Bool
  | [] => false
  | t :: r => (kept ++ r).any (tooClose t) || crowded kept r

/-- The lowest free index of the turnout pool. -/
def State.freeIdx (s : State) : Nat :=
  ((List.range 4096).find? fun i => !(s.commits.any fun c => decide (c.src = 0 ∧ c.idx = i))).getD 0

def State.poolUsed (s : State) : Nat := (s.commits.filter fun c => decide (c.src = 0)).length

/-- Evaluates a turnout command at one edge, whole or not at all (R235, R237, R245). `k`: none for ADD, the TAKEOVER of a REPLACE. `fmt` is false where
the command's own layout fails. -/
def evalTurnouts (d : Desc) (dom : Nat) (k : Option Nat) (es : List TurnEnt) (fmt : Bool) (s : State) : State :=
  let fail (c : Nat) : State := s.complete d 3 c []
  if s.seqModeBad dom then fail 0x01
  else if !fmt || es.any (fun e => !e.ok) then fail 0x02
  else if s.dom? dom = none ∨ (es.any fun e => decide (e.dom ≠ dom)) = true then fail 0x03
  else if es.any fun e => !s.slotReady e.slot dom then fail 0x04
  else if s.rotOf dom ≠ none then fail 0x05
  else
    let kNow := k.map fun t => if s.future t then t else s.now
    let removed : List Commit := match kNow with
      | none => []
      | some t => (s.domCommits dom).filter fun (c : Commit) => decide (c.src = 0 ∧ (c.instant + 2 ^ 32 - t) % 2 ^ 32 < 2 ^ 31) && !s.frozen c
    let kept := ((s.domCommits dom).filter fun c => decide (c.src = 0 ∧ c ∉ removed)).map fun c => c.instant
    let s1 := { s with commits := s.commits.filter fun c => decide (c ∉ removed) }
    let (cs, stale) := assignInstants s1 dom es []
    let ts := cs.map fun c => c.instant
    let before := match kNow with
      | none => false
      | some t => ts.any fun i => decide (2 ^ 31 ≤ (i + 2 ^ 32 - t) % 2 ^ 32)
    if !rising ts || before then fail 0x06
    else if crowded kept ts then fail 0x07
    else if 4096 < s1.poolUsed + cs.length then fail 0x09
    else if stale then fail 0x0A
    else
      let s := removed.foldl (fun s c => s.dispose c 5) s
      let s := cs.foldl (fun s c => s.schedule { c with idx := s.freeIdx }) s
      s.complete d 3 0 (leBytes 4 (ts.headD 0) ++ leBytes 2 cs.length ++ leBytes 2 removed.length)

/-- TURNOUT: an ADD with one entry (R234). -/
def startTurnout (d : Desc) (s : State) : State :=
  let e := turnEnt d.inl
  evalTurnouts d e.dom none [e] true s

/-- TURNOUT_LIST (R234 to R237). -/
def startTurnoutList (d : Desc) (s : State) : State :=
  let p := d.pay
  let n := leAt p 2 2
  let mode := leAt p 1 1
  let fmt := decide (16 ≤ p.length ∧ mode ≤ 1 ∧ n ≤ 4096 ∧ (n ≠ 0 ∨ mode = 1) ∧ leAt p 8 8 = 0 ∧ p.length = 16 + 16 * n)
  let es := if fmt then (List.range n).map fun i => turnEnt (p.drop (16 + 16 * i)) else []
  evalTurnouts d (leAt p 0 1) (if mode = 1 then some (leAt p 4 4) else none) es fmt s

/-- TURNOUT_CANCEL (R238, R245). -/
def startTurnoutCancel (d : Desc) (s : State) : State :=
  let dom := d.in1 32
  if s.mode ≠ .service ∧ s.mode ≠ .maintenance then s.complete d 3 0x01 []
  else if 1 < d.in1 33 then s.complete d 3 0x02 []
  else if s.dom? dom = none then s.complete d 3 0x03 []
  else
    let rem := (s.domCommits dom).filter fun c =>
      decide (c.src = 0 ∧ (d.in1 33 = 1 ∨ c.tag = d.in4 36)) && decide (s.edge + edges100ns ≤ c.fire)
    let s := rem.foldl (fun s c => s.dispose c 0x0A) s
    s.complete d 3 0 (leBytes 2 rem.length)

/-! ### Rotation lists (R239 to R244) -/

/-- RESULT of a rotation command (R341). -/
def rotResult (b : Nat) (sched : Bool) : List Byte := leBytes 4 b ++ leBytes 1 (bitN sched)

/-- A rotation list is loaded: running at once where none runs, else pending (R242, R243). -/
def loadRotation (d : Desc) (dom base cycle takeover : Nat) (ents : List (Nat × Nat)) (s : State) : State :=
  match s.rotOf dom with
  | none =>
    if ents = [] then s.complete d 3 0 (rotResult 0 false)
    else
      let first := firstBoundary base cycle (2 * s.now + 5 * s.leadEdges) (s.future base)
      let org := s.unwrapped + (s.ahead first : Int)
      let s := (s.setRot dom (some ⟨⟨first, cycle, ents⟩, org, 0, none, 0⟩)).rotNext dom
      s.complete d 3 0 (rotResult first true)
  | some r =>
    let now := s.unwrapped - r.org
    let t := if s.future takeover then (s.ahead takeover : Int) else ((5 * s.leadEdges + 1) / 2 : Nat)
    let off := ceilDiv (max 0 (now + t)).toNat r.run.cycle * r.run.cycle
    let lo := (max 0 (now + ((5 * s.leadEdges + 1) / 2 : Nat))).toNat
    let b := r.instantAt off
    let first := firstBoundary base cycle (2 * b) (decide ((base + 2 ^ 32 - b) % 2 ^ 32 < 2 ^ 31))
    let s := match r.pend with
      | some p =>
        let held := if p.ents = [] then r.instantAt r.takeOff else p.first
        s.reportCommit dom ((p.ents.head?.map Prod.fst).getD 0xFF) 5 1 held s.now 0 0
      | none => s
    let takeAt := if ents = [] then b else first
    let s := (s.setRot dom (some { r with off := min r.off lo, pend := some ⟨takeAt, cycle, ents⟩, takeOff := off })).rotReplan dom
    s.complete d 3 0 (rotResult takeAt true)

/-- ROTATION_LIST (R239, R240, R245). -/
def startRotationList (d : Desc) (s : State) : State :=
  let p := d.pay
  let dom := leAt p 0 1
  let n := leAt p 2 2
  let ents := (List.range n).map fun i => (leAt p (32 + 8 * i) 1, leAt p (32 + 8 * i + 4) 4)
  let cycle := leAt p 8 4
  let fmt := decide (32 ≤ p.length ∧ leAt p 1 1 = 0 ∧ n ≤ 1024 ∧ leAt p 16 8 = 0 ∧ leAt p 24 8 = 0 ∧ p.length = 32 + 8 * n) &&
    (List.range n).all fun i => decide (leAt p (32 + 8 * i + 1) 3 = 0)
  let fail (c : Nat) : State := s.complete d 3 c []
  if s.seqModeBad dom then fail 0x01
  else if !fmt then fail 0x02
  else match s.dom? dom with
    | none => fail 0x03
    | some dr =>
      if ents.any fun e => !s.slotReady e.1 dom then fail 0x04
      else if !dr.bell ∨ (n ≠ 0 ∧ ((s.domCommits dom).any fun c => decide (c.src = 0)) = true) then fail 0x05
      else if n ≠ 0 ∧ (ents.any fun e => decide (e.2 < 2000 ∨ 2 * e.2 < 5 * s.leadEdges)) = true then fail 0x07
      else if n ≠ 0 ∧ (cycle ≠ (ents.map fun (e : Nat × Nat) => e.2).foldl (· + ·) 0 ∨ 2 ^ 30 < cycle) then fail 0x08
      else loadRotation d dom (leAt p 4 4) cycle (leAt p 12 4) ents s

/-- ROTATION_STOP: the empty pending list (R243, R245). -/
def startRotationStop (d : Desc) (s : State) : State :=
  let dom := d.in1 32
  if s.mode ≠ .service ∧ s.mode ≠ .maintenance then s.complete d 3 0x01 []
  else match s.dom? dom with
    | none => s.complete d 3 0x03 []
    | some dr => if !dr.bell then s.complete d 3 0x05 [] else loadRotation d dom 0 1 (d.in4 36) [] s

/-- ROTATION_TAKEOVER of domain d (R243): at the first boundary of its own grid at or after B the pending list becomes the running one; an empty one stops the
rotation at B. -/
def doRotationTakeover (d : Nat) (s : State) : State :=
  match s.rotOf d with
  | none => s
  | some r =>
    match r.pend with
    | none => s
    | some p =>
      let off := if p.ents = [] then r.takeOff else r.pendOff p
      let takeAt := s.edgeOf (r.instantAt off)
      if (s.unwrapped - r.org < off ∧ (s.tick + 1) * 400 ≤ takeAt) then s
      else
        let s := s.toEdge takeAt
        if p.ents = [] then s.setRot d none
        else
          s.setRot d (some { run := p, org := r.org + off, off := r.off - off, pend := none, takeOff := 0 })

/-! ### Staging dispatch (R230 to R232) -/

/-- A domain's first scheduled commit when its staging has not started. -/
def State.toStage (s : State) (d : Nat) : Option Commit :=
  match s.domCommits d with
  | c :: _ => if c.stage = 0 then some c else none
  | [] => none

/-- The edge at which the staging of a commit can start: the previous commit has passed and every link is free (R230). -/
def State.stageEdge (s : State) (c : Commit) : Nat :=
  let lb := match (s.domSeqOf c.dom).last with
    | some f => max s.edge (f + 1)
    | none => s.edge
  (s.stagings.flatMap fun t => t.links.filterMap fun l => if l.1 ∈ s.domPdks c.dom then some l.2 else none).foldl max lb

/-- The slot of a commit may be staged: READY or LIVE, and no refresh of it runs (R230). -/
def State.stageable (s : State) (c : Commit) : Bool :=
  s.slotReady c.slot c.dom && !(s.slot c.slot).refresh && !(s.stagings.any fun t => decide (t.dom = c.dom))

/-- The stagings that can start within the present tick and in time: edge and commit. -/
def State.eligible (s : State) : List (Nat × Commit) :=
  (List.range 16).filterMap fun d =>
    match s.toStage d with
    | some c =>
      let e := s.stageEdge c
      if !s.skipsStart c && s.stageable c && decide (e < (s.tick + 1) * 400) && (decide (c.src = 2) || decide (e + s.leadEdges ≤ c.fire)) then some (e, c)
      else none
    | none => none

/-- The first to start: the earliest edge, then the earliest instant, then the lower domain (R230). -/
def pickStage (s : State) : List (Nat × Commit) → Option (Nat × Commit)
  | [] => none
  | a :: r =>
    match pickStage s r with
    | none => some a
    | some b => if a.1 < b.1 ∨ (a.1 = b.1 ∧ s.until a.2 ≤ s.until b.2) then some a else some b

/-- The staging frames of a domain for one paddock (R210): up to 128 codes from a first local index each. -/
def stageFrames (codes : List (Nat × Nat)) (lo n : Nat) : List (Nat × List (Nat × Nat)) :=
  (List.range n).map fun i =>
    let a := lo + 128 * i
    (a, codes.filter fun e => decide (a ≤ e.1 % 2048 ∧ e.1 % 2048 < a + 128))

/-- STAGING_START: the sequencer starts the staging that R230 gives first. -/
def doStagingStart (s : State) : State :=
  match pickStage s s.eligible with
  | none => s
  | some (e, c) =>
    match (s.slot c.slot).plan with
    | none => s
    | some p =>
      let s := s.toEdge e
      let seq := s.stageSeq
      let links := s.stagingLinks c.dom
      let s := { s with
        stageSeq := (seq + 1) % 2 ^ 32
        slots := s.slots.map fun k => if k.2.plan.map (fun q => q.dom) = some c.dom then (k.1, { k.2 with staged := false }) else k
        stagings := s.stagings ++ [⟨seq, c.dom, c.slot, links.map fun l => (l.1, s.edge + l.2)⟩]
        commits := s.commits.map fun k => if k = c then { k with stage := 1, seq := seq } else k }
      links.foldl (fun s l =>
        let codes := (p.image.filter fun i => decide (pdkOf i.ch = l.1)).map fun i => (i.ch, i.code)
        let lo := (codes.map fun i => i.1 % 2048).foldl min 2047
        let hi := (codes.map fun i => i.1 % 2048).foldl max 0
        (stageFrames codes lo (l.2 / 30)).foldl (fun s f =>
          s.sendCtl l.1 ⟨.stage, .A, 0, l.1, 0, seq, c.dom, c.slot, f.1, 0, ceilDiv (min 128 (hi + 1 - f.1)) 16, f.2⟩) s) s

/-- STAGING_COMPLETE of domain d: its last link has finished, and each shepherd sends the commit frames (R228, R231). An expert commit whose staging
completes after its fire edge less 100 ns fires 100 ns after completion, and the commits behind it keep their distance (R226, R251). -/
def doStagingComplete (d : Nat) (s : State) : State :=
  match s.stagings.find? fun t => decide (t.dom = d) with
  | none => s
  | some t =>
    let s := { s with stagings := s.stagings.erase t }
    let s := if s.slotReady t.slot d then s.modSlot t.slot fun k => { k with staged := true } else s
    match s.commits.find? fun c => decide (c.seq = t.seq ∧ c.stage = 1) with
    | none => s
    | some c =>
      let c' := if c.src = 2 ∧ c.fire < s.edge + edges100ns then { c with stage := 2, fire := s.edge + edges100ns, late := true, fixed := true }
        else { c with stage := 2 }
      ({ s with commits := sortCommits (s.commits.map fun k => if k = c then c' else k) }.sendCommit .commit c').refire d

/-- The first commit of domain d whose staging has not started by its fire edge less L (R232). -/
def State.lateOne (s : State) (d : Nat) : Option Commit :=
  (s.domCommits d).find? fun c => decide (c.stage = 0 ∧ c.src ≠ 2 ∧ c.fire < s.edge + s.leadEdges) && !s.skipsStart c

/-- LATE_STAGE of domain d: a staging has not started by its fire edge less L, be it that of the next commit or of one behind it (R232). -/
def doLateStage (d : Nat) (s : State) : State :=
  match s.lateOne d with
  | none => s
  | some c =>
    if c.src = 1 then (s.dispose c 4).rotAdvance d
    else if bitAt c.flags 0 then
      let s := (s.wrapCount SEQ_CNT_MISS 1).seqFlag fSEQ_STATUS_LATE_STAGE_SEEN
      let t := (s.drop c).earliest d []
      (s.drop c).schedule { c with instant := t, late := true }
    else s.dispose c 4

/-! ### Firing (R227, R229, R249) -/

/-- Some flock of the domain is held at clear (R249, CLEARED). -/
def State.domForced (s : State) (d : Nat) : Bool := (s.domChans d).any fun c => s.forced (flockOf c)

/-- The slot of a fired commit becomes LIVE, and the one that was LIVE becomes READY (R189, R229). -/
def State.makeLive (s : State) (d slot : Nat) : State :=
  let s := match s.liveSlot d with
    | some i => s.modSlot i fun k => { k with state := 2 }
    | none => s
  s.modSlot slot fun k => { k with state := 3 }

/-- The edge at which a paddock strobes a commit it has armed: the first one of the present tick or later with the low 32 bits of FIRE (R288). -/
def State.armedEdge (s : State) (k : PdkCommit) : Nat :=
  let b := s.tick * 400
  b + (k.fire + 2 ^ 32 - b % 2 ^ 32) % 2 ^ 32

/-- Commits armed in paddocks for edges of the present tick up to a bound that are not those of the schedule, nor wait at a fence: a retime or cancel frame did not
reach the paddock (R228). -/
def State.strays (s : State) (upTo : Nat) : List (Nat × PdkCommit) :=
  (List.range s.part.paddocks).flatMap fun p =>
    ((s.pdk p).commits.filter fun k => decide (s.armedEdge k ≤ upTo ∧ k.dom ∉ Tab.get s.xing [] p) &&
      !(s.commits.any fun c => decide (c.dom = k.dom ∧ c.seq = k.seq ∧ c.fire % 2 ^ 32 = k.fire ∧ c.stage = 2))).map fun k => (p, k)

/-- Each paddock acts on the latest commit, retime or cancel frame that it has received, so a stray one strobes at its own edge (R228). -/
def State.fireStrays (s : State) (upTo : Nat) : State :=
  (s.strays upTo).foldl (fun s e =>
    let s := s.toEdge (s.armedEdge e.2)
    if s.fenced e.1 then s.xingPend e.1 e.2.dom
    else
      let r := s.strobeCommit e.1 e.2
      if r.2 then r.1.report ⟨0x03, .domain, e.2.dom, 4, some e.1, 0⟩ else r.1) s

/-- COMMIT_FIRE of domain d at the fire edge of its first commit (R227, R229). -/
def doCommitFire (d : Nat) (s : State) : State :=
  match s.domCommits d with
  | [] => s
  | c :: _ =>
    if (s.tick + 1) * 400 ≤ c.fire then s
    else if s.skipsStart c then ((s.toEdge c.fire).dispose c 7).rotAdvance d
    else if c.stage ≠ 2 then s
    else
      let s := (s.fireStrays c.fire).toEdge c.fire
      let cleared := s.domForced d && decide (s.mode = .service ∨ s.mode = .maintenance)
      let r := (s.domPdks d).foldl (fun (a : State × List Nat) p =>
        let q := if a.1.fenced p then (a.1.xingPend p d, false) else a.1.firePdk d p c.seq c.fire
        (q.1, if q.2 then a.2 ++ [p] else a.2)) (s, [])
      let s := r.2.foldl (fun s p => s.report ⟨0x03, .domain, d, 4, some p, 0⟩) r.1
      let s := if r.2 = [] then s else both (fun x s => s.pFlag x DRO_ROUTE_STATUS fDRO_ROUTE_STATUS_SPLIT_SEEN) s
      let s := if r.2 = [] then s.makeLive d c.slot else s
      let outcome := if r.2 ≠ [] then 8 else if cleared then 9 else if c.late then 2 else 1
      let q := s.domSeqOf d
      let dur := if c.src = 1 then (s.rotOf d).bind fun ro => (ro.startAt ro.off).map fun e => (e.2.1, e.2.2.2) else none
      let s := s.setDomSeq d { q with last := some c.fire, slot := c.slot, rotEnt := dur, seed := some c.fire, split := r.2, reselect := false }
      let s := (s.domChans d).foldl State.spoil s
      let s := (s.domChans d).foldl (fun s c => both (fun x s => s.fitExclude x c) s) s
      let s := (s.drop c).reportCommit d c.slot outcome c.src c.instant (s.timeAt c.fire) c.tag c.seq
      if c.src ≠ 1 then s
      else if q.reselect then
        match s.rotOf d with
        | some ro => (s.setRot d (some { ro with off := ro.off + 1 })).rotSelect d
        | none => s
      else s.rotAdvance d

/-- The target of a plan that a channel matches (R191): its primary is LEVEL or RATIO and its MON_A names a PORT_OUT monitor of the port. -/
def State.targetOf (s : State) (p : Plan) (c : Nat) : Option Target :=
  let kind := s.sGet (LOOP_CTRL c) fLOOP_CTRL_KIND
  let mon := s.sGet (LOOP_MON c) fLOOP_MON_MON_A
  if kind ≠ 1 ∧ kind ≠ 2 then none
  else match s.mons.find? fun m => decide (m.sense = mon ∧ m.tap = 4) with
    | none => none
    | some m => p.targets.find? fun t => decide (((s.dom? p.dom).map fun r => r.base + t.port) = some m.ref)

def spAction (a : Nat) : SpAction := match a with
  | 1 => .step
  | 2 => .slew
  | _ => .keep

/-- COMMIT_LOOP_SEED of domain d at the first tick boundary after the fire edge (R146, R176, R191). Loops that are OPEN are not seeded (R249). -/
def doCommitLoopSeed (d : Nat) (s : State) : State :=
  let q := s.domSeqOf d
  match q.seed with
  | none => s
  | some fire =>
    if s.edge % 400 ≠ 0 ∨ s.edge ≤ fire then s
    else
      let s := s.setDomSeq d { q with seed := none }
      match (s.slot q.slot).plan with
      | none => s
      | some p => p.image.foldl (fun s e =>
          if s.loopState s.lead e.ch = 0 ∨ pdkOf e.ch ∈ q.split then s
          else
            let s := both (fun x s => s.setDir x e.ch (e.falling, e.tp)) s
            match s.targetOf p e.ch with
            | some t => s.commitLoop e.ch e.ff (spAction t.action) t.sp fire
            | none => s.commitLoop e.ch e.ff .keep 0 fire) s

/-! ### Steps, modes and the expert commit -/

/-- SEQUENCER_TIME_STEP at the first edge after a time step (R247, R248): rotations are selected and every commit retimed before the entries that have become past
take their earliest feasible instants. -/
def doSequencerStep (s : State) : State :=
  match s.stepped with
  | none => s
  | some delta =>
    let s := { s with stepped := none }
    let s := both (fun x s => s.wr x.bank SEQ_STEP (BitVec.ofNat 32 (ofSigned 32 delta))) s
    let s := (s.seqFlag fSEQ_STATUS_STEP_SEEN).notice SEQ_STATUS fSEQ_STATUS_STEP_SEEN.lo 0xFFFF []
    let past := s.commits.filter fun c => decide (c.src = 0) && !s.frozen c && !s.future c.instant
    let moved := past.filter fun c => bitAt c.flags 0
    let s := past.foldl (fun s c =>
      if bitAt c.flags 0 then (if c.stage = 2 then s.sendCommit .cancel c else s).drop c else s.dispose c 3) s
    let s := ((List.range 16).foldl (fun s d => s.rotSelect d) s).refireAll
    moved.foldl (fun s c => s.schedule { c with instant := s.earliest c.dom [], late := true, stage := 0, seq := 0 }) s

/-- A rotation list is removed and reports CANCELLED by its entry 0 (R243, R249; log entry 105): `held` is the boundary that it held. -/
def State.listCancelled (s : State) (d : Nat) (l : RotList) (held : Nat) : State :=
  s.reportCommit d ((l.ents.head?.map Prod.fst).getD 0xFF) 0x0A 1 held s.now 0 0

/-- The lists of a rotation report CANCELLED: the running one unless a start of it has just done so, and the pending one (R249). -/
def State.rotCancelled (s : State) (d : Nat) (started : Bool) (r : Rot) : State :=
  let s := if started then s else s.listCancelled d r.run (r.instantAt r.off)
  match r.pend with
  | some p => s.listCancelled d p (if p.ents = [] then r.instantAt r.takeOff else p.first)
  | none => s

/-- The device leaves SERVICE and MAINTENANCE, or a map takes effect: every list goes, but a commit within 100 ns fires as armed (R249, R56). -/
def State.cancelSchedules (s : State) (dom : Nat → Bool) : State :=
  let gone := s.commits.filter fun c => dom c.dom && !s.frozen c
  let s := gone.foldl (fun s c => s.dispose c 0x0A) s
  let s := (s.rots.filter fun e => dom e.1).foldl (fun s e => match e.2 with
    | some r => s.rotCancelled e.1 (gone.any fun c => decide (c.src = 1 ∧ c.dom = e.1)) r
    | none => s) s
  { s with rots := s.rots.filter fun e => !dom e.1 }

/-- A domain goes out of service, or is parked by a reaction: its turnouts and its expert commit report CANCELLED; its rotation keeps its grid, and a
start that had been staged is not fired (R249, R523). -/
def State.domainOut (s : State) (d : Nat) : State :=
  (s.domCommits d).foldl (fun s c =>
    if s.frozen c then s
    else if c.src ≠ 1 then s.dispose c 0x0A
    else
      let s := if c.stage = 2 then s.sendCommit .cancel c else s
      { s with commits := s.commits.map fun k => if k = c then { k with stage := 0, seq := 0 } else k }) s

/-- SEQ_ARM_CTRL with CANCEL: the expert commits go, under the 100 ns limit (R252). -/
def State.armCancel (s : State) : State :=
  (s.commits.filter fun c => decide (c.src = 2) && !s.frozen c).foldl (fun s c => s.dispose c 0x0A) s

/-- SEQ_ARM_CTRL with GO at the edge at which it takes effect (R251): whether the instant is ahead is settled here. -/
def State.armGo (s : State) (dom slot instant : Nat) : State :=
  let listed := decide (s.rotOf dom ≠ none) || (s.domCommits dom).any fun c => decide (c.src = 0)
  if s.seqModeBad dom || listed || !s.slotReady slot dom then s.seqFlag fSEQ_STATUS_BAD_ARM
  else
    s.schedule ⟨2, dom, slot, instant, 0, 0, 0, s.edge, false, 0, 0, s.unwrapped + toSigned 32 (s.ahead instant), decide (2 ^ 31 ≤ s.ahead instant)⟩

/-- A write to SEQ_ARM_CTRL at its boundary (R251, R252): SLOT and DOMAIN are stored, CANCEL acts before GO (log entry 8). -/
def State.writeArm (s : State) (v : Word) : State :=
  let s := s.sPut SEQ_ARM_CTRL fSEQ_ARM_CTRL_SLOT (fSEQ_ARM_CTRL_SLOT.get v)
  let s := s.sPut SEQ_ARM_CTRL fSEQ_ARM_CTRL_DOMAIN (fSEQ_ARM_CTRL_DOMAIN.get v)
  let s := if fSEQ_ARM_CTRL_CANCEL.bit v then s.armCancel else s
  if fSEQ_ARM_CTRL_GO.bit v then
    s.armGo (fSEQ_ARM_CTRL_DOMAIN.get v) (fSEQ_ARM_CTRL_SLOT.get v) (s.sRd SEQ_ARM_INSTANT).toNat
  else s

/-- A write to SEQ_CFG: MARGIN sets the staging lead of 1.2 us plus the margin, or is discarded (R13, R252). -/
def State.writeMargin (s : State) (v : Word) : State :=
  let m := fSEQ_CFG_MARGIN.get v
  if m < 40 ∨ 10000 < m then s.seqFlag fSEQ_STATUS_BAD_CFG
  else (s.sPut SEQ_CFG fSEQ_CFG_MARGIN m).sPut SEQ_LEAD fSEQ_LEAD_LEAD (480 + m)

/-! ### What the registers show (R252) -/

/-- A word of the turnout window: pool entry i in the layout of R233. -/
def State.turnoutWord (s : State) (i w : Nat) : Word :=
  match s.commits.find? fun c => decide (c.src = 0 ∧ c.idx = i) with
  | none => 0
  | some c =>
    match w with
    | 0 => BitVec.ofNat 32 c.instant
    | 1 => BitVec.ofNat 32 (c.slot + 256 * c.dom + 65536 * c.flags)
    | 2 => BitVec.ofNat 32 c.tag
    | _ => 0

/-- SEQ_DOM_STAT(d) with NEXT_SLOT, ROT and PENDING of the present. -/
def State.domStatWord (s : State) (x : Shep) (d : Nat) : Word :=
  let w := s.rd x.bank (SEQ_DOM_STAT d)
  let next := match s.domCommits d with
    | c :: _ => c.slot
    | [] => 0xFF
  let rot := match s.rotOf d with
    | none => 0
    | some r => if r.pend = none then 1 else 2
  let w := fSEQ_DOM_STAT_NEXT_SLOT.put w next
  let w := fSEQ_DOM_STAT_ROT.put w rot
  fSEQ_DOM_STAT_PENDING.put w ((s.domCommits d).filter fun c => decide (c.src = 0)).length

/-- SEQ_DOM_NEXT(d). -/
def State.domNextWord (s : State) (d : Nat) : Word :=
  match s.domCommits d with
  | c :: _ => BitVec.ofNat 32 c.instant
  | [] => 0

end Sys2Proof.Machine
end

