-- ==== Sys2Proof/Machine/Fold.lean ====
section
/-! DEFINITION. The fold, the flight recorder and the SRAM banks (R414 to R448). -/

namespace Sys2Proof.Machine

/-! ### Fold regions (R421) -/

/-- The library record size R in KiB (R214, R421). -/
def Part.recKiB (p : Part) : Nat := p.recBytes / 1024

/-- The fold capacity in MiB that a shepherd lays out: the smaller of the two when they differ (R415). -/
def State.foldMiB (s : State) (x : Shep) : Nat :=
  let own := s.pGet x FLD_STATUS fFLD_STATUS_CAP
  let peer := s.pGet x.other FLD_STATUS fFLD_STATUS_CAP
  1024 * (if peer = 0 then own else min own peer)

/-- The recorder ring in bytes: what the fixed regions leave, in whole MiB (R421). -/
def State.ringBytes (s : State) (x : Shep) : Nat :=
  let kib := s.part.recKiB * (256 + s.sGet FLD_LIB_CFG fFLD_LIB_CFG_RECORDS)
  let fixed := 256 + 1024 + 2 + 64 + s.sGet FLD_FITLOG_CFG fFLD_FITLOG_CFG_SIZE + 32 + 64
  (s.foldMiB x - fixed - ceilDiv kib 1024) * 1048576

/-! ### Recorder frames (R424, R425) -/

def State.modRec (s : State) (x : Shep) (f : RecSt → RecSt) : State := s.modSh x fun h => { h with recorder := f h.recorder }

/-- The recorder writes frames in the modes of R427, RUNNING or in POST up to its last tick. -/
def State.recording (s : State) (x : Shep) : Bool :=
  let r := (s.sh x).recorder
  decide (s.mode = .survey ∨ s.mode = .parked ∨ s.mode = .service ∨ s.mode = .maintenance ∨ s.mode = .safe) &&
  decide (s.lp = .none) && s.runs x && (decide (r.state = 1) || (decide (r.state = 2) && decide (s.tick ≤ r.postEnd)))

/-- The role code of R285. -/
def Role.code : Role → Nat
  | .off => 0
  | .active => 1
  | .standby => 2
  | .syncing => 3
  | .detached => 4

/-- A frame's bytes (R425): header, records, zeros up to a multiple of 64 bytes, with the CRC over the frame with its own bytes as 0. -/
def frameBytes (type flags count tick tb0 epoch role mask dropped : Nat) (recs : List Byte) : List Byte :=
  let head := leBytes 1 type ++ leBytes 1 flags ++ zeros 2 ++ leBytes 4 count ++ leBytes 8 (tick % 2 ^ 48) ++ leBytes 4 tb0 ++
    leBytes 2 epoch ++ leBytes 1 role ++ zeros 1 ++ leBytes 4 mask ++ leBytes 4 dropped ++ zeros 28
  let body := recs ++ zeros ((64 - recs.length % 64) % 64)
  head ++ leBytes 4 (crc32c (head ++ zeros 4 ++ body)) ++ body

/-- The newest frames that a ring of `room` bytes holds; the list is newest first. -/
def newestFit : Nat → List RecFrame → List RecFrame
  | _, [] => []
  | room, f :: r => if f.bytes.length ≤ room then f :: newestFit (room - f.bytes.length) r else []

/-- The frame buffer of the recorder engine: 4 MiB (R428). -/
def recBuffer : Nat := 4194304

/-- The bytes that the fold serves in a tick under the device's traffic (R417): 160 GB/s. -/
def foldTick : Nat := 160000

/-- The frame buffer of a shepherd's recorder drains over the tick that ends (R417, R428): first the traffic of order 1, whose demand the spec bounds by 8 GB/s and
does not state, a free value (log entry 97), then that of order 2, then the frames. -/
def State.recDrain (s : State) (x : Shep) : State :=
  let r := (s.sh x).recorder
  if r.waiting + r.library = 0 then s
  else
    let (k, s) := if r.waiting + r.library ≤ foldTick - 8000 then (0, s) else s.draw 13
    let room := foldTick - min 8000 k.toNat
    s.modRec x fun r => { r with library := r.library - room, waiting := r.waiting - (room - r.library) }

/-- A frame enters the ring by way of the frame buffer, and the ring overwrites its oldest frames; one that finds the buffer full is dropped whole and
counted, which the next frame written carries (R428). -/
def State.recFrame (s : State) (x : Shep) (type flags count mask : Nat) (recs : List Byte) : State :=
  let r := (s.sh x).recorder
  let flags := if r.trig = some s.tick then setBitAt flags 3 true else flags
  let f : RecFrame := ⟨s.tick, frameBytes type flags count s.tick (s.timeAt (400 * s.tick)) s.epoch (s.sh x).role.code mask r.dropped recs, false⟩
  if recBuffer < r.waiting + f.bytes.length then
    ((s.pCount x FLD_REC_DROP fFLD_REC_DROP_VALUE 1).pFlag x FLD_REC_STATUS fFLD_REC_STATUS_DROP_SEEN).modRec x fun r => { r with
      dropped := satAdd (2 ^ 32 - 1) r.dropped 1 }
  else
    s.modRec x fun r => { r with
      ring := (newestFit (s.ringBytes x) (f :: r.ring.reverse)).reverse, waiting := r.waiting + f.bytes.length, dropped := 0 }

/-- ERR of a loop record (R424): the primary error in whole units. -/
def errRecord (e : Int) : Int := clampI (-32768) 32767 (roundHalfUp e 64)

/-- A loop record (R424) of channel c after the stage-3 work of the tick. -/
def loopRecord (s : State) (x : Shep) (w : TickWork) (c : Nat) : List Byte :=
  let a := s.pGet x (LOOP_MON c) fLOOP_MON_MON_A
  let meas := if a = 0xFFFF ∨ s.loopKind x c = 0 then 0xFFFE else (s.sh x).count a
  let codes := ((s.sh x).frame.map fun f => f.codes).getD []
  let code? := (codes.find? fun e => decide (e.1 = c)).map fun e => e.2
  let due := decide (c ∈ w.due)
  let st := s.rd x.bank (LOOP_STAT c)
  let flags := 4096 * s.loopState x c + 1024 * fLOOP_STAT_WINNER.get st + 512 * fLOOP_STAT_SAT_HI.get st + 256 * fLOOP_STAT_SAT_LO.get st +
    128 * fLOOP_STAT_NO_INPUT.get st + 64 * bitN (w.skips.any fun e => decide (e.2.1 = c)) +
    32 * s.pGet x (CMP_CH_STAT c) fCMP_CH_STAT_CODE_CLIP + 16 * s.pGet x (CMP_CH_STAT c) fCMP_CH_STAT_DIR +
    8 * bitN (decide (c ∈ s.seeded)) + 4 * bitN (decide (code? ≠ none)) + 2 * bitN due
  leBytes 2 meas ++ leBytes 2 (code?.getD 0) ++ leBytes 2 (if due then ofSigned 16 (errRecord (s.eLast x c)) else 0) ++ leBytes 2 flags

/-- A group is due in tick n (R426). -/
def RecGroup.dueAt (g : RecGroup) (n : Nat) : Bool := decide (n % 2 ^ g.interval = g.phase)

/-- The numbers of the groups due in tick n. -/
def dueGroups (gs : List RecGroup) (n : Nat) : List Nat :=
  (List.range gs.length).filter fun i => (gs[i]?.map fun g => g.dueAt n).getD false

/-- The last frame of the recorder was dropped. -/
def State.recLost (s : State) (x : Shep) : Bool := decide ((s.sh x).recorder.dropped ≠ 0)

/-- The records of a LOOP frame reach the fit as inputs; the victims of a dropped one have their period excluded (R177, R179). -/
def State.fitFeed (s : State) (x : Shep) (chans : List Nat) : State :=
  let codes := ((s.sh x).frame.map fun f => f.codes).getD []
  let lost := s.recLost x
  chans.foldl (fun s c =>
    let s := s.fitRecord x c ((codes.find? fun e => decide (e.1 = c)).map fun e => e.2)
    if lost then s.fitExclude x c else s) s

/-- The LOOP frame of the tick (R425); a tick with no group due writes none. -/
def State.recLoop (s : State) (x : Shep) (w : TickWork) : State :=
  let gs := (s.sh x).recorder.groups
  let due := dueGroups gs s.tick
  if !s.recording x || decide (due = []) then s
  else
    let chans := due.flatMap fun i => match gs[i]? with
      | some g => (List.range g.num).map (· + g.first)
      | none => []
    let fl := (s.sh x).frame.map fun f => bitN f.overrun + 2 * bitN f.extended + 4 * bitN f.inputMiss
    (s.recFrame x 1 (fl.getD 0) chans.length ((due.map fun i => 2 ^ i).foldl (· + ·) 0) (chans.flatMap (loopRecord s x w))).fitFeed x chans

/-- LOOP_EVALUATION: stage 3 of the tick, and its LOOP frame (R126, R424). -/
def doLoopEvaluation (x : Shep) (cap : Nat) (s : State) : State :=
  let n := s.loopCap x cap
  (evalLoops x n s).recLoop x (tickWork (s.sumPower x) x n)

/-- The dual-mode channels of the part, in channel order (R9). -/
def Part.dualChans (p : Part) : List Nat := (List.range p.paddocks).flatMap fun q => (List.range 256).map fun i => 2048 * q + 1792 + i

/-- The POWER frame of a latch while the fit is on (R425). The fit needs it: where the recorder drops or refuses it, the period is excluded for every
victim (R179). -/
def State.powerFrame (x : Shep) (s : State) : State :=
  if s.pGet x CMP_FIT_CTRL fCMP_FIT_CTRL_EN ≠ 1 then s
  else
    let refused := !s.recording x
    let s := if refused then s else s.recFrame x 2 0 s.part.dualChans.length 0
      (s.part.dualChans.flatMap fun c => leBytes 4 (Tab.get (s.sh x).xt.pbar 0 c % 2 ^ 22))
    if refused || s.recLost x then s.lists.foldl (fun s e => s.fitExclude x e.1) s else s

/-- CROSSTALK_PASS_START, with the POWER frame of its latch while the fit is on (R166, R425). -/
def doCrosstalkPassStart (x : Shep) (s : State) : State := doPassStart x (State.powerFrame x) s

/-! ### Triggers (R429) -/

/-- A frame with FLAGS.TRIGGER set, under its new CRC (R425). -/
def RecFrame.trigger (f : RecFrame) : RecFrame :=
  let b := f.bytes.take 1 ++ leBytes 1 (setBitAt (leAt f.bytes 1 1) 3 true) ++ f.bytes.drop 2
  { f with bytes := b.take 60 ++ leBytes 4 (crc32c (b.take 60 ++ zeros 4 ++ b.drop 64)) ++ b.drop 64 }

/-- A trigger in the present tick: a RUNNING recorder enters POST, and the frames of the tick carry TRIGGER, one that is already formed too. -/
def State.recTrigger (s : State) (post : Nat) : State :=
  both (fun x s => if (s.sh x).recorder.state = 1 then
      s.modRec x fun r => { r with
        state := 2, postEnd := s.tick + post, trig := some s.tick
        ring := r.ring.map fun f => if f.tick = s.tick then f.trigger else f }
    else s) s

/-- An event that FLD_FREEZE_CFG may enable (R429). -/
def State.recEvent (s : State) (f : Fld) : State :=
  if s.sGet FLD_FREEZE_CFG f = 1 then s.recTrigger (s.sGet FLD_REC_POST fFLD_REC_POST_POST) else s

/-- RECORDER_POST_END: POST ticks after the trigger the recorder is FROZEN (R429). -/
def doRecorderPostEnd (x : Shep) (s : State) : State :=
  let r := (s.sh x).recorder
  if r.state = 2 ∧ r.postEnd < s.tick then s.modRec x fun r => { r with state := 3 } else s

/-! ### Configuration (R426) -/

/-- The groups of a configuration record. -/
def recGroups (bs : List Byte) : List RecGroup :=
  (List.range (leAt bs 0 1)).map fun i => ⟨leAt bs (16 + 8 * i) 2, leAt bs (18 + 8 * i) 2, leAt bs (20 + 8 * i) 1, leAt bs (21 + 8 * i) 1⟩

/-- Two groups share a channel. -/
def groupsMeet (a b : RecGroup) : Bool := decide (a.first < b.first + b.num ∧ b.first < a.first + a.num)

def groupsOverlap : List RecGroup → Bool
  | [] => false
  | g :: r => r.any (groupsMeet g) || groupsOverlap r

/-- 64 times the configured rate in bytes per tick. -/
def rate64 (gs : List RecGroup) : Nat := 64 * 640 + (gs.map fun g => 8 * g.num * 2 ^ (6 - g.interval)).foldl (· + ·) 0

/-- A group of the configuration breaks R426. -/
def RecGroup.bad (p : Part) (g : RecGroup) : Bool :=
  decide (g.num = 0 ∨ 32768 < g.num ∨ p.chans < g.first + g.num ∨ 6 < g.interval ∨ 2 ^ g.interval ≤ g.phase)

/-- REC_CONFIG (R426): refused by its own checks, or accepted for the first boundary that is a multiple of 64 after the boundary of R140. -/
def startRecConfig (d : Desc) (s : State) : State :=
  let bs := d.pay
  let n := leAt bs 0 1
  let gs := recGroups bs
  let reserved := (List.range 15).any (fun i => decide (leAt bs (1 + i) 1 ≠ 0)) ||
    (List.range n).any fun i => decide (leAt bs (22 + 8 * i) 2 ≠ 0)
  if bs.length ≠ 16 + 8 * n ∨ reserved = true ∨ d.outAddr ≠ 0 then s.completeHif d 0x02
  else if 16 < n ∨ gs.any (RecGroup.bad s.part) = true ∨ groupsOverlap gs = true then s.complete d 5 0x02 []
  else if 64 * 128000 < rate64 gs then s.complete d 5 0x03 []
  else s.addJob ⟨d, .recConfig, 0, (s.dueTick / 64 + 1) * 64, []⟩

/-- A configuration takes effect in both shepherds (R426): FLD_REC_RATE reports RATE, the CONFIG frame is written first, and COUNT 0 leaves the recorder
IDLE. RATE is not a whole number for some groups; the spec does not say how it is rounded, so a free bit does (log entry 3). -/
def State.applyRecConfig (s : State) (bs : List Byte) : State :=
  let gs := recGroups bs
  let (up, s) := s.draw 1
  let rate := rate64 gs / 64 + (if rate64 gs % 64 = 0 then 0 else up.toNat)
  both (fun x s =>
    let s := s.pPut x FLD_REC_RATE fFLD_REC_RATE_VALUE rate
    let s := s.modRec x fun r => { r with state := if gs = [] then 0 else 1, groups := gs, trig := none }
    if s.recording x then s.recFrame x 3 0 gs.length 0 bs else s) s

/-- RECORDER_CONFIG_EFFECT: at a boundary whose tick number is a multiple of 64, an accepted configuration takes effect. -/
def doRecorderConfigEffect (s : State) : State :=
  match s.job? .recConfig with
  | none => s
  | some j =>
    if s.edge % 400 = 0 ∧ s.tick % 64 = 0 ∧ j.due ≤ s.tick then ((s.applyRecConfig j.d.pay).endJob j).complete j.d 5 0 [] else s

/-! ### REC_CONTROL and REC_READ (R429, R430, R446) -/

/-- FREEZE. -/
def startRecFreeze (d : Desc) (s : State) : State :=
  if (s.sh s.lead).recorder.state ≠ 1 then s.complete d 5 0x04 []
  else (s.recTrigger (d.in4 36)).complete d 5 0 []

/-- RESUME continues after the newest frame. -/
def startRecResume (d : Desc) (s : State) : State :=
  if (s.sh s.lead).recorder.state ≠ 3 then s.complete d 5 0x04 []
  else (both (fun x s => s.modRec x fun r => { r with state := 1, trig := none }) s).complete d 5 0 []

/-- STOP. -/
def startRecStop (d : Desc) (s : State) : State :=
  (both (fun x s => s.modRec x fun r => { r with state := 0, trig := none }) s).complete d 5 0 []

/-- REC_CONTROL by its ACTION. -/
def startRecControl (d : Desc) (s : State) : State :=
  if d.outAddr ≠ 0 then s.completeHif d 0x02
  else match d.in1 32 with
    | 0 => startRecFreeze d s
    | 1 => startRecResume d s
    | 2 => startRecStop d s
    | _ => s.complete d 5 0x02 []

/-- The frames that a read copies, within a number of frames and of bytes, and the number of frames skipped. -/
def readFrames : List RecFrame → Nat → Nat → List RecFrame × Nat
  | [], _, _ => ([], 0)
  | f :: r, n, room =>
    if n = 0 then ([], 0)
    else if f.bad then
      let q := readFrames r n room
      (q.1, q.2 + 1)
    else if f.bytes.length ≤ room then
      let q := readFrames r (n - 1) (room - f.bytes.length)
      (f :: q.1, q.2)
    else ([], 0)

/-- A shepherd's read buffer: the header and the frames (R430). -/
def State.readBuf (s : State) (x : Shep) (from32 maxFrames len : Nat) : List Byte :=
  let ring := (s.sh x).recorder.ring
  let ring := if from32 = 0xFFFFFFFF then ring else ring.dropWhile fun f => decide (f.tick % 2 ^ 32 ≠ from32)
  let (fs, skipped) := readFrames ring maxFrames (len - 64)
  let bytes := fs.flatMap fun f => f.bytes
  leBytes 8 ((fs.head?.map fun f => f.tick).getD 0) ++ leBytes 8 ((fs.getLast?.map fun f => f.tick).getD 0) ++ leBytes 4 fs.length ++
    leBytes 4 bytes.length ++ leBytes 4 skipped ++ zeros 36 ++ bytes

/-- Each writing shepherd writes a buffer of its own. -/
def State.writeOwn (s : State) (addr : Shep → Nat) (bytes : Shep → List Byte) : State :=
  both (fun x s => if (s.sh x).writes then s.send (.buf x (addr x) (bytes x)) else s) s

/-- REC_READ (R430). -/
def startRecRead (d : Desc) (s : State) : State :=
  if d.outAddr ≠ 0 then s.completeHif d 0x02
  else if d.len < 64 then s.completeHif d 0x05
  else
    let buf := fun x => s.readBuf x (d.in4 48) (d.in4 52) d.len
    (s.writeOwn (fun x => d.in8 (if x = .A then 32 else 40)) buf).complete d 5 0 []

/-! ### Fold errors and layout (R422, R423) -/

/-- FLD_LAYOUT_WRITE: a write to FLD_LIB_CFG or FLD_FITLOG_CFG at its boundary (R422). What the recorder ring holds after a new layout is not stated: a free
bit decides whether its frames remain (log entry 3). -/
def State.writeLayout (s : State) (off : Nat) (v : Word) : State :=
  let lib := decide (off = FLD_LIB_CFG)
  let okVal := if lib then decide (fFLD_LIB_CFG_RECORDS.get v ≤ 65536) else
    decide (16 ≤ fFLD_FITLOG_CFG_SIZE.get v ∧ fFLD_FITLOG_CFG_SIZE.get v ≤ 1024)
  let idle := decide ((s.sh s.lead).recorder.state = 0) && s.library.isEmpty && decide ((s.sh s.lead).fit.log = [])
  if okVal && idle then
    let s := s.sPut off (if lib then fFLD_LIB_CFG_RECORDS else fFLD_FITLOG_CFG_SIZE)
      ((if lib then fFLD_LIB_CFG_RECORDS else fFLD_FITLOG_CFG_SIZE).get v)
    let (keep, s) := s.draw 1
    both (fun x s => s.modRec x fun r => { r with
      ring := if keep = 0 then [] else (newestFit (s.ringBytes x) r.ring.reverse).reverse }) s
  else both (fun x s => s.pFlag x FLD_STATUS fFLD_STATUS_BAD_CFG) s

end Sys2Proof.Machine
end

