-- ==== Sys2Proof/Machine/MapLoad.lean ====
section
/-! DEFINITION. Map commands (R53 to R61): validation, the map that takes effect, and the map that is lost (R438). -/

namespace Sys2Proof.Machine

/-! ### The registers of R63 -/

/-- DRO_MAP_STATUS, DRO_MAP_ID and DRO_MAP_DOMAINS show the map in force. -/
def State.showMap (s : State) : State :=
  let ds := (s.map.map fun m => m.doms).getD []
  let mask (f : DomRec → Bool) : Nat := ((ds.filter f).map fun d => 2 ^ d.dom).foldl (· + ·) 0
  let s := s.sPut DRO_MAP_STATUS fDRO_MAP_STATUS_LOADED (bitN (decide (s.map ≠ none)))
  let s := s.sPut DRO_MAP_STATUS fDRO_MAP_STATUS_DOMAIN_COUNT ds.length
  let s := s.sPut DRO_MAP_ID fDRO_MAP_ID_MAP_ID ((s.map.map fun m => m.id).getD 0)
  (s.sPut DRO_MAP_DOMAINS fDRO_MAP_DOMAINS_BELLWETHER (mask fun d => d.bell)).sPut DRO_MAP_DOMAINS fDRO_MAP_DOMAINS_PRESENT (mask fun _ => true)

/-- A map command ends with a code (R62, R63), and a plan command that waited for it starts (R218, R219). -/
def State.mapEnd (s : State) (d : Desc) (code index : Nat) (result : List Byte) : State :=
  let s := s.sPut DRO_MAP_STATUS fDRO_MAP_STATUS_LAST_CODE code
  let s := s.sPut DRO_MAP_STATUS fDRO_MAP_STATUS_BUSY 0
  let s := s.sPut DRO_MAP_STATUS fDRO_MAP_STATUS_LAST_REJECTED (bitN (decide (code ≠ 0)))
  let s := if code ≠ 0 then s.sPut DRO_MAP_ERR_INDEX fDRO_MAP_ERR_INDEX_INDEX index else s
  (s.complete d 1 code (if code ≠ 0 then leBytes 4 index else result)).droverNext

/-- The domain of a DOMAIN_RELOAD. -/
def mapDom (d : Desc) : Option Nat := if d.op = 0x09 then some (d.in1 32) else none

/-- The mode that a map command needs (R53); while a survey runs it is refused (R256). -/
def State.mapModeOk (s : State) (only : Option Nat) : Bool :=
  match only with
  | none => decide (s.mode = .parked) && !s.surveying
  | some d => decide (s.mode = .maintenance) && s.domOut d && !s.surveying

/-- MAP_LOAD or DOMAIN_RELOAD starts: validation begins, or the command is refused with MAP_MODE in any case but those of R53. -/
def startMap (d : Desc) (s : State) : State :=
  if !s.mapModeOk (mapDom d) then s.mapEnd d 1 wholeMap []
  else (s.sPut DRO_MAP_STATUS fDRO_MAP_STATUS_BUSY 1).addJob ⟨d, .mapLoad, 0, 0, []⟩

/-- What a reload of a domain leaves of the map in force; nothing for a full map. -/
def State.mapLeft (s : State) (only : Option Nat) : FabricMap :=
  match only, s.map with
  | some d, some m => m.without d
  | _, _ => ⟨0, [], [], [], [], []⟩

/-- MAP_VALIDATION_DONE (R54, R62): the image is rejected with its code, or its map is to take effect at the next boundary. The mode is checked
again, for a fault reaction may have changed it (R53, R475). -/
def doMapValidationDone (s : State) : State :=
  match s.job? .mapLoad with
  | none => s
  | some j =>
    if j.phase ≠ 0 then s
    else if !s.mapModeOk (mapDom j.d) then (s.endJob j).mapEnd j.d 1 wholeMap []
    else match validateMap s.part (mapDom j.d) (s.mapLeft (mapDom j.d)) j.d.pay with
      | .error (c, i) => (s.endJob j).mapEnd j.d c i []
      | .ok _ => (s.sPut DRO_MAP_STATUS fDRO_MAP_STATUS_BUSY 0).setJob j { j with phase := 1, due := s.tick + 1 }

/-- The numbers that RESULT reports (R341): slots emptied, turnout entries removed, rotation lists cleared, for the domains that `dom` names. -/
def State.mapCleared (s : State) (dom : Nat → Bool) : List Byte :=
  let slots := (s.slots.filter fun e => match e.2.plan with
    | some p => decide (e.2.state ≠ 0) && dom p.dom
    | none => false).length
  leBytes 2 slots ++ leBytes 2 (s.commits.filter fun c => decide (c.src = 0) && dom c.dom).length ++
    leBytes 1 (s.rots.filter fun e => dom e.1).length

/-- Slots, turnout lists and rotation lists of the domains go (R56). -/
def State.mapClear (s : State) (dom : Nat → Bool) : State :=
  let s := s.cancelSchedules dom
  let s := { s with slots := s.slots.filter fun e => match e.2.plan with
    | some p => !dom p.dom
    | none => false }
  { s with stagings := s.stagings.filter fun g => !dom g.dom, domSeq := s.domSeq.filter fun e => !dom e.1 }

/-- A full map restarts the control numbers (R290) and what the paddocks hold of stagings (R210). -/
def State.mapNumbers (s : State) : State :=
  let s := { s with ctlSeq := [], stageSeq := 1, links := [], stagings := [] }
  (List.range s.part.paddocks).foldl (fun s p =>
    s.modPdk p fun k => { k with ctlSeq := 0, held := [], staging := [], shadow := [], commits := [] }) s

/-- What every mapped channel takes from its element record: positions (R192), seeds (R145), and a loop that keeps no SETTLING. -/
def State.mapChan (s : State) (e : Elem) : State :=
  let s := (s.sPut (DRO_POS e.ch) fDRO_POS_BAR_POS e.park).sPut (DRO_POS e.ch) fDRO_POS_CROSS_POS e.park
  let s := both (fun x s => s.modDyn x e.ch fun d => { d with settle := none }) s
  s.seedLoop e.ch e.park

/-- The loss window takes the entries of the cell records (R284); every other entry of a domain that the map brings is unknown. -/
def State.mapLoss (s : State) (dom : Nat → Bool) (cells : List CellRec) (doms : List DomRec) : State :=
  let s := both (fun x s => s.dropRegs x.bank fun o => decide (0x400000 ≤ o ∧ o < 0x500000) && dom ((o - 0x400000) / 65536)) s
  cells.foldl (fun s c =>
    match doms.find? fun d => decide (d.dom = c.dom) with
    | some d => s.sWr (SRV_LOSS c.dom (c.num d)) (BitVec.ofNat 32 (c.lossBar + 65536 * c.lossCross))
    | none => s) s

/-- Firmware programs span and park code and enables the output (R59). A channel whose span change still runs takes its record when that has ended. -/
def State.mapDrive (s : State) (e : Elem) : State :=
  if (s.chan e.ch).phase ≠ .idle then { s with driveLater := s.driveLater ++ [e.ch] } else
  let w := s.rd 0 (DRV_CH_CTRL e.ch)
  let w := fDRV_CH_CTRL_PARK_CODE.put w e.park
  let w := fDRV_CH_CTRL_SPAN.put w e.span
  s.writeDrvCtrl e.ch (fDRV_CH_CTRL_OE.put w 1)

/-- At a tick boundary the records that waited for the end of a span change are programmed (R59). -/
def State.driveBoundary (s : State) : State :=
  s.driveLater.foldl (fun s c => match s.elem? c with
    | some e => s.mapDrive e
    | none => s) { s with driveLater := [] }

/-- Outputs that the map leaves unmapped are disabled (R35, R73). -/
def State.mapUnmapped (s : State) (was : List Nat) : State :=
  (was.filter fun c => decide (c ∉ s.mapped)).foldl (fun s c =>
    (s.dPut (DRV_CH_CTRL c) fDRV_CH_CTRL_OE 0).modChan c fun h => { h with phase := .idle }) s

/-- A map takes effect (R54, R56, R59, R116, R117, R145, R173, R192, R290, R487). -/
def State.installMap (s : State) (d : Desc) (m : FabricMap) : State :=
  let only := (mapDom d)
  let dom (k : Nat) : Bool := match only with
    | none => true
    | some e => decide (k = e)
  let was := s.outs
  let old := s.lists
  let gone := (((s.map.map fun m => m.elems).getD []).filter fun e => dom e.dom).map fun e => e.ch
  let result := s.mapCleared dom
  let s := s.mapClear dom
  let s := { s with map := some m, orphan := false }
  let s := s.showMap
  let mine := m.elems.filter fun e => match only with
    | none => true
    | some k => decide (e.dom = k)
  let s := match only with
    | none => (s.mapNumbers).resetComp
    | some _ => s.resetCompDom (gone ++ mine.map fun e => e.ch)
        ((old.filter fun e => decide (e.1 ∉ mine.map fun q => q.ch)).map fun e => (e.1, e.2.1))
  let s := mine.foldl State.mapChan s
  let s := s.mapLoss dom (m.cells.filter fun c => dom c.dom) m.doms
  let s := s.assignCodes mine
  let s := { s.mapUnmapped was with driveLater := s.driveLater.filter fun c => decide (c ∉ mine.map fun e => e.ch) }
  let s := if d.expert then s else mine.foldl State.mapDrive s
  let s := s.settleAll
  let s := s.evalCollisions
  let s := s.event 9 (leBytes 4 m.id ++ leBytes 1 (if only = none then 0 else 1) ++ leBytes 1 (only.getD 0))
  s.mapEnd d 0 0 result

/-- MAP_TAKES_EFFECT: at the boundary assigned, a validated map takes effect, after a plan command that runs (R219). -/
def doMapTakesEffect (s : State) : State :=
  match s.job? .mapLoad with
  | none => s
  | some j =>
    if j.phase = 1 ∧ s.edge % 400 = 0 ∧ j.due ≤ s.tick ∧ s.drover = none then
      if !s.mapModeOk (mapDom j.d) then (s.endJob j).mapEnd j.d 1 wholeMap []
      else match validateMap s.part (mapDom j.d) (s.mapLeft (mapDom j.d)) j.d.pay with
        | .error (c, i) => (s.endJob j).mapEnd j.d c i []
        | .ok m => (s.endJob j).installMap j.d m
    else s

/-- The map ceases to be in force because its bank was off (R438). -/
def State.mapLost (s : State) : State :=
  match s.map with
  | none => s
  | some m =>
    let was := s.mapped
    let s := { s with map := none, driveLater := [] }
    ((s.showMap).mapUnmapped was).event 9 (leBytes 4 m.id ++ leBytes 1 2)

end Sys2Proof.Machine
end

