-- ==== Sys2Proof/Machine/Banks.lean ====
section
/-! DEFINITION. Errors of the fold and of the banks, what a bank's loss takes with it, and the march engine (R423, R433 to R446). -/

namespace Sys2Proof.Machine

/-! ### Fold errors (R423) -/

/-- The list without its element i. -/
def dropAt {α : Type} (l : List α) (i : Nat) : List α := l.take i ++ l.drop (i + 1)

/-- The ring with its frame i marked as in error. -/
def spoilAt (l : List RecFrame) (i : Nat) : List RecFrame :=
  l.take i ++ ((l.drop i).take 1).map (fun f => { f with bad := true }) ++ l.drop (i + 1)

/-- The unit with the error is handled as R423 states. -/
def State.foldUnit (s : State) (x : Shep) (u : FoldUnit) : State :=
  match u with
  | .other => s
  | .descriptor r i =>
    match (s.sh x).fold.find? fun f => decide (f.d.ring = r ∧ f.d.index = i) with
    | some f =>
      let s := both (fun y s => s.modSh y fun h => { h with fold := h.fold.filter fun g => decide (¬(g.d.ring = r ∧ g.d.index = i)) }) s
      s.completeHif f.d 0x03
    | none => s
  | .library id => { s with badLib := if id ∈ s.badLib then s.badLib else s.badLib ++ [id] }
  | .event i =>
    if i < (s.sh x).evtLog.length then
      (s.pCount x HIF_CNT_LOST fHIF_CNT_LOST_EVT 1).modSh x fun h => { h with evtLog := dropAt h.evtLog i, evtLost := h.evtLost + 1 }
    else s
  | .fitLog i => s.modSh x fun h => { h with fit := { h.fit with log := dropAt h.fit.log i } }
  | .frame i => s.modRec x fun r => { r with ring := spoilAt r.ring i }

/-- FOLD_ECC_ERROR in shepherd x: corrected, or uncorrectable with its unit (R423). -/
def doFoldEccError (x : Shep) (ue : Bool) (u : FoldUnit) (s : State) : State :=
  if !ue then s.pCount x FLD_ECC fFLD_ECC_CE 1
  else
    let s := (s.pCount x FLD_ECC fFLD_ECC_UE 1).pFlag x FLD_STATUS fFLD_STATUS_UE_SEEN
    (s.alarm 0x0C .shepherd x.num).foldUnit x u

/-! ### Bank errors (R434, R440) -/

/-- Words that R140 holds in both shepherds, and the tables of the banks. -/
def sharedOff (off : Nat) : Bool :=
  decide (0x1000000 ≤ off) ||
  match regFind off with
  | some (r, _) => decide (r.scope = .shared)
  | none => false

/-- The banks of the working stores of firmware and drover (R433), whose words no other field of the state holds (log entry 123). -/
def workBank (p : Part) (b : Nat) : Bool := decide (b < 4) || (decide (p = .gl3280) && decide (60 ≤ b ∧ b < 64))

/-- A double-bit error of a bank word is latched, counted and flagged (R440). -/
def State.bankLatch (s : State) (x : Shep) (bank word : Nat) : State :=
  let s := (s.pPut x BNK_ERR_ADDR fBNK_ERR_ADDR_BANK bank).pPut x BNK_ERR_ADDR fBNK_ERR_ADDR_WORD word
  (s.pCount x BNK_ECC fBNK_ECC_UE 1).pFlag x BNK_STATUS fBNK_STATUS_UE_SEEN

/-- It is reported, and the word is rewritten from the other shepherd or written 0 (R440). `off` is the register offset that the word holds, where it holds
one. -/
def State.bankMend (s : State) (x : Shep) (bank : Nat) (off : Option Nat) : State :=
  let peer := (s.sh x.other).writes
  let equal := match off with
    | none => !workBank s.part bank
    | some o => sharedOff o
  let s := s.report ⟨0x0D, .shepherd, x.num, 4, none, if !equal then 0 else if peer then 1 else 2⟩
  match off with
  | none => s
  | some o => if !equal then s else if peer then s.wr x.bank o (s.rd x.other.bank o) else s.wr x.bank o 0

/-- BANK_ECC_ERROR in shepherd x: a single-bit error is corrected and counted (R434). -/
def doBankEccError (x : Shep) (double : Bool) (bank word : Nat) (off : Option Nat) (s : State) : State :=
  if !double then s.pCount x BNK_ECC fBNK_ECC_CE 1 else (s.bankLatch x bank word).bankMend x bank off

/-! ### The ports of a bank (R433 to R437) -/

/-- The low bit and the width of the part of a word that an atomic acts on. -/
def wordSpan : WordPart → Nat × Nat
  | .whole => (0, 64)
  | .low => (0, 32)
  | .high => (32, 32)

/-- A word after an atomic on a part of it, and the part before (R436). `f` makes the new part of the old. -/
def atomicOn (part : WordPart) (f : Nat → Nat) (w : BitVec 64) : BitVec 64 × BitVec 64 :=
  let (lo, width) := wordSpan part
  let old := w.toNat / 2 ^ lo % 2 ^ width
  (BitVec.ofNat 64 (w.toNat - old * 2 ^ lo + f old % 2 ^ width * 2 ^ lo), BitVec.ofNat 64 old)

/-- The atomic of a port, where it makes one: the word after it and what it returns. ADD wraps. -/
def portAtomic (o : Option PortOp) (w : BitVec 64) : BitVec 64 × Option (BitVec 64) :=
  match o with
  | some (.add p v) => let r := atomicOn p (· + v.toNat) w; (r.1, some r.2)
  | some (.swap p v) => let r := atomicOn p (fun _ => v.toNat) w; (r.1, some r.2)
  | _ => (w, none)

/-- The write of a port, where it makes one: the bytes whose mask bits are set (R434). -/
def portWrite (o : Option PortOp) (w : BitVec 64) : BitVec 64 :=
  match o with
  | some (.write mask v) =>
    BitVec.ofNat 64 (leNat ((List.range 8).map fun i => BitVec.ofNat 8 ((if bitAt mask i then v else w).toNat / 256 ^ i)))
  | _ => w

/-- A cycle in which the ports access one word (R435): atomics first, port 0 before port 1, then writes in the same order, and a read returns the word after them.
The word, and what each port returns. -/
def portCycle (p0 p1 : Option PortOp) (w : BitVec 64) : BitVec 64 × Option (BitVec 64) × Option (BitVec 64) :=
  let a0 := portAtomic p0 w
  let a1 := portAtomic p1 a0.1
  let new := portWrite p1 (portWrite p0 a1.1)
  let ret := fun (o : Option PortOp) (r : Option (BitVec 64)) => if o = some .read then some new else r
  (new, ret p0 a0.2, ret p1 a1.2)

/-- A port writes. -/
def portWrites : Option PortOp → Bool
  | some (.write _ _) => true
  | _ => false

/-- The words of a bank of 1 MiB. -/
def bankWords : Nat := 131072

/-- What a port returned is kept. -/
def keepPort (t : Tab (BitVec 64)) (k : Nat) (r : Option (BitVec 64)) : Tab (BitVec 64) := match r with
  | some v => Tab.set t 0 k v
  | none => t

/-- A cycle of a bank takes place. Two writes that meet set WW_SEEN (R435). -/
def State.bankCycle (s : State) (c : BankCycle) : State :=
  if s.part.banks ≤ c.bank ∨ bankWords ≤ c.word then s
  else
    let s := if portWrites c.p0 && portWrites c.p1 then s.pFlag c.sh BNK_STATUS fBNK_STATUS_WW_SEEN else s
    if !workBank s.part c.bank then s
    else s.modSh c.sh fun h =>
      let k := bankWords * c.bank + c.word
      let r := portCycle c.p0 c.p1 (Tab.get h.sram 0 k)
      { h with sram := Tab.set h.sram 0 k r.1, ports := keepPort (keepPort h.ports (2 * c.bank) r.2.1) (2 * c.bank + 1) r.2.2 }

/-- The cycles of a tick. While the banks are in RETAIN or OFF, the accesses wait until they are ON again (R437). -/
def State.bankTick (s : State) (cs : List BankCycle) : State :=
  both (fun x s =>
    let all := (s.sh x).bankWait ++ cs.filter fun c => decide (c.sh = x)
    if s.lp ≠ .none then s.modSh x fun h => { h with bankWait := all }
    else if all = [] then s
    else all.foldl State.bankCycle (s.modSh x fun h => { h with bankWait := [] })) s

/-! ### What the banks hold (R433) -/

/-- The rows of the contents table (R433): first and last bank on a GL3280 and a number for the content. -/
def bankRows : List (Nat × Nat × Nat) :=
  [(4, 5, 0), (6, 7, 1), (8, 15, 2), (16, 17, 3), (18, 19, 4), (20, 20, 5), (21, 23, 6), (24, 59, 7), (60, 63, 8), (64, 127, 9)]

/-- A content is lost when a bank that holds it is lost. On the smaller parts the crosstalk matrix has the upper half and the other contents share the lower
half, where the spec gives no row its banks: each row is taken to lie on every lower bank from 4 up (DESIGN CHOICE, log entry 9). -/
def contentLost (p : Part) (lost : Nat → Bool) (row : Nat × Nat × Nat) : Bool :=
  let (a, b, k) := row
  let (lo, hi) := if p = .gl3280 then (a, b) else if k = 9 then (p.banks / 2, p.banks - 1) else (4, p.banks / 2 - 1)
  (List.range (hi + 1 - lo)).any fun i => lost (lo + i)

/-- Register words of a shepherd's bank in an offset range return to what a zero fill leaves (R439, log entry 9). -/
def State.wipeRange (s : State) (lo hi : Nat) : State :=
  both (fun x s => s.dropRegs x.bank fun o => decide (lo ≤ o ∧ o < hi)) s

/-- A content is lost from both shepherds' banks and zero-filled, and firmware acts for it (R438). -/
def State.loseContent (s : State) (k : Nat) : State :=
  match k with
  | 0 =>
    let s := s.wipeRange 0x800000 0xA00000
    let s := both (fun x s => s.modSh x fun h => { h with dyn := h.dyn.filterMap fun e => match e.2.tp with
      | some t => some (e.1, { tp := some t })
      | none => none }) s
    s.mapped.foldl (fun s c => s.seedLoop c (s.parkCode c)) s
  | 1 => (both (fun x s => s.modSh x fun h => { h with cmpErr := [] }) s).wipeRange 0xA00000 0xC00000
  | 2 => s.wipeRange 0x1000000 0x1800000
  | 3 => s.wipeRange 0x1800000 0x2000000
  | 4 =>
    let s := both (fun x s => s.modSh x fun h => { h with xt := { h.xt with queue := [], ready := none } }) s
    (s.wipeRange 0x200000 0x300000).wipeRange 0x180000 0x1A0000
  | 5 => s.wipeRange 0x400000 0x500000
  | 6 => s.mapLost
  | 7 => { s with slots := [], drover := none }
  | 8 => { s with rots := [] }
  | _ => s.wipeRange 0x2000000 0xA000000

/-- Every content that a lost bank held goes (R438), and its words are zero-filled (R437). -/
def State.loseBanks (s : State) (lost : Nat → Bool) : State :=
  let s := both (fun x s => s.modSh x fun h => { h with sram := h.sram.filter fun e => !lost (e.1 / bankWords) }) s
  bankRows.foldl (fun s r => if contentLost s.part lost r then s.loseContent r.2.2 else s) s

/-- Bank b is kept in DEEP (R437); bits 0 to 3 read 1. -/
def State.deepKeeps (s : State) (b : Nat) : Bool :=
  decide (b < 4) || bitAt (s.sRd (BNK_DEEP_RETAIN (b / 32))).toNat (b % 32)

/-- BNK_PWR word w: each bank's state in the present mode (R437). -/
def State.bankPower (s : State) (w : Nat) : Word :=
  BitVec.ofNat 32 (((List.range 16).map fun i =>
    let b := 16 * w + i
    let st := if s.part.banks ≤ b then 0 else match s.lp with
      | .none => 0
      | .quiesce => 1
      | .deep => if s.deepKeeps b then 1 else 2
    st * 4 ^ i).foldl (· + ·) 0)

/-! ### The march engine (R442 to R446) -/

/-- MARCH: its checks, and the engine starts in both shepherds (R444). -/
def startMarch (d : Desc) (s : State) : State :=
  let mode := d.in1 48
  let opts := d.in1 50
  let first := d.in1 52
  let count := d.in1 53
  if d.outAddr ≠ 0 ∨ 4 ≤ opts then s.completeHif d 0x02
  else if d.len < 32 then s.completeHif d 0x05
  else if s.part ≠ .gl3280 then s.complete d 5 0x05 []
  else if 1 < mode ∨ 3 < d.in1 49 ∨ first < 4 ∨ 128 < first + count then s.complete d 5 0x02 []
  else if s.mode ≠ .parked ∨ s.lp ≠ .none ∨ (mode = 0 ∧ s.map ≠ none) then s.complete d 5 0x01 []
  else (both (fun x s => if (s.sh x).writes then s.pFlag x BNK_STATUS fBNK_STATUS_MARCH_BUSY else s) s).addJob ⟨d, .march, 0, 0, []⟩

/-- The result buffer of one shepherd (R445): entries that do not fit are counted and not written. -/
def marchBuf (banks len : Nat) (fs : List MarchFail) : List Byte :=
  let fixed := (fs.filter fun f => f.repaired).length
  let ents := fs.flatMap fun f => leBytes 1 f.bank ++ leBytes 1 f.sub ++ leBytes 1 f.col ++ leBytes 1 f.element ++ leBytes 1 (bitN f.repaired) ++ zeros 3
  leBytes 4 banks ++ leBytes 4 fs.length ++ leBytes 4 fixed ++ leBytes 4 (fs.length - fixed) ++ zeros 16 ++ ents.take ((len - 32) / 8 * 8)

/-- The results of a march reach a shepherd's registers: soft repairs, unrepaired columns and their alarm (R442, R445). -/
def State.marchResult (s : State) (x : Shep) (fs : List MarchFail) : State :=
  let s := s.pPut x BNK_STATUS fBNK_STATUS_MARCH_BUSY 0
  let s := s.pCount x BNK_REPAIR fBNK_REPAIR_SOFT (fs.filter fun f => f.repaired).length
  if fs.any fun f => !f.repaired then (s.pFlag x BNK_STATUS fBNK_STATUS_UNREPAIRED).alarm 0x0D .shepherd x.num else s

/-- MARCH_DONE: both shepherds have finished, with the failing columns that each found. Without REPAIR none is repaired. -/
def doMarchDone (a b : List MarchFail) (s : State) : State :=
  match s.job? .march with
  | none => s
  | some j =>
    let repair := bitAt (j.d.in1 50) 1
    let first := j.d.in1 52
    let count := j.d.in1 53
    let pick (l : List MarchFail) : List MarchFail :=
      (l.filter fun f => decide (first ≤ f.bank ∧ f.bank < first + count)).map fun f => { f with repaired := f.repaired && repair }
    let fs (x : Shep) : List MarchFail := pick (if x = .A then a else b)
    let s := s.endJob j
    let s := both (fun x s => if (s.sh x).writes then s.marchResult x (fs x) else s) s
    let s := if j.d.in1 48 = 0 then s.loseBanks fun k => decide (first ≤ k ∧ k < first + count) else s
    (s.writeOwn (fun x => j.d.in8 (if x = .A then 32 else 40)) fun x => marchBuf count j.d.len (fs x)).complete j.d 5 0 []

end Sys2Proof.Machine
end

