-- ==== Sys2Proof/Machine/Matrix.lean ====
section
/-! DEFINITION. The interconnect matrix of a shepherd: what each master reaches, refused accesses, and transactions in flight (R449 to R454). -/

namespace Sys2Proof.Machine

/-! ### Permitted accesses (R449, R450, R452, R453) -/

/-- The targets that a master reaches, as bits 0 to 9 in the order of R449. -/
def matrixRow (part : Part) (m : Nat) : Nat :=
  match m with
  | 0 | 1 | 2 | 3 => 0x3FF
  | 4 => 0x014
  | 5 => 0x218
  | 6 | 7 => 0x024
  | 8 => 0x004
  | 9 => 0x02C
  | 10 => 0x0A4
  | 11 => 0x00C
  | 12 => 0x10E
  | 13 => if part = .gl3280 then 0x006 else 0
  | 14 => 0x008
  | _ => 0

/-- The boot ROM of 256 KiB, and a window of the management cores of 4 MiB (R453). -/
def romBytes : Nat := 0x40000
def coreWindow : Nat := 0x400000

/-- The target that an access of a master reaches, 15 where none decodes it. The two windows of the management cores are the boot ROM and the working SRAM, in
this order while REMAP is 0 (R453); elsewhere the access names its target. -/
def matrixTarget (remap m t addr : Nat) : Nat :=
  if 4 ≤ m ∨ 2 * coreWindow ≤ addr then (if 10 ≤ t then 15 else t)
  else if addr / coreWindow ≠ remap then 1
  else if addr % coreWindow < romBytes then 0 else 15

/-- A burst of more than 16 beats of 32 bytes, or across a boundary of 4 KiB (R452). -/
def burstBad (addr beats : Nat) : Bool := decide (16 < beats) || decide (addr / 4096 ≠ (addr / 32 * 32 + 32 * max 1 beats - 1) / 4096)

/-- An access is refused: its row does not mark the target, no target decodes, or its burst breaks a limit (R450, R452). -/
def matrixRefuses (part : Part) (remap m t addr beats : Nat) : Bool :=
  let t := matrixTarget remap m t addr
  decide (10 ≤ t) || !bitAt (matrixRow part m) t || burstBad addr beats

def State.remap (s : State) (x : Shep) : Nat := s.pGet x MTX_REMAP fMTX_REMAP_REMAP

/-- The matrix of shepherd x answers a refused access itself (R450). -/
def State.refuse (s : State) (x : Shep) (m t : Nat) (write : Bool) (addr : Nat) : State :=
  let first := decide (s.pGet x MTX_ERR_STATUS fMTX_ERR_STATUS_VALID = 0)
  let s := s.pCount x MTX_ERR_STATUS fMTX_ERR_STATUS_COUNT 1
  if first then
    let s := s.pPut x MTX_ERR_STATUS fMTX_ERR_STATUS_VALID 1
    let s := s.pPut x MTX_ERR_STATUS fMTX_ERR_STATUS_MASTER m
    let s := s.pPut x MTX_ERR_STATUS fMTX_ERR_STATUS_TARGET (matrixTarget (s.remap x) m t addr)
    let s := s.pPut x MTX_ERR_STATUS fMTX_ERR_STATUS_WRITE (bitN write)
    let s := (s.wr x.bank MTX_ERR_ADDR_LO (BitVec.ofNat 32 addr)).wr x.bank MTX_ERR_ADDR_HI (BitVec.ofNat 32 (addr / 2 ^ 32 % 65536))
    s.noticeLocal x MTX_ERR_STATUS fMTX_ERR_STATUS_VALID.lo 0xFFFF
  else (s.pPut x MTX_ERR_STATUS fMTX_ERR_STATUS_MULTI 1).noticeLocal x MTX_ERR_STATUS fMTX_ERR_STATUS_MULTI.lo 0xFFFF

/-- The matrix of shepherd x is in reset, or without power or clock. -/
def State.matrixDown (s : State) (x : Shep) : Bool :=
  decide ((s.sh x).perst = true ∨ (s.sh x).railLow = true ∨ s.mode = .off ∨ s.mode = .reset)

/-- MATRIX_ACCESS_REFUSED: an access of a master, in a burst of so many beats, that is refused; one that is permitted is not this event. -/
def doMatrixRefused (x : Shep) (m t : Nat) (write : Bool) (addr beats : Nat) (s : State) : State :=
  if matrixRefuses s.part (s.remap x) m t addr beats = false ∨ 15 ≤ m ∨ s.matrixDown x = true then s else s.refuse x m t write addr

/-! ### Transactions in flight (R451, R454) -/

/-- The first element that satisfies `p`, changed; none takes it out. -/
def modFirst {α : Type} (p : α → Bool) (f : α → Option α) : List α → List α
  | [] => []
  | a :: r => if p a then (f a).toList ++ r else a :: modFirst p f r

def State.modTxns (s : State) (x : Shep) (f : List MtxTxn → List MtxTxn) : State := s.modSh x fun h => { h with txns := f h.txns }

/-- A master stalls: it has 64 transactions outstanding, or ones from before its reset are not retired (R451, R454). -/
def masterStalls (m : Nat) (ts : List MtxTxn) : Bool :=
  let own := ts.filter fun t => decide (t.master = m)
  decide (64 ≤ own.length) || own.any fun t => t.dead

/-- A master issues a transaction, which the matrix refuses or takes. -/
def State.issue (s : State) (x : Shep) (t : MtxTxn) : State :=
  if s.matrixDown x = true ∨ 15 ≤ t.master ∨ 64 ≤ t.id ∨ masterStalls t.master (s.sh x).txns = true then s
  else if matrixRefuses s.part (s.remap x) t.master t.target t.addr t.left then s.refuse x t.master t.target t.write t.addr
  else s.modTxns x fun ts => ts ++ [{ t with target := matrixTarget (s.remap x) t.master t.target t.addr }]

/-- A write beat reaches its target with its byte strobes. In the working SRAM it writes the strobed bytes of four words; what a beat does at another target is
the effect of the command that it belongs to (log entry 123). -/
def State.deliverBeat (s : State) (x : Shep) (t : MtxTxn) (beat : Nat × BitVec 256) : State :=
  if t.target ≠ 1 then s
  else s.modSh x fun h => { h with sram := (List.range 4).foldl (fun m i =>
    let k := t.addr % coreWindow / 32 * 4 + i
    Tab.set m 0 k (portWrite (some (.write (beat.1 / 2 ^ (8 * i) % 256) (BitVec.ofNat 64 (beat.2.toNat / 2 ^ (64 * i))))) (Tab.get m 0 k))) h.sram }

/-- A transaction of a master and ID. -/
def MtxTxn.isOf (t : MtxTxn) (m id : Nat) : Bool := decide (t.master = m ∧ t.id = id ∧ t.dead = false)

/-- The next beat of a transaction passes. -/
def State.passBeat (s : State) (x : Shep) (m id : Nat) : State :=
  let p := fun (t : MtxTxn) => t.isOf m id && t.accepted && decide (t.left ≠ 0)
  match (s.sh x).txns.find? p with
  | none => s
  | some t =>
    let s := match t.data with
      | b :: _ => s.deliverBeat x t b
      | [] => s
    s.modTxns x (modFirst p fun t => some { t with addr := t.addr / 32 * 32 + 32, data := t.data.drop 1, left := t.left - 1 })

/-- An event of the matrix. The responses of one master and ID return in issue order (R451). -/
def State.busEvent (s : State) (e : BusEvent) : State :=
  match e with
  | .read x m id t addr beats => s.issue x { master := m, id := id, target := t, addr := addr, write := false, data := [], left := beats }
  | .write x m id t addr data => s.issue x { master := m, id := id, target := t, addr := addr, write := true, data := data, left := data.length }
  | .accept x m id => s.modTxns x (modFirst (fun t => t.isOf m id && !t.accepted) fun t => some { t with accepted := true })
  | .beat x m id => s.passBeat x m id
  | .respond x m id =>
    s.modTxns x (modFirst (fun t => t.isOf m id) fun t => if t.accepted && decide (t.left = 0) then none else some t)

/-- Masters of shepherd x are reset (R454): what no target has accepted is cancelled, the write beats not yet delivered go with every strobe null, and read data is
discarded. What was accepted is retired at its response. -/
def State.mastersReset (s : State) (x : Shep) (ms : List Nat) : State :=
  s.modTxns x fun ts => (ts.filter fun t => decide (t.master ∉ ms) || t.accepted).map fun t =>
    if t.master ∈ ms then { t with data := [], left := 0, dead := true } else t

/-- Transactions of reset masters retire, within 2 us of the reset, and MTX_RETIRE counts them (R454). -/
def State.retire (s : State) (x : Shep) : State :=
  let n := ((s.sh x).txns.filter fun t => t.dead).length
  if n = 0 then s else (s.pCount x MTX_RETIRE fMTX_RETIRE_COUNT n).modTxns x fun ts => ts.filter fun t => !t.dead

/-- The events of a tick in the matrices. -/
def State.busTick (s : State) (es : List BusEvent) : State := es.foldl State.busEvent (both (fun x s => s.retire x) s)

end Sys2Proof.Machine
end

