-- ==== Sys2Proof/Machine/Mode.lean ====
section
/-! DEFINITION. Operating modes (R470 to R476): the change of mode that descriptors, surveys, reactions and the end of BOOT share. -/

namespace Sys2Proof.Machine

/-- The mode codes of R470. -/
def Mode.code : Mode → Nat
  | .off => 0
  | .reset => 1
  | .boot => 2
  | .survey => 3
  | .parked => 4
  | .service => 5
  | .maintenance => 6
  | .safe => 7

def LowPower.code : LowPower → Nat
  | .none => 0
  | .quiesce => 1
  | .deep => 2

/-- The paddocks napped, as the mask of PWR_STATUS.NAP. -/
def State.napMask (s : State) : Nat :=
  (((List.range s.part.paddocks).filter fun p => (s.pdk p).nap).map fun p => 2 ^ p).foldl (· + ·) 0

/-- SCOPE and INDEX of a MODE event: paddock 0, domain 1, none 0xFF (R476). -/
def OutOfService.scope : OutOfService → Nat
  | .none => 0xFF
  | .paddock _ => 0
  | .domain _ => 1

def OutOfService.index : OutOfService → Nat
  | .none => 0
  | .paddock p => p
  | .domain d => d

/-- A MODE event after a change from `old` (R476). -/
def State.modeEvent (s : State) (old : Mode) (cause : Nat) : State :=
  s.event 3 (leBytes 1 old.code ++ leBytes 1 s.mode.code ++ leBytes 1 s.lp.code ++ leBytes 1 cause ++ leBytes 1 s.oos.scope ++
    leBytes 1 s.oos.index ++ leBytes 2 s.napMask)

/-- The loops of a channel are seeded from its park code (R473). -/
def State.seedPark (s : State) (c : Nat) : State := s.seedLoop c (s.parkCode c)

/-- Every domain that a mask of ALM_PARKED names is released and its loops seeded (R526). -/
def State.releaseDomains (s : State) (mask : Nat) : State :=
  let ds := (bitsOf 16 mask).filter fun d => bitAt (s.sGet ALM_PARKED fALM_PARKED_DOMAIN) d
  let s := ds.foldl (fun s d => s.sPut ALM_PARKED fALM_PARKED_DOMAIN (setBitAt (s.sGet ALM_PARKED fALM_PARKED_DOMAIN) d false)) s
  let s := ds.foldl (fun s d => (s.domChans d).foldl State.seedPark s) s
  if s.mode = .service ∨ s.mode = .maintenance then ds.foldl (fun s d => s.rotSelect d) s else s

/-- The domains that are out of service with a part (R472). -/
def State.partDoms (s : State) : List Nat := (List.range 16).filter s.domOut

/-- The channels of the part out of service (R472). -/
def State.partChans (s : State) : List Nat := s.mapped.filter s.chanOut

/-- The device changes its mode at the present boundary (R470, R471): the channels that the new mode parks or forces take their codes, and the event is
written. -/
def State.setMode (s : State) (m : Mode) (oos : OutOfService) (cause : Nat) : State :=
  let old := s.mode
  let s := { s with mode := m, oos := oos }
  (s.settleAll).modeEvent old cause

/-- Entry to PARKED (R471, R526): schedules are cancelled when the device leaves SERVICE, MAINTENANCE, and every parked domain is released. -/
def State.enterParked (s : State) (cause : Nat) : State :=
  let wasSafe := decide (s.mode = .safe)
  let s := if s.mode = .service ∨ s.mode = .maintenance then s.cancelSchedules fun _ => true else s
  let s := s.setMode .parked .none cause
  let s := s.releaseDomains 0xFFFF
  if wasSafe then s.resume (List.range s.part.flocks) else s

/-- Entry to SERVICE (R471, R473): all channels from PARKED, or the part from MAINTENANCE. -/
def State.enterService (s : State) (noSeed : Bool) (cause : Nat) : State :=
  let chans := if s.mode = .maintenance then s.partChans else s.mapped
  let doms := s.partDoms
  let s := s.setMode .service .none cause
  let s := if noSeed then s else chans.foldl State.seedPark s
  doms.foldl (fun s d => s.rotSelect d) s

/-- Entry to MAINTENANCE with a part out of service (R472). -/
def State.enterMaintenance (s : State) (oos : OutOfService) (cause : Nat) : State :=
  let s := s.setMode .maintenance oos cause
  s.partDoms.foldl State.domainOut s

/-- Wakes the paddocks of a list that are napped (R479); the exit ends with LOW_POWER_EXIT_DONE. -/
def State.wakePdks (s : State) (ps : List Nat) : State :=
  let new := ps.filter fun p => (s.pdk p).nap && decide (p ∉ s.waking)
  { s with waking := s.waking ++ new }

/-- Every paddock of the part. -/
def State.allPdks (s : State) : List Nat := List.range s.part.paddocks

end Sys2Proof.Machine
end

