-- ==== Sys2Proof/Machine/Survey.lean ====
section
/-! DEFINITION. Survey and calibration (R253 to R284). -/

namespace Sys2Proof.Machine

/-! ### Elements, taps and batches (R263 to R266) -/

/-- The sense channel of a cell tap that names the element (R264): TAP 1 is CELL_BAR, 2 is CELL_CROSS. -/
def State.cellTap (s : State) (e : Elem) (tap : Nat) : Option Nat :=
  (s.mons.find? fun m => decide (m.tap = tap ∧ m.dom = e.dom ∧ m.ref = e.cell ∧ e.ch ∈ m.infl)).map fun m => m.sense

/-- An element is swept (R263), its taps apart, as its output stands now. -/
def State.sweepable (s : State) (e : Elem) : Bool :=
  decide (e.dom ≠ 0xFF ∧ e.cell ≠ 0xFFFF ∧ e.role ≤ 2) && decide (s.outState e.ch = 4 ∨ s.outState e.ch = 5)

/-- SPAN_CAL_FAIL of a record's flags: the span in force failed the latest calibration (R280). -/
def State.spanFailFlag (s : State) (c flags : Nat) : Nat :=
  setBitAt flags 5 (bitAt (s.sGet (SRV_CH c) fSRV_CH_SPAN_FAIL) (s.spanOf c))

/-- The empty record of an element. -/
def State.newRec (s : State) (e : Elem) (mon : Nat) : SrvRec :=
  { ch := e.ch, status := 6, flags := s.spanFailFlag e.ch 0, bar := 0, cross := 0,
    lossBar := 0xFFFF, lossCross := 0xFFFF, attempts := 0, range := if mon = 0xFFFF then 0 else s.rangeOf mon, mon := mon, light := 0, tick := 0,
    mapId := (s.map.map fun m => m.id).getD 0, hys := zeros 256, rip := zeros 64 }

/-- An element in scope as a survey finds it at its start (R263, R274). -/
def State.newEl (s : State) (e : Elem) : SvEl :=
  let b := s.cellTap e 1
  let c := s.cellTap e 2
  let cfg := s.sRd (CMP_RIP_CFG e.ch)
  { out := s.newRec e (match b, c with
      | some m, _ => m
      | none, some m => m
      | none, none => 0xFFFF)
    elem := e, tapBar := b, tapCross := c, period := fCMP_RIP_CFG_PERIOD.get cfg, origin := fCMP_RIP_CFG_ORIGIN.get cfg, tries := 0, fin := false, can := s.sweepable e }

/-- Some monitor lists both channels. -/
def State.sharedMon (s : State) (a b : Nat) : Bool := s.mons.any fun m => decide (a ∈ m.infl ∧ b ∈ m.infl)

/-- One channel is in the aggressor list of the other (R48). -/
def State.aggressing (s : State) (a b : Nat) : Bool := decide (a ∈ s.victims b ∨ b ∈ s.victims a)

/-- Two elements are in conflict (R266). -/
def State.conflict (s : State) (a b : Elem) : Bool :=
  decide (a.dom = b.dom ∧ a.cell = b.cell) || s.sharedMon a.ch b.ch || s.aggressing a.ch b.ch ||
  decide ((a.kind = 2 ∧ b.kind ≠ 2) ∨ (a.kind ≠ 2 ∧ b.kind = 2))

/-- An element joins the first batch without a conflict, or starts a new one (R266). -/
def joinBatch (s : State) (e : Elem) : List (List Nat) → List (List Nat)
  | [] => [[e.ch]]
  | b :: r =>
    if b.all (fun c => match s.elem? c with
      | some f => !s.conflict e f
      | none => true) then (b ++ [e.ch]) :: r
    else b :: joinBatch s e r

/-- The role that a pass sweeps (R265). -/
def passRole (pass : Nat) : Nat := (pass + 1) / 2

/-- A pass finds cross positions with the switches of the cell at CROSS_POS (R265). -/
def passCross (pass : Nat) : Bool := decide (pass = 2 ∨ pass = 4)

/-- The first pass of an element's role. -/
def firstPass (pass : Nat) : Bool := !passCross pass

/-- The batches of a pass. -/
def State.passBatches (s : State) (v : Survey) (pass : Nat) : List (List Nat) :=
  (v.els.filter fun e => !e.fin && decide (e.elem.role = passRole pass)).foldl (fun bs e => joinBatch s e.elem bs) []

/-! ### Points and codes (R267, R268, R271, R272, R274) -/

def Survey.el? (v : Survey) (c : Nat) : Option SvEl := v.els.find? fun e => decide (e.elem.ch = c)

/-- The sample of a monitor at a point. -/
def Batch.at (b : Batch) (pt m : Nat) : Sample := Tab.get b.samples {} (65536 * pt + m)

/-- The mean count of a monitor at a point, none where it was not measured. -/
def Batch.mean (b : Batch) (pt : Nat) (m : Nat) : Option Rat :=
  let x := b.at pt m
  if x.num = 0 then none else some ((x.sum : Rat) / x.num)

/-- The highest position swept on the channel (R268). -/
def State.sweepMax (s : State) (c : Nat) : Nat :=
  if current (s.spanOf c) then s.sGet SRV_CFG2 fSRV_CFG2_SWEEP_MAX else 65535

/-- The bar signal and the cross signal of an element at a point (R264). -/
def Batch.sig (b : Batch) (e : SvEl) (wantCross : Bool) (pt : Nat) : Option Rat :=
  let sg : Rat → Rat := fun r => if wantCross then -r else r
  match e.tapBar, e.tapCross with
  | some m, some n => match b.mean pt m, b.mean pt n with
    | some x, some y => some (sg (x - y))
    | _, _ => none
  | some m, none => (b.mean pt m).map sg
  | none, some n => (b.mean pt n).map fun y => sg (-y)
  | none, none => none

/-- A rising point is measured: its position may be loaded, and its counts are there (R268). -/
def State.sigAt (s : State) (b : Batch) (e : SvEl) (wantCross : Bool) (k : Nat) : Option Rat :=
  if s.sweepMax e.elem.ch < 1024 * k then none else b.sig e wantCross k

/-- The first point of the greatest signal among the rising points (R269). -/
def bestPoint (f : Nat → Option Rat) : Nat → Option (Nat × Rat)
  | 0 => none
  | k + 1 => match bestPoint f k, f k with
    | some (j, y), some z => if y < z then some (k, z) else some (j, y)
    | none, some z => some (k, z)
    | r, none => r

/-- The point of the maximum, 0 where nothing was measured. -/
def State.peak (s : State) (b : Batch) (e : SvEl) (wantCross : Bool) : Nat :=
  ((bestPoint (s.sigAt b e wantCross) 64).map fun q => q.1).getD 0

/-- The refined position of a maximum (R269). -/
def State.refinePeak (s : State) (b : Batch) (e : SvEl) (wantCross : Bool) : Nat :=
  let k := s.peak b e wantCross
  let f := s.sigAt b e wantCross
  let off : Rat := match (if k = 0 then none else f (k - 1)), f k, (if k = 63 then none else f (k + 1)) with
    | some a, some y, some z =>
      let den := 2 * (a - 2 * y + z)
      if den = 0 then 0 else max (-512) (min 512 (1024 * (a - z) / den))
    | _, _, _ => 0
  (clampI 0 65535 ((1024 * (k : Rat) + off + 1 / 2).floor)).toNat

/-- The positions that a pass finds at once: a SWITCH sweep both, another sweep only its own (R265, R269). -/
def State.foundBar (s : State) (v : Survey) (b : Batch) (e : SvEl) : Nat :=
  if passCross v.pass then s.sGet (DRO_POS e.elem.ch) fDRO_POS_BAR_POS else s.refinePeak b e false

/-- The start of the fine sweep (R274): the largest position below BAR_POS that is ORIGIN plus whole periods. -/
def fineStart (origin period bar : Nat) : Int := (bar : Int) - 1 - ((bar : Int) - 1 - origin) % period

/-- The position of a point for an element of the batch (R268, R271, R272, R274). -/
def State.pointPos (s : State) (v : Survey) (b : Batch) (e : SvEl) (pt : Nat) : Nat :=
  let near (k j : Nat) : Nat := 1024 * min 63 (k + j - 1)
  if pt < 64 then 1024 * pt
  else if pt < 128 then 1024 * (127 - pt)
  else if pt < 131 then near (s.peak b e false) (pt - 128)
  else if pt < 134 then near (s.peak b e true) (pt - 131)
  else if pt = 134 then s.foundBar v b e
  else if pt = 135 then s.refinePeak b e true
  else if e.period = 0 then s.foundBar v b e
  else (clampI 0 65535 (fineStart e.origin e.period (s.foundBar v b e) + roundHalfUp (e.period * (pt - 136 : Nat)) 32)).toNat

/-- The position that approaches a group of repeats: two points below its first (R271; log entry 111). -/
def State.approachPos (s : State) (b : Batch) (e : SvEl) (pt : Nat) : Nat := 1024 * (s.peak b e (decide (pt = 131)) - 1 - 2)

/-- The code that a point loads at one of its strobes: the sweep holds at the last permitted point (R268). `first`: the first strobe of the point, which
approaches a group of repeats (R271). -/
def State.pointCode (s : State) (v : Survey) (b : Batch) (e : SvEl) (pt : Nat) (first : Bool) : Nat :=
  let p := if first && decide (pt = 128 ∨ pt = 131) then s.approachPos b e pt else s.pointPos v b e pt
  let top := s.sweepMax e.elem.ch
  if p ≤ top then p else if pt < 134 then top / 1024 * 1024 else top

/-- The elements of a batch. -/
def Survey.batchEls (v : Survey) (b : Batch) : List SvEl := v.els.filter fun e => decide (e.elem.ch ∈ b.chans)

/-- The point after `pt`, none after the last: loss points with a SWITCH, a fine sweep with a ripple period (R267, R274). -/
def Survey.nextPoint (v : Survey) (b : Batch) (pt : Nat) : Option Nat :=
  let sw := decide (v.pass = 0)
  let fine := firstPass v.pass && (v.batchEls b).any fun e => decide (e.period ≠ 0)
  if pt < 133 then some (pt + 1)
  else if pt = 133 ∧ sw = true then some 134
  else if pt = 134 then some 135
  else if pt < 136 then (if fine then some 136 else none)
  else if pt < 199 then some (pt + 1)
  else none

/-- Settle and average in ticks for a batch (R267). -/
def State.settleTicks (s : State) (b : Batch) : Nat :=
  let heat := b.chans.any fun c => s.isHeater c
  2 ^ (if heat then s.sGet SRV_CFG2 fSRV_CFG2_HDWELL else s.sGet SRV_CFG fSRV_CFG_DWELL)

def State.avgTicks (s : State) : Nat := 2 ^ s.sGet SRV_CFG fSRV_CFG_AVG

/-- The tick at whose boundary the present point of a batch ends (R267). -/
def State.pointEnd (s : State) (b : Batch) : Nat := b.start + s.settleTicks b + s.avgTicks

/-- The point whose code is sent in the present tick, to load at the next boundary, and whether that is the first strobe of the point: the next point follows
at the end of the present one, unless that is to be measured again. -/
def State.sentPoint (s : State) (v : Survey) (b : Batch) : Nat × Bool :=
  let e := s.pointEnd b
  if b.spoiled ∨ s.tick + 1 < e then (b.point, decide (s.tick + 1 = b.start))
  else match v.nextPoint b b.point with
    | some pt => (pt, decide (s.tick + 1 = e))
    | none => (b.point, false)

/-- Codes sent in the present tick to the elements of the batch and to the other elements of their cells, which hold BAR_POS, or CROSS_POS for a SWITCH in a cross sweep
(R265, R268). -/
def State.sweepCodes (s : State) : List (Nat × Nat) :=
  match s.survey with
  | none => []
  | some v => match v.cur with
    | none => []
    | some b =>
      let els := (v.batchEls b).filter fun e => decide (e.elem.ch ∉ b.again)
      let pt := s.sentPoint v b
      let own := els.map fun e => (e.elem.ch, s.pointCode v b e pt.1 pt.2)
      let cells := els.map fun e => (e.elem.dom, e.elem.cell)
      let mates := ((s.map.map fun m => m.elems).getD []).filter fun e => decide ((e.dom, e.cell) ∈ cells ∧ e.ch ∉ b.chans)
      own ++ mates.map fun e => (e.ch, if passCross v.pass = true ∧ e.role = 0 then s.sGet (DRO_POS e.ch) fDRO_POS_CROSS_POS
        else s.sGet (DRO_POS e.ch) fDRO_POS_BAR_POS)

/-- The codes that the shepherds send to swept channels in the present tick (R268); a channel that is no longer swept takes its park code. -/
def State.sweepStrobe (s : State) : State :=
  let codes := s.sweepCodes
  let gone := (s.chans.filter fun e => decide (e.2.sweep ≠ none) && !(codes.any fun q => decide (q.1 = e.1))).map fun e => e.1
  let s := gone.foldl (fun s c => (s.modChan c fun h => { h with sweep := none }).takeForced c) s
  codes.foldl (fun s q => s.modChan q.1 fun h => { h with sweep := some q.2 }) s

/-! ### Evaluation of an element (R270 to R274) -/

/-- The monitor counts of a list of points. -/
def Batch.counts (b : Batch) (m : Nat) (pts : List Nat) : List Rat := pts.filterMap fun pt => b.mean pt m

def ratMax : List Rat → Rat
  | [] => 0
  | [x] => x
  | x :: r => max x (ratMax r)

def ratMin : List Rat → Rat
  | [] => 0
  | [x] => x
  | x :: r => min x (ratMin r)

/-- The rising points that were loaded (R268). -/
def State.risingPts (s : State) (e : SvEl) : List Nat := (List.range 64).filter fun k => decide (1024 * k ≤ s.sweepMax e.elem.ch)

/-- The light range (R270). -/
def State.lightOf (s : State) (b : Batch) (e : SvEl) : Rat :=
  let l := b.counts e.out.mon (s.risingPts e)
  ratMax l - ratMin l

/-- The six repeats agree (R271): a repeat is compared where both measurements are there. -/
def State.agrees (s : State) (b : Batch) (e : SvEl) : Bool :=
  let lim : Rat := s.sGet SRV_CFG fSRV_CFG_REPEAT_TOL * s.lightOf b e / 1000
  let kb := s.peak b e false
  let kc := s.peak b e true
  (List.range 6).all fun i =>
    let k := if i < 3 then min 63 (kb + i - 1) else min 63 (kc + (i - 3) - 1)
    match (if s.sweepMax e.elem.ch < 1024 * k then none else b.mean k e.out.mon), b.mean (128 + i) e.out.mon with
    | some x, some y => decide (x - y ≤ lim ∧ y - x ≤ lim)
    | _, _ => true

/-- Whether 10 log10 (p / q) is at least n - 1/2 thousandths: 10 ^ (2 n - 1) q ^ 20000 is at most p ^ 20000. -/
def logAtLeast (p q n : Nat) : Bool := decide (10 ^ (2 * n - 1) * q ^ 20000 ≤ p ^ 20000)

/-- 10 log10 (p / q) in units of 0.001 dB, halves up, at most 0xFFFE, for p at least q (R272). -/
def log10Milli (p q : Nat) : Nat :=
  min 0xFFFE ((List.range 17).foldl (fun n i => let m := n + 2 ^ (16 - i); if logAtLeast p q m then m else n) 0)

/-- The logarithm of a ratio of counts; 0xFFFE where it is not positive (R272). -/
def lossEntry (r : Rat) : Nat := if r ≤ 0 then 0xFFFE else if r < 1 then 0 else log10Milli r.num.toNat r.den

/-- A count below 1 is taken as 1 (R272). -/
def atLeast1 (r : Rat) : Rat := max 1 r

/-- LOSS_BAR and LOSS_CROSS of a SWITCH element (R272); 0xFFFF where it is not measured. -/
def Batch.losses (b : Batch) (e : SvEl) : Nat × Nat :=
  let at2 (pt : Nat) (m : Nat) : Option Rat := (b.mean pt m).map atLeast1
  match e.tapBar, e.tapCross with
  | some m, some n =>
    let f (pt : Nat) (x : Nat) : Nat := match at2 pt m, at2 pt n, at2 pt x with
      | some u, some w, some z => lossEntry ((u + w) / z)
      | _, _, _ => 0xFFFF
    (f 134 m, f 135 n)
  | none, some n => match at2 134 n, at2 135 n with
    | some u, some w => (if 1 - u / w ≤ 0 then 0xFFFE else lossEntry (1 / (1 - u / w)), 0xFFFF)
    | _, _ => (0xFFFF, 0xFFFF)
  | some m, none => match at2 134 m, at2 135 m with
    | some u, some w => (0xFFFF, if 1 - w / u ≤ 0 then 0xFFFE else lossEntry (1 / (1 - w / u)))
    | _, _ => (0xFFFF, 0xFFFF)
  | none, none => (0xFFFF, 0xFFFF)

/-- The list without repeats. -/
def uniqR : List Rat → List Rat
  | [] => []
  | x :: r => let t := uniqR r; if x ∈ t then t else x :: t

/-- The positions at which the falling counts reach v (R273), over the pairs of adjacent falling points. -/
def crossings (fall : Nat → Option Rat) (v : Rat) : List Rat :=
  uniqR ((List.range 63).flatMap fun k =>
    match fall k, fall (k + 1) with
    | some a, some c =>
      if a = c then (if a = v then [1024 * (k : Rat), 1024 * ((k : Rat) + 1)] else [])
      else if (a ≤ v ∧ v ≤ c) ∨ (c ≤ v ∧ v ≤ a) then [1024 * (k : Rat) + 1024 * (v - a) / (c - a)] else []
    | _, _ => [])

/-- The shift of point k between the falling and the rising counts, where it has a value (R273). -/
def State.hysDelta (s : State) (b : Batch) (e : SvEl) (k : Nat) : Option Rat :=
  let top := s.sweepMax e.elem.ch
  let fall (j : Nat) : Option Rat := if top < 1024 * j then none else b.mean (127 - j) e.out.mon
  match (if top < 1024 * k then none else b.mean k e.out.mon) with
  | none => none
  | some v => match crossings fall v with
    | [p] => some (p - 1024 * k)
    | _ => none

/-- The nearest value below, and above, a point. -/
def nearestBelow (f : Nat → Option Rat) : Nat → Option (Nat × Rat)
  | 0 => none
  | k + 1 => match f k with
    | some y => some (k, y)
    | none => nearestBelow f k

def nearestAbove (f : Nat → Option Rat) (k : Nat) : Option (Nat × Rat) :=
  ((List.range 64).filter fun j => decide (k < j)).findSome? fun j => (f j).map fun y => (j, y)

/-- A point's value, interpolated where it has none (R273). -/
def fillPoint (f : Nat → Option Rat) (k : Nat) : Option Rat :=
  match f k with
  | some y => some y
  | none => match nearestBelow f k, nearestAbove f k with
    | some (i, a), some (j, c) => some (a + (c - a) * ((k : Rat) - i) / ((j : Rat) - i))
    | some (_, a), none => some a
    | none, some (_, c) => some c
    | none, none => none

/-- A Q12.4 value, halves up, saturated (R273, R274). -/
def q124 (r : Rat) : Nat := ofSigned 16 (clampI (-32768) 32767 ((16 * r + 1 / 2).floor))

/-- The 256 bytes of H_R and H_F, none where no point has a value (R273). -/
def State.hysTables (s : State) (b : Batch) (e : SvEl) : Option (List Byte) :=
  let f := s.hysDelta b e
  if (List.range 64).all fun k => decide (f k = none) then none
  else
    let d (k : Nat) : Rat := (fillPoint f k).getD 0
    some (((List.range 64).flatMap fun k => leBytes 2 (q124 (-(d k) / 2))) ++ (List.range 64).flatMap fun k => leBytes 2 (q124 (d k / 2)))

def ratSum (l : List Rat) : Rat := l.foldl (· + ·) 0

/-- The 64 bytes of the ripple table, none where the slope is too small or a point was not measured, such as one above SWEEP_MAX (R268, R274). -/
def State.ripTable (s : State) (v : Survey) (b : Batch) (e : SvEl) : Option (List Byte) :=
  let xs : List Rat := (List.range 64).map fun i => ((s.pointPos v b e (136 + i) : Nat) : Rat)
  let pts := (List.range 64).map (· + 136)
  let ys := b.counts e.out.mon (pts.filter fun pt => decide (s.pointPos v b e pt ≤ s.sweepMax e.elem.ch))
  if e.period = 0 ∨ ys.length ≠ 64 then none
  else
    let mx := ratSum xs / 64
    let my := ratSum ys / 64
    let sxx := ratSum (xs.map fun x => (x - mx) * (x - mx))
    if sxx = 0 then none
    else
      let sl := ratSum ((xs.zip ys).map fun q => (q.1 - mx) * (q.2 - my)) / sxx
      let res : List Rat := (xs.zip ys).map fun q => q.2 - my - sl * (q.1 - mx)
      if sl < 1 / 1024 ∧ -1 / 1024 < sl then none
      else some ((List.range 32).flatMap fun i => leBytes 2 (q124 (-((res.getD i 0) + res.getD (i + 32) 0) / (2 * sl))))

/-! ### Applying results (R275, R276) -/

/-- Words of a byte table. -/
def wordsOf (bs : List Byte) (n : Nat) : List Word := (List.range n).map fun i => BitVec.ofNat 32 (leAt bs (4 * i) 4)

/-- The SWITCH at the lowest position of its cell, whose loss entries are the cell's (R272). -/
def State.lowestSwitch (s : State) (e : Elem) : Bool :=
  !(((s.map.map fun m => m.elems).getD []).any fun f => decide (f.dom = e.dom ∧ f.cell = e.cell ∧ f.role = 0 ∧ f.pos < e.pos))

/-- The hysteresis table of a record and, with `rip`, its ripple table go through the staging window as a whole, with the enables that their validity asks for
(R172, R275). -/
def State.stageTables (s : State) (c : Nat) (r : SrvRec) (hysOk rip : Bool) : State :=
  let s := ((wordsOf r.hys 64).zipIdx).foldl (fun s q => s.sWr (CMP_STAGING q.2) q.1) s
  let s := if rip then ((wordsOf r.rip 16).zipIdx).foldl (fun s q => s.sWr (CMP_STAGING (64 + q.2)) q.1) s else s
  let ctl := s.sRd (CMP_CH_CTRL c)
  let ctl := if hysOk then fCMP_CH_CTRL_HYS_EN.put ctl 1 else ctl
  let ctl := if rip then fCMP_CH_CTRL_RIP_EN.put ctl 1 else ctl
  let s := (s.sWr (CMP_STAGING 336) ctl).sWr (CMP_STAGING 337) (s.sRd (CMP_RIP_CFG c))
  s.writeStageCtrl (BitVec.ofNat 32 (c + 2 ^ 24 + (if rip then 2 ^ 25 else 0) + 2 ^ 27 + 2 ^ 31))

/-- A record is written to positions, tables and loss entries (R275). -/
def State.applyRec (s : State) (e : Elem) (r : SrvRec) : State :=
  let c := e.ch
  let s := if bitAt r.flags 0 then
      let s := (s.sPut (DRO_POS c) fDRO_POS_BAR_POS r.bar).sPut (DRO_POS c) fDRO_POS_CROSS_POS r.cross
      { s with posWr := c :: s.posWr }
    else s
  let s := s.stageTables c r (bitAt r.flags 1) (bitAt r.flags 2)
  if bitAt r.flags 3 then
    let s := if r.lossBar = 0xFFFF then s else s.sPut (SRV_LOSS e.dom e.cell) fSRV_LOSS_LOSS_BAR r.lossBar
    if r.lossCross = 0xFFFF then s else s.sPut (SRV_LOSS e.dom e.cell) fSRV_LOSS_LOSS_CROSS r.lossCross
  else s

/-- The stored record that may stand in for an element (R276). -/
def State.storedRec (s : State) (v : Survey) (c : Nat) : Option SrvRec :=
  (v.prior.getD s.results).find? fun r => decide (r.ch = c ∧ r.status = 0 ∧ some r.mapId = s.map.map fun m => m.id)

/-- The survey changed in place. -/
def State.modSurvey (s : State) (f : Survey → Survey) : State := { s with survey := s.survey.map f }

/-- Elements finished so far. -/
def Survey.done (v : Survey) : Nat := (v.els.filter fun e => e.fin).length

/-- A SURVEY event (R346) with SRV_STATUS.PHASE and SRV_PROGRESS in step. -/
def State.surveyEvent (s : State) : State :=
  match s.survey with
  | none => s
  | some v => s.event 8 (leBytes 2 v.done ++ leBytes 2 v.els.length ++ leBytes 1 v.phase)

/-- The stored record of an element outside the scope is applied where its cell is DARK (R270, R276). -/
def State.darkOutside (s : State) (v : Survey) (e : Elem) : State :=
  let kept := s.storedRec v e.ch
  let s := match kept with
    | some k => if v.noWrite then s else s.applyRec e k
    | none => s
  (s.sPut (SRV_CH e.ch) fSRV_CH_STATUS 1).sPut (SRV_CH e.ch) fSRV_CH_REUSED (bitN (decide (kept ≠ none)))

/-- An element is finished with a status (R270 to R276): the stored record stands in where it must. One that is finished already is left, but for a cell
that turns out DARK (R270). -/
def State.finishEl (s : State) (c status : Nat) : State :=
  match s.survey with
  | none => s
  | some v => match v.el? c with
    | none => s
    | some e =>
      if e.fin ∧ status ≠ 1 then s
      else
        let kept := if status = 1 ∨ status = 2 ∨ status = 3 ∨ status = 6 ∨ v.reuse = true then s.storedRec v c else none
        let r := { e.out with status := status, tick := s.tick % 2 ^ 32, attempts := if status = 4 ∨ status = 5 then e.out.attempts else max 1 e.tries }
        let r := match kept with
          | some k =>
            let f := setBitAt (k.flags % 16 + 16 * (r.flags / 16)) 4 true
            { k with status := r.status, flags := f, attempts := r.attempts, range := r.range, mon := r.mon, light := r.light, tick := r.tick, mapId := r.mapId }
          | none => r
        let r := if e.out.mon = 0xFFFF then r else { r with range := s.rangeOf e.out.mon }
        let s := match kept with
          | some k => if v.noWrite then s else s.applyRec e.elem k
          | none => if status = 0 ∧ v.noWrite = false then s.applyRec e.elem r else s
        let s := (s.sPut (SRV_CH c) fSRV_CH_STATUS status).sPut (SRV_CH c) fSRV_CH_REUSED (bitN (decide (kept ≠ none)))
        let s := if status = 1 then both (fun x s => s.pFlag x SRV_STATUS fSRV_STATUS_DARK_ANY) s
          else if status = 2 then both (fun x s => s.pFlag x SRV_STATUS fSRV_STATUS_UNSTABLE_ANY) s else s
        let s := s.modSurvey fun v => { v with els := v.els.map fun f => if f.elem.ch = c then { f with out := r, fin := decide (status ≠ 6) } else f }
        let n := (s.survey.map fun v => v.done).getD 0
        let s := both (fun x s => s.pPut x SRV_PROGRESS fSRV_PROGRESS_DONE n) s
        if status ≠ 6 ∧ e.fin = false ∧ n % 1024 = 0 then s.surveyEvent else s

/-- Every element of a DARK cell takes the status DARK, in scope or not (R270). -/
def State.darkCell (s : State) (e : Elem) : State :=
  match s.survey with
  | none => s
  | some v =>
    let cell := ((s.map.map fun m => m.elems).getD []).filter fun f => decide (f.dom = e.dom ∧ f.cell = e.cell)
    cell.foldl (fun s f => if v.el? f.ch = none then s.darkOutside v f else s.finishEl f.ch 1) s

/-! ### The start of the sweeps and the end of the survey -/

/-- SRV_STATUS.PHASE changes: the register, and the event of R346. -/
def State.surveyPhase (s : State) (p : Nat) : State :=
  let s := s.modSurvey fun v => { v with phase := p }
  (both (fun x s => s.pPut x SRV_STATUS fSRV_STATUS_PHASE p) s).surveyEvent

/-- The results image (R280). -/
def srvImage (mapId : Nat) (rs : List SrvRec) : List Byte :=
  let recs := rs.flatMap fun r => leBytes 2 r.ch ++ leBytes 1 r.status ++ leBytes 1 r.flags ++ leBytes 2 r.bar ++ leBytes 2 r.cross ++
    leBytes 2 r.lossBar ++ leBytes 2 r.lossCross ++ leBytes 1 r.attempts ++ leBytes 1 r.range ++ leBytes 2 r.mon ++ leBytes 2 r.light ++
    zeros 2 ++ leBytes 4 r.tick ++ leBytes 4 r.mapId ++ zeros 4 ++ r.hys ++ r.rip
  let head (crc : Nat) : List Byte := leBytes 1 1 ++ zeros 3 ++ leBytes 4 mapId ++ leBytes 4 rs.length ++ leBytes 4 (32 + 352 * rs.length) ++
    leBytes 4 crc ++ zeros 12
  head (crc32 (head 0 ++ recs)) ++ recs

/-- A record of a prior image at byte o. -/
def srvRecAt (bs : List Byte) (o : Nat) : SrvRec :=
  { ch := leAt bs o 2, status := leAt bs (o + 2) 1, flags := leAt bs (o + 3) 1, bar := leAt bs (o + 4) 2, cross := leAt bs (o + 6) 2,
    lossBar := leAt bs (o + 8) 2, lossCross := leAt bs (o + 10) 2, attempts := leAt bs (o + 12) 1, range := leAt bs (o + 13) 1,
    mon := leAt bs (o + 14) 2, light := leAt bs (o + 16) 2, tick := leAt bs (o + 20) 4, mapId := leAt bs (o + 24) 4,
    hys := (bs.drop (o + 32)).take 256, rip := (bs.drop (o + 288)).take 64 }

/-- A prior image is well formed and is of the map in force (R279, R280). -/
def priorOk (mapId : Nat) (bs : List Byte) : Bool :=
  let n := leAt bs 8 4
  decide (bs.length = 32 + 352 * n ∧ leAt bs 0 1 = 1 ∧ leAt bs 4 4 = mapId ∧ leAt bs 12 4 = bs.length ∧
    leAt bs 1 3 = 0 ∧ (bs.drop 20).take 12 = zeros 12 ∧ leAt bs 16 4 = crc32 (bs.take 16 ++ zeros 4 ++ bs.drop 20))

/-- The records of a prior image, without those of a reserved status (R281). -/
def priorRecs (bs : List Byte) : List SrvRec :=
  ((List.range (leAt bs 8 4)).map fun i => srvRecAt bs (32 + 352 * i)).filter fun r => decide (r.status ≤ 6)

/-- Gain ranges return to those of the start where NO_WRITE asks for it (R283). -/
def State.restoreRanges (s : State) (v : Survey) : State :=
  if v.noWrite then v.ranges.foldl (fun s q =>
      if s.rangeOf q.1 = q.2 then s else s.writeSnsCtrl q.1 (fSNS_CH_CTRL_RANGE.put (s.rd 0 (SNS_CH_CTRL q.1)) q.2)) s
  else s

/-- SRV_STATUS.LAST_CODE and the completion of a survey request (R279, R341). -/
def State.surveyCode (s : State) (d : Desc) (code : Nat) (result : List Byte) : State :=
  (both (fun x s => s.pPut x SRV_STATUS fSRV_STATUS_LAST_CODE code) s).complete d 4 code result

/-- The survey ends (R254, R280, R341): the records become the results region, sweeping stops, and the mode returns. -/
def State.surveyEnd (s : State) : State :=
  match s.survey with
  | none => s
  | some v =>
    let count (f : SvEl → Bool) : Nat := (v.els.filter f).length
    let s := if v.sweeps || v.reuse then { s with results := v.els.map fun e => e.out } else s
    let s := s.surveyPhase 0
    let s := { s with survey := none }
    let s := both (fun x s => s.pPut x SRV_STATUS fSRV_STATUS_RUNNING 0) s
    let s := (s.sweepStrobe).restoreRanges v
    let s := if s.mode = .survey then s.enterParked 2 else s.settleAll
    match v.d with
    | none => s
    | some d => s.surveyCode d 0 (leBytes 2 v.done ++ leBytes 2 (count fun e => decide (e.out.status = 0)) ++
        leBytes 2 (count fun e => decide (1 ≤ e.out.status ∧ e.out.status ≤ 3)))

/-- The next batch of the survey, or the next pass, or the end. `n` bounds the passes still to look at. -/
def nextBatch : Nat → State → State
  | 0, s => s
  | n + 1, s =>
    match s.survey with
    | none => s
    | some v =>
      let live := v.todo.map (fun l => l.filter fun c => decide ((v.el? c).map (fun e => e.fin) = some false)) |>.filter fun l => decide (l ≠ [])
      match live with
      | l :: r =>
        (s.modSurvey fun v => { v with todo := r, cur := some ⟨l, 0, s.tick + 1, false, false, [], []⟩ }).sweepStrobe
      | [] =>
        if 4 ≤ v.pass then s.surveyEnd
        else
          let s := s.modSurvey fun v => { v with pass := v.pass + 1, todo := [], cur := none }
          match s.survey with
          | none => s
          | some w => nextBatch n (s.modSurvey fun v => { v with todo := s.passBatches w w.pass })

/-- The elements phase begins (R263, R265, R277): what is not swept is finished at once, and the SWITCH batches are formed. -/
def State.surveyElements (s : State) : State :=
  match s.survey with
  | none => s
  | some v =>
    let s := s.surveyPhase 6
    let s := s.modSurvey fun v => { v with els := v.els.map fun e => { e with out := { e.out with flags := s.spanFailFlag e.elem.ch e.out.flags } } }
    let s := v.els.foldl (fun s e =>
      if v.reuse then
        match s.storedRec v e.elem.ch with
        | some r => s.finishEl e.elem.ch r.status
        | none => s.finishEl e.elem.ch 5
      else if !e.can then s.finishEl e.elem.ch 5
      else if e.tapBar = none ∧ e.tapCross = none then s.finishEl e.elem.ch 4
      else s) s
    match s.survey with
    | none => s
    | some v => nextBatch 6 (s.modSurvey fun w => { w with pass := 0, todo := s.passBatches v 0 })

/-- REF_STATE of a measured REFV in units of 100 uV (R257). -/
def refState (refv : Nat) : Nat :=
  if 40140 ≤ refv ∧ refv ≤ 41780 then 0 else if 41780 < refv then 2 else if 20480 ≤ refv then 1 else 3

/-- Paddock p uses the bandgap (R258, R261): REF_SRC, REF_STATE, REFV_SEEN and the REFV_FAULT report. -/
def State.toBandgap (s : State) (p st : Nat) : State :=
  let s := s.dPut (SRV_PDK_CAL p) fSRV_PDK_CAL_REF_SRC 1
  let s := s.dPut (SRV_PDK_CAL p) fSRV_PDK_CAL_REF_STATE st
  let s := both (fun x s => s.pFlag x SRV_STATUS fSRV_STATUS_REFV_SEEN) s
  if s.pdkReports p then s.report ⟨0x04, .paddock, p, 3, none, 0⟩ else s

/-- The measurement at the start of paddock p's calibration (R257, R258, R262): with REFV OK the paddock uses it and stores a bandgap trim against it; otherwise
no bandgap trim exists, and it uses the bandgap with its factory trim. -/
def State.calRef (s : State) (p : Nat) : State :=
  let v := s.vref p
  let st := refState v.pins
  let trim := if st = 0 then some v.pins else none
  let s := { s with vrefs := Tab.set s.vrefs {} p { v with now := { v.now with bandgap := trim }, kept := { v.kept with bandgap := trim } } }
  let s := s.dPut (SRV_REFV p) fSRV_REFV_REFV (min 0xFFFF v.pins)
  if st = 0 then
    (s.dPut (SRV_PDK_CAL p) fSRV_PDK_CAL_REF_SRC 0).dPut (SRV_PDK_CAL p) fSRV_PDK_CAL_REF_STATE 0
  else s.toBandgap p st

/-- A survey begins its work at the present boundary: the mode, and the first phase (R253, R254). -/
def State.surveyBegin (s : State) : State :=
  match s.survey with
  | none => s
  | some v =>
    let ps := if v.conv then s.allPdks.filter fun p => decide ((s.pdk p).mode = .run) else []
    let els := v.els.map fun e => s.newEl e.elem
    let s := s.modSurvey fun v => { v with waits := false, els := els, pdks := ps }
    let s := if s.mode = .parked then s.setMode .survey .none 0 else s
    let s := both (fun x s => s.pPut x SRV_STATUS fSRV_STATUS_RUNNING 1) s
    let s := both (fun x s => (s.pPut x SRV_PROGRESS fSRV_PROGRESS_TOTAL v.els.length).pPut x SRV_PROGRESS fSRV_PROGRESS_DONE 0) s
    if v.conv then ps.foldl State.calRef (s.surveyPhase 1) else s.surveyElements

/-! ### The survey request (R278, R279) -/

/-- The elements in scope, in increasing channel order (R280). -/
def State.srvScope (s : State) (scope mask : Nat) : List Elem :=
  let all := ((s.map.map fun m => m.elems).getD []).filter fun e =>
    decide (scope = 0) || (decide (scope = 1) && bitAt mask (pdkOf e.ch)) || (decide (scope = 2 ∧ e.dom < 16) && bitAt mask e.dom)
  (sortN (all.map fun e => e.ch)).filterMap fun c => all.find? fun e => decide (e.ch = c)

/-- The mask names something absent (R279). -/
def State.srvMaskBad (s : State) (scope mask : Nat) : Bool :=
  decide (scope ≠ 0) && (decide (mask = 0) ||
    (bitsOf 32 mask).any fun i => if scope = 1 then decide (s.part.paddocks ≤ i) else decide (s.dom? i = none))

/-- The mask that names the part out of service (R254). -/
def State.partMask (s : State) (scope : Nat) : Nat :=
  match s.oos with
  | .paddock p => if scope = 1 then 2 ^ p else 0
  | .domain d => if scope = 2 then 2 ^ d else 0
  | .none => 0

/-- SURVEY (R254, R278, R279); the prior image follows the request in the descriptor's payload as the read of PRIOR_ADDR returned it. -/
def startSurvey (d : Desc) (s : State) : State :=
  let q := d.pay
  let scope := leAt q 0 1
  let flags := leAt q 2 2
  let mask := leAt q 4 4
  let prior := q.drop 32
  let conv := bitAt flags 0
  let sweeps := bitAt flags 1
  let reuse := bitAt flags 2
  let mapId := (s.map.map fun m => m.id).getD 0
  let fail := fun c => s.surveyCode d c []
  if d.len ≠ 32 then s.completeHif d 0x02
  else if s.survey ≠ none ∨ (s.mode ≠ .parked ∧ s.mode ≠ .maintenance) ∨
      (s.mode = .maintenance ∧ (conv = true ∨ scope = 0)) then fail 1
  else if leAt q 1 1 ≠ 0 ∨ 32 ≤ flags ∨ (q.drop 20).take 12 ≠ zeros 12 ∨ 2 < scope ∨
      (conv = false ∧ sweeps = false ∧ reuse = false) ∨ (reuse = true ∧ (conv = true ∨ sweeps = true)) ∨ (conv = true ∧ scope ≠ 0) then fail 2
  else if (sweeps = true ∨ reuse = true) ∧ s.map = none then fail 3
  else if s.srvMaskBad scope mask = true ∨ (s.mode = .maintenance ∧ mask ≠ s.partMask scope) then fail 4
  else if (bitAt flags 4 = true ∧ (prior.length ≠ leAt q 16 4 ∨ priorOk mapId prior = false)) ∨
      (reuse = true ∧ bitAt flags 4 = false ∧ s.results = []) then fail 5
  else
    let els : List Elem := if sweeps || reuse then s.srvScope scope mask else []
    let napped := decide (s.napMask ≠ 0)
    let ranges := s.mons.map fun m => (m.sense, s.rangeOf m.sense)
    let v : Survey := ⟨some d, conv, sweeps, reuse, bitAt flags 3, if bitAt flags 4 then some (priorRecs prior) else none, 0, 0, els.map s.newEl, [],
      none, ranges, false, napped, []⟩
    let s := { s with survey := some v, tb2 := 0 }
    if napped then s.wakePdks s.allPdks else s.surveyBegin

/-- The start-up calibration of BOOT (R253). -/
def State.startupCal (s : State) : State :=
  { s with survey := some ⟨none, true, false, false, false, none, 0, 0, [], [], none, [], false, false, []⟩, tb2 := 0 }.surveyBegin

/-- Every element not finished is ABORTED (R282). -/
def State.surveyStop (s : State) : State :=
  match s.survey with
  | none => s
  | some v =>
    let s := (v.els.filter fun e => !e.fin).foldl (fun s e => s.finishEl e.elem.ch 6) s
    (s.modSurvey fun v => { v with todo := [], cur := none }).surveyEnd

/-- SURVEY_ABORT: sweeping stops at the next boundary (R282); with no survey there is nothing to stop (log entry 11). -/
def startSurveyAbort (d : Desc) (s : State) : State :=
  if s.survey = none then s.complete d 4 0 []
  else (s.modSurvey fun v => { v with abort := true }).addJob ⟨d, .surveyAbort, 0, s.tick + 1, []⟩

/-- The monitors of a batch. -/
def Survey.batchMons (v : Survey) (b : Batch) : List Nat :=
  ((v.batchEls b).flatMap fun e => e.tapBar.toList ++ e.tapCross.toList).foldl (fun l m => if m ∈ l then l else m :: l) []

/-- The calibration moves on to a later item (R259, R284). -/
def State.calPhase (s : State) : State :=
  match s.survey with
  | some v => if v.conv = true ∧ v.waits = false ∧ 1 ≤ v.phase ∧ v.phase < 5 then s.surveyPhase (v.phase + 1) else s
  | none => s

/-- In each tick of a calibration its next item may begin: the spec gives the items' order and no time of each, so a free bit decides (log entry 10). -/
def State.calStep (s : State) : State :=
  match s.survey with
  | some v =>
    if v.conv = true ∧ v.waits = false ∧ 1 ≤ v.phase ∧ v.phase < 5 then
      let (go, s) := s.draw 1
      if go = 1 then s.calPhase else s
    else s
  | none => s

/-- A monitor of the batch gives no counts yet: it settles on a new range or measures its open input (R102, R103, R270). -/
def State.batchBusy (s : State) (b : Batch) : Bool :=
  match s.survey with
  | none => false
  | some v => (v.batchMons b).any fun m => decide ((s.sense m).meas ≠ none ∨ s.tick < (s.sense m).voidUntil)

/-- At a boundary an aborted survey stops, a survey whose paddocks have woken begins, a calibration moves on, and a batch whose monitors are not ready waits
with its first point. -/
def State.surveyBoundary (s : State) : State :=
  match s.survey with
  | none => s
  | some v =>
    if v.abort then
      let s := s.surveyStop
      match s.job? .surveyAbort with
      | some j => (s.endJob j).complete j.d 4 0 []
      | none => s
    else if v.waits && decide (s.napMask = 0) then s.surveyBegin
    else
      let s := s.calStep
      match s.survey.bind fun v => v.cur with
      | some b => if b.point = 0 ∧ s.batchBusy b = true then s.modSurvey fun v => { v with cur := some { b with start := s.tick + 1 } } else s
      | none => s

/-- SURVEY_EXPORT (R280, R341). -/
def startSurveyExport (d : Desc) (s : State) : State :=
  let img := srvImage ((s.results.head?.map fun r => r.mapId).getD 0) s.results
  if d.len < img.length then s.completeHif d 0x05
  else (s.writeOut d.outAddr img).complete d 4 0 (leBytes 4 img.length ++ leBytes 4 s.results.length)

/-! ### Sweeping -/

/-- The count of monitor m in tick t as the lead shepherd took it from the sense frame of that tick; none where the frame was missed (R282). -/
def State.leadCount (s : State) (m t : Nat) : Option Nat :=
  match Tab.get (s.sh s.lead).counts {} (m / 1024) with
  | f => if f.tick = t % 2 ^ 48 ∧ f.base = 0 then some (f.count (m % 1024)) else none

/-- At the boundary that ends tick t the lead shepherd holds the counts of tick t - 1, which enter the average of the point under work (R267); a tick whose
sense frame was missed is omitted, and a clear in tick t spoils the point that the tick belongs to (R282). -/
def State.surveySample (s : State) (t : Nat) : State :=
  match s.survey with
  | none => s
  | some v => match v.cur with
    | none => s
    | some b =>
      let lo := b.start + s.settleTicks b
      let cleared := b.chans.any fun c => decide (s.outState c = 3)
      let b := if t < s.pointEnd b then { b with spoiled := b.spoiled || cleared } else { b with late := b.late || cleared }
      let b := if lo + 1 ≤ t ∧ t ≤ lo + s.avgTicks then
          { b with samples := (v.batchMons b).foldl (fun tab m =>
              let key := 65536 * b.point + m
              let x := Tab.get tab {} key
              match s.leadCount m (t - 1) with
              | none => tab
              | some n =>
                if n = VOID then tab
                else if n = OVER then Tab.set tab {} key { x with isOver := true }
                else Tab.set tab {} key { x with sum := x.sum + n, num := x.num + 1 }) b.samples }
        else b
      s.modSurvey fun v => { v with cur := some b }

/-- The gain range of a monitor is lowered by one code and its open-input measurement made (R270). -/
def State.lowerRange (s : State) (m : Nat) : State :=
  let w := s.rd 0 (SNS_CH_CTRL m)
  s.writeSnsCtrl m (fSNS_CH_CTRL_MEASURE.put (fSNS_CH_CTRL_RANGE.put w (s.rangeOf m - 1)) 1)

/-- OVER at the point under work: the element starts again in a later batch at a lower range, or ends with OVER at range 0 (R270). -/
def State.surveyOver (s : State) (v : Survey) (b : Batch) (e : SvEl) : State :=
  let ms := (e.tapBar.toList ++ e.tapCross.toList).filter fun m => (b.at b.point m).isOver
  if ms = [] ∨ e.elem.ch ∈ b.again ∨ v.els.any (fun f => decide (f.elem.ch = e.elem.ch) && f.fin) then s
  else if ms.any fun m => decide (s.rangeOf m = 0) then
    (s.finishEl e.elem.ch 3).modSurvey fun v => { v with cur := v.cur.map fun b => { b with again := e.elem.ch :: b.again } }
  else
    (ms.foldl State.lowerRange s).modSurvey fun v => { v with cur := v.cur.map fun b => { b with again := e.elem.ch :: b.again } }

/-- The record of an element after a sweep that agrees (R269, R272 to R274). -/
def State.sweepRec (s : State) (v : Survey) (b : Batch) (e : SvEl) (light : Nat) : SrvRec :=
  let r := { e.out with light := light }
  let r := if passCross v.pass then { r with cross := s.refinePeak b e true }
    else if v.pass = 0 then { r with bar := s.refinePeak b e false, cross := s.refinePeak b e true }
    else { r with bar := s.refinePeak b e false }
  let r := if passCross v.pass ∨ v.pass = 0 then { r with flags := setBitAt r.flags 0 true } else r
  let r := if firstPass v.pass then
      let r := match s.hysTables b e with
        | some t => { r with hys := t, flags := setBitAt r.flags 1 true }
        | none => { r with hys := zeros 256 }
      match s.ripTable v b e with
      | some t => { r with rip := t, flags := setBitAt r.flags 2 true }
      | none => r
    else r
  if v.pass = 0 ∧ s.lowestSwitch e.elem = true then
    let l := b.losses e
    { r with lossBar := l.1, lossCross := l.2, flags := setBitAt r.flags 3 true }
  else r

/-- The integer of a light range; the spec does not say how a fraction is rounded, so a free bit does (log entry 3). -/
def State.lightInt (s : State) (r : Rat) : Nat × State :=
  let (up, s) := s.draw 1
  let n := r.floor.toNat
  (min 0xFFFF (if r.den = 1 then n else n + up.toNat), s)

/-- An element that is to be swept again in a later batch of the pass. -/
def State.sweepAgain (s : State) (e : Elem) : State :=
  s.modSurvey fun v => { v with todo := joinBatch s e v.todo }

/-- A batch has made its points: each of its elements is judged (R270, R271, R275). -/
def State.judgeEl (s : State) (b : Batch) (c : Nat) : State :=
  match s.survey with
  | none => s
  | some v => match v.el? c with
    | none => s
    | some e =>
      if e.fin then s
      else if c ∈ b.again then s.sweepAgain e.elem
      else
        let tries := e.tries + 1
        let light := s.lightOf b e
        let (n, s) := s.lightInt light
        let put (f : SvEl → SvEl) (s : State) : State :=
          s.modSurvey fun v => { v with els := v.els.map fun g => if g.elem.ch = c then f g else g }
        let s := put (fun g => { g with tries := tries, out := { g.out with light := n } }) s
        if light < s.sGet SRV_CFG fSRV_CFG_LIGHT_MIN then s.darkCell e.elem
        else if s.agrees b e then
          let r := s.sweepRec v b e n
          let s := put (fun g => { g with out := r, tries := if v.pass = 0 ∨ passCross v.pass then tries else 0 }) s
          if v.pass = 0 ∨ passCross v.pass then s.finishEl c 0 else s
        else if 4 ≤ tries then s.finishEl c 2
        else s.sweepAgain e.elem

/-- SURVEY_POINT_DONE: a point's settle and average have ended and its last counts are there; the sweep moves to the next point, whose code has followed, or
the batch is judged and the next one starts (R267 to R275). A spoiled point is measured again (R282). -/
def doSurveyPointDone (s : State) : State :=
  match s.survey with
  | none => s
  | some v => match v.cur with
    | none => s
    | some b =>
      if s.edge % 400 ≠ 0 ∨ s.tick ≤ s.pointEnd b then s
      else if b.spoiled then
        let b := { b with start := s.tick + 1, spoiled := false, late := false, samples := b.samples.filter fun e => decide (e.1 / 65536 ≠ b.point) }
        (s.modSurvey fun v => { v with cur := some b }).sweepStrobe
      else
        let s := (v.batchEls b).foldl (fun s e => s.surveyOver v b e) s
        match v.nextPoint b b.point with
        | some pt =>
          (s.modSurvey fun v => { v with cur := v.cur.map fun b => { b with point := pt, start := s.tick - 1, spoiled := b.late, late := false } }).sweepStrobe
        | none =>
          let b := ((s.survey.bind fun v => v.cur).getD b)
          let s := b.chans.foldl (fun s c => s.judgeEl b c) s
          nextBatch 6 (s.modSurvey fun v => { v with cur := none })

/-- Batches with elements on a paddock restart from their first point, whose code loads at the next boundary (R282). -/
def State.surveyRestart (s : State) (p : Nat) : State :=
  let restart : Batch → Batch := fun b =>
    if b.chans.any fun c => decide (pdkOf c = p) then ⟨b.chans, 0, s.tick + 1, false, false, [], []⟩ else b
  s.modSurvey fun v => { v with cur := v.cur.map restart }

/-! ### Converter calibration (R256 to R262) -/

/-- How far two readings of an item may lie apart (R259), with the number of conversions or ticks that a reading sums; 0.05 % is of the first reading. -/
def calAgree (i : CalItem) (a b : Int) : Bool :=
  let d := (a - b).natAbs
  match i with
  | .adcOffset _ => decide (d ≤ 2 * 256)
  | .adcGain _ => decide (d ≤ 4 * 256)
  | .tia _ => decide (2000 * d ≤ a.natAbs)
  | .dac _ _ => decide (d ≤ 4 * 16)

/-- The two measurements of a pair agree. -/
def calPairOk (i : CalItem) (q : List Int × List Int) : Bool :=
  decide (q.1.length = q.2.length) && (q.1.zip q.2).all fun e => calAgree i e.1 e.2

/-- An item fails when its fourth pair, too, disagrees (R259). -/
def calFails (m : CalMeas) : Bool := decide (4 ≤ m.pairs.length) && (m.pairs.take 4).all fun q => !calPairOk m.item q

/-- The pair that agreed: its trim replaces the one before, and none leaves the factory trim (R259). -/
def calTrim (m : CalMeas) : Option (List Int × List Int) :=
  if calFails m then none else some (((m.pairs.take 4).find? (calPairOk m.item)).getD ([], []))

/-- The item belongs to paddock p (R97, R98, R259): 64 ADCs, 4 ranges, and the spans that a channel of the paddock allows (R64). -/
def calOnPdk (i : CalItem) (p : Nat) : Bool :=
  match i with
  | .adcOffset n => decide (n < 64)
  | .adcGain n => decide (n < 64)
  | .tia r => decide (r < 4)
  | .dac c sp => decide (pdkOf c = p ∧ (sp < 4 ∨ (sp < 6 ∧ dualMode c = true)))

/-- Two numbers for a failure in the list of R259: its kind (0 ADC offset, 1 ADC gain, 2 TIA, 3 DAC) times 256 plus the span, and the ADC, range or channel
(log entry 112). -/
def calListed : CalItem → List Nat
  | .adcOffset n => [0, n]
  | .adcGain n => [256, n]
  | .tia r => [512, r]
  | .dac c sp => [768 + sp, c]

/-- What the calibration of paddock p leaves (R259, R260): the trims of the run, in the paddock and in the copy of R486, and the failures. -/
def State.pdkCal (s : State) (cals : List PdkCal) (p : Nat) : State :=
  let ms := (((cals.find? fun r => decide (r.pdk = p)).map fun r => r.meas).getD []).filter fun m => calOnPdk m.item p
  let bad := (ms.filter calFails).map fun m => m.item
  let v := s.vref p
  let tr : Trims := { v.now with done := true, conv := ms.map fun m => (m.item, calTrim m) }
  let s := { s with vrefs := Tab.set s.vrefs {} p { v with now := tr, kept := tr } }
  let adcs := (List.range 64).filter fun n => decide (CalItem.adcOffset n ∈ bad ∨ CalItem.adcGain n ∈ bad)
  let tias := (List.range 4).filter fun r => decide (CalItem.tia r ∈ bad)
  let spans := bad.filterMap fun i => match i with
    | .dac c sp => some (c, sp)
    | _ => none
  let s := s.dPut (SRV_PDK_CAL p) fSRV_PDK_CAL_TIA_FAIL ((tias.map fun r => 2 ^ r).foldl (· + ·) 0)
  let s := s.dPut (SRV_PDK_CAL p) fSRV_PDK_CAL_ADC_FAIL adcs.length
  let s := s.dPut (SRV_PDK_CAL p) fSRV_PDK_CAL_DAC_FAIL (min 0xFFFF spans.dedup.length)
  let s := ((List.range 2048).map (· + 2048 * p)).foldl (fun s c => s.sPut (SRV_CH c) fSRV_CH_SPAN_FAIL
    (((List.range 6).filter fun sp => decide ((c, sp) ∈ spans)).map fun sp => 2 ^ sp).sum) s
  if bad = [] then s
  else (both (fun x s => s.pFlag x SRV_STATUS fSRV_STATUS_CAL_FAIL_ANY) s).notice SRV_STATUS 2 p (bad.flatMap calListed)

/-- CONVERTER_CALIBRATION_DONE at a boundary (R260): the trims of each paddock that was calibrated and still runs, and the dark offsets that were measured
(sense channel, sum of 64 results) take effect; the elements follow, or the survey ends. -/
def doConverterCalDone (cals : List PdkCal) (darks : List (Nat × Nat)) (s : State) : State :=
  match s.survey with
  | none => s
  | some v =>
    if !v.conv || v.waits || decide (v.phase = 0 ∨ 6 ≤ v.phase) || decide (s.edge % 400 ≠ 0) then s
    else
      let s := s.calPhase.calPhase.calPhase.calPhase
      let ps := v.pdks.filter fun p => decide ((s.pdk p).mode = .run)
      let s := ps.foldl (fun s p => s.pdkCal cals p) s
      let s := darks.foldl (fun s q => if q.1 / 1024 ∈ ps then
          (s.dPut (SNS_CH_CTRL q.1) fSNS_CH_CTRL_DARK_OFFSET ((q.2 + 32) / 64)).dPut (SNS_CH_CTRL q.1) fSNS_CH_CTRL_DARK_VALID 1
        else s) s
      let s := s.modSurvey fun v => { v with conv := false }
      let s := s.allPdks.foldl State.enablePdk s
      if v.sweeps then s.surveyElements else s.surveyEnd

/-- REFV_WINDOW_FAULT of paddock p with the REFV compared (R261): the bandgap with the trim in force takes over, and the fault is reported. -/
def doRefvFault (p refv : Nat) (s : State) : State :=
  if s.part.paddocks ≤ p ∨ ((s.pdk p).mode ≠ .run ∧ (s.pdk p).mode ≠ .reload) ∨ refState refv = 0 ∨ s.dGet (SRV_PDK_CAL p) fSRV_PDK_CAL_REF_SRC = 1 then s
  else
    let s := { s with vrefs := Tab.set s.vrefs {} p { s.vref p with pins := refv } }
    (s.toBandgap p (refState refv)).surveyRestart p

/-! ### Writes (R284) -/

/-- A write to SRV_CFG or SRV_CFG2: a value outside its range is discarded whole. -/
def State.writeSrvCfg (s : State) (off : Nat) (v : Word) : State :=
  let bad := if off = SRV_CFG then decide (fSRV_CFG_REPEAT_TOL.get v = 0 ∨ 10 < fSRV_CFG_DWELL.get v ∨ 6 < fSRV_CFG_AVG.get v)
    else decide (12 < fSRV_CFG2_HDWELL.get v)
  if bad then both (fun x s => s.pFlag x SRV_STATUS fSRV_STATUS_BAD_CFG) s
  else s.sWr off (if off = SRV_CFG then v else v &&& 0xFFFFF000)

end Sys2Proof.Machine
end

