-- ==== Sys2Proof/Machine/Time.lean ====
section
/-! DEFINITION. Device time, the servo, the pulse pins and the PTP instance (R366 to R382, R389 to R392). -/

namespace Sys2Proof.Machine

/-! ### Device time (R366 to R371) -/

/-- TIM_WRAPS (R367). -/
def State.wraps (s : State) : Nat := s.tb0 / 2 ^ 56 % 2 ^ 32

/-- The full device time in ns (R367). -/
def State.full (s : State) : Nat := s.tb0 / 2 ^ 24

/-- TIM_NOW_FRAC (R366). -/
def State.frac (s : State) : Nat := s.tb0 % 2 ^ 24

/-- TIM_TB(b) in ns (R371). -/
def State.tbNow (s : State) (b : Nat) : Nat :=
  (match b with
   | 1 => s.tb1
   | 2 => s.tb2
   | _ => s.tb3) / 2 ^ 24 % 2 ^ 32

/-- A read of TIM_NOW through a path latches the fraction and the wraps for it: 0 Shepherd A, 1 Shepherd B, 2 JTAG (R367). -/
def doTimNowRead (path : Nat) (s : State) : State :=
  { s with latches := Tab.set s.latches (0, 0) path (s.frac, s.wraps) }

/-- The servo's state code (R377) in a shepherd's copy. -/
def State.servoState (s : State) (x : Shep) : Nat := s.pGet x TIM_SERVO_STATUS fTIM_SERVO_STATUS_STATE

/-- A TIME event (R391). -/
def State.timeEvent (s : State) (sub before after : Nat) (ofs pd : Int) : State :=
  s.event 7 (leBytes 1 sub ++ leBytes 1 (s.servoState s.lead) ++ zeros 2 ++ leBytes 4 s.wraps ++ leBytes 4 before ++ leBytes 4 after ++
    leBytes 4 (ofSigned 32 ofs) ++ leBytes 4 (ofSigned 32 pd))

/-- TIME_WRAP (R368): the wrap count has grown since the last WRAP or STEP event. -/
def doTimeWrap (s : State) : State :=
  if s.wraps = s.wrapSeen then s else { s with wrapSeen := s.wraps }.timeEvent 0 0 0 0 0

/-- TIM_PPS_NEXT is set to the next whole PTP second (R370). -/
def State.setPps (s : State) : State := s.sWr TIM_PPS_NEXT (BitVec.ofNat 32 ((s.full / 1000000000 + 1) * 1000000000))

/-- A new increment (R369): armed commits keep their instants and move to their new edges (R228). -/
def State.setIncr (s : State) (v : Nat) : State :=
  if (s.rd 0 TIM_INCR).toNat = v then s else (s.wr 0 TIM_INCR (BitVec.ofNat 32 v)).refireAll

/-- A step (R381): TB0 becomes `tb`. The sequencer takes the change of the 32-bit count, so that a rotation's grid keeps its place on it. -/
def State.stepTo (s : State) (tb : Nat) (ofs : Int) : State :=
  let before := s.now
  let delta : Int := ((tb / 2 ^ 24 : Nat) : Int) - (s.full : Int)
  let d32 := toSigned 32 (ofSigned 32 delta)
  let rots : Tab (Option Rot) := s.rots.map fun e => (e.1, e.2.map fun r => { r with org := r.org + (delta - d32) })
  let commits := s.commits.map fun c => { c with abs := c.abs + (delta - d32) }
  let s := { s with tb0 := tb, rots := rots, commits := commits, stepped := some (s.stepped.getD 0 + d32) }
  let s := { s with wrapSeen := s.wraps }
  let s := both (fun x s => s.pFlag x TIM_SERVO_STATUS fTIM_SERVO_STATUS_STEP_SEEN) s
  (s.timeEvent 1 before s.now ofs 0).setPps

/-! ### The servo (R377 to R382) -/

def State.servo (s : State) (x : Shep) : ServoSt := (s.sh x).servo
def State.modServo (s : State) (x : Shep) (f : ServoSt → ServoSt) : State := s.modSh x fun h => { h with servo := f h.servo }

def State.servoOn (s : State) : Bool := decide (s.sGet TIM_SERVO_CFG fTIM_SERVO_CFG_EN = 1)

/-- What a shepherd's servo steers: TB0 that of the active one, and that of A before the first grant; TB1 that of B before the first grant and that of a
shepherd in the BANK and LIBRARY stages; nothing any other (R313, R371). -/
inductive Steers where
  | tb0 | tb1 | nothing
  deriving DecidableEq, Repr

def State.steers (s : State) (x : Shep) : Steers :=
  match s.active with
  | some y => if x = y then .tb0
      else if (s.sh x).role = .syncing ∧ (s.sync.map fun y => decide (y.stage < 3)) = some true then .tb1 else .nothing
  | none => if s.initial then (if x = .A then .tb0 else .tb1) else .nothing

/-- A change of the servo's state, with its TIME event (R377). -/
def State.setServo (s : State) (x : Shep) (code : Nat) : State :=
  if s.servoState x = code then s
  else
    let s := s.pPut x TIM_SERVO_STATUS fTIM_SERVO_STATUS_STATE code
    if x = s.lead then s.timeEvent 2 0 0 0 0 else s

/-- The servo's increment: kept, and written to TIM_INCR by the servo that steers TB0 (R313, R369), unless the fence of its crossing holds it back (R468). -/
def State.servoIncr (s : State) (x : Shep) (v : Nat) : State :=
  let s := s.modServo x fun k => { k with incr := v }
  if s.steers x = .tb0 ∧ bitAt (s.rd x.bank CLK_XING_FENCE).toNat 17 = false then s.setIncr v else s

/-- The increment held in HOLDOVER and ASYM_HOLD (R377). -/
def ServoSt.held (k : ServoSt) : Nat := ((nominalIncr : Int) - k.i).toNat

/-- A sample that steers (R378), and the state that follows from the run below LOCK_THR (R377). -/
def State.steer (s : State) (x : Shep) (o : Int) : State :=
  let kp : Int := s.sGet TIM_SERVO_GAIN fTIM_SERVO_GAIN_KP
  let ki : Int := s.sGet TIM_SERVO_GAIN fTIM_SERVO_GAIN_KI
  let p := roundHalfUp (kp * o) 256
  let i := clampI (-41943) 41943 ((s.servo x).i + roundHalfUp (ki * o) 65536)
  let incr := ((nominalIncr : Int) - clampI (-41943) 41943 (p + i)).toNat
  let good := if o.natAbs < s.sGet TIM_SERVO_CFG fTIM_SERVO_CFG_LOCK_THR then min 8 ((s.servo x).good + 1) else 0
  let s := (s.modServo x fun k => { k with i := i, good := good, pend := none }).servoIncr x incr
  if good = 8 then
    let first := !(s.servo x).locked
    let s := (s.modServo x fun k => { k with locked := true }).setServo x 2
    if first && decide (s.steers x = .tb0) then s.setPps else s
  else s.setServo x 1

/-- The servo steps what it steers by the offset of the last sample (R379). -/
def State.servoStep (s : State) (x : Shep) (o : Int) : State :=
  let moved := fun (tb : Nat) => (((tb : Int) - o * 2 ^ 24) % (2 ^ 88 : Nat)).toNat
  let s := (s.modServo x fun k => { k with pend := none, good := 0 }).setServo x 1
  match s.steers x with
  | .tb0 => s.stepTo (moved s.tb0) o
  | .tb1 => { s with tb1 := moved s.tb1 }
  | .nothing => s

/-- A sample handled under R378 and R379. -/
def State.judgeSample (s : State) (x : Shep) (o : Int) : State :=
  let thr := s.sGet TIM_STEP_THR fTIM_STEP_THR_THR
  let confirm := s.sGet TIM_SERVO_CFG fTIM_SERVO_CFG_STEP_CONFIRM
  let big := decide (thr ≤ o.natAbs)
  match (s.servo x).pend with
  | some (first, n) =>
    if big && decide (16 * (o - first).natAbs < thr) then
      if confirm ≤ n + 1 then s.servoStep x o
      else s.modServo x fun k => { k with pend := some (first, n + 1) }
    else s.steer x o
  | none =>
    if !big then s.steer x o
    else if confirm ≤ 1 then s.servoStep x o
    else (s.modServo x fun k => { k with pend := some (o, 1), good := 0 }).setServo x 5

/-- The sample differs from the one before by ASYM_OFS in offset and ASYM_PD in path delay (R380). -/
def State.asymChange (s : State) (x : Shep) (o : Int) (pd : Nat) : Bool :=
  match (s.servo x).last with
  | some (o', pd') =>
    decide (s.sGet TIM_ASYM_THR fTIM_ASYM_THR_ASYM_OFS ≤ (o - o').natAbs) &&
    decide (256 * s.sGet TIM_ASYM_THR fTIM_ASYM_THR_ASYM_PD ≤ ((pd : Int) - (pd' : Int)).natAbs)
  | none => false

/-- A sample of a shepherd's servo: path delay in 1/256 ns and offset in ns (R377 to R380). With EN = 0 the servo stays FREE. -/
def servoSample (x : Shep) (pd : Nat) (o : Int) (s : State) : State :=
  if !s.servoOn then s
  else
    let pdWas := ((s.servo x).last.map fun l => l.2).getD pd
    let asym := s.asymChange x o pd
    let st := s.servoState x
    let s := s.modServo x fun k => { k with
      last := some (o, pd), since := s.edge, num := k.num + 1
      lo := if k.num = 0 then o else min k.lo o
      hi := if k.num = 0 then o else max k.hi o }
    if st = 4 then
      if (s.servo x).asymOver then
        ((s.modServo x fun k => { k with good := 0, pend := none, asymOver := false }).setServo x 1).judgeSample x o
      else s
    else
      let s := if st = 3 then (s.modServo x fun k => { k with good := 0, pend := none }).setServo x 1 else s
      if asym then
        let s := s.modServo x fun k => { k with good := 0, pend := none, hold := s.edge, asymOver := false }
        let s := (s.servoIncr x (s.servo x).held).setServo x 4
        let s := s.pFlag x TIM_SERVO_STATUS fTIM_SERVO_STATUS_ASYM_SEEN
        if x = s.lead then s.timeEvent 3 0 0 o ((pd : Int) - (pdWas : Int)) else s
      else s.judgeSample x o

/-- Edges of a millisecond (R22). -/
def edgesMs : Nat := 400000

/-- ASYM_HOLD_END: ASYM_TIME has passed; the next sample is handled as the first after ACQUIRE (R380). -/
def doAsymHoldEnd (x : Shep) (s : State) : State :=
  if s.servoState x = 4 ∧ (s.servo x).hold + edgesMs * s.sGet TIM_HOLD fTIM_HOLD_ASYM_TIME ≤ s.edge then
    s.modServo x fun k => { k with asymOver := true }
  else s

/-- HOLDOVER: no sample for HOLD_TIMEOUT (R377, R382). -/
def doHoldover (x : Shep) (s : State) : State :=
  let t := s.sGet TIM_HOLD fTIM_HOLD_HOLD_TIMEOUT
  if s.servoOn = true ∧ t ≠ 0 ∧ s.servoState x ≠ 0 ∧ s.servoState x ≠ 3 ∧ (s.servo x).since + edgesMs * t ≤ s.edge then
    let s := s.modServo x fun k => { k with good := 0, pend := none, hold := s.edge }
    (s.servoIncr x (s.servo x).held).setServo x 3
  else s

/-! ### Writes to the TIM registers -/

/-- A discarded write of the TIM block. -/
def State.timBad (s : State) (f : Fld) : State := both (fun x s => s.pFlag x TIM_SERVO_STATUS f) s

/-- A host write of TIM_INCR (R369): taken only while the servo is off and within 1,000 ppm of nominal. -/
def State.writeIncr (s : State) (v : Word) : State :=
  if s.servoOn = true ∨ v.toNat + 41943 < nominalIncr ∨ nominalIncr + 41943 < v.toNat then s.timBad fTIM_SERVO_STATUS_BAD_INCR
  else s.setIncr v.toNat

/-- A write of TIM_SERVO_CFG: SRC 3 and STEP_CONFIRM 0 discard it. EN = 0 makes the servo FREE on the nominal increment (R377). -/
def State.writeServoCfg (s : State) (v : Word) : State :=
  if fTIM_SERVO_CFG_SRC.get v = 3 ∨ fTIM_SERVO_CFG_STEP_CONFIRM.get v = 0 then s.timBad fTIM_SERVO_STATUS_BAD_CFG
  else
    let was := s.servoOn
    let s := s.sWr TIM_SERVO_CFG (v &&& 0xE0F0FFFF)
    if was && !s.servoOn then
      both (fun x s => ((s.modServo x fun k => { k with good := 0, pend := none }).servoIncr x nominalIncr).setServo x 0) s
    else s

def State.writeStepThr (s : State) (v : Word) : State :=
  if v.toNat < 100 then s.timBad fTIM_SERVO_STATUS_BAD_CFG else s.sWr TIM_STEP_THR v

def State.writePpsCfg (s : State) (v : Word) : State :=
  if fTIM_PPS_CFG_WIDTH.get v = 0 then s.timBad fTIM_SERVO_STATUS_BAD_CFG else s.sWr TIM_PPS_CFG (v &&& 0x8000FFFF)

/-! ### The pulse pins (R370) -/

/-- PPS_OUT_PULSE: TB0 has reached or passed TIM_PPS_NEXT. -/
def doPpsOut (s : State) : State :=
  let next := (s.sRd TIM_PPS_NEXT).toNat
  let width := s.sGet TIM_PPS_CFG fTIM_PPS_CFG_WIDTH
  if s.sGet TIM_PPS_CFG fTIM_PPS_CFG_OUT_EN = 1 ∧ (s.now + 2 ^ 32 - next) % 2 ^ 32 < 2 ^ 31 then
    { s.sWr TIM_PPS_NEXT (BitVec.ofNat 32 (next + 1000000000)) with ppsHigh := s.edge + 400 * width }.send (.ppsOut s.now width)
  else s

/-- The level of PPS_OUT. -/
def State.ppsLevel (s : State) : Bool := decide (s.edge < s.ppsHigh)

/-! ### The PTP instance (R372, R373, R390) -/

/-- An address of two register words: octets 0 and 1 in HI, octets 2 to 5 in LO (R360). -/
def State.macOf (s : State) (lo hi : Nat) : List Byte := leBytes 2 (s.rd 0 hi).toNat ++ leBytes 4 (s.rd 0 lo).toNat
def State.mac (s : State) (j : Nat) : List Byte := s.macOf (ETH_MAC_LO j) (ETH_MAC_HI j)
/-- The pair has an address (R360). -/
def State.hasMac (s : State) (j : Nat) : Bool := decide (s.mac j ≠ zeros 6)

def State.modPtp (s : State) (f : PtpSt → PtpSt) : State := { s with ptp := f s.ptp }

/-- A byte of the configuration record, and a signed one (R390). -/
def PtpSt.byte (p : PtpSt) (i : Nat) : Nat := leAt p.cfg i 1
def PtpSt.log (p : PtpSt) (i : Nat) : Int := toSigned 8 (p.byte i)

/-- Edges of 2^log seconds for log from -7. -/
def edgesLog (log : Int) : Nat := 3125000 * 2 ^ (log + 7).toNat

/-- The link of an Ethernet port is up. -/
def State.ethLink (s : State) (i : Nat) : Bool := decide (s.dGet (ETH_PORT_STAT i) fETH_PORT_STAT_LINK = 1)
/-- A pair runs HSR. -/
def State.hsr (s : State) (j : Nat) : Bool := decide (s.dGet (ETH_PAIR_CFG j) fETH_PAIR_CFG_MODE = 1)

/-- Whether the PTP instance uses a port (R373). -/
def State.ptpUses (s : State) (port : Nat) : Bool := decide (port < 2) && (s.hsr 0 || decide (s.ptp.port = port))

/-- The full device time is replaced at one edge, a step with the fraction at 0 that ends STEP_PEND without its own (R381, R389, R392). -/
def State.setTime (s : State) (ns : Nat) : State :=
  let s := both (fun x s => if s.servoState x = 5 then (s.modServo x fun k => { k with pend := none }).setServo x 1 else s) s
  s.stepTo (ns * 2 ^ 24) 0

/-- A sample of source `src` (0 PTP, 1 PPS_IN) for the servo of each shepherd, when SRC names it. An offset of 2^31 ns or more cannot be written: firmware sets
the time instead (R379). -/
def State.feed (s : State) (src pd : Nat) (o : Int) : State :=
  if s.sGet TIM_SERVO_CFG fTIM_SERVO_CFG_SRC ≠ src ∨ s.lp ≠ .none then s
  else if 2 ^ 31 ≤ o.natAbs then
    if s.servoOn then s.setTime (((s.full : Int) - o) % (2 ^ 64 : Nat)).toNat else s
  else both (fun x s => servoSample x pd o s) s

/-- PPS_IN_EDGE: the second of two high samples is at the present edge. With SRC 1 the timestamp, held against the nearest whole second, is a sample. -/
def doPpsIn (s : State) : State :=
  let t := (s.tb0 + 2 ^ 88 - 5 * 2 ^ 23) / 2 ^ 24
  (s.wr 0 TIM_PPS_IN_TS (BitVec.ofNat 32 t)).feed 1 Config.ppsDelay.toNat
    (((t + 500000000) % 1000000000 : Nat) - 500000000)

/-- A number of 1/256 ns in whole ns: the rounding is not stated, so a fraction rounds to either side by a free bit (log entry 3). -/
def State.wholeNs (s : State) (t : Int) : Int × State :=
  if t % 256 = 0 then (t / 256, s) else (t / 256 + ((s.draw 1).1.toNat : Int), (s.draw 1).2)

/-! ### Messages of the instance (R360, R372, R376): their octets are those of IEEE 1588-2019 (log entry 42) -/

/-- A number in `n` octets, most significant first. -/
def octets (n v : Nat) : List Byte := (leBytes n v).reverse

/-- The clock identity: 0xFF and 0xFE after the third octet of the address of pair 0 (R360). -/
def State.clockId (s : State) : List Byte := (s.mac 0).take 3 ++ [0xFF, 0xFE] ++ (s.mac 0).drop 3

/-- messageType, length, controlField and logMessageInterval of a message of the instance: 0 Sync, 1 Announce, 2 Delay_Req, 3 Pdelay_Req, 4 Delay_Resp,
5 Pdelay_Resp. -/
def PtpSt.shape (p : PtpSt) (kind : Nat) : Nat × Nat × Nat × Nat :=
  match kind with
  | 0 => (0, 44, 0, p.byte 8)
  | 1 => (0xB, 64, 5, p.byte 9)
  | 2 => (1, 44, 1, 0x7F)
  | 3 => (2, 54, 5, 0x7F)
  | 4 => (9, 54, 3, p.byte 10)
  | _ => (3, 54, 5, 0x7F)

/-- The header of a message. -/
def State.ptpHead (s : State) (kind seq corr : Nat) : List Byte :=
  let h := s.ptp.shape kind
  octets 1 h.1 ++ octets 1 0x12 ++ octets 2 h.2.1 ++ octets 1 (s.ptp.byte 0) ++ zeros 1 ++ octets 2 (if kind = 1 then 8 else 0) ++
    octets 8 corr ++ zeros 4 ++ s.clockId ++ octets 2 1 ++ octets 2 seq ++ octets 1 h.2.2.1 ++ octets 1 h.2.2.2

/-- A time of whole ns in 10 octets: seconds and nanoseconds. -/
def ptpTime (ns : Nat) : List Byte := octets 6 (ns / 1000000000) ++ octets 4 (ns % 1000000000)

/-- What an Announce carries after its time: the clock of R390. The UTC offset and the source of the time are not stated. -/
def State.announced (s : State) : List Byte × State :=
  let p := s.ptp
  let (utc, s) := s.draw 16
  let (src, s) := s.draw 8
  (octets 2 utc.toNat ++ zeros 1 ++ octets 1 (p.byte 4) ++ octets 1 (p.byte 6) ++ octets 1 (p.byte 7) ++ octets 2 (leAt p.cfg 12 2) ++
    octets 1 (p.byte 5) ++ s.clockId ++ zeros 2 ++ octets 1 src.toNat, s)

/-- A message joins the frames to be offered (R29, R296), for port i. The MAC writes the time of an event message as it leaves (R376). -/
def State.sendPtp (s : State) (i kind : Nat) (body : List Byte) : State :=
  let p := s.ptp
  let peer := decide (kind = 3 ∨ kind = 5)
  let dst : List Byte := if peer then [0x01, 0x80, 0xC2, 0x00, 0x00, 0x0E] else [0x01, 0x1B, 0x19, 0x00, 0x00, 0x00]
  let vlan := if p.byte 14 = 1 then some (p.byte 15 * 8192 + leAt p.cfg 16 2) else none
  { s with tx := s.tx ++ [⟨s.txNum, 0, ⟨dst, s.mac 0, vlan, 0x88F7, none, body⟩, some (i, kind), none, 0⟩], txNum := (s.txNum + 1) % 2 ^ 32 }

/-- A message that the instance sends of itself, under the next sequence number of its kind. -/
def State.queuePtp (s : State) (i kind : Nat) : State :=
  let seq := (s.ptp.seqs[kind]?).getD 0
  let head := s.ptpHead kind seq 0 ++ zeros 10
  let s := s.modPtp fun p => { p with seqs := p.seqs.set kind ((seq + 1) % 65536) }
  match kind with
  | 1 => s.announced.2.sendPtp i 1 (head ++ s.announced.1)
  | 3 => s.sendPtp i 3 (head ++ zeros 10)
  | _ => s.sendPtp i kind head

/-- The answer to a Delay_Req: its time of reception, with the fraction of a ns taken off the correction. -/
def State.answerDelay (s : State) (i : Nat) (src : List Byte) (seq corr : Nat) (t4 : Int) : State :=
  let c := (((corr : Int) - t4 % 256 * 256) % (2 ^ 64 : Nat)).toNat
  s.sendPtp i 4 (s.ptpHead 4 seq c ++ ptpTime (t4 / 256).toNat ++ (src ++ zeros 10).take 10)

/-- The answer to a Pdelay_Req; the MAC writes responseOriginTimestamp as it leaves (R376). -/
def State.answerPdelay (s : State) (i : Nat) (src : List Byte) (seq corr : Nat) : State :=
  s.sendPtp i 5 (s.ptpHead 5 seq corr ++ zeros 10 ++ (src ++ zeros 10).take 10)

/-- The instance transmits: a shepherd is active and pair 0 has an address (R29, R360). -/
def State.ptpSends (s : State) : Bool := decide (s.active ≠ none) && s.hasMac 0

/-- PTP_MESSAGE_RECEIVE (R372, R373, R375). -/
def doPtpMessage (port : Nat) (m : PtpMsg) (s : State) : State :=
  if !s.ptpUses port || !s.ethLink port || decide (s.lp ≠ .none) then s
  else match m with
    | .unsupported => s.sCount TIM_PTP_STAT fTIM_PTP_STAT_IGNORED 1
    | .announce st => s.modPtp fun p => { p with state := st % 16, announced := s.edge }
    | .delayResp t3 t4 =>
      match s.ptp.sync with
      | some (t1, t2) => s.modPtp fun p => { p with mpd := some (((t2 - t3) + (t4 - t1)) / 2).toNat }
      | none => s
    | .pdelay d => s.modPtp fun p => { p with mpd := some d }
    | .delayReq src seq corr t4 =>
      if s.ptpSends && decide (s.ptp.state = 6 ∧ s.ptp.byte 2 = 0) then s.answerDelay port src seq corr t4 else s
    | .pdelayReq src seq corr => if s.ptpSends && decide (s.ptp.byte 2 = 1) then s.answerPdelay port src seq corr else s
    | .sync t1 t2 =>
      let s := s.modPtp fun p => { p with sync := some (t1, t2) }
      match s.ptp.mpd with
      | some d =>
        let asym := toSigned 32 (s.sRd (TIM_PORT_ASYM port)).toNat
        let (o, s) := s.wholeNs (t2 - t1 - ((d : Int) + asym))
        s.feed 0 d o
      | none => s

/-- PTP_PORT_MOVE: with PORT = AUTO in PRP, the link of the port in use is down or its announce receipt timeout has expired (R373). -/
def doPtpPortMove (s : State) : State :=
  let p := s.ptp
  let late := decide (p.announced + p.byte 11 * edgesLog (p.log 9) ≤ s.edge)
  if !s.hsr 0 && decide (p.byte 3 = 0) && (!s.ethLink p.port || late) then
    s.modPtp fun p => { p with port := 1 - p.port, announced := s.edge }
  else s

/-- The record of the PTP configuration takes effect (R390). -/
def State.applyPtp (s : State) (j : Job) : State :=
  let cfg := j.d.pay
  let port := match leAt cfg 3 1 with
    | 1 => 0
    | 2 => 1
    | _ => 0
  let keep := decide (s.ptp.byte 3 = 0 ∧ leAt cfg 3 1 = 0)
  ((s.modPtp fun p => { p with cfg := cfg, port := if keep then p.port else port }).endJob j).completeHif j.d 0

/-- PTP_MESSAGE_TIMER: an interval of the instance expires: 0 Sync, 1 Announce, 2 Delay_Req or Pdelay_Req. At an Announce interval a configuration
that waits is applied (R389). A master sends Sync and Announce, a slave Delay_Req, and with peer-to-peer delay Pdelay_Req is sent in any state. -/
def doPtpTimer (kind : Nat) (s : State) : State :=
  let k := kind % 3
  if s.edge < (s.ptp.due[k]?).getD 0 ∨ s.lp ≠ .none then s
  else
    let s := match k, s.job? .ptpConfig with
      | 1, some j => s.applyPtp j
      | _, _ => s
    let p := s.ptp
    let iv := edgesLog (p.log (match k with
      | 0 => 8
      | 1 => 9
      | _ => 10))
    let s := s.modPtp fun p => { p with due := p.due.set k (s.edge + iv) }
    let master := decide (p.state = 6)
    let sends := match k with
      | 2 => decide (p.byte 2 = 1) || decide (p.state = 8 ∨ p.state = 9)
      | _ => master
    let ports := if s.hsr 0 then [0] else [0, 1].filter fun i => s.ptpUses i && s.ethLink i
    if sends && s.ptpSends then ports.foldl (fun s i => s.queuePtp i (if k = 2 ∧ p.byte 2 = 1 then 3 else k)) s else s

/-! ### TIME descriptors (R389, R390) -/

/-- TIME READ: 16 bytes latched at one edge. -/
def startTimeRead (d : Desc) (s : State) : State :=
  (s.writeOut d.outAddr (leBytes 4 s.wraps ++ leBytes 4 s.now ++ leBytes 4 s.frac ++ leBytes 4 (s.rd 0 TIM_INCR).toNat)).completeHif d 0

/-- TIME SET: a step (R381). -/
def startTimeSet (d : Desc) (s : State) : State :=
  (s.setTime (d.in4 40 * 2 ^ 32 + d.in4 36)).completeHif d 0

/-- The ranges of R390. -/
def ptpRecOk (q : List Byte) : Bool :=
  let b := fun i => leAt q i 1
  let sg := fun i => toSigned 8 (b i)
  decide (b 1 ≤ 1 ∧ b 2 ≤ 1 ∧ b 3 ≤ 2) && decide (-7 ≤ sg 8 ∧ sg 8 ≤ 1) && decide (-3 ≤ sg 9 ∧ sg 9 ≤ 4) &&
  decide (-7 ≤ sg 10 ∧ sg 10 ≤ 5) && decide (2 ≤ b 11 ∧ b 11 ≤ 10) && decide (b 14 ≤ 1 ∧ b 15 ≤ 7) &&
  decide (1 ≤ leAt q 16 2 ∧ leAt q 16 2 ≤ 4094) && decide ((q.drop 18).take 14 = zeros 14)

/-- TIME PTP_CONFIG: applied at the next Announce interval. -/
def startPtpConfig (d : Desc) (s : State) : State :=
  if d.len ≠ 32 then s.completeHif d 0x02
  else if !ptpRecOk d.pay then s.completeHif d 0x05
  else s.addJob ⟨d, .ptpConfig, 0, 0, []⟩

/-- Port i carries no frame: it is being measured (R389). -/
def State.measuring (s : State) (i : Nat) : Bool :=
  s.jobs.any fun j => decide (j.kind = .portMeasure ∧ j.nums = [i])

/-- TIME PORT_MEASURE (R389). -/
def startPortMeasure (d : Desc) (s : State) : State :=
  let i := d.in1 33
  if 3 < i then s.completeHif d 0x05
  else if s.ptpUses i = true ∨ s.hsr (i / 2) = true ∨ (2 ≤ i ∧ s.dGet (ETH_PAIR_CFG 1) fETH_PAIR_CFG_TLM_EN = 1) ∨
      s.dGet (ETH_PORT_CFG i) fETH_PORT_CFG_SPEED = 3 then s.completeHif d 0x07
  else { s with tb3 := 0 }.addJob ⟨d, .portMeasure, 0, 0, [i]⟩

/-- PORT_MEASURE_DONE: the round trip in 1/16 ns. -/
def doPortMeasureDone (rtt : Nat) (s : State) : State :=
  match s.job? .portMeasure with
  | some j => (s.endJob j).complete j.d 0 0 (leBytes 4 rtt)
  | none => s

/-- A TIME descriptor by its subcommand; reserved ones complete with HIF_VALUE. -/
def startTime (d : Desc) (s : State) : State :=
  match d.in1 32 with
  | 0 => startTimeRead d s
  | 1 => startTimeSet d s
  | 2 => startPtpConfig d s
  | 3 => startPortMeasure d s
  | _ => s.completeHif d 0x05

/-- The TIME telemetry payload (R391); the interval starts anew. -/
def State.timeTlm (s : State) : List Byte × State :=
  let x := s.lead
  let k := s.servo x
  let st := s.servoState x
  let l := k.last.getD (0, 0)
  let hold := if st = 3 ∨ st = 4 then (s.edge - k.hold) / edgesMs else 0
  (leBytes 1 st ++ leBytes 1 s.ptp.state ++ leBytes 2 k.num ++ leBytes 4 (ofSigned 32 l.1) ++ leBytes 4 (ofSigned 32 k.lo) ++
    leBytes 4 (ofSigned 32 k.hi) ++ leBytes 4 l.2 ++ leBytes 4 (s.rd 0 TIM_INCR).toNat ++ leBytes 4 hold,
   both (fun y s => s.modServo y fun k => { k with num := 0, lo := 0, hi := 0 }) s)

end Sys2Proof.Machine
end

