-- ==== Sys2Proof/Machine/Redundancy.lean ====
section
/-! DEFINITION. The shepherds and the referee (R285 to R321): roles, grants, heartbeats, the state copy, divergence and resynchronisation. -/

namespace Sys2Proof.Machine

/-! ### Roles (R285 to R287) -/

def State.role (s : State) (x : Shep) : Role := (s.sh x).role

/-- The shepherd recorded as STANDBY. -/
def State.standby (s : State) : Option Shep :=
  if s.shA.role = .standby then some .A else if s.shB.role = .standby then some .B else none

/-- The referee records a role (R285). -/
def State.setRole (s : State) (x : Shep) (r : Role) : State := s.modSh x fun h => { h with role := r }

/-- A flag of SHP_EVENTS in both shepherds, or in one. -/
def State.shpFlag (s : State) (f : Fld) : State := both (fun x s => s.pFlag x SHP_EVENTS f) s
def State.badCtrl (s : State) (x : Shep) : State := s.pFlag x SHP_EVENTS fSHP_EVENTS_BAD_CTRL

/-- The device is SIMPLEX (R287). -/
def State.simplex (s : State) : Bool := decide (s.active ≠ none) && decide (s.standby = none)

/-- The role that SHP_STATUS and the status line report: a shepherd in reset or in BOOT is OFF, whatever role the referee still records (R285, R310). -/
def State.roleShown (s : State) (x : Shep) : Role := if (s.sh x).halted then .off else s.role x

/-- Entry to SYNCING or DETACHED other than by a fence: one ROLE_LOCAL event of that shepherd (R286). -/
def State.enterRole (s : State) (x : Shep) (r : Role) : State :=
  ((s.setRole x r).modSh x fun h => { h with noDma := false }).eventLocal x 5 (leBytes 1 r.code)

/-- The paddocks are orphaned while neither shepherd is ACTIVE or STANDBY; their channels act as PARK_SEL selects (R487). -/
def State.checkOrphan (s : State) : State :=
  if s.active = none ∧ s.standby = none ∧ s.orphan = false ∧ s.mode ≠ .off ∧ s.mode ≠ .reset then
    { s with orphan := true }.settleAll
  else s

/-- A fence (R309): DETACHED at once, and nothing more is written to host memory. -/
def State.fence (s : State) (x : Shep) : State :=
  (s.setRole x .detached).modSh x fun h => { h with hbMiss := 0, copyMiss := 0, noDma := true }

/-- The shared words that a standby has yet to take are in force (R305). -/
def State.takeLag (s : State) (x : Shep) : State :=
  ((s.sh x).lag.foldl (fun s e => s.wr x.bank e.1 e.2) s).modSh x fun h => { h with lag := [] }

/-! ### Grants (R293, R307 to R312) -/

/-- TB0 takes TB1's values at the first grant, when it goes to B (R371, R381). -/
def State.loadTb1 (s : State) : State :=
  let incr := s.shB.servo.incr
  (s.stepTo (s.wraps * 2 ^ 56 + s.tbNow 1 * 2 ^ 24) 0).setIncr incr

/-- A grant to shepherd x (R293, R308): the epoch advances, and the new active writes its SWITCH_OVER event. Reports held until the first grant are
assigned (R529). -/
def State.grant (s : State) (x : Shep) (cause : Nat) : State :=
  let first := s.initial && !s.lone
  let s := (s.setRole x .active).takeLag x
  let s := if first && decide (x = .B) then s.loadTb1 else s
  let s := { s with epoch := (s.epoch + 1) % 65536, grantTick := some s.tick, initial := false, claims := [], bothLost := false, handover := none }
  let s := both (fun y s => if (s.sh y).writes then s.pPut y SHP_STATUS fSHP_STATUS_EPOCH s.epoch else s) s
  let s := (s.dCount SHP_CNT_SWITCH fSHP_CNT_SWITCH_COUNT 1).pFlag x SHP_EVENTS fSHP_EVENTS_SWITCH_SEEN
  let s := s.modSh x fun h => { h with hbMiss := 0, copyMiss := 0 }
  let s := s.event 4 (leBytes 1 x.num ++ leBytes 1 cause ++ leBytes 2 s.epoch)
  let s := s.recEvent fFLD_FREEZE_CFG_ON_GRANT
  (s.releaseReports.flushCpl x).flushEvt x

/-- The device's work at the end of BOOT (R471): start-up calibration after a device reset, PARKED after a lone reset. -/
def State.endBoot (s : State) : State :=
  if s.mode ≠ .boot then s
  else if s.lone then { s with lone := false }.setMode .parked .none 3
  else (s.setMode .survey .none 3).startupCal

/-- A grant under R308 when no shepherd is ACTIVE: the causes and the split brain rule; a shepherd whose claim was not granted joins after the first
tick. -/
def State.grantClaim (s : State) (x : Shep) : State :=
  let two := s.claims.any fun c => decide (c.1 ≠ x)
  let boot := s.initial
  let s := s.grant x (if boot then 3 else if two then 2 else 0)
  let s := if two && !boot then (s.pFlag x SHP_EVENTS fSHP_EVENTS_SPLIT_RESOLVED).alarm 0x0A .device 0 else s
  let s := { s with joining := if two then some x.other else none }
  if boot then s.endBoot else s

/-- The shepherd that PREFER selects (R308). -/
def State.prefer (s : State) : Shep := if s.dGet RST_STRAPS fRST_STRAPS_PREFER = 1 then .B else .A

/-- At a boundary the referee grants the preferred shepherd's claim (R308). -/
def State.claimBoundary (s : State) : State :=
  if s.active = none ∧ (s.claims.any fun c => decide (c.1 = s.prefer)) = true then s.grantClaim s.prefer else s

/-- CLAIM_WINDOW_EXPIRY: 16 ticks after the first claim the first requester is granted (R308). -/
def doClaimExpiry (s : State) : State :=
  match s.claims with
  | (x, t) :: _ => if s.active = none ∧ t + 16 ≤ s.tick then s.grantClaim x else s
  | [] => s

/-- A claim of a shepherd (R308). -/
def State.claim (s : State) (x : Shep) : State :=
  if s.claims.any fun c => decide (c.1 = x) then s else { s with claims := s.claims ++ [(x, s.tick)] }

/-! ### Blocks of the dynamic state (R300) -/

/-- The channel blocks of a part: 48 bytes a channel, 4 KiB a block; 128 blocks of competitor slots follow. -/
def Part.chanBlocks (p : Part) : Nat := 48 * p.chans / 4096
def chanBlock (c : Nat) : Nat := 48 * c / 4096
def slotBlock (p : Part) (k : Nat) : Nat := p.chanBlocks + 8 * k / 4096

/-- The words of a channel's dynamic state, each with the bits that the copy does not carry: SKIPPED is each shepherd's own (R151). -/
def chanWords (c : Nat) : List (Nat × Word) :=
  [(LOOP_INT c, 0), (LOOP_ERR c, 0), (LOOP_SP_NOW c, 0), (LOOP_DEMAND c, 0), (LOOP_STAT c, fLOOP_STAT_SKIPPED.mask), (CMP_CH_STAT c, 0), (CMP_XT_TERM c, 0)]

/-- The words of a competitor slot's dynamic state. -/
def slotWords (k : Nat) : List (Nat × Word) :=
  [(LOOP_CMP_INT k, 0), (LOOP_CMP_STAT k, fLOOP_CMP_STAT_SKIPPED.mask), (LOOP_CMP_DEMAND k, 0)]

/-- The copies of a word agree but for the bits that are not carried. -/
def State.sameBits (s : State) (e : Nat × Word) : Bool := decide (s.rd 1 e.1 ||| e.2 = s.rd 2 e.1 ||| e.2)

/-- A word copied from one shepherd to the other but for the bits that are not carried. -/
def State.copyBits (s : State) (src dst : Shep) (e : Nat × Word) : State :=
  s.wr dst.bank e.1 ((s.rd src.bank e.1 &&& ~~~e.2) ||| (s.rd dst.bank e.1 &&& e.2))

/-- Whether the two shepherds hold the same for a channel, and for a slot. -/
def State.sameChan (s : State) (c : Nat) : Bool :=
  (chanWords c).all s.sameBits && decide (s.dynOf .A c = s.dynOf .B c) &&
  decide (Tab.get s.shA.xt.pbar 0 c = Tab.get s.shB.xt.pbar 0 c ∧ Tab.get s.shA.xt.sums 0 c = Tab.get s.shB.xt.sums 0 c)

def State.sameSlot (s : State) (k : Nat) : Bool :=
  (slotWords k).all s.sameBits && decide (Tab.get s.shA.cmpErr 0 k = Tab.get s.shB.cmpErr 0 k)

/-- The competitor slots in use (R129). -/
def State.usedSlots (s : State) : List Nat := s.mapped.flatMap fun c => s.slotsOf s.lead c

/-- The blocks whose digests differ, in increasing order (R301). -/
def State.differing (s : State) : List Nat :=
  let bs := (s.mapped.filter fun c => !s.sameChan c).map chanBlock ++ ((s.usedSlots.filter fun k => !s.sameSlot k).map (slotBlock s.part))
  sortN bs.dedup

/-- A channel's dynamic state copied from one shepherd to the other. -/
def State.copyChan (s : State) (src dst : Shep) (c : Nat) : State :=
  let s := (chanWords c).foldl (fun s e => s.copyBits src dst e) s
  let d := s.dynOf src c
  let p := Tab.get (s.sh src).xt.pbar 0 c
  let q := Tab.get (s.sh src).xt.sums 0 c
  (s.modDyn dst c fun _ => d).modSh dst fun h => { h with xt := { h.xt with pbar := Tab.set h.xt.pbar 0 c p, sums := Tab.set h.xt.sums 0 c q } }

def State.copySlot (s : State) (src dst : Shep) (k : Nat) : State :=
  let s := (slotWords k).foldl (fun s e => s.copyBits src dst e) s
  let e := Tab.get (s.sh src).cmpErr 0 k
  s.modSh dst fun h => { h with cmpErr := Tab.set h.cmpErr 0 k e }

/-- Blocks replaced by the active's contents (R302). -/
def State.copyBlocks (s : State) (src dst : Shep) (bs : List Nat) : State :=
  let cs := s.mapped.filter fun c => decide (chanBlock c ∈ bs)
  let ks := s.usedSlots.filter fun k => decide (slotBlock s.part k ∈ bs)
  ks.foldl (fun s k => s.copySlot src dst k) (cs.foldl (fun s c => s.copyChan src dst c) s)

/-- The words of the control section that are kept in each shepherd's copy: counters and the survey's progress (R300); those of overruns are each shepherd's
own (R155). -/
def controlWords : List Nat :=
  [CMP_PASS_CNT, CMP_EXT_CNT, CMP_FIT_UPD, TIM_SERVO_STATUS, TIM_PTP_STAT, SEQ_CNT_COMMIT, SEQ_CNT_LATE, SEQ_CNT_MISS, SRV_PROGRESS]

/-- The control section replaced by the active's (R300, R302): what the model holds in each shepherd of it. -/
def State.copyControl (s : State) (src dst : Shep) : State :=
  let s := controlWords.foldl (fun s o => s.wr dst.bank o (s.rd src.bank o)) s
  let a := s.sh src
  s.modSh dst fun h => { h with
    resume := a.resume, servo := a.servo
    xt := { h.xt with n0 := a.xt.n0, ready := a.xt.ready, ext := a.xt.ext, lastExt := a.xt.lastExt, next := a.xt.next, ticks := a.xt.ticks, period := a.xt.period } }

/-! ### The state copy (R301 to R305) -/

/-- The shepherd that the records go to: the STANDBY, one in the STATE stage, or one that joins. -/
def State.copyTo (s : State) : Option Shep :=
  match s.standby with
  | some x => some x
  | none =>
    match s.joining with
    | some x => some x
    | none =>
      if (s.sync.map fun y => y.stage) = some 3 then
        (if s.shA.role = .syncing then some .A else if s.shB.role = .syncing then some .B else none)
      else none

/-- The active shepherd works: it is not in reset. -/
def State.activeWorks (s : State) : Bool := (s.active.map fun x => !(s.sh x).halted).getD false

/-- COPY_RECORD_SEND (R301): the active sends the record of the present tick. In the STATE stage every block is sent once as a repair (R315). -/
def doCopySend (s : State) : State :=
  if s.activeWorks = true ∧ s.copyTo ≠ none then
    let diff := s.differing
    let all := match s.sync with
      | some y => if y.stage = 3 then sortN (y.left ++ diff).dedup else diff
      | none => diff
    let mark := decide (s.handover = some s.tick)
    { s with copyRec := some ⟨s.tick, all.take 32, decide (32 < all.length), mark, false⟩ }
  else s

/-- COPY_RECORD_RECEIVE (R302): the seal of the record of the present tick arrives, correct or not; in time is at least 50 ns before the next boundary. -/
def doCopyReceive (ok : Bool) (s : State) : State :=
  match s.copyRec with
  | some r =>
    if r.tick = s.tick ∧ s.copyTo ≠ none then
      { s with copyRec := some { r with sealed := ok && decide (s.edge + 20 ≤ 400 * (s.tick + 1)) } }
    else s
  | none => s

/-- REPAIR_PENDING in both shepherds' SHP_STATUS (R301). -/
def State.repairPending (s : State) (b : Bool) : State :=
  both (fun x s => s.pPut x SHP_STATUS fSHP_STATUS_REPAIR_PENDING (bitN b)) s

/-- At the boundary that ends tick t the record of t is applied, or is unsealed (R302, R303). -/
def State.copyBoundary (s : State) (t : Nat) : State :=
  match s.copyTo with
  | none => { s with copyRec := none }
  | some dst =>
    let good := match s.copyRec, s.active with
      | some r, some _ => r.sealed && decide (r.tick = t)
      | _, _ => false
    let blocks := (s.copyRec.map fun r => r.blocks).getD []
    let more := (s.copyRec.map fun r => r.more).getD false
    let s := { s with copyRec := none }
    if good then
      let s := ((s.copyControl dst.other dst).copyBlocks dst.other dst blocks).takeLag dst
      let s := (s.pCount dst SHP_CNT_REPAIR fSHP_CNT_REPAIR_COUNT blocks.length).repairPending more
      let s := s.modSh dst fun h => { h with copyMiss := 0 }
      match s.sync with
      | some y =>
        if y.stage = 3 then
          let left := y.left.filter fun b => decide (b ∉ blocks)
          let agree := if blocks = [] ∧ left = [] then y.agree + 1 else 0
          let s := both (fun x s => s.pPut x SHP_RESYNC fSHP_RESYNC_LEFT left.length) s
          { s with sync := some { y with left := left, agree := agree } }
        else s
      | none => s
    else
      let s := (s.pCount dst SHP_CNT_UNSEALED fSHP_CNT_UNSEALED_COUNT 1).pFlag dst SHP_EVENTS fSHP_EVENTS_UNSEALED
      let s := s.modSh dst fun h => { h with copyMiss := h.copyMiss + 1 }
      match s.sync with
      | some y => { s with sync := some { y with agree := 0 } }
      | none => s

/-- COPY_MISS_LIMIT (R304): the standby becomes DETACHED while the active's heartbeat is still received. -/
def doCopyMissLimit (s : State) : State :=
  match s.standby, s.active with
  | some x, some a =>
    if s.dGet SHP_CFG fSHP_CFG_COPY_MISS ≤ (s.sh x).copyMiss ∧ (s.sh a).hbMiss = 0 then
      let s := (s.modSh x fun h => { h with copyMiss := 0 }).enterRole x .detached
      ((s.shpFlag fSHP_EVENTS_CROOK_FAIL).repairPending false).alarm 0x08 .shepherd x.num
    else s
  | _, _ => s

/-- A word of the dynamic state or of the control section, which every shepherd computes for itself (R300). -/
def dynamicOff (off : Nat) : Bool :=
  match regFind off with
  | some (r, i) => decide (off ∈ controlWords) || decide (off ∈ (chanWords i).map fun e => e.1) || decide (off ∈ (slotWords i).map fun e => e.1) ||
      decide (r.scope ≠ .shared)
  | none => false

/-- The record of the tick before the present boundary was unsealed: the standby takes the shared words that the boundary's writes and commands changed at
the next boundary that an applied record assigns them to (R305). `was`: the state before them. -/
def State.deferShared (s was : State) (x : Shep) : State :=
  let offs := (((was.regs ++ s.regs).filter fun e => decide (e.1 / 0x10000000 = x.bank)).map fun e => e.1 % 0x10000000).dedup.filter fun o =>
    decide (was.rd x.bank o ≠ s.rd x.bank o) && !dynamicOff o
  offs.foldl (fun s o =>
    (s.wr x.bank o (was.rd x.bank o)).modSh x fun h => { h with lag := (h.lag.filter fun e => decide (e.1 ≠ o)) ++ [(o, s.rd x.bank o)] }) s

/-! ### Divergence (R299) -/

/-- The tick that ends carried a divergence, or not. -/
def State.divBoundary (s : State) : State :=
  if s.divNow then
    let s := both (fun x s => s.pCount x SHP_CNT_DIVERGE fSHP_CNT_DIVERGE_COUNT 1) s
    let s := s.shpFlag fSHP_EVENTS_DIVERGE
    let first := decide (s.divRun = 0)
    let s := { s with divNow := false, divRun := s.divRun + 1 }
    if first then s.alarm 0x07 .device 0 else s
  else { s with divRun := 0 }

/-- DIVERGENCE_LIMIT: the referee fences the standby (R299). -/
def doDivergenceLimit (s : State) : State :=
  let lim := s.dGet SHP_CFG fSHP_CFG_DIV_LIMIT
  match s.standby with
  | some x => if lim ≠ 0 ∧ lim ≤ s.divRun then s.fence x else s
  | none => s

/-! ### Heartbeats (R306, R307) -/

/-- A group of shepherd x's crossings is fenced (R468): 16 referee, 17 time unit, 18 register file and paddocks, 19 MAC hub, 20 cores and peripheral bus. -/
def State.fencedOwn (s : State) (x : Shep) (g : Nat) : Bool := bitAt (s.rd x.bank CLK_XING_FENCE).toNat g

/-- A heartbeat of shepherd x at a boundary passes its crossing, or joins the pending counter of a fenced one, or is lost (R461, R468). Those that waited flow
when the fence is down. Whether the referee sees one. -/
def State.beat (s : State) (x : Shep) (b : Bool) : Bool × State :=
  let n := (s.sh x).beatsPend
  if s.fencedOwn x 16 then
    if !b then (false, s)
    else if 15 ≤ n then (false, s.wr x.bank CLK_XING_OVF (BitVec.ofNat 32 (setBitAt (s.rd x.bank CLK_XING_OVF).toNat 16 true)))
    else (false, s.modSh x fun h => { h with beatsPend := n + 1 })
  else if n = 0 then (b, s)
  else (true, s.modSh x fun h => { h with beatsPend := 0 })

/-- The referee counts at a boundary (R306); after both shepherds were lost in one tick, one whose pulse returns claims (R308). -/
def State.heartbeats (s : State) (beatA beatB : Bool) : State :=
  let f := fun (x : Shep) (b : Bool) (s : State) =>
    let (b, s) := s.beat x (b && !(s.sh x).halted)
    let h := s.sh x
    if h.role = .active ∨ h.role = .standby then
      s.modSh x fun h => { h with hbMiss := if b then 0 else h.hbMiss + 1 }
    else if s.bothLost && b && decide (s.active = none) then s.claim x
    else s
  f .B beatB (f .A beatA s)

/-- A heartbeat count has reached HB_MISS (R306). -/
def State.isLost (s : State) (x : Shep) : Bool :=
  decide ((s.sh x).role = .active ∨ (s.sh x).role = .standby) && decide (s.dGet SHP_CFG fSHP_CFG_HB_MISS ≤ (s.sh x).hbMiss)

/-- SHEPHERD_LOST (R307): the standby's claim is granted and the former active fenced; a lost standby is fenced; with both lost the referee records no ACTIVE
shepherd (R308); an active one lost without a standby leaves the paddocks orphaned. -/
def doShepherdLost (x : Shep) (s : State) : State :=
  if !s.isLost x then s
  else if s.role x = .standby then
    if s.isLost x.other then { (s.fence x).fence x.other with bothLost := true }.checkOrphan
    else (s.fence x).alarm 0x09 .shepherd x.num
  else
    match s.standby with
    | some y =>
      if (s.sh y).hbMiss = 0 ∧ s.fencedOwn y 16 = false then (((s.fence x).grant y 0).alarm 0x0B .shepherd x.num)
      else if s.isLost y then { (s.fence x).fence y with bothLost := true }.checkOrphan
      else s
    | none => (s.fence x).checkOrphan

/-! ### Resynchronisation (R315 to R317) -/

/-- SHP_RESYNC in both shepherds. -/
def State.resyncStage (s : State) (stage left : Nat) : State :=
  both (fun x s => (s.pPut x SHP_RESYNC fSHP_RESYNC_STAGE stage).pPut x SHP_RESYNC fSHP_RESYNC_LEFT left) s

/-- Pages of 4 KiB of a bank field. -/
def Part.bankPages (p : Part) : Nat := 256 * p.banks

/-- What there is to watch while a resynchronisation copies (R315). -/
def State.syncSeen (s : State) : SyncSeen :=
  ⟨s.regs.filter fun e => decide (e.1 / 0x10000000 = s.lead.bank), s.slots, s.rots, s.map, s.library, s.results⟩

/-- The 4 KiB page of the bank field that holds a register word of a shepherd (R433): the contents of a GL3280 with their places in the register table, first and
last bank; a content's words fill its banks in order, and on the smaller parts the field shrinks evenly (log entry 116). -/
def bankPlaces : List (Nat × Nat × Nat × Nat) :=
  [(0x800000, 0xA00000, 4, 5), (0xA00000, 0xC00000, 6, 7), (0x1000000, 0x1800000, 8, 15), (0x1800000, 0x1A00000, 16, 17), (0x180000, 0x1A0000, 18, 18),
   (0x200000, 0x300000, 19, 19), (0x400000, 0x500000, 20, 20), (0x2000000, 0x6000000, 64, 127), (0x6000000, 0xA000000, 64, 127)]

def bankPage (p : Part) (off : Nat) : Option Nat :=
  (bankPlaces.find? fun r => decide (r.1 ≤ off ∧ off < r.2.1)).map fun r =>
    (256 * r.2.2.1 + (off - r.1) * (256 * (r.2.2.2 + 1 - r.2.2.1)) / (r.2.1 - r.1)) * p.banks / 128

/-- The pages of a run of banks of a GL3280. -/
def bankRun (p : Part) (first n : Nat) : List Nat := (List.range (n * p.banks / 128)).map fun i => first * p.banks / 128 + i

/-- The keys of which two tables say different things. -/
def changedKeys {α : Type} [DecidableEq α] (d : α) (a b : Tab α) : List Nat :=
  ((a ++ b).map fun e => e.1).dedup.filter fun k => decide (Tab.get a d k ≠ Tab.get b d k)

/-- The pages of the bank field written since the last boundary: words of the tables, and the plan slots (banks 24 to 59), rotation lists (60 to 63) and map
tables (21 to 23) that changed. -/
def State.pagesWritten (s : State) (w : SyncSeen) : List Nat :=
  let n := s.syncSeen
  let words := ((n.regs ++ w.regs).map fun e => e.1).dedup.filter fun k =>
    decide (Tab.get n.regs (resetWord (k % 0x10000000)) k ≠ Tab.get w.regs (resetWord (k % 0x10000000)) k)
  words.filterMap (fun k => bankPage s.part (k % 0x10000000)) ++
  (changedKeys {} n.slots w.slots).flatMap (fun i => bankRun s.part (256 * 24 + 144 * i) 144) ++
  (changedKeys none n.rots w.rots).flatMap (fun d => bankRun s.part (256 * 60 + 64 * d) 64) ++
  (if n.map = w.map then [] else bankRun s.part (256 * 21) 768)

/-- What is to be copied, with an item that was written: from its start again. -/
def recopy (todo : List (Nat × Nat)) (e : Nat × Nat) : List (Nat × Nat) :=
  if todo.any fun q => decide (q.1 = e.1) then todo.map fun q => if q.1 = e.1 then e else q else todo ++ [e]

/-- What is left to copy after n units. -/
def spendUnits : Nat → List (Nat × Nat) → List (Nat × Nat)
  | _, [] => []
  | n, (k, u) :: r => if u ≤ n then spendUnits (n - u) r else (k, u - n) :: r

/-- A shepherd enters SYNCING when its image and the active's carry equal STATE_VERSION (R315, R500); otherwise it stays DETACHED. -/
def State.startSync (s : State) (x : Shep) : State :=
  if (s.sh x).stateVer ≠ (s.sh x.other).stateVer then
    let s := s.shpFlag fSHP_EVENTS_RESYNC_FAIL
    if s.role x = .detached then s else s.enterRole x .detached
  else
  let s := s.enterRole x .syncing
  { s with sync := some ⟨1, s.tick, [], 0, 0, [], s.syncSeen⟩ }.resyncStage 1 s.part.bankPages

/-- A shepherd that has booted, or was not granted, while the other is ACTIVE (R308, R315). -/
def State.rejoin (s : State) (x : Shep) : State :=
  if s.dGet SHP_CFG fSHP_CFG_AUTO_RESYNC = 1 then s.startSync x else s.enterRole x .detached

/-- The bank field and shared words of the active replace those of the other shepherd (R315). -/
def State.copyBanks (s : State) (src dst : Shep) : State :=
  let from1 := s.regs.filter fun e => decide (e.1 / 0x10000000 = src.bank) && sharedOff (e.1 % 0x10000000)
  let s := s.dropRegs dst.bank sharedOff
  let s := from1.foldl (fun s e => s.wr dst.bank (e.1 % 0x10000000) e.2) s
  let q := (s.sh src).xt.queue
  s.modSh dst fun h => { h with xt := { h.xt with queue := q }, lag := [] }

/-- The shepherd in SYNCING. -/
def State.syncing (s : State) : Option Shep :=
  if s.shA.role = .syncing then some .A else if s.shB.role = .syncing then some .B else none

/-- A library record in the LIBRARY stage, and the survey results, with their units of 4 KiB (R315). -/
def State.recUnit (s : State) (k : Nat) : Nat × Nat :=
  if k = 65536 then (k, ceilDiv (352 * s.results.length) 4096) else (k, ceilDiv s.part.recBytes 4096)

/-- The records of the LIBRARY stage. -/
def State.recUnits (s : State) : List (Nat × Nat) :=
  (s.library.map fun e => s.recUnit e.1) ++ (if s.results = [] then [] else [s.recUnit 65536])

/-- The records written since the last boundary. -/
def State.recsWritten (s : State) (w : SyncSeen) : List Nat :=
  changedKeys none s.library w.library ++ (if s.results = w.results then [] else [65536])

/-- The units that a resynchronisation has left in BANK or LIBRARY. -/
def State.syncLeft (s : State) (y : Sync) : Nat :=
  (if y.stage = 1 then s.part.bankPages - y.done else 0) + (y.todo.map fun e => e.2).sum

/-- The work of a tick in BANK and LIBRARY: 48 pages or units; a page or record written after it was copied is copied again (R315). -/
def State.syncBoundary (s : State) : State :=
  match s.sync with
  | none => s
  | some y =>
    if 3 ≤ y.stage then s
    else
      let fresh := if y.stage = 1 then min 48 (s.part.bankPages - y.done) else 0
      let done := y.done + fresh
      let rest := spendUnits (48 - fresh) y.todo
      let again := if y.stage = 1 then ((s.pagesWritten y.seen).filter fun p => decide (p < done)).map fun p => (p, 1)
        else (s.recsWritten y.seen).map fun k => if k = 65536 ∨ Tab.get s.library none k ≠ none then s.recUnit k else (k, 0)
      let y := { y with done := done, todo := (again.foldl recopy rest).filter fun e => decide (e.2 ≠ 0), seen := s.syncSeen }
      both (fun x s => s.pPut x SHP_RESYNC fSHP_RESYNC_LEFT (s.syncLeft y)) { s with sync := some y }

/-- RESYNC_BANK_DONE (R315). -/
def doResyncBank (s : State) : State :=
  match s.sync, s.syncing with
  | some y, some x =>
    if y.stage = 1 ∧ s.syncLeft y = 0 then
      let y := { y with stage := 2, done := 0, todo := s.recUnits, seen := s.syncSeen }
      { s.copyBanks x.other x with sync := some y }.resyncStage 2 (s.syncLeft y)
    else s
  | _, _ => s

/-- RESYNC_LIBRARY_DONE (R315): the shepherd computes from now on, and every block is to be sent. -/
def doResyncLibrary (s : State) : State :=
  match s.sync, s.syncing with
  | some y, some x =>
    if y.stage = 2 ∧ s.syncLeft y = 0 then
      let n := s.part.chanBlocks + 128
      { (s.copyBanks x.other x).copyControl x.other x with sync := some { y with stage := 3, left := List.range n, agree := 0 } }.resyncStage 3 n
    else s
  | _, _ => s

/-- The RESYNC descriptor completes (R319). -/
def State.resyncEnd (s : State) (code : Nat) : State :=
  match s.job? .resync with
  | some j => (s.endJob j).completeHif j.d code
  | none => s

/-- A shepherd becomes STANDBY (R316), with the commands that the active holds and the numbers of the control section (R300, R351). -/
def State.becomeStandby (s : State) (x : Shep) : State :=
  let a := s.sh x.other
  let s := (s.setRole x .standby).modSh x fun h => { h with
    hbMiss := 0, copyMiss := 0, fold := a.fold, cmdProd := a.cmdProd, stopped := a.stopped, offers := s.txNum }
  let s := (List.range 16).foldl (fun s r =>
    s.pPut x (HIF_CMD_STAT r) fHIF_CMD_STAT_CONS (s.pGet x.other (HIF_CMD_STAT r) fHIF_CMD_STAT_CONS)) { s with early := [] }
  s.pPut x SHP_STATUS fSHP_STATUS_EPOCH s.epoch

/-- RESYNC_STATE_DONE (R316). -/
def doResyncState (s : State) : State :=
  match s.sync, s.syncing with
  | some y, some x =>
    if y.stage = 3 ∧ 16 ≤ y.agree then
      (({ s with sync := none }.resyncStage 0 0).becomeStandby x).resyncEnd 0
    else s
  | _, _ => s

/-- The resynchronisation stops (R317). -/
def State.syncFail (s : State) : State :=
  match s.sync with
  | none => s
  | some _ =>
    let s := ({ s with sync := none }.resyncStage 0 0).shpFlag fSHP_EVENTS_RESYNC_FAIL
    let s := match s.syncing with
      | some x => s.enterRole x .detached
      | none => s
    s.resyncEnd 0x0C

/-- Ticks of the 4 s of R317. -/
def syncTicks : Nat := 4000000

/-- RESYNC_TIMEOUT (R317). -/
def doResyncTimeout (s : State) : State :=
  match s.sync with
  | some y => if y.start + syncTicks ≤ s.tick ∨ s.activeWorks = false then s.syncFail else s
  | none => s

/-- A shepherd that was not granted joins after the first tick: STANDBY when its digests agree (R308). -/
def State.joinBoundary (s : State) : State :=
  match s.joining with
  | none => s
  | some x =>
    if s.grantTick = some s.tick then s
    else
      let s := { s with joining := none }
      if s.active = none ∨ (s.sh x).halted = true then s
      else if s.differing = [] then s.becomeStandby x
      else s.rejoin x

/-- The boot of a shepherd has ended (R308, R315, R481): it rejoins an active peer, requests a claim, or waits for the end of QUIESCE or DEEP. -/
def State.bootDone (s : State) (x : Shep) : State :=
  let s := s.modSh x fun h => { h with halted := false, role := .off, booted := true, offers := s.txNum }
  if s.lp ≠ .none then s
  else if s.active ≠ none then (s.modSh x fun h => { h with booted := false }).rejoin x
  else (s.modSh x fun h => { h with booted := false }).claim x

/-! ### SHP writes (R297, R299, R312, R315, R321) -/

/-- HANDOVER through shepherd x at the present boundary (R312). -/
def State.handoverWrite (s : State) (x : Shep) : State :=
  if s.standby = some x.other ∧ s.pGet x SHP_STATUS fSHP_STATUS_REPAIR_PENDING = 0 ∧ s.handover = none then
    { s with handover := some s.tick }
  else s.badCtrl x

/-- CLR_CNT: the counters of shepherd x and SHP_PDK_ERR are 0 (R321). -/
def State.clearCounts (s : State) (x : Shep) : State :=
  let s := [SHP_CNT_DIVERGE, SHP_CNT_UNSEALED, SHP_CNT_REPAIR].foldl (fun s o => s.wr x.bank o 0) s
  let s := s.pPut x SHP_HOST_DIV fSHP_HOST_DIV_COUNT 0
  (List.range 16).foldl (fun s p => s.wr 0 (SHP_PDK_ERR p) 0) s

/-- A write to SHP_CTRL through shepherd x (R321). -/
def State.writeShpCtrl (s : State) (x : Shep) (v : Word) : State :=
  let bits := v.toNat / 2 ^ 29
  if (bits ≠ 0 ∧ bits ≠ 1 ∧ bits ≠ 2 ∧ bits ≠ 4) ∨ (bits ≠ 0 ∧ s.role x ≠ .active) then s.badCtrl x
  else
    let s := if fSHP_CTRL_CLR_CNT.get v = 1 then s.clearCounts x else s
    if bits = 4 then s.handoverWrite x
    else if bits = 2 then
      if s.role x.other = .detached ∧ (s.sh x.other).halted = false then s.startSync x.other else s.badCtrl x
    else if bits = 1 then
      let s := if s.role x.other = .syncing then { s with sync := none }.resyncStage 0 0 else s
      if s.role x.other = .off then s else (s.fence x.other).repairPending false
    else s

/-- A write to SHP_CFG (R321). -/
def State.writeShpCfg (s : State) (x : Shep) (v : Word) : State :=
  let hb := fSHP_CFG_HB_MISS.get v
  if fSHP_CFG_COPY_MISS.get v < 8 ∨ hb < 2 ∨ 64 < hb then s.badCtrl x else s.wr 0 SHP_CFG (v &&& 0x01FFFFFF)

/-- REPORT written through shepherd x (R297, R299). -/
def State.writeHostDiv (s : State) (x : Shep) (v : Word) : State :=
  if fSHP_HOST_DIV_REPORT.get v = 1 then { s.pCount x SHP_HOST_DIV fSHP_HOST_DIV_COUNT 1 with divNow := true } else s

/-- RESULT of HANDOVER (R341). -/
def State.handoverResult (s : State) : List Byte := leBytes 1 (s.lead.num) ++ zeros 1 ++ leBytes 2 s.epoch

/-- HANDOVER_GRANT: at the boundary 1 us after that of the write the standby's claim is granted; the former active is STANDBY (R312). -/
def doHandoverGrant (s : State) : State :=
  match s.handover, s.active, s.standby with
  | some b, some x, some y =>
    if b + 1 ≤ s.tick then
      let s := (s.setRole x .standby).grant y 1
      match s.job? .handover with
      | some j => if j.phase = 2 then (s.endJob j).complete j.d 0 0 s.handoverResult else s
      | none => s
    else s
  | some _, _, _ => { s with handover := none }
  | none, _, _ => s

/-! ### HANDOVER and RESYNC descriptors (R319) -/

/-- HANDOVER: firmware waits for REPAIR_PENDING = 0, at most 64 ticks, then writes HANDOVER. -/
def startHandover (d : Desc) (s : State) : State :=
  if s.standby = none then s.completeHif d 0x08 else s.addJob ⟨d, .handover, 0, s.tick + 64, []⟩

/-- The handover job at a boundary: phase 0 waits, phase 1 waits for the boundary of the write (R68), phase 2 for the grant. -/
def State.handoverBoundary (s : State) : State :=
  match s.job? .handover with
  | none => s
  | some j =>
    let fail := fun (c : Nat) => (s.endJob j).completeHif j.d c
    if s.standby = none then fail 0x08
    else if j.phase = 0 then
      if s.sGet SHP_STATUS fSHP_STATUS_REPAIR_PENDING = 0 then s.setJob j { j with phase := 1, due := s.tick + 1 }
      else if j.due ≤ s.tick then fail 0x09 else s
    else if j.phase = 1 then
      if s.tick < j.due then s
      else
        let s := s.handoverWrite s.lead
        if s.handover = none then (s.endJob j).completeHif j.d 0x09 else s.setJob j { j with phase := 2 }
    else s

/-- RESYNC: firmware writes RESYNC_PEER; the descriptor completes at the end of STATE. -/
def startResync (d : Desc) (s : State) : State :=
  let y := s.lead.other
  if s.role y = .detached ∧ (s.sh y).halted = false then
    let s := s.startSync y
    if s.role y = .syncing then s.addJob ⟨d, .resync, 0, 0, []⟩ else s.completeHif d 0x0C
  else s.completeHif d 0x07

end Sys2Proof.Machine
end

