-- ==== Sys2Proof/Machine/Modes.lean ====
section
/-! DEFINITION. Mode changes and low-power states by command, entry to SAFE, and fault reactions (R470 to R481, R523 to R532). -/

namespace Sys2Proof.Machine

/-! ### Entry to SAFE (R471, R475, R479) -/

/-- A command that has started stops with HIF_ABORTED (R475, R485): what it had reserved is given back. -/
def State.abortJob (s : State) (j : Job) : State :=
  let s := s.endJob j
  let s := match j.kind with
    | .mapLoad => s.sPut DRO_MAP_STATUS fDRO_MAP_STATUS_BUSY 0
    | .planRoute =>
      match s.drover with
      | some w => if w.d = j.d then { (s.unreserve w.slot).modSlot w.slot (fun k => { k with refresh := false }) with drover := none } else s
      | none => s
    | .march => both (fun x s => s.pPut x BNK_STATUS fBNK_STATUS_MARCH_BUSY 0) s
    | .surveyAbort => s.modSurvey fun v => { v with abort := false }
    | _ => s
  s.completeHif j.d 0x0B

/-- The commands that have started and not completed and that an opcode set does not spare stop (R475). -/
def State.abortJobs (s : State) (spare : Nat → Bool) : State :=
  (s.jobs.filter fun j => !spare j.d.op).foldl State.abortJob s

/-- A plan refresh or building that ends leaves no slot reserved. -/
def State.clearReserved (s : State) : State :=
  if s.drover = none then
    { s with slots := s.slots.map fun e => (e.1, if e.2.state = 1 then { e.2 with state := e.2.was, refresh := false } else { e.2 with refresh := false }) }
  else s

/-- A survey that is under way ends as an abort ends it (R282); the descriptor that asked for it completes with HIF_ABORTED (R475, R485). -/
def State.surveyAborted (s : State) : State :=
  match s.survey.bind fun v => v.d with
  | none => s.surveyStop
  | some d => ((s.modSurvey fun v => { v with d := none }).surveyStop).completeHif d 0x0B

/-- The device enters SAFE at the present boundary (R471): low-power states are left, a survey is aborted, commands stop, schedules are cancelled, and every
flock takes its clear code (R26). -/
def State.enterSafe (s : State) : State :=
  if s.mode = .survey ∨ s.mode = .parked ∨ s.mode = .service ∨ s.mode = .maintenance then
    let s := s.surveyAborted
    let s := s.abortJobs fun op => decide (op ∈ safeOps)
    let s := s.cancelSchedules fun _ => true
    let s := s.setMode .safe .none 1
    let s := s.recEvent fFLD_FREEZE_CFG_ON_SAFE
    (s.sFlag ALM_STATUS fALM_STATUS_SAFE_LATCH).droverNext
  else s

/-! ### Wake (R477, R479, R480) -/

/-- A wake source acts: napped paddocks wake, and QUIESCE or DEEP is left; `cause` as in the MODE event (R476). -/
def State.wakeAll (s : State) (cause : Nat) : State :=
  if s.lp = .none ∧ s.napMask = 0 then s
  else
    let s := s.dFlag PWR_WAKE fPWR_WAKE_WAKE_SEEN
    let s := s.wakePdks s.allPdks
    { s with lpExit := some (s.lpExit.getD cause) }

/-- A recognised low level of CLEAR_N (R87): the selected flocks are forced to their clear codes. The fall wakes napped paddocks and does not
leave QUIESCE (R479); a paddock in DEEP or in reset does not respond (outState keeps it disabled). -/
def doClearLow (s : State) : State :=
  let s := { s with clearLow := true, clearHold := true, clearFell := true }
  let s := if s.napMask = 0 ∨ s.lp = .deep then s
    else
      let s := (s.dFlag PWR_WAKE fPWR_WAKE_WAKE_SEEN).wakePdks s.allPdks
      if s.lp = .none then { s with lpExit := some (s.lpExit.getD 4) } else s
  s.settleAll

/-- A SAFE reaction: a low-power state is left first, NAP among them, then the device enters SAFE (R471, R477, R479). -/
def State.reactSafe (s : State) : State :=
  if s.lp ≠ .none ∨ s.napMask ≠ 0 then { s.wakeAll 1 with safeDue := true } else s.enterSafe

/-- The paddocks that sleep wake at the end of their exit. -/
def State.endNap (s : State) : State :=
  let ps := s.waking
  let s := ps.foldl (fun s p => s.modPdk p fun k => { k with nap := false }) s
  let s := { s with waking := [] }
  ps.foldl (fun s p => s.enablePdk p) s

/-- The commands that wait for paddocks to wake, or for QUIESCE to be left, complete. -/
def State.endWakeJobs (s : State) : State :=
  (s.jobs.filter fun j => decide (j.kind = .wake ∨ j.kind = .napExit)).foldl (fun s j => (s.endJob j).completeHif j.d 0) s

/-- READY of a paddock in RST_PDK_READY. -/
def State.pdkReady (s : State) (p : Nat) (b : Bool) : State :=
  s.dPut RST_PDK_READY fRST_PDK_READY_READY (setBitAt (s.dGet RST_PDK_READY fRST_PDK_READY_READY) p b)

/-- Paddock p is ready and runs with its words and trims restored (R486): its channels whose SPAN and OE are restored are enabled (R72), and each span is held to the
element record (R61). -/
def State.padRestored (s : State) (p : Nat) : State :=
  let s := { s with vrefs := Tab.set s.vrefs {} p { s.vref p with now := (s.vref p).kept } }
  let s := ((s.modPdk p fun k => { k with mode := .run }).pdkReady p true).enablePdk p
  (s.mapped.filter fun c => decide (pdkOf c = p)).foldl State.checkDiverge s

/-- What the exit from DEEP restores (R438, R480): content of banks that were OFF is lost, the paddocks are powered up, reloaded and enabled. -/
def State.leaveDeep (s : State) : State :=
  let s := s.loseBanks fun b => !s.deepKeeps b
  let ps := s.allPdks.filter fun p => decide ((s.pdk p).mode = .off)
  let s := { ps.foldl State.padRestored s with waking := [] }
  s.settleAll

/-- Shepherds whose boot ended during QUIESCE or DEEP rejoin when it is left (R481). -/
def State.rejoinBooted (s : State) : State :=
  [Shep.A, Shep.B].foldl (fun s x => if (s.sh x).booted then
    let s := s.modSh x fun h => { h with booted := false }
    if s.active ≠ none then s.rejoin x else s.claim x else s) s

/-- LOW_POWER_EXIT_DONE: the exit that is under way completes (R477, R480). A CLEAR_N fall wakes napped paddocks and leaves QUIESCE in force (R479). -/
def doLowPowerExit (s : State) : State :=
  if s.waking = [] ∧ s.lpExit = none then s
  else
    let was := if s.lpExit = none then .none else s.lp
    let cause := s.lpExit.getD (if s.lp = .none then 0 else 4)
    let s := if was = .none then s.endNap
      else if was = .quiesce then { s with lp := .none }.endNap
      else { s with lp := .none }.leaveDeep
    let safe := s.safeDue
    let s := { s with lpExit := none, safeDue := false }
    let s := s.modeEvent s.mode cause
    let s := s.endWakeJobs
    let s := if was = .none then s else s.rejoinBooted
    if safe then s.enterSafe else s

/-- WAKE_N_FALL (R479). -/
def doWakeN (s : State) : State := s.wakeAll 4

/-- A write of PWR_WAKE through BAR0 (R479, R491). -/
def State.writeWake (s : State) (v : Word) : State :=
  let s := if fPWR_WAKE_WAKE_SEEN.get v = 1 then s.dPut PWR_WAKE fPWR_WAKE_WAKE_SEEN 0 else s
  if fPWR_WAKE_WAKE.get v = 1 then s.wakeAll 4 else s

/-! ### The MODE descriptor (R471 to R474) -/

/-- The device may leave SAFE (R527). -/
def State.safeExitOk (s : State) : Bool :=
  decide (s.sGet ALM_STATUS fALM_STATUS_SAFE_LATCH = 0) && !s.safeSince && decide (s.muster.win = none)

/-- The part that a MODE MAINTENANCE names. -/
def modePart (d : Desc) : OutOfService := if d.in1 33 = 0 then .paddock (d.in1 34) else .domain (d.in1 34)

/-- MODE with target PARKED. -/
def startModeParked (d : Desc) (s : State) : State :=
  match s.mode with
  | .parked => s.completeHif d 0
  | .service => (s.enterParked 0).completeHif d 0
  | .maintenance => if s.survey ≠ none then s.completeHif d 0x07 else (s.enterParked 0).completeHif d 0
  | .safe => if s.safeExitOk then (s.enterParked 0).completeHif d 0 else s.completeHif d 0x07
  | _ => s.completeHif d 0x07

/-- MODE with target SERVICE. -/
def startModeService (d : Desc) (s : State) : State :=
  let noSeed := bitAt (d.in1 35) 0
  match s.mode with
  | .service => s.completeHif d 0
  | .maintenance => if s.survey ≠ none then s.completeHif d 0x07 else (s.enterService noSeed 0).completeHif d 0
  | .parked =>
    if s.map = none then s.completeHif d 0x07 else (s.enterService noSeed 0).completeHif d 0
  | _ => s.completeHif d 0x07

/-- MODE with target MAINTENANCE. -/
def startModeMaintenance (d : Desc) (s : State) : State :=
  let part := modePart d
  let absent := match part with
    | .paddock p => decide (s.part.paddocks ≤ p)
    | .domain k => decide (s.dom? k = none)
    | .none => true
  if absent then s.completeHif d 0x04
  else match s.mode with
    | .maintenance => s.completeHif d (if s.oos = part then 0 else 0x07)
    | .service => (s.enterMaintenance part 0).completeHif d 0
    | _ => s.completeHif d 0x07

/-- A MODE descriptor by its target (R474). In NAP and QUIESCE it is refused (R479). -/
def startMode (d : Desc) (s : State) : State :=
  if 2 ≤ d.in1 35 then s.completeHif d 0x02
  else if (d.in1 32 ≠ 4 ∧ d.in1 32 ≠ 5 ∧ d.in1 32 ≠ 6) ∨ (d.in1 32 = 6 ∧ 2 ≤ d.in1 33) then s.completeHif d 0x05
  else if s.lp = .quiesce ∨ s.napMask ≠ 0 then s.completeHif d 0x07
  else match d.in1 32 with
    | 4 => startModeParked d s
    | 5 => startModeService d s
    | _ => startModeMaintenance d s

/-! ### The POWER descriptor (R478) -/

/-- A paddock mask names a paddock that the part does not have. -/
def State.maskBad (s : State) (m : Nat) : Bool := decide (2 ^ s.part.paddocks ≤ m)

/-- The paddocks of a mask. -/
def State.maskPdks (s : State) (m : Nat) : List Nat := bitsOf s.part.paddocks m

/-- NAP_ENTER. -/
def startNapEnter (d : Desc) (s : State) : State :=
  let m := d.in2 34
  if s.maskBad m then s.completeHif d 0x04
  else if s.mode ≠ .parked ∨ s.lp ≠ .none then s.completeHif d 0x07
  else
    let new := (s.maskPdks m).filter fun p => !(s.pdk p).nap
    if new = [] then s.completeHif d 0
    else
      let s := new.foldl (fun s p => s.modPdk p fun k => { k with nap := true }) s
      (s.modeEvent s.mode 0).completeHif d 0

/-- NAP_EXIT: wakes the named paddocks and leaves QUIESCE (R479); completes when the paddocks are awake. -/
def startNapExit (d : Desc) (s : State) : State :=
  let m := d.in2 34
  if s.maskBad m then s.completeHif d 0x04
  else if s.mode ≠ .parked then s.completeHif d 0x07
  else
    let s := s.wakePdks (s.maskPdks m)
    if s.waking = [] ∧ s.lp = .none then s.completeHif d 0
    else
      let s := s.dFlag PWR_WAKE fPWR_WAKE_WAKE_SEEN
      let s := if s.lp = .none then s else { s with lpExit := some (s.lpExit.getD 0) }
      s.addJob ⟨d, .napExit, 0, 0, []⟩

/-- QUIESCE. -/
def startQuiesce (d : Desc) (s : State) : State :=
  if s.mode ≠ .parked ∨ s.lp ≠ .none then s.completeHif d 0x07
  else
    let s := { s with lp := .quiesce }.stopPasses
    (s.modeEvent s.mode 0).completeHif d 0

/-- What a paddock loses when it is reset or powered off: its shadow is empty, the frames it holds, its spans and its measurements under way go. -/
def State.padLost (s : State) (p : Nat) (mode : PdkMode) : State :=
  let s := (s.shadowsLost [p]).modPdk p fun k => { k with
    mode := mode, nap := false, shadow := [], staging := [], commits := [], held := [], frame := none, ctlAny := true }
  { s with
    chans := s.chans.filter fun e => decide (pdkOf e.1 ≠ p)
    vrefs := Tab.set s.vrefs {} p { s.vref p with now := {} }
    senses := s.senses.filterMap fun (e : Nat × SnsHid) => if e.1 / 1024 ≠ p then some e else if e.2.col = [] then none else some (e.1, { col := e.2.col })
    links := s.links.filter fun e => decide (e.1 / 2 ≠ p)
    xing := Tab.set s.xing [] (16 + p) []
    waking := s.waking.filter fun q => decide (q ≠ p) }

/-- DEEP: the completion is written before the entry (R478); the paddocks are powered off and their shadows empty (R489). -/
def startDeep (d : Desc) (s : State) : State :=
  if s.mode ≠ .parked ∨ s.lp ≠ .none then s.completeHif d 0x07
  else
    let s := s.completeHif d 0
    let s := { s with lp := .deep, waking := [] }.stopPasses
    let s := s.allPdks.foldl (fun s p => s.padLost p (if (s.pdk p).mode = .reset then .reset else .off)) s
    s.modeEvent s.mode 0

/-- WAKE: leaves QUIESCE. -/
def startWake (d : Desc) (s : State) : State :=
  if s.lp ≠ .quiesce then s.completeHif d 0x07
  else { s.wakeAll 0 with lpExit := some (s.lpExit.getD 0) }.addJob ⟨d, .wake, 0, 0, []⟩

/-- PADDOCK_RESET is allowed for a paddock (R478). -/
def State.pdkResetOk (s : State) (p : Nat) : Bool :=
  decide (p < s.part.paddocks) && (decide (s.mode = .parked) || (decide (s.mode = .maintenance) && decide (s.oos = .paddock p)))

/-- PADDOCK_RESET: firmware performs steps 2 to 6 of the grouped reset (R468): the fence bit is written first. -/
def startPaddockReset (d : Desc) (s : State) : State :=
  let p := d.in1 33
  if s.part.paddocks ≤ p then s.completeHif d 0x04
  else if !s.pdkResetOk p then s.completeHif d 0x07
  else s.addJob ⟨d, .padReset, 0, s.tick + 2, [p]⟩

/-- SHEPHERD_RESET: an active shepherd hands over first (R319). -/
def startShepherdReset (d : Desc) (s : State) : State :=
  let x : Shep := if d.in1 33 = 0 then .A else .B
  let up := fun (r : Role) => decide (r = .active ∨ r = .standby)
  if 2 ≤ d.in1 33 then s.completeHif d 0x05
  else if !(up (s.role .A) && up (s.role .B)) then s.completeHif d 0x07
  else s.addJob ⟨d, .shpReset, if s.role x = .active then 0 else 2, s.tick + 64, [x.num]⟩

/-- Firmware of a shepherd restarts: the commands that have started and not completed, a survey's among them, complete with HIF_ABORTED (R485). -/
def State.softReset (s : State) (x : Shep) : State :=
  let s := (if s.survey.bind (fun v => v.d) = none then s else s.surveyAborted).abortJobs fun _ => false
  let s := { s.clearReserved with drover := none }.mastersReset x [0, 1, 2, 3]
  s.pFlag x RST_CAUSE fRST_CAUSE_SOFT

/-- SOFT_RESET by descriptor. -/
def startSoftReset (d : Desc) (s : State) : State :=
  if 2 ≤ d.in1 33 then s.completeHif d 0x05
  else (s.softReset (if d.in1 33 = 0 then .A else .B)).completeHif d 0

/-- A POWER descriptor by its subcommand. -/
def startPower (d : Desc) (s : State) : State :=
  match d.in1 32 with
  | 0 => startNapEnter d s
  | 1 => startNapExit d s
  | 2 => startQuiesce d s
  | 3 => startDeep d s
  | 4 => startWake d s
  | 5 => startPaddockReset d s
  | 6 => startShepherdReset d s
  | 7 => startSoftReset d s
  | _ => s.completeHif d 0x05

/-! ### Fault reactions (R523 to R527) -/

/-- The domains of a report's PARK_DOMAIN scope, and its free elements. -/
def State.parkScope (s : State) (r : Report) : List Nat × List Nat :=
  let ofChans := fun (cs : List Nat) =>
    (((cs.filterMap s.domOf).dedup).filter fun d => decide (d ≠ 255), cs.filter fun c => decide (s.domOf c = some 255))
  match r.kind with
  | .channel => ofChans [r.id]
  | .monitor => ofChans (s.infl r.id)
  | .paddock => ofChans (s.mapped.filter fun c => decide (pdkOf c = r.id))
  | .domain => ([r.id], [])
  | _ => ofChans s.mapped

/-- The flocks of a report's CLEAR_FLOCKS scope. -/
def State.clearScope (s : State) (r : Report) : List Nat :=
  match r.kind with
  | .channel => [flockOf r.id]
  | .monitor => ((s.infl r.id).map flockOf).dedup
  | .paddock => (List.range 4).map fun i => 4 * r.id + i
  | .domain => ((s.domChans r.id).map flockOf).dedup
  | _ => List.range s.part.flocks

/-- The highest class applied joins the open window (R522). -/
def State.applied (s : State) (c : Nat) : State :=
  { s with muster := { s.muster with win := s.muster.win.map fun w => { w with applied := max w.applied c } } }

/-- PARK_DOMAIN (R523, R525): domains that are not out of service are parked; their turnouts are cancelled. -/
def State.reactPark (s : State) (r : Report) : State :=
  if s.mode ≠ .service ∧ s.mode ≠ .maintenance then s
  else
    let (ds, free) := s.parkScope r
    let ds := ds.filter fun d => decide (d < 16 ∧ s.dom? d ≠ none) && !s.domOut d
    if ds = [] ∧ free = [] then s
    else
      let s := ds.foldl (fun s d =>
        s.sPut ALM_PARKED fALM_PARKED_DOMAIN (setBitAt (s.sGet ALM_PARKED fALM_PARKED_DOMAIN) d true)) s
      let s := if free = [] then s
        else { s with parkedFree := s.parkedFree ++ free.filter fun c => decide (c ∉ s.parkedFree) }.sFlag ALM_PARKED fALM_PARKED_FREE
      let s := ds.foldl State.domainOut s
      s.settleAll.applied 1

/-- CLEAR_FLOCKS (R523, R525). -/
def State.reactClear (s : State) (r : Report) : State :=
  let fs := (s.clearScope r).filter fun f => decide (f < s.part.flocks)
  if s.mode = .off ∨ s.mode = .reset ∨ s.mode = .boot ∨ fs = [] then s
  else
    let s := fs.foldl (fun s f =>
      let w := f / 32
      s.sWr (ALM_CLEARED w) (BitVec.ofNat 32 (setBitAt (s.sRd (ALM_CLEARED w)).toNat (f % 32) true))) s
    s.settleAll.applied 2

/-- One report's reaction by its class (R523). -/
def State.react (s : State) (r : Report) : State :=
  match s.sGet (ALM_CLASS r.code) fALM_CLASS_CLASS with
  | 1 => s.reactPark r
  | 2 => s.reactClear r
  | 3 =>
    let acts := decide (s.mode = .survey ∨ s.mode = .parked ∨ s.mode = .service ∨ s.mode = .maintenance)
    let s := { s with safeSince := true }
    if acts then (s.applied 3).reactSafe else s
  | _ => s

/-- FAULT_REACTION: at the first boundary after the reports' arrival their classes act (R524). -/
def doFaultReaction (s : State) : State :=
  if s.edge % 400 ≠ 0 then s
  else
    let due := fun (e : Nat × Report) => decide (e.1 ≤ s.tick)
    let rs := s.muster.waiting.filter due
    (rs.map fun (e : Nat × Report) => e.2).foldl State.react
      { s with muster := { s.muster with waiting := s.muster.waiting.filter fun (e : Nat × Report) => !due e } }

/-- The flocks of a mask of ALM_CLEARED word w are released (R526, R88). -/
def State.releaseFlocks (s : State) (w mask : Nat) : State :=
  let fs := (bitsOf 32 mask).filter fun i => bitAt (s.sRd (ALM_CLEARED w)).toNat i
  let s := fs.foldl (fun s i => s.sWr (ALM_CLEARED w) (BitVec.ofNat 32 (setBitAt (s.sRd (ALM_CLEARED w)).toNat i false))) s
  s.resume (fs.map fun i => 32 * w + i)

/-- The free elements parked by a reaction are released and their loops seeded (R526). -/
def State.releaseFree (s : State) : State :=
  if s.sGet ALM_PARKED fALM_PARKED_FREE = 0 then s
  else
    let cs := s.parkedFree
    let s := { s with parkedFree := [] }.sPut ALM_PARKED fALM_PARKED_FREE 0
    (cs.filter fun c => decide (s.domOf c = some 255)).foldl State.seedPark s

/-! ### Writes to the ALM block (R526, R532) -/

def State.almBad (s : State) : State := s.sFlag ALM_STATUS fALM_STATUS_BAD_CFG

def State.writeAlmCfg (s : State) (v : Word) : State :=
  let w := fALM_CFG_WINDOW.get v
  let c := fALM_CFG_COVER.get v
  if w = 0 ∨ 1024 < w ∨ c < 50 ∨ 100 < c then s.almBad else s.sWr ALM_CFG (v &&& 0x00FF07FF)

/-- The alarm codes that are not reserved (R515). -/
def alarmCode (a : Nat) : Bool := (decide (1 ≤ a ∧ a ≤ 0x10)) || decide (a = 0x1F)

def State.writeAlmClass (s : State) (a : Nat) (v : Word) : State :=
  if alarmCode a then s.sWr (ALM_CLASS a) (v &&& 7) else s

/-- ALM_STATUS: clearing SAFE_LATCH starts the wait of R527 anew. -/
def State.writeAlmStatus (s : State) (v : Word) : State :=
  let s := if fALM_STATUS_SAFE_LATCH.get v = 1 then { s with safeSince := false } else s
  s.sWr ALM_STATUS (s.sRd ALM_STATUS &&& ~~~(v &&& 0xB))

def State.writeAlmParked (s : State) (v : Word) : State :=
  let s := s.releaseDomains (fALM_PARKED_DOMAIN.get v)
  if fALM_PARKED_FREE.get v = 1 then s.releaseFree else s

/-- A write to ALM_INJECT reports TEST for the written subject (R515, R532). -/
def State.writeInject (s : State) (v : Word) : State :=
  let id := fALM_INJECT_ID.get v
  match fALM_INJECT_KIND.get v with
  | 0 => s.alarm 0x1F .channel id
  | 1 => s.alarm 0x1F .monitor id
  | 2 => s.alarm 0x1F .paddock id
  | 3 => s.alarm 0x1F .domain id
  | 4 => s.alarm 0x1F .shepherd id
  | 5 => s.alarm 0x1F .device id
  | _ => s

/-! ### MUSTER_READ and ALARM_CFG (R530, R531) -/

/-- The latest window with number n, modulo 2^32, of the last 8,192 whose bitmaps are written; none where there is none (R522, R530). -/
def Muster.held? (m : Muster) (n : Nat) : Option Nat :=
  let written := m.no - m.closed.length
  let back := (written + 2 ^ 32 - n) % 2 ^ 32
  if back < written ∧ back < 8192 then some (written - back) else none

/-- MUSTER_READ: the bitmap of a closed window. -/
def startMusterRead (d : Desc) (s : State) : State :=
  let n := d.in4 32
  if d.len < 8192 then s.completeHif d 0x05
  else if s.muster.held? n = none then s.completeHif d 0x07
  else (s.writeOut d.outAddr (bitmapBytes (Tab.get s.muster.bitmaps [] (n % 8192)))).completeHif d 0

/-- The 4-byte records of ALARM_CFG CONFIG. -/
def alarmRecs (bs : List Byte) : List (Nat × Nat × Nat × Nat) :=
  (List.range (bs.length / 4)).map fun i => (leAt bs (4 * i) 1, leAt bs (4 * i + 1) 1, leAt bs (4 * i + 2) 1, leAt bs (4 * i + 3) 1)

/-- SET-UP LOCK is in force (R511). -/
def State.locked (s : State) : Bool := decide (s.dGet LCS_LOCK fLCS_LOCK_SET = 1)

/-- ALARM_CFG CONFIG. -/
def startAlarmConfig (d : Desc) (s : State) : State :=
  let rs := alarmRecs d.pay
  let w := d.in2 32
  let c := d.in1 34
  if d.len % 4 ≠ 0 ∨ d.in1 37 ≠ 0 ∨ d.in2 38 ≠ 0 ∨ d.in8 40 ≠ 0 ∨ d.in1 35 ≠ 0 ∨ (rs.any fun r => decide (r.2.2.2 ≠ 0)) = true then s.completeHif d 0x02
  else if (rs.any fun r => !alarmCode r.1 || decide (3 < r.2.1 ∨ 1 < r.2.2.1)) = true ∨ 1024 < w ∨ (c ≠ 0 ∧ (c < 50 ∨ 100 < c)) then
    s.completeHif d 0x05
  else if s.locked then s.completeHif d 0x0A
  else s.addJob ⟨d, .setup, 10, s.tick + 1, []⟩

/-- The records of ALARM_CFG CONFIG take effect (R140). -/
def State.applyAlarmConfig (s : State) (d : Desc) : State :=
  let s := (alarmRecs d.pay).foldl (fun s r => s.sWr (ALM_CLASS r.1) (BitVec.ofNat 32 (4 * r.2.2.1 + r.2.1))) s
  let s := if d.in2 32 = 0 then s else s.sPut ALM_CFG fALM_CFG_WINDOW (d.in2 32)
  if d.in1 34 = 0 then s else s.sPut ALM_CFG fALM_CFG_COVER (d.in1 34)

/-- ALARM_CFG RELEASE (R526): takes effect at the boundary of R140. -/
def startAlarmRelease (d : Desc) (s : State) : State :=
  if 2 ≤ d.in1 37 ∨ d.in2 32 ≠ 0 ∨ d.in2 34 ≠ 0 ∨ d.len ≠ 0 then s.completeHif d 0x02
  else s.addJob ⟨d, .setup, 11, s.tick + 1, []⟩

def State.applyAlarmRelease (s : State) (d : Desc) : State :=
  let s := s.releaseDomains (d.in2 38)
  let s := if d.in1 37 = 1 then s.releaseFree else s
  (s.releaseFlocks 0 (d.in4 40)).releaseFlocks 1 (d.in4 44)

/-- An ALARM_CFG descriptor by its action. -/
def startAlarmCfg (d : Desc) (s : State) : State :=
  match d.in1 36 with
  | 0 => startAlarmConfig d s
  | 1 => startAlarmRelease d s
  | _ => s.completeHif d 0x05

end Sys2Proof.Machine
end

