-- ==== Sys2Proof/Machine/Security.lean ====
section
/-! DEFINITION. Life cycle, firmware images, keys and debug (R493 to R514). -/

namespace Sys2Proof.Machine

/-! ### The challenge and tokens (R505, R506) -/

/-- The bytes of the challenge. -/
def State.challenge (s : State) : List Byte := (List.range 16).flatMap fun w => leBytes 4 (s.rd 0 (LCS_DBG_CHAL w)).toNat

/-- A new nonce (R506): random words, then the device identifier and the life-cycle state. -/
def State.newNonce (s : State) : State :=
  let n := (s.draw 256).1.toNat
  let s := (s.draw 256).2
  let bytes := leBytes 32 n ++ leBytes 16 Config.deviceId.toNat ++ leBytes 1 s.fuses.life ++ zeros 15
  (List.range 16).foldl (fun s w => s.wr 0 (LCS_DBG_CHAL w) (BitVec.ofNat 32 (leAt bytes (4 * w) 4))) s

/-- LCS_DBG.LEVEL. -/
def State.setLevel (s : State) (l : Nat) : State := s.dPut LCS_DBG fLCS_DBG_LEVEL l
def State.level (s : State) : Nat := s.dGet LCS_DBG fLCS_DBG_LEVEL

/-- The level at the end of a device reset (R506). -/
def State.resetLevel (s : State) : State := s.setLevel (if s.fuses.life = 0 then 2 else 0)

/-- A token's fixed bytes are as R505 states. -/
def tokenForm (t : List Byte) : Bool :=
  decide (t.length = 104 ∧ leAt t 0 1 = 1 ∧ leAt t 2 1 ≤ 1 ∧ (t.drop 3).take 5 = zeros 5)

/-- The key that the token names. -/
def State.tokenKey (s : State) (t : List Byte) : Option (List Byte) :=
  if leAt t 2 1 = 0 then s.keys.dbgKey else some (Config.romKey 2)

/-- The signature of a token verifies against the challenge in force. -/
def State.tokenSigOk (s : State) (t : List Byte) : Bool :=
  match s.tokenKey t with
  | some k => ecdsaOk k (sha384 (s.challenge ++ t.take 8)) (t.drop 8)
  | none => false

/-- Purposes 1 TRACE and 2 FULL and the key that the life-cycle state allows them (R493). -/
def levelAllowed (life purpose key : Nat) : Bool :=
  match life with
  | 1 => decide (key = 0 ∧ (purpose = 1 ∨ purpose = 2))
  | 2 => decide (key = 0 ∧ purpose = 1)
  | 3 => decide (key = 1 ∧ (purpose = 1 ∨ purpose = 2))
  | _ => false

/-- The signer of a transition's token (R494): 0 owner, 1 Yunaver, 2 none; none of them where the transition does not exist. -/
def transition (fromS tgt : Nat) : Option Nat :=
  match fromS, tgt with
  | 0, 1 => some 1
  | 1, 2 => some 2
  | 1, 3 => some 0
  | 2, 3 => some 0
  | 1, 4 => some 0
  | 2, 4 => some 0
  | 0, 4 => some 1
  | 3, 4 => some 1
  | _, _ => none

/-- The transition needs a token: not where its signer is none, nor where the owner has no debug key. -/
def State.needsToken (s : State) (signer : Nat) : Bool := decide (signer = 1) || (decide (signer = 0) && decide (s.keys.dbgKey ≠ none))

/-- Tokens are refused after 8 failures (R506). -/
def State.lockout (s : State) : Bool := decide (8 ≤ s.dGet LCS_DBG fLCS_DBG_FAILS)

/-- A token is presented (R506): whether it passes, given that its purpose and key are allowed, and the state after. -/
def State.present (s : State) (t : List Byte) (allowed : Bool) : Bool × State :=
  if s.lockout then (false, s.newNonce)
  else if tokenForm t && allowed && s.tokenSigOk t then (true, (s.dPut LCS_DBG fLCS_DBG_FAILS 0).newNonce)
  else
    let s := (s.dCount LCS_DBG fLCS_DBG_FAILS 1).dFlag LCS_STATUS fLCS_STATUS_AUTH_FAIL
    (false, (s.notice LCS_STATUS fLCS_STATUS_AUTH_FAIL.lo 0xFFFF []).newNonce)

/-- A completion in the LCS code space (R512). -/
def State.lcs (s : State) (d : Desc) (code : Nat) : State := s.complete d 6 code []

/-- The fuse of a transition is burned; the reset follows 100 us after the completion (R495). -/
def State.burnLife (s : State) (target : Nat) : State := { s with fuses := { s.fuses with due := some (s.edge + 40000, target) } }

/-- LIFECYCLE (R494, R495, R512); `burned`: the fuse could be burned. -/
def startLifecycle (d : Desc) (burned : Bool) (s : State) : State :=
  let target := d.in1 32
  match transition s.fuses.life target with
  | none => s.lcs d 1
  | some signer =>
    if s.mode ≠ .parked ∨ s.lp ≠ .none ∨ s.fuses.due ≠ none then s.lcs d 1
    else if s.needsToken signer then
      if d.len ≠ 104 ∨ tokenForm d.pay = false then s.lcs d 2
      else
        let r := s.present d.pay (decide (leAt d.pay 1 1 = 0x10 + target ∧ leAt d.pay 2 1 = signer))
        if r.1 = false then r.2.lcs d 4
        else if burned then (r.2.burnLife target).lcs d 0 else r.2.lcs d 7
    else if d.len ≠ 0 then s.lcs d 2
    else if burned then (s.burnLife target).lcs d 0 else s.lcs d 7

/-- DEBUG_TOKEN (R505). -/
def startDebugToken (d : Desc) (s : State) : State :=
  let p := leAt d.pay 1 1
  if d.len ≠ 104 ∨ tokenForm d.pay = false ∨ (p ≠ 1 ∧ p ≠ 2 ∧ (p < 0x10 ∨ 0x14 < p)) then s.lcs d 2
  else if 0x10 ≤ p then s.lcs d 1
  else
    let r := s.present d.pay (levelAllowed s.fuses.life p (leAt d.pay 2 1))
    if r.1 then (r.2.setLevel p).lcs d 0 else r.2.lcs d 4

/-- JTAG_TOKEN (R495, R505); `burned`: the fuse of a transition could be burned. Of a token for a transition that needs none, only PURPOSE counts (R494). -/
def doJtagToken (t : List Byte) (burned : Bool) (s : State) : State :=
  let p := leAt t 1 1
  if s.mode = .off then s
  else if 0x10 ≤ p then
    match transition s.fuses.life (p - 0x10) with
    | some signer =>
      let here := decide (s.mode = .boot ∨ s.mode = .parked) && decide (s.lp = .none) && decide (s.fuses.due = none)
      if !s.needsToken signer && here && tokenForm t && !s.lockout then
        if burned then s.newNonce.burnLife (p - 0x10) else s.newNonce
      else
        let r := s.present t (here && decide (leAt t 2 1 = signer))
        if r.1 && burned then r.2.burnLife (p - 0x10) else r.2
    | none => (s.present t false).2
  else
    let r := s.present t (levelAllowed s.fuses.life p (leAt t 2 1))
    if r.1 then r.2.setLevel p else r.2

/-- The access set that JTAG has: 0 none, 1 S, 2 R, 3 T, 4 F (R504, R510). -/
def State.jtagSet (s : State) : Nat :=
  if s.mode = .off then 0
  else if s.mode = .reset ∨ s.level = 0 then 1
  else if s.lp = .deep then 2
  else if s.level = 2 then 4
  else if s.mode = .boot then 2
  else 3

/-- JTAG_CORE_HALT: at FULL, on a shepherd that is OFF in BOOT, or DETACHED (R507). -/
def doCoreHalt (x : Shep) (s : State) : State :=
  let h := s.sh x
  if s.jtagSet ≠ 4 then s
  else if (h.halted = true ∧ h.perst = false ∧ h.railLow = false ∧ h.role ≠ .active ∧ h.role ≠ .standby) ∨ h.role = .detached then
    s.modSh x fun h => { h with coreHalt := true }
  else s.dFlag LCS_STATUS fLCS_STATUS_HALT_REFUSED

/-- A write to LCS_DBG: RELOCK acts at once (R506). -/
def State.writeDbg (s : State) (v : Word) : State := if fLCS_DBG_RELOCK.get v = 1 then s.setLevel 0 else s

/-- SET-UP LOCK comes into force (R511). -/
def State.setLock (s : State) : State := s.dPut LCS_LOCK fLCS_LOCK_SET 1

/-- SETUP_LOCK: completes when the lock is in force. -/
def startSetupLock (d : Desc) (s : State) : State :=
  if s.locked then s.completeHif d 0 else s.addJob ⟨d, .setupLock, 0, s.tick + 1, []⟩

/-! ### The device identity (R503) -/

/-- The owner key store is open (R496, R501), and a shepherd holds a device identity (R503). -/
def State.keysOpen (s : State) : Bool := decide (s.fuses.life = 1 ∨ s.fuses.life = 2)

/-- A number that may be a private key, or the number of a signature. -/
def keyScalar (v : BitVec 384) : Nat := v.toNat % (p384n - 1) + 1

/-- The identity that derives from the fused device secret; its certificate is the public key and Yunaver's signature (log entry 133). -/
def deviceIdentity : Identity :=
  let secret := keyScalar Config.identityScalar
  ⟨secret, ecdsaPub secret, ecdsaPub secret ++ leBytes 96 Config.certificateSig.toNat⟩

/-- A shepherd that boots holds the device identity in PROVISIONED and DEPLOYED, and no other time. -/
def State.holdIdentity (s : State) (x : Shep) : State :=
  s.modSh x fun h => { h with identity := if s.keysOpen then some deviceIdentity else none, session := false, ide := none }

/-- The mailbox of a function is served: its link is up and its firmware runs. -/
def State.doeUp (s : State) (x : Shep) : Bool :=
  let h := s.sh x
  decide (s.mode ≠ .off ∧ s.mode ≠ .reset ∧ s.lp = .none) && !h.perst && !h.railLow && !h.halted

/-- What the host does over the DOE mailbox of a function (R503): a session is authenticated by the certificate and a signature under its key; IDE keys are
established within a session, and without one the link runs without IDE. -/
def State.doeEvent (s : State) (e : DoeEvent) : State :=
  match e with
  | .session x t =>
    match (s.sh x).identity with
    | some i =>
      if !s.doeUp x then s
      else
        let (k, s) := s.draw 384
        (s.modSh x fun h => { h with session := true, ide := none }).send (.doe x (i.cert ++ ecdsaSign i.secret (keyScalar k) (sha384 t)))
    | none => s
  | .ideKeys x k => if (s.sh x).session && s.doeUp x then s.modSh x fun h => { h with ide := some k } else s
  | .endSession x => if s.doeUp x then s.modSh x fun h => { h with session := false, ide := none } else s

/-- The events of a tick in order. -/
def State.doeTick (s : State) (es : List DoeEvent) : State := es.foldl State.doeEvent s

/-! ### Images (R497, R498) -/

/-- The first check of R498 that an image fails, as BOOT_ERR numbers it; 0 where it passes. -/
def State.imageErr (s : State) (img : List Byte) : Nat :=
  let digest := sha384 (img.take 68)
  let sig := (img.drop 68).take 96
  let body := (img.drop 512).take (leAt img 16 4)
  let release := ecdsaOk (Config.romKey 0) digest sig
  let factory := ecdsaOk (Config.romKey 1) digest sig
  if !release && !(factory && decide (s.fuses.life = 0)) then (if factory then 4 else 1)
  else if body.length ≠ leAt img 16 4 ∨ sha384 body ≠ (img.drop 20).take 48 then 2
  else if leAt img 8 4 < s.fuses.svnMin then 3
  else 0

/-- The image of a slot. -/
def State.slotImage (s : State) (i : Nat) : Option (List Byte) := if i = 0 then s.store.slot0 else s.store.slot1

/-- The slot's check; an empty slot fails its signature. -/
def State.slotErr (s : State) (i : Nat) : Nat :=
  match s.slotImage i with
  | some img => s.imageErr img
  | none => 1

/-- A shepherd runs an image (R498, R514). -/
def State.runImage (s : State) (x : Shep) (slot : Option Nat) (img : List Byte) : State :=
  let s := s.wr x.bank LCS_FW_VER (BitVec.ofNat 32 (leAt img 4 4))
  let s := s.pPut x LCS_FW_INFO fLCS_FW_INFO_SVN (leAt img 8 4)
  let s := s.pPut x LCS_FW_INFO fLCS_FW_INFO_STATE_VER (leAt img 12 4)
  let s := s.pPut x LCS_FW_INFO fLCS_FW_INFO_SLOT (slot.getD 0)
  let s := s.pPut x LCS_FW_INFO fLCS_FW_INFO_BOOT_ERR 0
  s.modSh x fun h => { h with stateVer := leAt img 12 4, bootSlot := slot }

/-- Step 5 of the boot (R498): the first image that passes, or the cause of the last failure in BOOT_ERR. Whether the shepherd has an image. -/
def State.bootImage (s : State) (x : Shep) (storeErr : Bool) : Bool × State :=
  let err := fun (e : Nat) => (false, s.pPut x LCS_FW_INFO fLCS_FW_INFO_BOOT_ERR e)
  let sel := s.dGet RST_STRAPS fRST_STRAPS_BOOT_SEL
  if s.fuses.life = 4 then err 6
  else if sel = 3 then err 7
  else if sel = 2 then
    match (s.sh x).loaded with
    | some img => (true, s.runImage x none img)
    | none => (false, s)
  else if storeErr then err 5
  else
    let first := if sel = 0 then s.store.primary else 1 - s.store.primary
    let second := 1 - first
    if s.slotErr first = 0 then (true, s.runImage x (some first) ((s.slotImage first).getD []))
    else if s.slotErr second = 0 then (true, s.runImage x (some second) ((s.slotImage second).getD []))
    else err (s.slotErr second)

/-! ### The load window (R540, R541) -/

/-- Bytes of the load buffer (R540). -/
def Part.loadBytes (p : Part) : Nat := if p = .gl3220 then 29360128 else 33554432

def State.loadBusy (s : State) (x : Shep) : Bool := decide (s.pGet x GLB_LOAD_CTRL fGLB_LOAD_CTRL_BUSY = 1)
def State.badLoad (s : State) (x : Shep) : State := s.pFlag x GLB_STATUS fGLB_STATUS_BAD_LOAD

/-- A write to GLB_LOAD_CTRL of a shepherd (R541). -/
def State.writeLoadCtrl (s : State) (x : Shep) (v : Word) : State :=
  let len := fGLB_LOAD_CTRL_LENGTH.get v
  let start := decide (fGLB_LOAD_CTRL_START.get v = 1)
  if s.loadBusy x || (start && decide (len = 0 ∨ s.part.loadBytes < len)) then s.badLoad x
  else
    let s := s.pPut x GLB_LOAD_CTRL fGLB_LOAD_CTRL_LENGTH len
    if start then s.pPut x GLB_LOAD_CTRL fGLB_LOAD_CTRL_BUSY 1 else s

/-- A write to GLB_LOAD_PAGE, and to the load window at byte offset `o` of the page. -/
def State.writeLoadPage (s : State) (x : Shep) (v : Word) : State :=
  if s.loadBusy x then s.badLoad x else s.pPut x GLB_LOAD_PAGE fGLB_LOAD_PAGE_PAGE (fGLB_LOAD_PAGE_PAGE.get v)

def State.writeLoadWin (s : State) (x : Shep) (o : Nat) (v : Word) : State :=
  if s.loadBusy x then s.badLoad x
  else
    let a := s.pGet x GLB_LOAD_PAGE fGLB_LOAD_PAGE_PAGE * 1048576 + o
    if s.part.loadBytes ≤ a then s.pFlag x GLB_STATUS fGLB_STATUS_ABSENT_WR
    else s.modSh x fun h => { h with loadBuf := Tab.set h.loadBuf 0 (a / 4) v }

/-- The first `n` bytes of the load buffer. -/
def ShepSt.loadImage (h : ShepSt) (n : Nat) : List Byte :=
  ((List.range ((n + 3) / 4)).flatMap fun i => leBytes 4 (Tab.get h.loadBuf 0 i).toNat).take n

/-- LOAD_CHECK_DONE: BUSY clears; an image that passes is what step 5 boots, and otherwise BOOT_ERR gives the cause (R498, R541). -/
def doLoadCheck (x : Shep) (s : State) : State :=
  if !s.loadBusy x then s
  else
    let img := (s.sh x).loadImage (s.pGet x GLB_LOAD_CTRL fGLB_LOAD_CTRL_LENGTH)
    let s := s.pPut x GLB_LOAD_CTRL fGLB_LOAD_CTRL_BUSY 0
    let e := s.imageErr img
    if e = 0 then
      (s.modSh x fun h => { h with loaded := some img, bootStep := max h.bootStep 4 }).pPut x LCS_FW_INFO fLCS_FW_INFO_BOOT_ERR 0
    else s.pPut x LCS_FW_INFO fLCS_FW_INFO_BOOT_ERR e

/-! ### FW_UPDATE (R499) -/

/-- A shepherd booted from a slot. -/
def State.bootedFrom (s : State) (i : Nat) : Bool := decide (s.shA.bootSlot = some i ∨ s.shB.bootSlot = some i)

/-- FW_UPDATE WRITE. -/
def startFwWrite (d : Desc) (s : State) : State :=
  let i := d.in1 33
  if s.fuses.life = 4 ∨ s.bootedFrom i = true then s.lcs d 1
  else if 2 ≤ i ∨ d.len < 512 ∨ 33554432 < d.len then s.lcs d 2
  else
    let e := s.imageErr d.pay
    if e = 3 then s.lcs d 5
    else if e ≠ 0 then s.lcs d 4
    else s.addJob ⟨d, .fwWrite, 0, 0, [i]⟩

/-- FW_STORE_WRITE_DONE: the image has been written and read back, or could not be. -/
def doFwStoreDone (ok : Bool) (s : State) : State :=
  match s.job? .fwWrite with
  | none => s
  | some j =>
    let s := s.endJob j
    if ok then
      let img := some j.d.pay
      let st := s.store
      let st := if j.nums = [0] then { st with slot0 := img } else { st with slot1 := img }
      { s with store := st }.lcs j.d 0
    else s.lcs j.d 6

/-- The header of a slot; an empty slot's bytes are not stated, nor is the layout of the 64 bytes that hold the boot pointer (log entry 3). -/
def State.fwInfo (s : State) : List Byte × State :=
  let free := leBytes 1088 (s.draw 8704).1.toNat
  let head := fun (i o : Nat) => match s.slotImage i with
    | some img => (img ++ zeros 512).take 512
    | none => (free.drop o).take 512
  (head 0 0 ++ head 1 512 ++ (free.drop 1024).take 64, (s.draw 8704).2)

/-- FW_UPDATE INFO. -/
def startFwInfo (d : Desc) (s : State) : State :=
  if s.fuses.life = 4 then s.lcs d 1
  else if d.len < 1088 then s.lcs d 2
  else (s.fwInfo.2.writeOut d.outAddr s.fwInfo.1).lcs d 0

/-- FW_UPDATE SELECT; `ok`: the store took the pointer. -/
def startFwSelect (d : Desc) (ok : Bool) (s : State) : State :=
  let i := d.in1 33
  if s.fuses.life = 4 then s.lcs d 1
  else if 2 ≤ i then s.lcs d 2
  else if s.slotErr i ≠ 0 then s.lcs d 4
  else if !ok then s.lcs d 6
  else { s with store := { s.store with primary := i } }.lcs d 0

/-- FW_UPDATE RAISE_SVN; `burned`: the fuses are not exhausted and could be burned. -/
def startFwRaise (d : Desc) (burned : Bool) (s : State) : State :=
  let a := s.pGet .A LCS_FW_INFO fLCS_FW_INFO_SVN
  let b := s.pGet .B LCS_FW_INFO fLCS_FW_INFO_SVN
  if s.fuses.life = 4 ∨ a ≠ b then s.lcs d 1
  else if !burned then s.lcs d 7
  else { s with fuses := { s.fuses with svnMin := max s.fuses.svnMin a } }.lcs d 0

/-- An FW_UPDATE descriptor by its subcommand; `ok`: the store or the fuses took what it writes. -/
def startFwUpdate (d : Desc) (ok : Bool) (s : State) : State :=
  match d.in1 32 with
  | 0 => startFwWrite d s
  | 1 => startFwInfo d s
  | 2 => startFwSelect d ok s
  | 3 => startFwRaise d ok s
  | _ => s.completeHif d 0x05

/-! ### KEY_PROVISION (R501, R502) -/

/-- A change of the owner key store, which takes effect at once in both shepherds (R502). -/
def State.setKeys (s : State) (f : KeyStore → KeyStore) : State :=
  { s with keys := f s.keys, store := { s.store with owner := f s.store.owner } }

/-- The fields of the record. -/
def keyKind (d : Desc) : Nat := leAt d.pay 0 1
def keySlot (d : Desc) : Nat := leAt d.pay 1 1
def keyLen (d : Desc) : Nat := leAt d.pay 2 2
def keyValue (d : Desc) : List Byte := d.pay.drop 4

/-- The record's lengths agree. -/
def keyForm (d : Desc) (n : Nat) : Bool := decide (keyLen d = n ∧ d.len = 4 + n)

/-- KIND 1: a control-frame key; its slot's last accepted SEQ becomes 0 (R385). -/
def startControlKey (d : Desc) (ok : Bool) (s : State) : State :=
  let i := keySlot d
  if !s.keysOpen || decide (2 ≤ i) then s.lcs d 1
  else if !keyForm d 32 then s.lcs d 2
  else if !ok then s.lcs d 6
  else
    let v := some (keyValue d)
    let s := s.setKeys fun k => if i = 0 then { k with ctl0 := v } else { k with ctl1 := v }
    { s with keySeq := Tab.set s.keySeq 0 i 0 }.lcs d 0

/-- KIND 2: the owner debug key. -/
def startOwnerDebugKey (d : Desc) (ok : Bool) (s : State) : State :=
  let v := keyValue d
  if s.fuses.life ≠ 1 ∨ keySlot d ≠ 0 then s.lcs d 1
  else if keyForm d 96 = false ∨ onCurve (leNat (v.take 48), leNat ((v.drop 48).take 48)) = false then s.lcs d 2
  else if s.locked then s.lcs d 3
  else if !ok then s.lcs d 6
  else (s.setKeys fun k => { k with dbgKey := some v }).lcs d 0

/-- KIND 3: the erase of a key. The record does not say whether slot 0 names the control-frame key or the debug key: a free bit decides (log entry 3). -/
def startKeyErase (d : Desc) (ok : Bool) (s : State) : State :=
  let i := keySlot d
  let dbg := decide (i = 0) && decide ((s.draw 1).1 = 1)
  let s := (s.draw 1).2
  if !s.keysOpen || decide (2 ≤ i) || (dbg && decide (s.fuses.life ≠ 1)) then s.lcs d 1
  else if !keyForm d 0 then s.lcs d 2
  else if dbg && s.locked then s.lcs d 3
  else if !ok then s.lcs d 6
  else (s.setKeys fun k => if dbg then { k with dbgKey := none } else if i = 0 then { k with ctl0 := none } else { k with ctl1 := none }).lcs d 0

/-- KIND 4: recorder keep. -/
def startRecorderKeep (d : Desc) (ok : Bool) (s : State) : State :=
  if !s.keysOpen || decide (keySlot d ≠ 0) then s.lcs d 1
  else if keyForm d 1 = false ∨ 1 < leAt d.pay 4 1 then s.lcs d 2
  else if s.locked then s.lcs d 3
  else if !ok then s.lcs d 6
  else
    let b := decide (leAt d.pay 4 1 = 1)
    ((s.setKeys fun k => { k with keep := b }).dPut LCS_STATE fLCS_STATE_REC_KEEP (bitN b)).lcs d 0

/-- A KEY_PROVISION descriptor by its kind; `ok`: the store took the record. -/
def startKeyProvision (d : Desc) (ok : Bool) (s : State) : State :=
  match keyKind d with
  | 1 => startControlKey d ok s
  | 2 => startOwnerDebugKey d ok s
  | 3 => startKeyErase d ok s
  | 4 => startRecorderKeep d ok s
  | _ => if s.keysOpen then s.lcs d 2 else s.lcs d 1

end Sys2Proof.Machine
end

