-- ==== Sys2Proof/Machine/Reset.lean ====
section
/-! DEFINITION. Rails, reset kinds, lone resets and the boot (R482 to R491, R540). -/

namespace Sys2Proof.Machine

/-! ### Resets of the device (R484, R489) -/

/-- The fuses after a reset: a burned transition is in force, and none is undone (R494, R495). -/
def Fuses.now (f : Fuses) : Fuses :=
  match f.due with
  | some (_, target) => { f with life := target, due := none }
  | none => f

/-- What every reset of the device leaves: everything at its reset value, but the fuses, the board's firmware store, the levels of pins and rails, and what stands
outside the device. -/
def State.cleared (s : State) : State :=
  let pins := fun (h : ShepSt) => ({ perst := h.perst, railLow := h.railLow, xts := h.xts } : ShepSt)
  { pending := s.pending, part := s.part, grade := s.grade, mode := .reset, out := s.out, fresh := s.fresh, fuses := s.fuses.now, store := s.store
    clearLow := s.clearLow, clearHold := s.clearLow, shA := pins s.shA, shB := pins s.shB
    pdks := (List.range s.part.paddocks).foldl (fun t p => Tab.set t {} p {
      mode := if (s.pdk p).railLow then .reset else .run, vdrLow := (s.pdk p).vdrLow, railLow := (s.pdk p).railLow, vhtrOut := (s.pdk p).vhtrOut }) []
    vrefs := s.vrefs.foldl (fun (t : Tab RefSt) (e : Nat × RefSt) => Tab.set t {} e.1 { pins := e.2.pins }) [] }

/-- A reset of RST_CAUSE sets its bit in both shepherds (R484). -/
def State.cause (s : State) (f : Fld) : State := both (fun x s => s.pFlag x RST_CAUSE f) s

/-- LCS_STATE.REC_KEEP. -/
def State.recKeep (s : State) : Bool := decide (s.dGet LCS_STATE fLCS_STATE_REC_KEEP = 1)

/-- The frames, newest first, that have left the frame buffer, of which the newest `waiting` bytes are still in it (R428). -/
def leftBuffer : Nat → List RecFrame → List RecFrame
  | _, [] => []
  | 0, l => l
  | w, f :: r => leftBuffer (w - f.bytes.length) r

/-- A recorder whose ring survives a reset is FROZEN after it, and has lost what was in its frame buffer (R431). -/
def keptRec (keep : Bool) (r : RecSt) : RecSt :=
  if keep then { r with state := 3, ring := (leftBuffer r.waiting r.ring.reverse).reverse, waiting := 0, library := 0 } else {}

/-- POR: everything (R484, R489), with new keys of the folds (R419); RST_CAUSE shows POR alone (R491). -/
def doPor (s : State) : State :=
  let s := both (fun x s => (s.modSh x fun h => { h with porBoot := true }).newKeys x false) s.cleared
  both (fun x s => s.wr x.bank RST_CAUSE (fRST_CAUSE_POR.put 0 1)) s

/-- The kinds with the scope of RESET_N: the epoch, the grant count, RST_CAUSE, LOL_SEEN, the edge count and the repairs of the banks (R442) are kept, and the
recorder rings with their keys where `keep` holds (R419, R431, R489). -/
def State.resetDevice (s : State) (f : Fld) (keep lol : Bool) : State :=
  let n := { s.cleared with edge := s.edge, epoch := s.epoch }
  let n := n.modSh .A fun h => { h with porBoot := false, recorder := keptRec keep s.shA.recorder }
  let n := n.modSh .B fun h => { h with porBoot := false, recorder := keptRec keep s.shB.recorder }
  let n := both (fun x n => n.newKeys x keep) n
  let n := n.wr 0 SHP_CNT_SWITCH (s.rd 0 SHP_CNT_SWITCH)
  let n := both (fun x n => (n.wr x.bank RST_CAUSE (s.rd x.bank RST_CAUSE)).wr x.bank BNK_REPAIR (s.rd x.bank BNK_REPAIR)) n
  let n := n.dPut CLK_STATUS fCLK_STATUS_LOL_SEEN (if lol then 1 else s.dGet CLK_STATUS fCLK_STATUS_LOL_SEEN)
  n.cause f

/-- RESET_N_ASSERT. -/
def doResetN (s : State) : State := s.resetDevice fRST_CAUSE_RESET_N s.recKeep false

/-- PLL_LOSS_OF_LOCK (R457). -/
def doLossOfLock (s : State) : State := s.resetDevice fRST_CAUSE_LOL s.recKeep true

/-- LIFECYCLE_RESET (R495): 100 us after the burn, with new fold keys and the new life-cycle state. -/
def doLifecycleReset (s : State) : State :=
  match s.fuses.due with
  | none => s
  | some (e, _) =>
    if s.edge < e then s
    else
      let straps := s.rd 0 RST_STRAPS
      { (s.resetDevice fRST_CAUSE_LC false false).wr 0 RST_STRAPS straps with strapsKept := true }

/-- RESET_END: BOOT, with the straps sampled but after a life-cycle change (R471, R488), a new nonce and the debug level of R506. -/
def doResetEnd (straps : Nat) (s : State) : State :=
  if s.mode ≠ .reset then s
  else
    let s := if s.strapsKept then s else s.wr 0 RST_STRAPS (BitVec.ofNat 32 (straps % 32))
    { s with mode := .boot, strapsKept := false }.newNonce.resetLevel

/-! ### Resets of one shepherd (R484, R487, R489) -/

/-- The control plane and every shared word return to reset values after a lone reset (R489). Device-wide fields, paddock fields and the paddocks stay. -/
def State.wipeControl (s : State) (x : Shep) : State :=
  let s := s.surveyStop
  let s := { s with
    map := none, slots := [], library := [], scratch := [], drover := none, posWr := [], commits := [], rots := [], stagings := [], domSeq := [], stepped := none
    jobs := [], writes := [], muster := {}, survey := none, results := [], replies := [], netFrom := [], seeded := [], badLib := [], early := [], tx := [], rxCtl := [], tlmWait := []
    sync := none, copyRec := none, handover := none, joining := none, claims := [], divNow := false, divRun := 0, lpExit := none, safeDue := false, waking := [], driveLater := []
    ptp := {}, cplSeq := 1, evtSeq := 1, tlmSeq := 1, netSeq := 1, lp := .none, oos := .none, safeSince := false, parkedFree := [] }
  s.dropRegs x.bank sharedOff

/-- A reset of shepherd x (R484, R489): its own copies, banks and fold go; the recorder ring stays where `keep` holds (R431). The referee keeps the recorded
role until the heartbeats are missed (R306, R310). PERST, a hot reset and an FLR reset the configuration space; a shepherd reset and the watchdog keep it (R489). -/
def State.wipeShep (s : State) (x : Shep) (f : Fld) (keep : Bool) : State :=
  let s := if s.syncing = some x ∨ (s.sync ≠ none ∧ s.active = some x) then s.syncFail else s
  let s := (s.pFlag x RST_CAUSE f).dPut LCS_STATE fLCS_STATE_REC_KEEP 0
  let s := (s.dropRegs x.bank fun o => !decide (0x3000 ≤ o ∧ o < 0x5000 ∨ o = BNK_REPAIR)).newKeys x keep
  let s := s.modSh x fun h => {
    perst := h.perst, railLow := h.railLow, xts := h.xts, role := h.role, hbMiss := h.hbMiss, porBoot := false, offers := s.txNum, recorder := keptRec keep h.recorder
    msix := if f = fRST_CAUSE_SHP ∨ f = fRST_CAUSE_WATCHDOG then h.msix else {} }
  { s with
    claims := s.claims.filter fun c => decide (c.1 ≠ x)
    joining := if s.joining = some x then none else s.joining
    handover := none
    copyRec := none }

/-- The other shepherd is recorded as ACTIVE or STANDBY and works (log entry 13). -/
def State.otherUp (s : State) (x : Shep) : Bool :=
  let h := s.sh x.other
  decide (h.role = .active ∨ h.role = .standby) && !h.halted

/-- A shepherd reset kind (R484), a lone reset where the other shepherd is neither ACTIVE nor STANDBY (R487): then the device enters BOOT and the
paddocks are orphaned. -/
def State.shepReset (s : State) (x : Shep) (f : Fld) (keep : Bool) : State :=
  if s.mode = .off ∨ s.mode = .reset then s
  else
    let lone := !s.otherUp x && decide (s.mode ≠ .boot)
    let s := s.wipeShep x f (keep && s.recKeep)
    if lone then
      let s := s.setRole x .off
      let s := if s.role x.other = .active ∨ s.role x.other = .standby then s.setRole x.other .off else s
      { s.wipeControl x with mode := .boot, lone := true, initial := true }.checkOrphan
    else if s.mode = .boot then s.setRole x .off
    else s

/-- PERST_ASSERT: held while the pin is low. -/
def doPerst (x : Shep) (s : State) : State :=
  (s.shepReset x fRST_CAUSE_PERST true).modSh x fun h => { h with perst := true }

/-- PERST_RELEASE: the shepherd boots. -/
def doPerstRelease (x : Shep) (s : State) : State := s.modSh x fun h => { h with perst := false }

/-- PCIE_HOT_RESET and FUNCTION_LEVEL_RESET. -/
def doHotReset (x : Shep) (s : State) : State := s.shepReset x fRST_CAUSE_HOT true
def doFlr (x : Shep) (s : State) : State := s.shepReset x fRST_CAUSE_FLR true

/-- WATCHDOG_EXPIRY: no recorder keep (R509). -/
def doWatchdog (x : Shep) (s : State) : State :=
  if s.pGet x RST_WDG fRST_WDG_EN = 1 ∧ (s.sh x).perst = false ∧ (s.sh x).railLow = false then s.shepReset x fRST_CAUSE_WATCHDOG false else s

/-- A shepherd reset by command or rail. -/
def State.shpReset (s : State) (x : Shep) : State := s.shepReset x fRST_CAUSE_SHP true

/-! ### Resets of a paddock (R486) -/

/-- A reset of paddock p: its switches open, its shadow is empty, its spans and measurements under way end. -/
def State.padReset (s : State) (p : Nat) : State :=
  (s.padLost p .reset).pdkReady p false

/-- PADDOCK_RESET_RELEASE: the reload begins, unless the rail is low; in DEEP the paddock stays powered off until the exit restores it (R480). -/
def doPadRelease (p : Nat) (s : State) : State :=
  if (s.pdk p).mode = .reset ∧ (s.pdk p).railLow = false then s.modPdk p fun k => { k with mode := if s.lp = .deep then .off else .reload } else s

/-- PADDOCK_RELOAD_DONE: the paddock is restored and ready. -/
def doPadReload (p : Nat) (s : State) : State :=
  if (s.pdk p).mode = .reload then s.padRestored p else s

/-! ### Rails (R482, R483) -/

/-- A flag of PWR_RAIL. -/
def State.railFlag (s : State) (f : Fld) : State := s.dFlag PWR_RAIL f

/-- RAIL_BELOW_THRESHOLD. -/
def doRailLow (r : Rail) (s : State) : State :=
  let low := fun (x : Shep) (s : State) => (s.shpReset x).modSh x fun h => { h with railLow := true }
  match r with
  | .aon => doPor s
  | .vddA => (low .A s).railFlag fPWR_RAIL_VDD_A_LOW
  | .vddB => (low .B s).railFlag fPWR_RAIL_VDD_B_LOW
  | .vddq =>
    let s := low .B (low .A s)
    (both (fun x s => (s.newKeys x false).modSh x fun h => { h with recorder := {} }) s).railFlag fPWR_RAIL_VDDQ_LOW
  | .pdk p =>
    if s.part.paddocks ≤ p then s
    else
      let s := (s.padReset p).modPdk p fun k => { k with railLow := true }
      s.dPut PWR_RAIL fPWR_RAIL_PDK_LOW (setBitAt (s.dGet PWR_RAIL fPWR_RAIL_PDK_LOW) p true)
  | .vdr p => doVdrLow p s
  | .vhtr p => doVhtr p false s
  | .serdes => ((List.range 4).foldl (fun s i => s.dPut (ETH_PORT_STAT i) fETH_PORT_STAT_LINK 0) s).railFlag fPWR_RAIL_SERDES_LOW

/-- RAIL_RESTORED. -/
def doRailRestored (r : Rail) (s : State) : State :=
  let up := fun (x : Shep) (s : State) => s.modSh x fun h => { h with railLow := false }
  match r with
  | .vddA => up .A s
  | .vddB => up .B s
  | .vddq => up .B (up .A s)
  | .pdk p => s.modPdk p fun k => { k with railLow := false }
  | .vdr p =>
    if (s.pdk p).vdrLow then
      (s.modPdk p fun k => { k with vdrLow := false }).enablePdk p
    else s
  | .vhtr p => if s.part.paddocks ≤ p then s else s.modPdk p fun k => { k with vhtrOut := false }
  | .aon => s
  | .serdes => s

/-! ### RST writes (R484, R491) -/

/-- The shepherd of RST_CTRL. -/
def ctrlShep (v : Word) : Shep := if fRST_CTRL_SHEPHERD.get v = 1 then .B else .A

/-- A write that is discarded sets BAD_CTRL of the shepherd it came through. -/
def State.rstBad (s : State) (x : Shep) : State := s.pFlag x RST_CAUSE fRST_CAUSE_BAD_CTRL

/-- RST_CTRL written through shepherd x with SHP_RESET: the selected shepherd is reset. -/
def State.writeRstShp (s : State) (x : Shep) (v : Word) : State :=
  if v.toNat / 2 ^ 29 ≠ 4 then s.rstBad x
  else (s.dPut RST_CTRL fRST_CTRL_SHEPHERD (fRST_CTRL_SHEPHERD.get v)).dPut RST_CTRL fRST_CTRL_PADDOCK (fRST_CTRL_PADDOCK.get v)
    |>.shpReset (ctrlShep v)

/-- With SOFT_RESET. -/
def State.writeRstSoft (s : State) (x : Shep) (v : Word) : State :=
  if v.toNat / 2 ^ 29 ≠ 2 then s.rstBad x
  else (s.dPut RST_CTRL fRST_CTRL_SHEPHERD (fRST_CTRL_SHEPHERD.get v)).dPut RST_CTRL fRST_CTRL_PADDOCK (fRST_CTRL_PADDOCK.get v)
    |>.softReset (ctrlShep v)

/-- With PDK_RESET: discarded unless POWER PADDOCK_RESET would be allowed. -/
def State.writeRstPdk (s : State) (x : Shep) (v : Word) : State :=
  let p := fRST_CTRL_PADDOCK.get v
  if v.toNat / 2 ^ 29 ≠ 1 ∨ s.pdkResetOk p = false then s.rstBad x
  else (s.dPut RST_CTRL fRST_CTRL_SHEPHERD (fRST_CTRL_SHEPHERD.get v)).dPut RST_CTRL fRST_CTRL_PADDOCK p |>.padReset p

/-- A write to RST_CTRL: more than one of bits [31:29] set is discarded whole. -/
def State.writeRstCtrl (s : State) (x : Shep) (v : Word) : State :=
  match v.toNat / 2 ^ 29 with
  | 0 => (s.dPut RST_CTRL fRST_CTRL_SHEPHERD (fRST_CTRL_SHEPHERD.get v)).dPut RST_CTRL fRST_CTRL_PADDOCK (fRST_CTRL_PADDOCK.get v)
  | 1 => s.writeRstPdk x v
  | 2 => s.writeRstSoft x v
  | 4 => s.writeRstShp x v
  | _ => s.rstBad x

/-- A write to RST_WDG. -/
def State.writeWdg (s : State) (x : Shep) (v : Word) : State :=
  let t := fRST_WDG_TIMEOUT.get v
  let s := s.pPut x RST_WDG fRST_WDG_EN (fRST_WDG_EN.get v)
  if t < 10 ∨ 60000 < t then s.rstBad x else s.pPut x RST_WDG fRST_WDG_TIMEOUT t

/-! ### Resets by descriptor (R468, R478) -/

/-- PADDOCK_RESET at a boundary: fence, reset, ready, fence off (R468); each write of firmware takes two ticks (R68). -/
def State.padResetBoundary (s : State) : State :=
  match s.job? .padReset with
  | none => s
  | some j =>
    let p := j.nums.headD 0
    let setFence := fun (s : State) (b : Bool) => s.dPut CLK_XING_FENCE fCLK_XING_FENCE_PDK (setBitAt (s.dGet CLK_XING_FENCE fCLK_XING_FENCE_PDK) p b)
    if s.tick < j.due then s
    else match j.phase with
      | 0 => (setFence s true).setJob j { j with phase := 1, due := s.tick + 2 }
      | 1 =>
        if s.pdkResetOk p then (s.padReset p).setJob j { j with phase := 2 }
        else ((setFence s false).endJob j).completeHif j.d 0x07
      | 2 => if bitAt (s.dGet RST_PDK_READY fRST_PDK_READY_READY) p then s.setJob j { j with phase := 3, due := s.tick + 2 } else s
      | _ => ((setFence s false).endJob j).completeHif j.d 0

/-- SHEPHERD_RESET at a boundary: an active shepherd hands over first; complete when it is STANDBY again, or DETACHED (R478). -/
def State.shpResetBoundary (s : State) : State :=
  match s.job? .shpReset with
  | none => s
  | some j =>
    let x : Shep := if j.nums.headD 0 = 0 then .A else .B
    match j.phase with
    | 0 =>
      if s.standby = none then (s.endJob j).completeHif j.d 0x08
      else if s.sGet SHP_STATUS fSHP_STATUS_REPAIR_PENDING = 0 then
        let s := s.handoverWrite x
        s.setJob j { j with phase := 1 }
      else if j.due ≤ s.tick then (s.endJob j).completeHif j.d 0x09
      else s
    | 1 => if s.role x = .active then s else s.setJob j { j with phase := 2 }
    | 2 => (s.setJob j { j with phase := 3 }).shpReset x
    | _ =>
      if (s.sh x).halted = false ∧ (s.role x = .standby ∨ s.role x = .detached) then (s.endJob j).completeHif j.d 0
      else s

/-! ### The boot of a shepherd (R415, R421, R439, R490, R496, R498) -/

/-- The folds differ in capacity (R415). -/
def State.capMismatch (s : State) : State :=
  let cap := fun x => s.pGet x FLD_STATUS fFLD_STATUS_CAP
  let b := decide (cap .A ≠ 0 ∧ cap .B ≠ 0 ∧ cap .A ≠ cap .B)
  both (fun x s => s.pPut x FLD_STATUS fFLD_STATUS_CAP_MISMATCH (bitN b)) s

/-- The owner key store is read at the end of step 5, which only PROVISIONED and DEPLOYED open, and the mirror of recorder keep set (R496, R502, R509). -/
def State.loadKeys (s : State) (readable : Bool) : State :=
  let ok := readable && s.keysOpen
  let s := if s.initial && !s.lone then { s with keys := if ok then s.store.owner else {} } else s
  let s := s.dPut LCS_STATE fLCS_STATE_STORE_OK (bitN ok)
  s.dPut LCS_STATE fLCS_STATE_REC_KEEP (bitN (s.keys.keep && s.keysOpen))

/-- The columns that the fuses map onto spares at POR, and those that the start-up march repairs, in BNK_REPAIR (R441, R443). -/
def State.bankRepairs (s : State) (x : Shep) (march : Bool) (b : BootInfo) : State :=
  s.wr x.bank BNK_REPAIR (fBNK_REPAIR_FUSED.put (fBNK_REPAIR_SOFT.put 0 (if march then b.soft else 0)) b.fused)

/-- The steps of the boot after the march. -/
def State.bootSteps (s : State) (x : Shep) (b : BootInfo) : State :=
  let r := s.bootImage x b.storeErr
  if r.1 = false then r.2.modSh x fun h => { h with bootStep := 4 }
  else
    let s := ((r.2.pPut x MTX_REMAP fMTX_REMAP_REMAP 1).loadKeys b.keysOk).holdIdentity x
    if b.pop ≠ 0 then (s.pPut x FLD_STATUS fFLD_STATUS_POP_FAULT b.pop).modSh x fun h => { h with bootStep := 5 }
    else
      let s := (s.pPut x FLD_STATUS fFLD_STATUS_POP_FAULT 0).pPut x FLD_STATUS fFLD_STATUS_DPC b.dpc
      let s := (s.pPut x FLD_STATUS fFLD_STATUS_CAP b.cap).capMismatch
      let s := if (s.sh x).recorder.state = 3 then s.pFlag x FLD_STATUS fFLD_STATUS_KEPT else s
      (s.modSh x fun h => { h with bootStep := 6 }).bootDone x

/-- BOOT_COMPLETE: the steps that firmware performs end, or stop at the first that fails, and the shepherd then stays in BOOT. -/
def doBootComplete (x : Shep) (b : BootInfo) (s : State) : State :=
  let h := s.sh x
  if h.halted = false ∨ h.perst = true ∨ h.railLow = true ∨ h.coreHalt = true ∨ h.role = .active ∨ h.role = .standby ∨
      s.mode = .off ∨ s.mode = .reset then s
  else
    let march := h.porBoot && decide (s.part = .gl3280)
    let s := if h.porBoot then s.bankRepairs x march b else s
    if b.unrepaired && march then (s.modSh x fun h => { h with unrepaired := true, bootStep := 3 }).pFlag x BNK_STATUS fBNK_STATUS_UNREPAIRED
    else s.bootSteps x b

end Sys2Proof.Machine
end

