-- ==== Sys2Proof/Machine/Dimm.lean ====
section
/-! DEFINITION. What stands in the DIMMs of a fold: its regions, and its units as they are encrypted (R418, R421). -/

namespace Sys2Proof.Machine

/-- A region of a fold (R421): its size in bytes, what it holds from its start, and whether the recorder pair covers it. -/
structure FoldRegion where
  size : Nat
  held : List Byte
  ownKey : Bool
  deriving DecidableEq, Repr

/-- A length rounded up to whole units of 64 bytes, and bytes filled up to them. -/
def padTo64 (n : Nat) : Nat := ceilDiv n 64 * 64
def fillUnit (bs : List Byte) : List Byte := bs ++ zeros (padTo64 bs.length - bs.length)

/-- The size of the Commands region: 1,024 MiB. -/
def commandBytes : Nat := 1073741824

/-- The fetched descriptors with their payloads. -/
def State.commandsHeld (s : State) (x : Shep) : List Byte := (s.sh x).fold.flatMap fun f => f.d.bytes ++ fillUnit f.d.pay

/-- The records of a region of `size` bytes each, from record 0 to the last that a table lists; others are 0. -/
def recordsHeld {α : Type} (t : Tab α) (size : Nat) (f : α → List Byte) : List Byte :=
  (List.range (((t.map fun e => e.1).foldl max 0) + 1)).flatMap fun k => match t.find? fun e => decide (e.1 = k) with
    | some e => (f e.2 ++ zeros size).take size
    | none => zeros size

/-- A plan of the library or of the scratch records as its record (R214). -/
def State.recordOf (s : State) (p : Option Plan) : List Byte := match p with
  | some r => planBytes s.part r
  | none => []

/-- The regions of a shepherd's fold in the order of the table (R421). The places of the records within a region are the model's (log entry 124). -/
def State.foldRegions (s : State) (x : Shep) : List FoldRegion :=
  let h := s.sh x
  let mib := 1048576
  let r := s.part.recBytes
  let id := (s.map.map fun m => m.id).getD 0
  let prior := (s.survey.bind fun v => v.prior).getD []
  [⟨256 * mib, h.loaded.getD [], false⟩,
   ⟨commandBytes, s.commandsHeld x, false⟩,
   ⟨2 * mib, h.heldCpl.flatMap fun b => cplBytes b 0, false⟩,
   ⟨64 * mib, h.evtLog.flatMap fun e => evtBytes (e.drop 1) (leNat (e.take 1)) 0, false⟩,
   ⟨s.sGet FLD_FITLOG_CFG fFLD_FITLOG_CFG_SIZE * mib, h.fit.log.flatten, false⟩,
   ⟨16 * mib, if s.results = [] then [] else srvImage id s.results, false⟩,
   ⟨16 * mib, if prior = [] then [] else srvImage id prior, false⟩,
   ⟨64 * mib, recordsHeld s.muster.bitmaps 8192 bitmapBytes, false⟩,
   ⟨256 * r, recordsHeld s.scratch r s.recordOf, false⟩,
   ⟨s.sGet FLD_LIB_CFG fFLD_LIB_CFG_RECORDS * r, s.library.flatMap fun e => (s.recordOf e.2 ++ zeros r).take r, false⟩,
   ⟨s.ringBytes x, h.recorder.ring.flatMap fun f => f.bytes, true⟩]

/-- The unit of 64 bytes at an offset from the start of a list of regions, and whether the recorder pair covers it; none where nothing has been written. -/
def unitAt : List FoldRegion → Nat → Option (List Byte × Bool)
  | [], _ => none
  | r :: rest, o =>
    if r.size ≤ o then unitAt rest (o - r.size)
    else if r.held.length ≤ o then none
    else some ((r.held.drop o ++ zeros 64).take 64, r.ownKey)

/-- A key pair of 64 bytes: the free value of a draw (R418). -/
def xtsPair (draw : Nat) : List Byte := leBytes 64 (Config.free 512 draw).toNat

/-- What the DIMMs of shepherd x's fold hold of the unit at a fold address: the unit encrypted with AES-256-XTS under the pair of its region, with the address as the
tweak (R418). -/
def State.dimmUnit (s : State) (x : Shep) (addr : Nat) : Option (List Byte) :=
  if addr % 64 ≠ 0 then none
  else (unitAt (s.foldRegions x) addr).map fun u =>
    xtsUnit aesEnc (xtsPair (if u.2 then (s.sh x).xts.recorder else (s.sh x).xts.main)) addr u.1

/-- What a shepherd reads of the unit at a fold address from the bytes that the DIMMs return: decrypted under its present pair (R418, R420). -/
def State.unitRead (s : State) (x : Shep) (addr : Nat) (raw : List Byte) : List Byte :=
  let ring := (((s.foldRegions x).dropLast).map fun r => r.size).foldl (· + ·) 0
  xtsUnit aesDec (xtsPair (if ring ≤ addr then (s.sh x).xts.recorder else (s.sh x).xts.main)) addr raw

end Sys2Proof.Machine
end

