-- ==== Sys2Proof/Machine/Rings.lean ====
section
/-! DEFINITION. The doorbell and status lines, command rings, interrupts and host-memory faults (R324 to R335, R343 to R354). -/

namespace Sys2Proof.Machine

/-! ### Command rings (R330 to R333) -/

/-- Command ring r: enabled, its size S, its priority, and CMD_CONS of a shepherd. -/
def State.cmdOn (s : State) (r : Nat) : Bool := decide (s.sGet (HIF_CMD_CFG r) fHIF_CMD_CFG_EN = 1)
def State.cmdSize (s : State) (r : Nat) : Nat := 2 ^ (s.sGet (HIF_CMD_CFG r) fHIF_CMD_CFG_SIZE + 6)
def State.cmdPrio (s : State) (r : Nat) : Nat :=
  if r = 16 then s.dGet ETH_CTL_CFG fETH_CTL_CFG_PRIO else s.sGet (HIF_CMD_CFG r) fHIF_CMD_CFG_PRIO
def State.cmdCons (s : State) (x : Shep) (r : Nat) : Nat := s.pGet x (HIF_CMD_STAT r) fHIF_CMD_STAT_CONS
def State.cmdProd (s : State) (x : Shep) (r : Nat) : Nat := Tab.get (s.sh x).cmdProd 0 r

/-- The rings are polled in the modes of R335, not in DEEP, by a shepherd that is ACTIVE or STANDBY. -/
def State.polls (s : State) (x : Shep) : Bool :=
  decide (s.mode ≠ .off ∧ s.mode ≠ .reset ∧ s.mode ≠ .boot ∧ s.lp ≠ .deep) && (s.sh x).writes

/-- Ring r stops in shepherd x (R331): ERR, RING_ERR_ANY and a RING event. -/
def State.stopRing (s : State) (x : Shep) (r cause index : Nat) : State :=
  let s := s.modSh x fun h => { h with stopped := if r ∈ h.stopped then h.stopped else r :: h.stopped }
  let s := (s.pFlag x (HIF_CMD_STAT r) fHIF_CMD_STAT_ERR).pFlag x HIF_STATUS fHIF_STATUS_RING_ERR_ANY
  s.ringEvent x r cause index

/-- CMD_PROD(r) as the doorbell line shows it (R331). -/
def State.takeProd (s : State) (x : Shep) (line : List Byte) (r : Nat) : State :=
  if s.cmdOn r = false ∨ r ∈ (s.sh x).stopped then s
  else
    let prod := leAt line (2 * r) 2
    if s.cmdSize r < (prod + 65536 - s.cmdCons x r) % 65536 then s.stopRing x r 0 prod
    else s.modSh x fun h => { h with cmdProd := Tab.set h.cmdProd 0 r prod }

/-- The consumer index of shepherd x's ring k: one beyond the producer is ignored (R343). -/
def State.takeCons (s : State) (x : Shep) (line : List Byte) (k : Nat) : State :=
  let new := leAt line (32 + 6 * x.num + 2 * k) 2
  let r := s.ring x k
  if (new + 65536 - r.cons) % 65536 ≤ (r.prod + 65536 - r.cons) % 65536 then s.modRing x k fun r => { r with cons := new }
  else s.pFlag x HIF_STATUS fHIF_STATUS_BAD_CONS

/-- DOORBELL_POLL: the read of the whole line by shepherd x returns (R326). -/
def doDoorbell (x : Shep) (line : List Byte) (s : State) : State :=
  if s.polls x = false ∨ s.sGet HIF_POLL fHIF_POLL_EN = 0 then s
  else
    let s := s.modSh x fun h => { h with dbFails := 0 }
    let s := (List.range 16).foldl (fun s r => s.takeProd x line r) s
    (List.range 3).foldl (fun s k => s.takeCons x line k) s

/-- Two descriptors of one ring and index. -/
def sameCmd (d e : Desc) : Bool := decide (d.ring = e.ring ∧ d.index = e.index)

/-- The active's copy differs from the standby's own fetch (R333). -/
def State.compareDesc (s : State) (x : Shep) (own act : Desc) : State :=
  if own = act then s
  else (s.pFlag x HIF_STATUS fHIF_STATUS_DESC_MISMATCH).ringEvent x own.ring 2 own.index

/-- A fetched descriptor reaches the fold of shepherd x; one that the active has started is compared and goes no further. -/
def State.intoFold (s : State) (x : Shep) (d : Desc) : State :=
  match s.early.find? (sameCmd d) with
  | some a => if s.role x = .standby then { s.compareDesc x d a with early := s.early.filter fun e => !sameCmd d e }
    else s.modSh x fun h => { h with fold := h.fold ++ [⟨d, s.edge⟩] }
  | none => s.modSh x fun h => { h with fold := h.fold ++ [⟨d, s.edge⟩] }

/-- Of what was fetched, the commands that the Commands region of a fold that holds `used` bytes has room for, up to the first that does not fit (R421). -/
def fitting : Nat → List (List Byte × Option (List Byte)) → List (List Byte × Option (List Byte))
  | _, [] => []
  | used, e :: r =>
    let n := used + 64 + padTo64 (e.2.getD []).length
    if n ≤ commandBytes then e :: fitting n r else []

/-- DESCRIPTOR_FETCH_DONE: a read of descriptors of ring r from CMD_CONS on, each with its payload, ends (R333). A command whose payload does not fit, and those
after it, wait in the ring (R421). -/
def doFetch (x : Shep) (r : Nat) (ds : List (List Byte × Option (List Byte))) (s : State) : State :=
  let c := s.cmdCons x r
  let ds := fitting (s.commandsHeld x).length ds
  let n := ds.length
  if s.polls x = false ∨ 16 ≤ r ∨ s.cmdOn r = false ∨ r ∈ (s.sh x).stopped ∨ 32 < n ∨ s.cmdSize r < c % s.cmdSize r + n ∨
      (s.cmdProd x r + 65536 - c) % 65536 < n ∨ 4096 ≤ (s.sh x).fold.length then s
  else
    let s := ((List.range n).zip ds).foldl (fun s e => s.intoFold x (descOf r ((c + e.1) % 65536) e.2.1 e.2.2)) s
    s.pPut x (HIF_CMD_STAT r) fHIF_CMD_STAT_CONS ((c + n) % 65536)

/-- A descriptor that starts leaves the folds; the standby's own fetch is compared with it (R333). -/
def State.takeDesc (s : State) (d : Desc) : State :=
  let s := match s.standby with
    | some y =>
      match (s.sh y).fold.find? fun f => sameCmd d f.d with
      | some f => s.compareDesc y f.d d
      | none => if d.ring = 16 then s else { s with early := s.early ++ [d] }
    | none => s
  both (fun x s => s.modSh x fun h => { h with fold := h.fold.filter fun f => !sameCmd d f.d }) s

/-! ### Host-memory faults (R354) -/

/-- The completion of a descriptor that could not be read, by shepherd x alone (R354). -/
def State.unread (s : State) (x : Shep) (r : Nat) : State :=
  let body := cplBody s.cplSeq s.epoch r 0xFF (s.cmdCons x r) 0x03 0 0 []
  { s with cplSeq := (s.cplSeq + 1) % 2 ^ 32 }.pushCpl x body

/-- HOST_READ_ERROR at shepherd x (R354). -/
def doHostReadError (x : Shep) (w : HostRead) (s : State) : State :=
  if !s.polls x then s
  else match w with
    | .doorbell =>
      let n := (s.sh x).dbFails + 1
      let s := s.modSh x fun h => { h with dbFails := n }
      if n = 16 then (s.pFlag x HIF_STATUS fHIF_STATUS_DB_FAULT).ringEvent x 0xFF 3 0xFFFF else s
    | .descriptors r =>
      if s.cmdOn r = false ∨ r ∈ (s.sh x).stopped ∨ 16 ≤ r then s
      else (s.stopRing x r 1 (s.cmdCons x r)).unread x r
    | .payload r i =>
      s.modSh x fun h => { h with fold := h.fold.map fun f =>
        if f.d.ring = r ∧ f.d.index = i then { f with d := { f.d with payload := none } } else f }

/-! ### The status line (R327, R328) -/

/-- Bytes 0 to 43 of a shepherd's status line. -/
def State.lineBody (s : State) (x : Shep) : List Byte :=
  let h := s.sh x
  let flags := bitN s.simplex + 2 * bitN (decide (h.heldCpl ≠ [])) + 4 * bitN (decide (h.evtLog ≠ [])) + 8 * bitN (decide (h.stopped ≠ []))
  (List.range 16).flatMap (fun r => leBytes 2 (s.cmdCons x r)) ++ leBytes 2 (s.ring x 0).prod ++ leBytes 2 (s.ring x 1).prod ++
    leBytes 2 (s.ring x 2).prod ++ leBytes 1 ((s.roleShown x).code + 16 * (s.roleShown x.other).code) ++ leBytes 1 flags ++ leBytes 2 s.epoch ++ zeros 2

/-- Edges between messages of one MSI-X vector (R353). -/
def State.holdoff (s : State) (x : Shep) : Nat := 40 * s.pGet x HIF_IRQ_CFG fHIF_IRQ_CFG_HOLDOFF

/-- The message of a vector may be sent; `irqLast` keeps one more than the edge of the last. -/
def State.irqFree (s : State) (x : Shep) (v : Nat) : Bool :=
  let l := Tab.get (s.sh x).irqLast 0 v
  decide (l = 0) || decide (l - 1 + s.holdoff x ≤ s.edge)

/-- The message of a vector goes out where MSI-X is enabled and the vector is not masked; a masked vector sets its pending bit, and with MSI-X disabled
nothing is sent (R353). -/
def State.irqSend (s : State) (x : Shep) (v : Nat) : State :=
  let m := (s.sh x).msix
  if m.on = false then s.modSh x fun h => { h with irqHeld := h.irqHeld.filter fun w => decide (w ≠ v) }
  else if m.allMasked = true ∨ v ∈ m.masked then
    s.modSh x fun h => { h with
      msix := { m with pbits := if v ∈ m.pbits then m.pbits else m.pbits ++ [v] }, irqHeld := h.irqHeld.filter fun w => decide (w ≠ v) }
  else (s.send (.msix x v)).modSh x fun h => { h with
    irqLast := Tab.set h.irqLast 0 v (s.edge + 1), irqHeld := h.irqHeld.filter fun w => decide (w ≠ v) }

/-- A vector's message is sent, or withheld for the holdoff (R353). -/
def State.irq (s : State) (x : Shep) (v : Nat) : State :=
  if s.irqFree x v then s.irqSend x v
  else s.modSh x fun h => { h with irqHeld := if v ∈ h.irqHeld then h.irqHeld else h.irqHeld ++ [v] }

/-- STATUS_LINE_WRITE: at the end of a poll period in which bytes 0 to 43 changed, or 1,024 ticks after the last (R328). The vectors of the records that it
covers are signalled (R353). -/
def doStatusLine (x : Shep) (s : State) : State :=
  let body := s.lineBody x
  let h := s.sh x
  if h.writes = false ∨ s.pGet x HIF_STAT_ADDR_LO fHIF_STAT_ADDR_LO_EN = 0 ∨ (body = h.line ∧ s.tick < h.lineTick + 1024) then s
  else
    let seq := (h.lineSeq + 1) % 2 ^ 32
    let l := body ++ leBytes 4 seq ++ leBytes 4 s.tick ++ leBytes 4 s.now ++ zeros 4
    let vs := h.irqWait
    let s := s.modSh x fun h => { h with lineSeq := seq, line := body, lineTick := s.tick, irqWait := [] }
    vs.foldl (fun s v => s.irq x v) (s.send (.line x (l ++ leBytes 4 (crc32c l))))

/-- IRQ_HOLDOFF_END (R353). -/
def doHoldoffEnd (x : Shep) (v : Nat) (s : State) : State :=
  if v ∈ (s.sh x).irqHeld ∧ s.irqFree x v = true then s.irqSend x v else s

/-- HELD_COMPLETION_FLUSH and EVENT_LOG_FLUSH (R344, R349). -/
def doFlushCpl (x : Shep) (s : State) : State := if (s.sh x).writes then s.flushCpl x else s
def doFlushEvt (x : Shep) (s : State) : State := if (s.sh x).writes then s.flushEvt x else s

/-! ### Writes to the HIF block (R330, R343, R357) -/

def State.hifBad (s : State) (x : Shep) : State := s.pFlag x HIF_STATUS fHIF_STATUS_BAD_CFG

/-- HIF_CMD_CFG(r) written through shepherd x: SIZE and PRIO stay while EN is 1, and a rise of EN starts the ring anew in both shepherds. -/
def State.writeCmdCfg (s : State) (x : Shep) (r : Nat) (v : Word) : State :=
  let was := s.cmdOn r
  let en := fHIF_CMD_CFG_EN.get v
  let sz := fHIF_CMD_CFG_SIZE.get v
  let pr := fHIF_CMD_CFG_PRIO.get v
  let bad := (was && decide (sz ≠ s.sGet (HIF_CMD_CFG r) fHIF_CMD_CFG_SIZE ∨ pr ≠ s.cmdPrio r)) || decide (10 ≤ sz)
  let s := if bad then s.hifBad x else s
  let s := if was then s
    else
      let s := s.sPut (HIF_CMD_CFG r) fHIF_CMD_CFG_PRIO pr
      if 10 ≤ sz then s else s.sPut (HIF_CMD_CFG r) fHIF_CMD_CFG_SIZE sz
  let s := s.sPut (HIF_CMD_CFG r) fHIF_CMD_CFG_EN en
  if !was && decide (en = 1) then
    both (fun y s => (s.pPut y (HIF_CMD_STAT r) fHIF_CMD_STAT_CONS 0).modSh y fun h => { h with
      cmdProd := Tab.set h.cmdProd 0 r 0, stopped := h.stopped.filter fun q => decide (q ≠ r) }) s
  else s

/-- A word of HIF_CMD_BASE(r): discarded while EN is 1. -/
def State.writeCmdBase (s : State) (x : Shep) (r off : Nat) (v : Word) : State := if s.cmdOn r then s.hifBad x else s.sWr off v

/-- HIF_RING_CFG(k) of shepherd x: a rise of EN starts the ring at index 0 with PHASE 1. -/
def State.writeRingCfg (s : State) (x : Shep) (k : Nat) (v : Word) : State :=
  let was := s.pGet x (HIF_RING_CFG k) fHIF_RING_CFG_EN
  let en := fHIF_RING_CFG_EN.get v
  let sz := fHIF_RING_CFG_SIZE.get v
  let s := if 10 ≤ sz then s.hifBad x else s.pPut x (HIF_RING_CFG k) fHIF_RING_CFG_SIZE sz
  let s := s.pPut x (HIF_RING_CFG k) fHIF_RING_CFG_EN en
  if was = 0 ∧ en = 1 then s.modRing x k fun _ => {} else s

/-- HIF_POLL written through shepherd x. -/
def State.writePoll (s : State) (x : Shep) (v : Word) : State :=
  let p := fHIF_POLL_PERIOD.get v
  let s := s.sPut HIF_POLL fHIF_POLL_EN (fHIF_POLL_EN.get v)
  if p < 256 ∨ 64000 < p then s.hifBad x else s.sPut HIF_POLL fHIF_POLL_PERIOD p

/-- HIF_TLM_CFG of shepherd x. -/
def State.writeTlmCfg (s : State) (x : Shep) (v : Word) : State :=
  let i := fHIF_TLM_CFG_INTERVAL.get v
  let s := s.pPut x HIF_TLM_CFG fHIF_TLM_CFG_SRC (fHIF_TLM_CFG_SRC.get v)
  if i = 0 then s.hifBad x else s.pPut x HIF_TLM_CFG fHIF_TLM_CFG_INTERVAL i

/-- TELEMETRY_CFG writes HIF_TLM_CFG in both shepherds (R350). -/
def startTelemetryCfg (d : Desc) (s : State) : State :=
  if d.in2 32 = 0 ∨ 16 ≤ d.in1 34 then s.completeHif d 0x05
  else
    let s := both (fun x s => (s.pPut x HIF_TLM_CFG fHIF_TLM_CFG_INTERVAL (d.in2 32)).pPut x HIF_TLM_CFG fHIF_TLM_CFG_SRC (d.in1 34)) s
    s.completeHif d 0

end Sys2Proof.Machine
end

