-- ==== Sys2Proof/Machine/Traffic.lean ====
section
/-! DEFINITION. Egress queues, gate lists, ingress policing and queue monitoring (R397 to R411), and the writes that configure the ports (R358, R396, R413). -/

namespace Sys2Proof

/-! ### Frames on the wire (R362, R383, R398) -/

/-- Two octets, most significant first, as Ethernet sends them. -/
def beBytes2 (n : Nat) : List Byte := leBytes 1 (n / 256) ++ leBytes 1 n

/-- The octets of a frame without padding, trailer and FCS; `hsr`: its redundancy information is an HSR tag. -/
def EthFrame.head (f : EthFrame) (hsr : Bool) : List Byte :=
  let lsdu := f.body.length + 2
  let vlan := match f.vlan with
    | some t => beBytes2 0x8100 ++ beBytes2 t
    | none => []
  let tag := match f.red, hsr with
    | some (seq, path), true => beBytes2 0x892F ++ beBytes2 (path % 16 * 4096 + (lsdu + 4) % 4096) ++ beBytes2 seq
    | _, _ => []
  f.dst ++ f.src ++ vlan ++ tag ++ beBytes2 f.etype ++ f.body

/-- The octets of a frame from the destination address to the end of the PRP trailer. -/
def EthFrame.bytes (f : EthFrame) (hsr : Bool) : List Byte :=
  let h := f.head hsr
  match f.red, hsr with
  | some (seq, lan), false =>
    let h := h ++ zeros (54 - h.length)
    h ++ beBytes2 seq ++ beBytes2 (lan % 16 * 4096 + (f.body.length + 8) % 4096) ++ beBytes2 0x88FB
  | _, _ => h ++ zeros (60 - h.length)

/-- The byte length of a frame with its FCS (R398). -/
def EthFrame.len (f : EthFrame) (hsr : Bool) : Nat := (f.bytes hsr).length + 4

/-- The frame with its FCS, which is sent least significant byte first. -/
def EthFrame.wire (f : EthFrame) (hsr : Bool) : List Byte := f.bytes hsr ++ leBytes 4 (Machine.crc32 (f.bytes hsr))

end Sys2Proof

namespace Sys2Proof.Machine

def QFrame.len (q : QFrame) : Nat := q.frame.len q.hsr

/-! ### Ports and queues -/

def State.port (s : State) (i : Nat) : PortSt := Tab.get s.ports {} i
def State.modPort (s : State) (i : Nat) (f : PortSt → PortSt) : State := { s with ports := Tab.set s.ports {} i (f (s.port i)) }
def State.queue (s : State) (i q : Nat) : QueueSt := Tab.get s.queues {} (8 * i + q)
def State.modQueue (s : State) (i q : Nat) (f : QueueSt → QueueSt) : State :=
  { s with queues := Tab.set s.queues {} (8 * i + q) (f (s.queue i q)) }

/-- ETH_PORT_CFG(i).SPEED: 0 25GBASE-R, 1 10GBASE-R, 2 1000BASE-X, 3 OFF (R358). -/
def State.speed (s : State) (i : Nat) : Nat := s.dGet (ETH_PORT_CFG i) fETH_PORT_CFG_SPEED

/-- Picoseconds per bit (R405), and the speed in units of 100 kb/s. -/
def psPerBit (speed : Nat) : Nat := match speed with
  | 0 => 40
  | 1 => 100
  | _ => 1000
def speedUnits (speed : Nat) : Nat := match speed with
  | 0 => 250000
  | 1 => 100000
  | _ => 10000

/-- A port carries frames: its link is up and it is not being measured. -/
def State.portUp (s : State) (i : Nat) : Bool := decide (i < 4 ∧ s.speed i ≠ 3) && s.ethLink i && !s.measuring i

def State.ethBad (s : State) : State := s.dFlag ETH_STATUS fETH_STATUS_BAD_CFG

/-- The priority of a frame at a port (R397), and its queue. -/
def State.prio (s : State) (i : Nat) (f : EthFrame) : Nat :=
  match f.vlan with
  | some t => t / 8192 % 8
  | none => s.dGet (ETH_QMAP i) fETH_QMAP_UNTAG
def State.queueOf (s : State) (i : Nat) (f : EthFrame) : Nat := (s.rd 0 (ETH_QMAP i)).toNat / 8 ^ s.prio i f % 8

/-! ### Gate lists (R402 to R406) -/

/-- Where the device time stands in the cycle, in 2^-24 ns. -/
def GateList.pos (g : GateList) (t : Nat) : Nat := (((t : Int) - g.base * 2 ^ 24) % ((g.cycle * 2 ^ 24 : Nat) : Int)).toNat

/-- The entry that holds position `p` of the cycle, and what is left of it. -/
def entryAt : List (Nat × Nat) → Nat → Nat → Nat × Nat
  | [], j, _ => (j, 0)
  | (_, d) :: r, j, p => if p < d * 2 ^ 24 then (j, d * 2 ^ 24 - p) else entryAt r (j + 1) (p - d * 2 ^ 24)

/-- The ns for which entries open queue q from the first on. -/
def openRun (q : Nat) : List (Nat × Nat) → Nat
  | [] => 0
  | (g, d) :: r => if bitAt g q then d + openRun q r else 0

/-- The entries that follow entry j in the cycle, wrapped. -/
def GateList.after (g : GateList) (j : Nat) : List (Nat × Nat) := g.ents.drop (j + 1) ++ g.ents.take (j + 1)

/-- Queue q is open in every entry. -/
def GateList.always (g : GateList) (q : Nat) : Bool := g.ents.all fun e => bitAt e.1 q

/-- The longest window of queue q in ns; none where it is unbounded (R406). -/
def GateList.longest (g : GateList) (q : Nat) : Option Nat :=
  if g.always q then none
  else some (((List.range g.ents.length).map fun j => openRun q (g.ents.drop j ++ g.ents.take j)).foldl max 0)

/-- The entry in force at a port (R403). -/
def State.gateEntry (s : State) (g : GateList) : Nat := (entryAt g.ents 0 (g.pos s.tb0)).1

/-- The gate of queue q is open. -/
def State.gateOpen (s : State) (i q : Nat) : Bool :=
  match (s.port i).oper with
  | none => true
  | some g => ((g.ents[s.gateEntry g]?).map fun e => bitAt e.1 q).getD true

/-- The remaining window of queue q in 2^-24 ns; none where it is unbounded (R405). -/
def State.window (s : State) (i q : Nat) : Option Nat :=
  match (s.port i).oper with
  | none => none
  | some g =>
    if g.always q then none
    else
      let (j, left) := entryAt g.ents 0 (g.pos s.tb0)
      let w := if s.gateOpen i q then left + openRun q (g.after j) * 2 ^ 24 else 0
      some (match (s.port i).pend with
        | some (_, t) => min w (t * 2 ^ 24 - (s.tb0 : Int)).toNat
        | none => w)

/-- What a frame needs: its wire time plus GUARD, in ps (R405). -/
def State.need (s : State) (i len : Nat) : Nat := (len + 20) * 8 * psPerBit (s.speed i) + 1000 * s.dGet (ETH_GATE_CFG i) fETH_GATE_CFG_GUARD

/-- The length-aware check. -/
def State.fits (s : State) (i q len : Nat) : Bool :=
  match s.window i q with
  | none => true
  | some w => decide (s.need i len * 2 ^ 24 ≤ 1000 * w)

/-- A frame can never pass under the operating list (R406). -/
def State.tooLong (s : State) (i q len : Nat) : Bool :=
  match (s.port i).oper with
  | none => false
  | some g => match g.longest q with
    | none => false
    | some w => decide (1000 * w < s.need i len)

/-- Heads that can never pass are discarded (R406). -/
def dropHeads (i q : Nat) : Nat → State → State
  | 0, s => s
  | n + 1, s =>
    match (s.queue i q).frames with
    | [] => s
    | f :: r =>
      if s.tooLong i q f.len then
        dropHeads i q n ((s.modQueue i q fun k => { k with frames := r, drop := k.drop + 1 }).dCount (ETH_Q_STAT i q) fETH_Q_STAT_TOO_LONG 1)
      else s

def State.judgeHeads (s : State) (i q : Nat) : State := dropHeads i q (s.queue i q).frames.length s

/-! ### Queues (R398, R400) -/

/-- The bytes in a queue. -/
def QueueSt.depth (k : QueueSt) : Nat := (k.frames.map QFrame.len).foldl (· + ·) 0

/-- A frame arrives at queue q of port i; it is discarded where it does not fit. Whether it was taken, and the state after. -/
def State.enqueue (s : State) (i : Nat) (f : QFrame) : Bool × State :=
  let q := s.queueOf i f.frame
  let k := s.queue i q
  if s.dGet (ETH_Q_SIZE i q) fETH_Q_SIZE_LIMIT * 1024 < k.depth + f.len then
    (false, (s.modQueue i q fun k => { k with drop := k.drop + 1 }).dCount (ETH_Q_STAT i q) fETH_Q_STAT_TAIL_DROP 1)
  else (true, (s.modQueue i q fun k => { k with frames := k.frames ++ [f] }).judgeHeads i q)

/-- BURST of a queue in 1/32000 byte, and what its bucket lacks to it at the present edge. -/
def State.burst (s : State) (i q : Nat) : Nat := s.dGet (ETH_Q_SIZE i q) fETH_Q_SIZE_BURST * 64 * 32000
def State.rate (s : State) (i q : Nat) : Nat := s.dGet (ETH_Q_SHAPE i q) fETH_Q_SHAPE_RATE
def State.lack (s : State) (i q : Nat) : Int :=
  let k := s.queue i q
  max 0 (k.lack - (s.rate i q * (s.edge - k.since) : Nat))

/-- The bucket allows a frame of a length (R400). -/
def State.tokens (s : State) (i q len : Nat) : Bool :=
  decide (s.rate i q = 0) || decide ((min (len * 32000) (s.burst i q) : Int) ≤ (s.burst i q : Int) - s.lack i q)

/-- The head frame of queue q is eligible (R399). -/
def State.headGoes (s : State) (i q : Nat) : Bool :=
  match (s.queue i q).frames with
  | [] => false
  | f :: _ => s.gateOpen i q && s.tokens i q f.len && s.fits i q f.len

/-- A timestamp in 1/16 ns of an event at which TB0 is `tb`, moved to the medium by the correction of its port (R374). Timestamps resolve 0.3125 ns (R393), an
eighth of an edge, and which eighth it is is free (log entry 3). -/
def State.stamp (s : State) (tb : Nat) (corr : Int) : Int × State :=
  ((tb / 2 ^ 20 + 5 * (s.draw 3).1.toNat : Nat) + corr, (s.draw 3).2)
def State.txCorr (s : State) (i : Nat) : Int := fTIM_PORT_CORR_TX_CORR.get (s.rd 0 (TIM_PORT_CORR i))
def State.rxCorr (s : State) (i : Nat) : Int := fTIM_PORT_CORR_RX_CORR.get (s.rd 0 (TIM_PORT_CORR i))

/-- A message with an amount in 2^-16 ns added to its correctionField. -/
def addCorr (b : List Byte) (c : Int) : List Byte :=
  b.take 8 ++ octets 8 (((beNat ((b.drop 8).take 8) : Int) + c) % (2 ^ 64 : Nat)).toNat ++ b.drop 16

/-- A frame as it passes the timestamp point of port i (R376). An event message of the device takes the time, whose fraction of a ns joins the correctionField. To
one that is forwarded the transparent clock adds the residence time, and to a Sync under peer-to-peer delay the link delay of the ingress port. -/
def State.pass (s : State) (i : Nat) (f : QFrame) : EthFrame × State :=
  let b := f.frame.body
  match f.ptp, f.rx with
  | some kind, _ =>
    if kind = 1 ∨ kind = 4 then (f.frame, s)
    else
      let (t, s) := s.stamp s.tb0 (s.txCorr i)
      let b := addCorr b (t % 16 * 4096)
      ({ f.frame with body := b.take 34 ++ ptpTime (t / 16).toNat ++ b.drop 44 }, s)
  | none, some (tb, j) =>
    let (tin, s) := s.stamp tb (-s.rxCorr j)
    let (tout, s) := s.stamp s.tb0 (s.txCorr i)
    let link := if leAt b 0 1 % 16 = 0 ∧ s.ptp.byte 2 = 1 then 256 * s.ptp.mpd.getD 0 else 0
    ({ f.frame with body := addCorr b ((tout - tin) * 4096 + (link : Nat)) }, s)
  | none, none => (f.frame, s)

/-- A frame starts on the wire of port i from queue q. -/
def State.transmit (s : State) (i q : Nat) (f : QFrame) : State :=
  let len := f.len
  let lack := s.lack i q
  let shaped := s.rate i q ≠ 0
  let s := s.modQueue i q fun k => { k with
    frames := k.frames.drop 1, lack := if shaped then lack + (len * 32000 : Nat) else lack, since := s.edge
    sent := k.sent + 1, bytes := k.bytes + len }
  let s := s.modPort i fun p => { p with free := s.edge + ceilDiv ((len + 20) * 8 * psPerBit (s.speed i)) 2500 }
  let r := s.pass i f
  (r.2.send (.eth i (r.1.wire f.hsr))).judgeHeads i q

/-- TRANSMIT_SELECTION: the transmitter of port i is free and sends the eligible head frame of the highest queue (R399); a pair without an address transmits
nothing (R360). `late`: the transmission runs beyond the
close of its window (R407). -/
def doTransmit (i : Nat) (late : Bool) (s : State) : State :=
  if s.portUp i = false ∨ s.hasMac (i / 2) = false ∨ s.edge < (s.port i).free then s
  else match (List.range 8).reverse.find? fun q => s.headGoes i q with
    | none => s
    | some q =>
      match (s.queue i q).frames with
      | [] => s
      | f :: _ =>
        let s := if late && decide (s.window i q ≠ none) then s.dCount (ETH_Q_STAT i q) fETH_Q_STAT_OVERRUN 1 else s
        s.transmit i q f

/-! ### Gate list commands and events (R402 to R404) -/

/-- ETH_GATE_STAT(i). -/
def State.gateStat (s : State) (i : Nat) : State :=
  let p := s.port i
  let e := match p.oper with
    | some g => s.gateEntry g
    | none => 0
  let s := s.dPut (ETH_GATE_STAT i) fETH_GATE_STAT_ENTRY e
  let s := s.dPut (ETH_GATE_STAT i) fETH_GATE_STAT_PENDING (bitN (decide (p.pend ≠ none)))
  s.dPut (ETH_GATE_STAT i) fETH_GATE_STAT_OPER (bitN (decide (p.oper ≠ none)))

/-- GATE_ENTRY_START: the entry whose interval contains TB0 is in force (R403). -/
def doGateEntry (i : Nat) (s : State) : State := if 4 ≤ i ∨ (s.port i).oper = none then s else s.gateStat i

/-- GATE_LIST_TAKEOVER: the pending list of port i takes over at its boundary; COUNT = 0 leaves none (R404). -/
def doGateTakeover (i : Nat) (s : State) : State :=
  match (s.port i).pend with
  | none => s
  | some (g, t) =>
    if (s.full : Int) < t ∨ 4 ≤ i then s
    else
      let s := (s.modPort i fun p => { p with oper := if g.ents = [] then none else some g, pend := none }).gateStat i
      (List.range 8).foldl (fun s q => s.judgeHeads i q) s

/-- The entries of a gate list. -/
def gateEnts (bs : List Byte) : Nat → List (Nat × Nat)
  | 0 => []
  | n + 1 => (leAt bs 0 1, leAt bs 4 4) :: gateEnts (bs.drop 8) n

/-- The takeover boundary in full device time (R404, with R242 and a lead of 10,000 ns). -/
def State.gateTakeover (s : State) (base cycle : Nat) : Int :=
  let now : Nat := s.full % 2 ^ 32
  let d : Nat := (base + 2 ^ 32 - now) % 2 ^ 32
  if 10000 ≤ d ∧ d < 2 ^ 31 then (s.full : Int) + d
  else
    let e : Nat := (now + 10000 + 2 ^ 32 - base) % 2 ^ 32
    if cycle = 0 then (s.full : Int) + 10000
    else (s.full : Int) + 10000 - e + ((ceilDiv e cycle * cycle : Nat) : Int)

/-- GATE_LIST. -/
def startGateList (d : Desc) (s : State) : State :=
  let q := d.pay
  let i := leAt q 0 1
  let n := leAt q 2 2
  let ents := gateEnts (q.drop 16) n
  let cycle := leAt q 8 4
  let sum := (ents.map fun e => e.2).foldl (· + ·) 0
  let rsv := decide (leAt q 1 1 ≠ 0 ∨ leAt q 12 4 ≠ 0) || ((List.range n).any fun j => decide (leAt q (16 + 8 * j + 1) 3 ≠ 0))
  if d.len < 16 ∨ d.len ≠ 16 + 8 * n ∨ rsv = true then s.completeHif d 0x02
  else if 3 < i ∨ 256 < n ∨ cycle ≠ sum ∨ 2 ^ 30 < cycle ∨ (ents.any fun e => decide (e.2 < 100)) = true then s.completeHif d 0x05
  else
    let t := s.gateTakeover (leAt q 4 4) cycle
    let s := (s.modPort i fun p => { p with pend := some (⟨t, cycle, ents⟩, t) }).gateStat i
    s.complete d 0 0 (leBytes 4 (t % ((2 ^ 32 : Nat) : Int)).toNat)

/-! ### Ingress policing (R408 to R410) -/

/-- The value check of a stream record, as a code: 0 where it passes. -/
def streamFail (r : List Byte) : Nat :=
  if 16 ≤ leAt r 1 1 ∨ 16 ≤ leAt r 2 1 ∨ leAt r 20 4 ≠ 0 then 0x02
  else if 127 < leAt r 0 1 ∨ 7 < leAt r 3 1 ∨ 4094 < leAt r 4 2 ∨ leAt r 16 4 < 64 then 0x05
  else 0

/-- The records of 24 bytes of a list. -/
def records (size : Nat) (bs : List Byte) : Nat → List (List Byte)
  | 0 => []
  | n + 1 => bs.take size :: records size (bs.drop size) n

/-- POLICER: each record replaces its entry, with a full bucket. -/
def startPolicer (d : Desc) (s : State) : State :=
  let rs := records 24 d.pay (d.len / 24)
  match (if d.len % 24 ≠ 0 then some 0x02 else (rs.map streamFail).find? fun c => decide (c ≠ 0)) with
  | some c => s.completeHif d c
  | none =>
    let s := rs.foldl (fun s r =>
      let st : Stream := ⟨leAt r 1 1, leAt r 2 1, leAt r 3 1, leAt r 4 2, (r.drop 6).take 6, leAt r 12 4, leAt r 16 4, 0, s.edge⟩
      { s with streams := Tab.set s.streams none (leAt r 0 1) (some st) }) s
    s.complete d 0 0 (listResult rs.length none)

/-- A stream matches a frame at port i (R409). -/
def Stream.hits (t : Stream) (i pcp : Nat) (f : EthFrame) : Bool :=
  bitAt t.flags 0 && bitAt t.ports i && (bitAt t.flags 1 || decide (t.da = f.dst)) &&
  (bitAt t.flags 2 || decide (t.vid = (f.vlan.map fun v => v % 4096).getD 0)) && (bitAt t.flags 3 || decide (t.pcp = pcp))

/-- A received frame passes the policer of port i, or is discarded and counted (R409). -/
def State.police (s : State) (i : Nat) (f : EthFrame) (len : Nat) : Bool × State :=
  let hit := s.streams.find? fun e => (e.2.map fun t => t.hits i (s.prio i f) f).getD false
  match hit with
  | some (k, some t) =>
    let lack := max 0 (t.lack - (t.rate * (s.edge - t.since) : Nat))
    if t.rate = 0 then (true, s)
    else if (min len t.burst * 32000 : Nat) ≤ (t.burst * 32000 : Nat) - lack then
      (true, { s with streams := Tab.set s.streams none k (some { t with lack := lack + (len * 32000 : Nat), since := s.edge }) })
    else (false, s.dCount (ETH_POL_DROP k) fETH_POL_DROP_COUNT 1)
  | _ =>
    if s.dGet ETH_POL_CFG fETH_POL_CFG_UNMATCHED = 1 then (false, s.dCount ETH_POL_DROP_UNM fETH_POL_DROP_UNM_COUNT 1) else (true, s)

/-! ### Queue monitoring (R411) -/

/-- A quotient whose rounding the spec does not state: a remainder rounds to either side by a free bit (log entry 3). -/
def State.ratio (s : State) (n d : Nat) : Nat × State :=
  if n % d = 0 then (n / d, s) else (n / d + (s.draw 1).1.toNat, (s.draw 1).2)

/-- The sample of a queue at a tick boundary. -/
def State.sampleQueue (s : State) (i q : Nat) : State :=
  let k := s.queue i q
  match k.frames with
  | [] => if s.rd 0 (ETH_Q_MON i q) = 0 then s else s.wr 0 (ETH_Q_MON i q) 0
  | f :: _ =>
    let dep := k.depth
    let (age, s) := s.ratio (5 * (s.edge - f.since)) 2
    let (mon, s) := s.ratio age 100
    let s := s.modQueue i q fun k => { k with
      num := k.num + 1
      dMin := if k.num = 0 then dep else min k.dMin dep
      dSum := k.dSum + dep, dMax := max k.dMax dep
      aMin := if k.num = 0 then age else min k.aMin age
      aSum := k.aSum + age, aMax := max k.aMax age }
    (s.dPut (ETH_Q_MON i q) fETH_Q_MON_DEPTH (min 65535 (ceilDiv dep 64))).dPut (ETH_Q_MON i q) fETH_Q_MON_AGE (min 65535 mon)

/-- The sample of every queue at a tick boundary. -/
def State.sampleQueues (s : State) : State :=
  (s.queues.map fun e => e.1).foldl (fun s k => s.sampleQueue (k / 8) (k % 8)) s

/-- The payload of the QUEUE record of a queue after an interval of `n` ticks. -/
def State.queueTlm (s : State) (i q n : Nat) : List Byte × State :=
  let k := s.queue i q
  let full := decide (n ≤ k.num)
  let u := fun (b : Nat) => leBytes 2 (min 65535 (ceilDiv b 64))
  let (age, s) := s.ratio k.aSum (max 1 n)
  (leBytes 1 i ++ leBytes 1 q ++ leBytes 2 (min 65535 k.drop) ++ u (if full then k.dMin else 0) ++
    leBytes 2 (min 65535 (ceilDiv k.dSum (64 * max 1 n))) ++ u k.dMax ++ zeros 2 ++ leBytes 4 (if full then k.aMin else 0) ++ leBytes 4 age ++
    leBytes 4 k.aMax ++ leBytes 4 k.sent ++ leBytes 4 k.bytes, s)

/-- The intervals of the queues start anew. -/
def State.queueFresh (s : State) : State :=
  (s.queues.map fun e => e.1).foldl (fun s k => s.modQueue (k / 8) (k % 8) fun k => { k with
    drop := 0, sent := 0, bytes := 0, num := 0, dMin := 0, dSum := 0, dMax := 0, aMin := 0, aSum := 0, aMax := 0 }) s

/-! ### Links and writes to the ETH block (R358, R359, R374, R396, R401, R413) -/

/-- TX_CORR and RX_CORR in 1/10 ns by speed and FEC (R374). -/
def corrTenths (speed fec : Nat) : Nat × Nat :=
  match speed, fec with
  | 0, 0 => (284, 416)
  | 0, 1 => (528, 1182)
  | 0, _ => (960, 2214)
  | 1, 0 => (710, 982)
  | 1, _ => (1126, 2624)
  | 2, _ => (2160, 3120)
  | _, _ => (0, 0)

/-- TIM_PORT_CORR(i) in 1/16 ns; the rounding of a value that is no whole number of sixteenths is not stated (log entry 3). -/
def State.portCorr (s : State) (i : Nat) : State :=
  let c := corrTenths (s.speed i) (s.dGet (ETH_PORT_CFG i) fETH_PORT_CFG_FEC)
  let (t, s) := s.ratio (16 * c.1) 10
  let (r, s) := s.ratio (16 * c.2) 10
  s.wr 0 (TIM_PORT_CORR i) (BitVec.ofNat 32 (t * 65536 + r))

/-- A FEC code that the speed allows; OFF keeps any but 3. -/
def fecOk (speed fec : Nat) : Bool :=
  match speed with
  | 1 => decide (fec ≤ 1)
  | 2 => decide (fec = 0)
  | _ => decide (fec ≤ 2)

/-- A write of ETH_PORT_CFG(i). -/
def State.writePortCfg (s : State) (i : Nat) (v : Word) : State :=
  let sp := fETH_PORT_CFG_SPEED.get v
  let mate := s.speed (i + 1 - 2 * (i % 2))
  if fecOk sp (fETH_PORT_CFG_FEC.get v) = false ∨ (sp ≠ 3 ∧ mate ≠ 3 ∧ sp ≠ mate) then s.ethBad
  else
    let s := (s.wr 0 (ETH_PORT_CFG i) (v &&& 0x3B)).portCorr i
    if sp = 3 then s.dPut (ETH_PORT_STAT i) fETH_PORT_STAT_LINK 0 else s

/-- ETH_LINK_CHANGE: the link of port i goes up or down (R392). -/
def doLinkChange (i : Nat) (up : Bool) (s : State) : State :=
  if 4 ≤ i ∨ s.mode = .off ∨ s.mode = .reset ∨ (up = true ∧ s.speed i = 3) then s else s.dPut (ETH_PORT_STAT i) fETH_PORT_STAT_LINK (bitN up)

/-- A write of ETH_PAIR_CFG(j): SUP_INT 0 is discarded. -/
def State.writePairCfg (s : State) (j : Nat) (v : Word) : State :=
  let s := s.dPut (ETH_PAIR_CFG j) fETH_PAIR_CFG_MODE (fETH_PAIR_CFG_MODE.get v)
  let s := if j = 1 then s.dPut (ETH_PAIR_CFG j) fETH_PAIR_CFG_TLM_EN (fETH_PAIR_CFG_TLM_EN.get v) else s
  if fETH_PAIR_CFG_SUP_INT.get v = 0 then s.ethBad else s.dPut (ETH_PAIR_CFG j) fETH_PAIR_CFG_SUP_INT (fETH_PAIR_CFG_SUP_INT.get v)

/-- A write of ETH_CTL_CFG: an ETYPE below 0x0600 is discarded. -/
def State.writeCtlCfg (s : State) (v : Word) : State :=
  let s := s.dPut ETH_CTL_CFG fETH_CTL_CFG_PRIO (fETH_CTL_CFG_PRIO.get v)
  let e := fETH_CTL_CFG_ETYPE.get v
  if e < 0x600 then s.ethBad else s.dPut ETH_CTL_CFG fETH_CTL_CFG_ETYPE e

/-- A bucket keeps its level through a write of its queue's registers. -/
def State.settleBucket (s : State) (i q : Nat) (f : State → State) : State :=
  let level := (s.burst i q : Int) - s.lack i q
  let s := f s
  s.modQueue i q fun k => { k with lack := max 0 ((s.burst i q : Int) - level), since := s.edge }

/-- A write of ETH_Q_SHAPE(i,q): a RATE above the port's speed is discarded. -/
def State.writeShape (s : State) (i q : Nat) (v : Word) : State :=
  if s.speed i ≠ 3 ∧ speedUnits (s.speed i) < fETH_Q_SHAPE_RATE.get v then s.ethBad
  else s.settleBucket i q fun s => s.wr 0 (ETH_Q_SHAPE i q) (v &&& 0x3FFFF)

/-- A write of ETH_Q_SIZE(i,q): a BURST below 1,536 bytes, or LIMIT values above 512 KiB together, discard it whole. -/
def State.writeQSize (s : State) (i q : Nat) (v : Word) : State :=
  let sum := (((List.range 8).filter fun r => decide (r ≠ q)).map fun r => s.dGet (ETH_Q_SIZE i r) fETH_Q_SIZE_LIMIT).foldl (· + ·) 0
  if fETH_Q_SIZE_BURST.get v < 24 ∨ 512 < sum + fETH_Q_SIZE_LIMIT.get v then s.ethBad
  else s.settleBucket i q fun s => s.wr 0 (ETH_Q_SIZE i q) v

end Sys2Proof.Machine
end

