-- ==== Sys2Proof/Machine/Net.lean ====
section
/-! DEFINITION. Ethernet frames of the device: offers, PRP and HSR, control frames, telemetry (R295, R296, R350, R360 to R365, R383 to R388). -/

namespace Sys2Proof.Machine

/-! ### Pairs -/

def State.pair (s : State) (j : Nat) : PairSt := Tab.get s.pairs {} j
def State.modPair (s : State) (j : Nat) (f : PairSt → PairSt) : State := { s with pairs := Tab.set s.pairs {} j (f (s.pair j)) }


/-! ### Offers to the MAC hub (R295, R296, R365) -/

/-- A frame that the shepherds will offer, under the next transmit number. -/
def State.queueTx (s : State) (j : Nat) (f : EthFrame) (ptp : Option (Nat × Nat)) (tlm : Nat) : State :=
  { s with tx := s.tx ++ [⟨s.txNum, j, f, ptp, none, tlm⟩], txNum := (s.txNum + 1) % 2 ^ 32 }

/-- The key of a control-frame slot (R383). -/
def State.ctlKey (s : State) (i : Nat) : Option (List Byte) :=
  match i with
  | 0 => s.keys.ctl0
  | 1 => s.keys.ctl1
  | _ => none

/-- The TAG of a control frame: addresses, Ethertype and body (R383). -/
def ctlTag (key dst src : List Byte) (etype : Nat) (body : List Byte) : List Byte :=
  (hmac256 key (dst ++ src ++ beBytes2 etype ++ body)).take 16

/-- A control frame of the device (R383). -/
def State.ctlFrame (s : State) (key dst : List Byte) (j type slot seq : Nat) (vlan : Option Nat) (desc pay : List Byte) : EthFrame :=
  let e := s.dGet ETH_CTL_CFG fETH_CTL_CFG_ETYPE
  let body := leBytes 1 1 ++ leBytes 1 type ++ leBytes 2 (80 + pay.length) ++ leBytes 1 slot ++ zeros 3 ++ leBytes 8 seq ++
    (desc ++ zeros 64).take 64 ++ pay
  ⟨dst, s.mac j, vlan, e, none, body ++ ctlTag key dst (s.mac j) e body⟩

/-- A completion of a NET command as a REPLY frame to its sender (R387). Its PHASE is not stated (log entry 3). -/
def State.reply (s : State) (r : Nat × Desc × List Byte) : State :=
  let (seq, d, body) := r
  match Tab.get s.netFrom none d.index with
  | none => s
  | some n =>
    let s := { s with netFrom := Tab.set s.netFrom none d.index none }
    match s.ctlKey n.key with
    | none => s
    | some key =>
      let ph := (s.draw 1).1.toNat
      let s := (s.draw 1).2
      s.queueTx 0 (s.ctlFrame key n.src 0 2 n.key seq n.vlan d.bytes (cplBytes body ph)) none 0

/-- The replies that wait become frames. -/
def State.formReplies (s : State) : State := s.replies.foldl State.reply { s with replies := [] }

/-- The hub sends a frame on the ports of its pair under one redundancy sequence number (R362, R365). Whether a port took it, and the state after. -/
def State.hubSend (s : State) (t : TxFrame) : Bool × State :=
  let j := t.pair
  if !s.hasMac j then (false, s)
  else
    let hsr := s.hsr j
    let tag := hsr || decide (t.ptp = none)
    let seq := (s.pair j).seq
    let s := if tag then s.modPair j fun p => { p with seq := (p.seq + 1) % 65536 } else s
    let ports := match t.ptp with
      | some (i, _) => if hsr then [2 * j, 2 * j + 1] else [i]
      | none => [2 * j, 2 * j + 1]
    ports.foldl (fun (r : Bool × State) i =>
      if r.2.portUp i then
        let red := if tag then some (seq, if hsr then i % 2 else 10 + i % 2) else none
        let e := r.2.enqueue i ⟨{ t.frame with red := red }, hsr, t.ptp.map fun p => p.2, r.2.edge, none⟩
        (r.1 || e.1, e.2)
      else r) (false, s)

/-- `a` is at or past `b` modulo 2^32 (R294). -/
def seqPast (a b : Nat) : Bool := decide ((a + 2 ^ 32 - b) % 2 ^ 32 < 2 ^ 31)

/-- Frames that every writing shepherd has offered are forgotten. -/
def State.forgetTx (s : State) : State :=
  let todo := fun (x : Shep) (t : TxFrame) => (s.sh x).writes && !seqPast (s.sh x).offers (t.num + 1)
  { s with tx := s.tx.filter fun t => todo .A t || todo .B t }

/-- A shepherd that offers frames: one that the referee records as ACTIVE or STANDBY, or a fenced one that still does (R295). -/
def ShepSt.offering (h : ShepSt) : Bool := !h.halted && decide (h.role = .active ∨ h.role = .standby ∨ h.role = .detached)

/-- ETH_FRAME_OFFER: shepherd x offers its next frame under the epoch that it stamps. The hub discards an offer that R295 does not let through, sends the first
offer of a number, and compares or counts a later one; `differs`: its CRC-32C differs from the first's (R296, R298). -/
def doOffer (x : Shep) (differs : Bool) (s : State) : State :=
  if (s.sh x).offering = false ∨ bitAt (s.rd x.bank CLK_XING_FENCE).toNat 19 = true then s
  else
    let s := s.formReplies
    match s.tx.find? fun t => decide (t.num = (s.sh x).offers) with
    | none => s
    | some t =>
      let epoch := s.pGet x SHP_STATUS fSHP_STATUS_EPOCH
      let s := s.modSh x fun h => { h with offers := (h.offers + 1) % 2 ^ 32 }
      let s := if !s.hubPasses x epoch then s.hubDrop
        else match t.first with
        | none =>
          let r := s.hubSend t
          let e := (s.edge, epoch)
          let mark := fun (u : TxFrame) => if u.num = t.num then { u with first := some e } else u
          let s := { r.2 with tx := r.2.tx.map mark }
          if r.1 = false ∧ t.tlm ≠ 0 then s.dCount ETH_CTL_STAT fETH_CTL_STAT_TLM_DROP t.tlm else s
        | some e =>
          if s.edge ≤ e.1 + 25600 then
            if differs && decide (e.2 = epoch) then { s.dCount SHP_HUB_DIV fSHP_HUB_DIV_COUNT 1 with divNow := true } else s
          else s.dCount SHP_HUB_DROP fSHP_HUB_DROP_COUNT 1
      s.forgetTx

/-! ### Supervision and tables (R362, R364) -/

/-- SUPERVISION_FRAME: a supervision frame of IEC 62439-3 on pair j every SUP_INT seconds. -/
def doSupervision (j : Nat) (s : State) : State :=
  let p := s.pair j
  if 2 ≤ j ∨ s.edge < p.supDue ∨ s.hasMac j = false ∨ s.active = none then s
  else
    let body := beBytes2 1 ++ beBytes2 p.sup ++ leBytes 1 (if s.hsr j then 23 else 20) ++ leBytes 1 6 ++ s.mac j ++ zeros 2
    let s := s.modPair j fun p => { p with
      sup := (p.sup + 1) % 65536, supDue := s.edge + 400000000 * s.dGet (ETH_PAIR_CFG j) fETH_PAIR_CFG_SUP_INT }
    s.queueTx j ⟨[0x01, 0x15, 0x4E, 0x00, 0x01, 0x00], s.mac j, none, 0x88FB, none, body⟩ none 0

/-- TABLE_ENTRY_FORGET: duplicate entries older than 400 ms and nodes older than 60 s go. -/
def doForget (j : Nat) (s : State) : State :=
  s.modPair j fun p => { p with
    dups := p.dups.filter fun e => decide (s.edge < e.2.2 + 160000000)
    nodes := p.nodes.filter fun e => decide (s.edge < e.2 + 24000000000) }

/-- A list without its oldest entry. -/
def dropOldest {α : Type} (age : α → Nat) (l : List α) : List α :=
  let m := (l.map age).foldl min ((l.map age).headD 0)
  match l.findIdx? fun e => decide (age e = m) with
  | some k => l.take k ++ l.drop (k + 1)
  | none => l

/-- A node is seen (R362, R364). -/
def State.seeNode (s : State) (j : Nat) (src : Nat) : State :=
  let ns := (s.pair j).nodes.filter fun e => decide (e.1 ≠ src)
  let full := decide (512 ≤ ns.length)
  let s := if full then s.dFlag ETH_STATUS fETH_STATUS_TABLE_FULL else s
  s.modPair j fun p => { p with nodes := (src, s.edge) :: (if full then dropOldest (fun e => e.2) ns else ns) }

/-- A frame with redundancy information is a duplicate, or its number is noted: the last 32 of a source (R362, R364). -/
def State.duplicate (s : State) (j src seq : Nat) : Bool × State :=
  let ds := (s.pair j).dups
  match ds.find? fun e => decide (e.1 = src) with
  | some (_, seqs, _) =>
    if seq ∈ seqs then (true, s)
    else
      let rest := ds.filter fun e => decide (e.1 ≠ src)
      (false, s.modPair j fun p => { p with dups := (src, (seq :: seqs).take 32, s.edge) :: rest })
  | none =>
    let full := decide (1024 ≤ ds.length)
    let s := if full then s.dFlag ETH_STATUS fETH_STATUS_TABLE_FULL else s
    (false, s.modPair j fun p => { p with dups := (src, [seq], s.edge) :: (if full then dropOldest (fun e => e.2.2) ds else ds) })

/-! ### Reception (R359 to R364, R409) -/

/-- A frame reaches the receivers of its pair (R361): control frames wait for their check, supervision frames reach the node table, and PTP messages the PTP instance. -/
def State.deliver (s : State) (i : Nat) (f : EthFrame) : State :=
  let j := i / 2
  if f.etype = s.dGet ETH_CTL_CFG fETH_CTL_CFG_ETYPE then { s with rxCtl := s.rxCtl ++ [(j, f)] }
  else if f.etype = 0x88FB then s.seeNode j (leNat ((f.body.drop 6).take 6))
  else if f.etype = 0x88F7 ∧ j = 0 then s
  else s.dCount (ETH_PORT_STAT i) fETH_PORT_STAT_OTHER 1

/-- A frame of an HSR ring goes out of the other port of the pair (R363, R376). -/
def State.forward (s : State) (i : Nat) (f : EthFrame) : State :=
  let o := i + 1 - 2 * (i % 2)
  let event := decide (f.etype = 0x88F7 ∧ leAt f.body 0 1 % 16 ≤ 3)
  if s.portUp o then (s.enqueue o ⟨f, true, none, s.edge, if event then some (s.tb0, i) else none⟩).2 else s

/-- ETH_FRAME_RECEIVE at port i; `fcs`: its FCS is correct. -/
def doFrameReceive (i : Nat) (f : EthFrame) (fcs : Bool) (s : State) : State :=
  let j := i / 2
  let hsr := s.hsr j
  let len := f.len hsr
  if s.portUp i = false ∨ fcs = false then s
  else if 9216 < len then s.modPort i fun p => { p with oversize := p.oversize + 1 }
  else
    let r := s.police i f len
    let s := r.2
    if r.1 = false then s
    else if f.etype = 0x8808 then s.dCount (ETH_PORT_STAT i) fETH_PORT_STAT_PAUSE 1
    else if s.hasMac j = false ∧ f.etype ≠ 0x88F7 then s
    else
      let group := bitAt (leAt f.dst 0 1) 0
      let own := decide (f.dst = s.mac j)
      if hsr && decide (f.src = s.mac j) then s
      else
        let r := match f.red with
          | some (seq, _) => (s.seeNode j (leNat f.src)).duplicate j (leNat f.src) seq
          | none => (false, s)
        let s := r.2
        if r.1 then s
        else
          let s := if own || group then s.deliver i f else s
          if hsr && !own then s.forward i f else s

/-! ### Control frames (R384 to R386) -/

/-- The first check that a control frame fails: 1 FORMAT, 2 AUTH, 3 REPLAY; 0 where it passes. -/
def State.ctlFail (s : State) (j : Nat) (f : EthFrame) : Nat :=
  let b := f.body
  let n := leAt b 2 2
  let slot := leAt b 4 1
  if j ≠ 0 ∨ leAt b 0 1 ≠ 1 ∨ leAt b 1 1 ≠ 1 ∨ n < 80 ∨ b.length < n + 16 ∨ leAt b 5 3 ≠ 0 then 1
  else match s.ctlKey slot with
    | none => 2
    | some key =>
      if (b.drop n).take 16 ≠ ctlTag key f.dst f.src f.etype (b.take n) then 2
      else if leAt b 8 8 ≤ Tab.get s.keySeq 0 slot then 3
      else 0

/-- The commands of NET in the fold (R386). -/
def State.netHeld (s : State) : Nat := ((s.sh s.lead).fold.filter fun f => decide (f.d.ring = 16)).length

/-- CONTROL_FRAME_RECEIVE: the first control frame delivered is checked; an accepted one joins NET in both folds. -/
def doControlFrame (s : State) : State :=
  match s.rxCtl with
  | [] => s
  | (j, f) :: rest =>
    let s := { s with rxCtl := rest }
    if s.active = none then s
    else match s.ctlFail j f with
      | 0 =>
        let b := f.body
        let n := leAt b 2 2
        let slot := leAt b 4 1
        let s := { s with keySeq := Tab.set s.keySeq 0 slot (leAt b 8 8) }
        if 256 ≤ s.netHeld then s.dCount ETH_CTL_STAT fETH_CTL_STAT_FULL 1
        else
          let k := s.netCount % 65536
          let d := descOf 16 k ((b.drop 16).take 64) (some ((b.drop 80).take (n - 80)))
          let s := { s with netCount := s.netCount + 1, netFrom := Tab.set s.netFrom none k (some ⟨f.src, f.vlan, slot⟩) }
          both (fun x s => if (s.sh x).writes then s.modSh x fun h => { h with fold := h.fold ++ [⟨d, s.edge⟩] } else s) s
      | 1 => s.dCount ETH_CTL_STAT fETH_CTL_STAT_FORMAT 1
      | 2 => s.dCount ETH_CTL_STAT fETH_CTL_STAT_AUTH 1
      | _ => s.dCount ETH_CTL_STAT fETH_CTL_STAT_REPLAY 1

/-! ### Telemetry (R350, R388, R411, R492) -/

/-- Telemetry gathers at a tick boundary. -/
def State.tlmTick (s : State) (temp : Int) : State :=
  let due := (s.sRd LOOP_DUE).toNat
  let done := (s.sRd LOOP_DONE).toNat
  let a := s.tlm
  { s with tlm := { a with ticks := a.ticks + 1, due := max a.due due, done := if a.ticks = 0 then done else min a.done done, temp := temp } }

/-- The counters LOOP_OVR_TICKS, LOOP_OVR_SKIPS and CMP_EXT_CNT. -/
def State.tlmCounts (s : State) : Int × Int × Int :=
  ((s.sRd LOOP_OVR_TICKS).toNat, (s.sRd LOOP_OVR_SKIPS).toNat, (s.sRd CMP_EXT_CNT).toNat)

/-- A counter that is set to 0 does not take from what the interval has gathered. -/
def State.tlmCleared (s : State) (f : State → State) : State :=
  let c := s.tlmCounts
  let s := f s
  let n := s.tlmCounts
  { s with tlm := { s.tlm with ovr := s.tlm.ovr - c.1 + n.1, skip := s.tlm.skip - c.2.1 + n.2.1, ext := s.tlm.ext - c.2.2 + n.2.2 } }

/-- A telemetry record (R350): written to the TLM ring of each shepherd that has room and the source enabled, and held for a TELEMETRY frame (R388). -/
def State.putTlm (s : State) (src : Nat) (payload : List Byte) : State :=
  let body := recHead s s.tlmSeq src ++ pad40 payload
  let s := { s with tlmSeq := (s.tlmSeq + 1) % 2 ^ 32 }
  let s := both (fun x s =>
    if (s.sh x).writes && bitAt (s.pGet x HIF_TLM_CFG fHIF_TLM_CFG_SRC) (src - 1) then
      if s.room x 2 then s.putRec x 2 fun i ph => .tlm x i (evtBytes body 0 ph)
      else s.pCount x HIF_CNT_LOST fHIF_CNT_LOST_TLM 1
    else s) s
  if s.dGet (ETH_PAIR_CFG 1) fETH_PAIR_CFG_TLM_EN = 1 then
    { s with tlmSince := if s.tlmWait = [] then s.edge else s.tlmSince, tlmWait := s.tlmWait ++ [evtBytes body 0 0] }
  else s

/-- The LOOP payload (R350). -/
def State.loopTlm (s : State) : List Byte :=
  let a := s.tlm
  let c := s.tlmCounts
  leBytes 4 a.ticks ++ leBytes 4 a.due ++ leBytes 4 a.done ++ leBytes 4 (c.1 - a.ovr).toNat ++ leBytes 4 (c.2.1 - a.skip).toNat ++
    leBytes 4 (c.2.2 - a.ext).toNat

/-- The POWER payload (R492), from the device power and the headroom power measured. -/
def State.powerTlm (s : State) (power headroom : Nat) : List Byte × State :=
  let sum := ((s.sh s.lead).pwr.map fun e => e.2).foldl (· + ·) 0
  let (heat, s) := s.ratio sum 64
  (leBytes 4 power ++ leBytes 4 heat ++ leBytes 4 headroom ++ leBytes 2 (ofSigned 16 s.tlm.temp) ++ leBytes 2 (min 65535 s.tlm.trips) ++
    leBytes 2 (s.rd 0 PWR_RAIL).toNat, s)

/-- TELEMETRY_INTERVAL: INTERVAL ticks after the last records, a record of each enabled source (R350). -/
def doTelemetry (power headroom : Nat) (s : State) : State :=
  let x := s.lead
  let iv := s.pGet x HIF_TLM_CFG fHIF_TLM_CFG_INTERVAL
  let src := s.pGet x HIF_TLM_CFG fHIF_TLM_CFG_SRC
  if s.active = none ∨ s.tick < s.tlmLast + iv then s
  else
    let n := s.tlm.ticks
    let s := if bitAt src 0 then s.putTlm 1 s.loopTlm else s
    let s := if bitAt src 1 then
        (bitsOf 32 (s.rd 0 ETH_TLM_QMASK).toNat).foldl (fun s k =>
          let r := s.queueTlm (k / 8) (k % 8) n
          r.2.putTlm 2 r.1) s
      else s
    let s := if bitAt src 2 then
        let r := s.timeTlm
        r.2.putTlm 3 r.1
      else s
    let s := if bitAt src 3 then
        let r := s.powerTlm power headroom
        r.2.putTlm 4 r.1
      else s
    let c := s.tlmCounts
    { s.queueFresh with tlmLast := s.tick, tlm := { ovr := c.1, skip := c.2.1, ext := c.2.2, temp := s.tlm.temp } }

/-- TELEMETRY_FRAME_SEND: 16 records, or 100 us after the first (R388); without a key in slot 0 the records are dropped. -/
def doTelemetryFrame (s : State) : State :=
  let n := min 16 s.tlmWait.length
  if n = 0 ∨ (n < 16 ∧ s.edge < s.tlmSince + 40000) then s
  else
    let recs := s.tlmWait.take 16
    let s := { s with tlmWait := s.tlmWait.drop 16, tlmSince := s.edge }
    match s.keys.ctl0 with
    | none => s.dCount ETH_CTL_STAT fETH_CTL_STAT_TLM_DROP n
    | some key =>
      let f := s.ctlFrame key (s.macOf ETH_TLM_DST_LO ETH_TLM_DST_HI) 1 3 0 s.netSeq none (leBytes 1 n) recs.flatten
      { s with netSeq := (s.netSeq + 1) % 2 ^ 64 }.queueTx 1 f none n

end Sys2Proof.Machine
end

