-- ==== Sys2Proof/Machine/Xing.lean ====
section
/-! DEFINITION. Droop and stretching, and the fences of the clock crossings (R458, R461, R468, R469). -/

namespace Sys2Proof.Machine

/-! ### Droop and CCLK stretching (R458) -/

/-- DROOP_TRIP: sensors of shepherd x's supply trip, as a mask of its 32 sensors; CCLK runs at half rate. -/
def doDroopTrip (x : Shep) (mask : Nat) (s : State) : State :=
  let m := mask % 2 ^ 32
  if m = 0 ∨ s.mode = .off ∨ s.mode = .reset ∨ (s.sh x).perst = true ∨ (s.sh x).railLow = true then s
  else
    let o := CLK_DROOP_TRIP x.num
    let s := s.wr x.bank o (s.rd x.bank o ||| BitVec.ofNat 32 m)
    let s := { s with tlm := { s.tlm with trips := s.tlm.trips + 1 } }
    let s := s.modSh x fun h => { h with sawStretch := true }
    if (s.sh x).stretched then s
    else (s.pCount x CLK_STRETCH_EVT fCLK_STRETCH_EVT_COUNT 1).modSh x fun h => { h with stretched := true }

/-- STRETCH_HOLD_END: HOLD stretched periods without a trip have passed; `periods`: the stretched periods of the episode. -/
def doStretchEnd (x : Shep) (periods : Nat) (s : State) : State :=
  if (s.sh x).stretched = true ∧ s.pGet x CLK_DROOP_CFG fCLK_DROOP_CFG_HOLD ≤ periods then
    (s.pCount x CLK_STRETCH_CNT fCLK_STRETCH_CNT_COUNT periods).modSh x fun h => { h with stretched := false, sawFull := true }
  else s

/-- A write of CLK_DROOP_CFG: values outside their ranges are discarded. -/
def State.writeDroopCfg (s : State) (x : Shep) (v : Word) : State :=
  let h := fCLK_DROOP_CFG_HOLD.get v
  let t := fCLK_DROOP_CFG_THR.get v
  let s := if h < 64 then s else s.pPut x CLK_DROOP_CFG fCLK_DROOP_CFG_HOLD h
  if t < 20 ∨ 90 < t then s else s.pPut x CLK_DROOP_CFG fCLK_DROOP_CFG_THR t

/-! ### Fences (R468) -/

/-- A strobe that waited reaches its paddock. -/
def State.xingFlow (s : State) (p e : Nat) : State :=
  if e = 256 then s.strobePdk p
  else
    match (s.pdk p).commits.find? fun c => decide (c.dom = e) with
    | none => s
    | some c =>
      let r := s.strobeCommit p c
      if r.2 then r.1.report ⟨0x03, .domain, e, 4, some p, 0⟩ else r.1

/-- What waits at the crossing of paddock p flows. -/
def State.xingOpen (s : State) (p : Nat) : State :=
  let l := Tab.get s.xing [] p
  let errs := Tab.get s.xing [] (16 + p)
  let s := { s with xing := Tab.set (Tab.set s.xing [] p []) [] (16 + p) [] }
  errs.foldl (fun s lo => s.pdkErr p lo) (l.foldl (fun s e => s.xingFlow p e) s)

/-- CLK_XING_FENCE written through shepherd x: bits [15:0] for the paddocks, bits [20:16] for its own groups. What a fence held back flows when it opens: strobes, and
the increment of the servo. -/
def State.writeFence (s : State) (x : Shep) (v : Word) : State :=
  let was := (s.rd 0 CLK_XING_FENCE).toNat
  let pads := v.toNat % 2 ^ s.part.paddocks
  let opened := (List.range s.part.paddocks).filter fun p => bitAt was p && !bitAt pads p
  let s := s.wr 0 CLK_XING_FENCE (BitVec.ofNat 32 pads)
  let held := s.fencedOwn x 17
  let s := s.wr x.bank CLK_XING_FENCE (BitVec.ofNat 32 (fCLK_XING_FENCE_SHP.get v * 65536))
  let s := if held && !s.fencedOwn x 17 && s.servoOn && decide (s.steers x = .tb0) then s.setIncr (s.servo x).incr else s
  opened.foldl State.xingOpen s

end Sys2Proof.Machine
end

