-- ==== Sys2Proof/Machine/Read.lean ====
section
/-! DEFINITION. What a read of BAR0 returns (R5 to R7, R534 to R548): which offsets a function serves, which are absent or holes, and the words whose fields are
formed from the rest of the state when they are read. -/

namespace Sys2Proof.Machine

/-! ### Served, absent and hole offsets (R536 to R538) -/

/-- The function of shepherd x serves what BOOT serves: in BOOT, and while the shepherd itself boots or has no role. -/
def State.bootLike (s : State) (x : Shep) : Bool := decide (s.mode = .boot) || (s.sh x).halted || decide (s.role x = .off)

/-- The load window's offsets (R547). -/
def loadWin (off : Nat) : Bool := decide (0x500000 ≤ off ∧ off < 0x600000)
/-- The table window's offsets (R547). -/
def tableWin (off : Nat) : Bool := decide (0x300000 ≤ off ∧ off < 0x400000)
/-- GLB_LOAD_CTRL, GLB_LOAD_PAGE and the load window (R538). -/
def loadOff (off : Nat) : Bool := loadWin off || decide (off = GLB_LOAD_CTRL ∨ off = GLB_LOAD_PAGE)

/-- The function of shepherd x serves an offset (R470, R481, R538). -/
def State.served (s : State) (x : Shep) (off : Nat) : Bool :=
  if s.mode = .off ∨ s.mode = .reset ∨ (s.sh x).perst = true ∨ (s.sh x).railLow = true then false
  else if loadOff off then s.bootLike x && decide (s.dGet RST_STRAPS fRST_STRAPS_BOOT_SEL = 2)
  else if s.bootLike x then decide (off < 0x1000)
  else if s.lp = .deep then decide (off = PWR_STATUS ∨ off = PWR_WAKE ∨ off < 0x1000)
  else true

/-- The bits of a register word that the part does not have; none: the whole word is absent (R1, R537). -/
def Part.absentBits (p : Part) (r : RegRow) (i : Nat) : Option Nat :=
  let flockBits := fun (w : Nat) => if p.flocks ≤ 32 * w then none else some (2 ^ 32 - 2 ^ min 32 (p.flocks - 32 * w))
  let pads := 65536 - 2 ^ p.paddocks
  match r.kind with
  | .pdk => if p.paddocks ≤ i then none else some 0
  | .flock => if p.flocks ≤ i then none else some 0
  | .flockw => flockBits i
  | .chan => if p.chans ≤ i then none else some 0
  | .sense => if p.senses ≤ i then none else some 0
  | .bnk16 => if p.banks ≤ 16 * i then none else some 0
  | .bnk32 => if p.banks ≤ 32 * i then none else some 0
  | .pin => some 0
  | .none =>
    if r.base = CLK_XING_OVF ∨ r.base = CLK_XING_FENCE ∨ r.base = CLK_XING_BUSY then some pads
    else if r.base = PWR_RAIL ∨ r.base = RST_PDK_READY then some (65536 * pads)
    else some 0

/-- The register that an offset names: a pin word beyond the 608 of a domain is a hole (R222). -/
def regAt (off : Nat) : Option (RegRow × Nat) :=
  match regFind off with
  | some (r, i) => if r.kind = .pin ∧ 608 ≤ i % 1024 then none else some (r, i)
  | none => none

/-! ### Derived fields -/

/-- A list of paddocks as a mask. -/
def maskOf (ps : List Nat) : Nat := (ps.map fun p => 2 ^ p).foldl (· + ·) 0

/-- STEP of a shepherd in GLB_BOOT (R490, R539): the steps of its boot while it boots, 6 while it claims, 7 in the start-up survey, 9 when it is done. -/
def State.bootStepOf (s : State) (x : Shep) : Nat :=
  if (s.sh x).halted then (s.sh x).bootStep
  else if s.mode = .boot then 6
  else if s.mode = .survey ∧ (s.survey.map fun v => decide (v.d = none)) = some true then 7
  else 9

def State.bootWord (s : State) : Word :=
  let one := fun (x : Shep) =>
    let h := s.sh x
    s.bootStepOf x + 16 * (s.role x).code + 128 * bitN h.unrepaired + 256 * (s.pGet x FLD_STATUS fFLD_STATUS_POP_FAULT % 16) +
      4096 * s.pGet x LCS_FW_INFO fLCS_FW_INFO_BOOT_ERR
  BitVec.ofNat 32 (one .A + 65536 * one .B)

def State.pwrWord (s : State) : Word :=
  let sc : Nat := match s.oos with
    | .domain _ => 1
    | _ => 0
  BitVec.ofNat 32 (s.mode.code + 16 * s.lp.code + 64 * bitN s.orphan + 128 * sc + 256 * (s.oos.index % 16) + 65536 * s.napMask)

/-- A paddock is in reset or powered off; the reload comes after the release (R486, RST_PDK_READY). -/
def State.pdkDown (s : State) (p : Nat) : Bool := decide ((s.pdk p).mode = .reset ∨ (s.pdk p).mode = .off)

/-- The link of paddock p to shepherd x is trained and passes checks (PDK_LINK). -/
def State.linkUp (s : State) (x : Shep) (p : Nat) : Bool :=
  decide ((s.pdk p).mode = .run) && decide (s.mode ≠ .off ∧ s.mode ≠ .reset) && !(s.sh x).perst && !(s.sh x).railLow

def State.shpStatusWord (s : State) (x : Shep) : Word :=
  let w := s.rd x.bank SHP_STATUS
  let w := fSHP_STATUS_PEER_ROLE.put w (s.roleShown x.other).code
  let w := fSHP_STATUS_SIMPLEX.put w (bitN s.simplex)
  fSHP_STATUS_ROLE.put w (s.roleShown x).code

/-- SHP_REFEREE (R306, R321): only a shepherd in ACTIVE or STANDBY sends pulses, so the count of any other is not 0. -/
def State.refereeWord (s : State) : Word :=
  let act : Nat := match s.active with
    | some x => x.num
    | none => 2
  let hb := fun (x : Shep) => bitN (decide ((s.sh x).hbMiss = 0 ∧ ((s.sh x).role = .active ∨ (s.sh x).role = .standby)))
  BitVec.ofNat 32 (65536 * s.epoch + 128 * s.dGet RST_STRAPS fRST_STRAPS_PREFER + 4 * act + 2 * hb .B + hb .A)

/-- The words of a slot (R189, R222). -/
def State.slotStatWord (s : State) (i : Nat) : Word :=
  let v := s.slot i
  BitVec.ofNat 32 (v.state + 256 * ((v.plan.map fun p => p.dom).getD 0) + 2 ^ 18 * bitN v.staged + 2 ^ 19 * s.refs i)

def State.slotIdWord (s : State) (i : Nat) : Word := BitVec.ofNat 32 (((s.slot i).plan.map fun p => p.planId).getD 0)

/-- Plan commands that wait for the drover: those in the fold of the lead, and the started ones that it does not work on yet (R218, R222). -/
def State.plansQueued (s : State) : Nat :=
  let ops := fun (op : Nat) => decide (0x28 ≤ op ∧ op ≤ 0x31)
  min 255 (((s.sh s.lead).fold.filter fun f => ops f.d.op).length + s.planQueued)

def State.routeStatWord (s : State) (x : Shep) : Word :=
  let w := s.rd x.bank DRO_ROUTE_STATUS
  let w := fDRO_ROUTE_STATUS_QUEUED.put w s.plansQueued
  let w := fDRO_ROUTE_STATUS_BUILDING.put w (bitN ((s.drover.map fun d => decide (d.phase = 2)).getD false))
  fDRO_ROUTE_STATUS_ROUTING.put w (bitN ((s.drover.map fun d => decide (d.phase = 1)).getD false))

def State.seqStatWord (s : State) (x : Shep) : Word :=
  let w := s.rd x.bank SEQ_STATUS
  let w := fSEQ_STATUS_POOL_USED.put w (s.commits.filter fun c => decide (c.src = 0)).length
  fSEQ_STATUS_ARMED.put w (bitN (s.commits.any fun c => decide (c.src = 2)))

/-- Tick numbers of the oldest and newest frames of a recorder ring (R428). -/
def RecSt.oldest (r : RecSt) : Nat := (r.ring.head?.map fun f => f.tick).getD 0
def RecSt.newest (r : RecSt) : Nat := (r.ring.getLast?.map fun f => f.tick).getD 0

/-- A word of DRV or SNS that a paddock holds reads its reset value while the paddock is in reset, is reloaded or is off (R486). -/
def pdkWordOf (r : RegRow) (i : Nat) : Option Nat :=
  if r.base = 0x100000 ∨ r.base = 0x100004 ∨ r.base = 0x160000 then some (pdkOf i)
  else if r.base = 0x140000 ∨ r.base = 0x140004 then some (i / 1024)
  else if r.base = 0x9100 ∨ r.base = 0x9200 ∨ r.base = 0x9300 then some (i / 4)
  else none

/-- The stored word of a register as function x reads it: both halves of a mixed one (R469, R542). -/
def State.rawWord (s : State) (x : Shep) (r : RegRow) (off : Nat) : Word :=
  match r.scope with
  | .dev => s.rd 0 off
  | .shared => s.rd x.bank off
  | .per => s.rd x.bank off
  | .mixed => (s.rd 0 off &&& 0x0000FFFF) ||| (s.rd x.bank off &&& 0x001F0000)

/-- GLB, CLK, PWR, RST and LCS words that are formed when they are read (R490, R491, R514, R539). -/
def State.sysWord (s : State) (x : Shep) (base : Nat) (w : Word) : Word :=
  if base = GLB_ID then BitVec.ofNat 32 (65536 * s.part.code + s.grade)
  else if base = GLB_VERSION then Config.version &&& 0xFFFF
  else if base = GLB_FITTED then BitVec.ofNat 32 (2 ^ s.part.paddocks - 1)
  else if base = GLB_FUNC then BitVec.ofNat 32 x.num
  else if base = GLB_BOOT then s.bootWord
  else if base = CLK_STATUS then fCLK_STATUS_LOCK.put w (bitN (decide (s.mode ≠ .off ∧ s.mode ≠ .reset)))
  else if base = PWR_STATUS then s.pwrWord
  else if base = PWR_WAKE then fPWR_WAKE_WAKE_N_LEVEL.put w (Config.free 1 s.fresh).toNat
  else if base = RST_PDK_READY then fRST_PDK_READY_IN_RESET.put w (maskOf (s.allPdks.filter s.pdkDown))
  else if base = LCS_STATE then fLCS_STATE_STATE.put w s.fuses.life
  else if base = LCS_KEYS then
    BitVec.ofNat 32 (bitN s.keys.ctl0.isSome + 2 * bitN s.keys.ctl1.isSome + 4 * bitN s.keys.dbgKey.isSome)
  else if base = LCS_STATUS then fLCS_STATUS_LOCKOUT.put w (bitN s.lockout)
  else if base = LCS_FW_INFO then fLCS_FW_INFO_SVN_MIN.put w s.fuses.svnMin
  else w

/-- HIF, TIM and DRV to SRV words that are formed when they are read (R357, R396, R67, R70, R138, R186, R222, R252). -/
def State.unitWord (s : State) (x : Shep) (base i : Nat) (w : Word) : Word :=
  if base = HIF_STATUS then
    fHIF_STATUS_EVT_HELD.put (fHIF_STATUS_CPL_HELD.put w (bitN (decide ((s.sh x).heldCpl ≠ [])))) (bitN (decide ((s.sh x).evtLog ≠ [])))
  else if base = TIM_NOW then BitVec.ofNat 32 s.now
  else if base = TIM_NOW_FRAC then BitVec.ofNat 32 (Tab.get s.latches (0, 0) x.num).1
  else if base = TIM_WRAPS then BitVec.ofNat 32 (Tab.get s.latches (0, 0) x.num).2
  else if base = TIM_TB 1 then BitVec.ofNat 32 (s.tbNow (i + 1))
  else if base = DRV_STATUS then
    fDRV_STATUS_CLEAR_ACTIVE.put (fDRV_STATUS_CLEAR_N_LEVEL.put w (bitN (!s.clearLow && decide (s.mode ≠ .boot)))) (bitN ((List.range s.part.flocks).any s.forced))
  else if base = DRV_PDK_STATUS 0 then fDRV_PDK_STATUS_VHTR_OK.put w (bitN (!(s.pdk i).vhtrOut && decide (s.mode ≠ .boot)))
  else if base = DRV_CH_CTRL 0 then fDRV_CH_CTRL_STATE.put w (s.outState i)
  else if base = SNS_CH_STAT 0 then
    fSNS_CH_STAT_COLLIDE.put (fSNS_CH_STAT_COUNT.put w ((Tab.get s.recv {} (i / 1024)).count (i % 1024))) (bitN (decide ((s.sense i).col ≠ [])))
  else if base = SNS_DITHER 0 then fSNS_DITHER_COLLIDE.put w (bitN (s.inCollision i))
  else if base = SNS_STATUS then fSNS_STATUS_MEAS_BUSY.put w (bitN s.measBusy)
  else if base = LOOP_CTRL 0 + 0x1C then fLOOP_STAT_STATE.put w (s.loopState x i)
  else if base = LOOP_SP_NOW 0 then
    if s.loopKind x i = 1 ∨ s.loopKind x i = 2 then w else fLOOP_SP_NOW_SP_NOW.put w (s.pGet x (LOOP_SP i) fLOOP_SP_TARGET)
  else if base = CMP_XT_QLEVEL then BitVec.ofNat 32 (s.sh x).xt.queue.length
  else if base = DRO_ROUTE_STATUS then s.routeStatWord x
  else if base = DRO_SLOT_STAT 0 then s.slotStatWord i
  else if base = DRO_SLOT_ID 0 then s.slotIdWord i
  else if base = SEQ_STATUS then s.seqStatWord x
  else if base = SEQ_DOM_STAT 0 then s.domStatWord x i
  else if base = SEQ_DOM_NEXT 0 then s.domNextWord i
  else if base = SEQ_TURNOUT 0 0 then s.turnoutWord (i / 4) (i % 4)
  else w

/-- PDK, SHP, FLD, BNK and ALM words that are formed when they are read (R321, R428, R438, R448, R532, R542). -/
def State.fabricWord (s : State) (x : Shep) (base i : Nat) (w : Word) : Word :=
  if base = PDK_LINK 0 then BitVec.ofNat 32 (4 + 2 * bitN (s.linkUp .B i) + bitN (s.linkUp .A i))
  else if base = SHP_STATUS then s.shpStatusWord x
  else if base = SHP_REFEREE then s.refereeWord
  else if base = FLD_REC_STATUS then fFLD_REC_STATUS_STATE.put w (s.sh x).recorder.state
  else if base = FLD_REC_OLDEST then BitVec.ofNat 32 (s.sh x).recorder.oldest
  else if base = FLD_REC_NEWEST then BitVec.ofNat 32 (s.sh x).recorder.newest
  else if base = BNK_PWR 0 then s.bankPower i
  else if base = ALM_STATUS then fALM_STATUS_OPEN.put w (bitN (decide (s.muster.win ≠ none)))
  else w

/-- The word that a register's own rules give. -/
def State.formWord (s : State) (x : Shep) (r : RegRow) (i : Nat) (w : Word) : Word :=
  match pdkWordOf r i with
  | some p => if (s.pdk p).mode ≠ .run then BitVec.ofNat 32 r.reset else s.unitWord x r.base i w
  | none => s.fabricWord x r.base i (s.unitWord x r.base i (s.sysWord x r.base w))

/-- The word that the table window shows (R169): what is beyond the part's tables reads as absent. -/
def State.tableWord (s : State) (x : Shep) (w : Nat) : Word :=
  let v := winWord (s.rd x.bank CMP_WIN_SEL) w
  if !v.present s.part then 0xFFFFFFFF
  else match v with
    | .hys c w => s.rd x.bank (HYS_WORD c w)
    | .rip c w => s.rd x.bank (RIP_WORD c w)
    | .xt e => s.rd x.bank (XT_WORD e)

/-- What a 32-bit read through the function of shepherd x returns (R5, R6, R536 to R538). -/
def State.readWord (s : State) (x : Shep) (off : Nat) : Word :=
  if !s.served x off then 0
  else if tableWin off then s.tableWord x ((off - 0x300000) / 4)
  else if loadWin off then
    let a := s.pGet x GLB_LOAD_PAGE fGLB_LOAD_PAGE_PAGE * 1048576 + (off - 0x500000)
    if s.part.loadBytes ≤ a then 0xFFFFFFFF else Tab.get (s.sh x).loadBuf 0 (a / 4)
  else match regAt off with
    | none => 0
    | some (r, i) =>
      match s.part.absentBits r i with
      | none => 0xFFFFFFFF
      | some m => s.formWord x r i (s.rawWord x r off) &&& ~~~(BitVec.ofNat 32 m) &&& ~~~(BitVec.ofNat 32 r.wo)

/-- One 32-bit read of shepherd x's registers through a path: the state after it, for a read of TIM_NOW latches for that path (R367), and the word. -/
def State.readOne (s : State) (path : Nat) (x : Shep) (off : Nat) : State × Word :=
  if s.served x off = true then
    if off = TIM_NOW then (doTimNowRead path s, s.readWord x off)
    else if off = TIM_NOW_FRAC then (s, BitVec.ofNat 32 (Tab.get s.latches (0, 0) path).1)
    else if off = TIM_WRAPS then (s, BitVec.ofNat 32 (Tab.get s.latches (0, 0) path).2)
    else (s, s.readWord x off)
  else (s, s.readWord x off)

/-- `n` 32-bit reads in ascending address order (R5, R534). -/
def State.readWords (path : Nat) (x : Shep) : Nat → Nat → State → State × List Byte
  | 0, _, s => (s, [])
  | n + 1, off, s =>
    let r := s.readOne path x off
    let q := State.readWords path x n (off + 4) r.1
    (q.1, leBytes 4 r.2.toNat ++ q.2)

/-- A read request of any address and size for shepherd x's registers through a path (R534): one or two bytes that are naturally aligned read their whole word, whole
words read in ascending order, and any other access reads as 0 and sets UNALIGNED. Answers the state after the read and the bytes returned. -/
def State.readRequest (s : State) (path : Nat) (x : Shep) (addr len : Nat) : State × List Byte :=
  if len = 0 ∨ s.mode = .off ∨ s.mode = .reset ∨ (s.sh x).perst = true ∨ (s.sh x).railLow = true then (s, zeros len)
  else if len = 1 ∨ (len = 2 ∧ addr % 2 = 0) then
    let r := State.readWords path x 1 (addr - addr % 4) s
    (r.1, (r.2.drop (addr % 4)).take len)
  else if addr % 4 = 0 ∧ len % 4 = 0 then State.readWords path x (len / 4) addr s
  else (s.pFlag x GLB_STATUS fGLB_STATUS_UNALIGNED, zeros len)

/-- What JTAG reads of shepherd x's registers (R504): at LOCKED LCS_STATE and the challenge, which the always-on block serves, and from the set R on what BAR0
serves. -/
def State.jtagRead (s : State) (x : Shep) (addr len : Nat) : State :=
  if 2 ≤ s.jtagSet then
    let r := s.readRequest 2 x addr len
    r.1.send (.jtag r.2)
  else if s.jtagSet = 1 ∧ len = 4 ∧ (addr = LCS_STATE ∨ (LCS_DBG_CHAL 0 ≤ addr ∧ addr ≤ LCS_DBG_CHAL 15 ∧ addr % 4 = 0)) then
    s.send (.jtag (leBytes 4 (s.sysWord x addr (s.rd 0 addr)).toNat))
  else s

/-- The recorder's frames that JTAG reads from the set T on, in the buffer of R430, from the oldest frame held (R504). -/
def State.jtagFrames (s : State) (x : Shep) (len : Nat) : State :=
  if 3 ≤ s.jtagSet ∧ 64 ≤ len then s.send (.jtag (s.readBuf x 0xFFFFFFFF 0xFFFFFFFF len)) else s

/-- A read through a path. 0 and 1: the functions of Shepherd A and B, whose bytes go to the host. 2 and 5: JTAG, through A and B. 3 and 4: the firmware of A and B,
whose reads of TIM_NOW latch for themselves (R367). 6 and 7: JTAG's readout of the recorders of A and B. -/
def State.readPath (s : State) (path addr len : Nat) : State :=
  match path with
  | 0 =>
    let r := s.readRequest 0 .A addr len
    r.1.send (.read .A addr r.2)
  | 1 =>
    let r := s.readRequest 1 .B addr len
    r.1.send (.read .B addr r.2)
  | 2 => s.jtagRead .A addr len
  | 5 => s.jtagRead .B addr len
  | 6 => s.jtagFrames .A len
  | 7 => s.jtagFrames .B len
  | _ => if path < 5 ∧ addr = TIM_NOW then doTimNowRead path s else s

end Sys2Proof.Machine
end

