-- ==== Sys2Proof/Machine/Write.lean ====
section
/-! DEFINITION. What a write of BAR0 does (R5 to R7, R68, R140, R286, R534 to R549): the checks at its arrival, the tick boundary at which it takes
effect, the access types, and the registers whose write does more than store its fields. -/

namespace Sys2Proof.Machine

/-! ### Access types (R6, R511) -/

/-- The word after a write of `v`: RW and RWL fields store, W1C and W1S bits clear and set where written as 1, everything else keeps its value. -/
def storeWord (r : RegRow) (old v : Word) : Word :=
  let keep : Word := BitVec.ofNat 32 (r.rw ||| r.rwl)
  let w := (old &&& ~~~keep) ||| (v &&& keep)
  (w &&& ~~~(BitVec.ofNat 32 r.w1c &&& v)) ||| (BitVec.ofNat 32 r.w1s &&& v)

/-- The word that a write under SET-UP LOCK carries: the RWL fields keep the value in force (R511, R549). -/
def lockWord (r : RegRow) (locked : Bool) (old v : Word) : Word :=
  let m : Word := BitVec.ofNat 32 r.rwl
  if locked then (v &&& ~~~m) ||| (old &&& m) else v

/-- A register without a rule of its own takes a write by its access types, in every copy that its scope names (R6, R68, R140). -/
def State.storeReg (s : State) (x : Shep) (r : RegRow) (off : Nat) (v : Word) : State :=
  let one := fun (b : Nat) (v : Word) (s : State) => s.wr b off (storeWord r (s.rd b off) v)
  match r.scope with
  | .dev => one 0 v s
  | .shared => one 2 v (one 1 v s)
  | .per => one x.bank v s
  | .mixed => one x.bank (v &&& 0x001F0000) (one 0 (v &&& 0x0000FFFF) s)

/-! ### Registers with rules of their own -/

/-- DRV_CLR_MASK: flocks that a low CLEAR_N now selects are forced, and those it no longer selects resume (R87, R88). -/
def State.writeClrMask (s : State) (w : Nat) (v : Word) : State :=
  let was := (List.range s.part.flocks).filter s.forced
  let s := s.wr 0 (DRV_CLR_MASK w) v
  s.settleAll.resume (was.filter fun f => !s.forced f)

/-- SNS_LINK_ERR(p).CLEAR sets MISSED to 0 (R120). -/
def State.writeLinkErr (s : State) (x : Shep) (p : Nat) (v : Word) : State :=
  if fSNS_LINK_ERR_CLEAR.get v = 1 then s.pPut x (SNS_LINK_ERR p) fSNS_LINK_ERR_MISSED 0 else s

/-- LOOP_STATUS of a shepherd: CLR_CNT sets the overrun counters to 0 (R155). -/
def State.writeLoopStatus (s : State) (x : Shep) (r : RegRow) (v : Word) : State :=
  let s := s.wr x.bank LOOP_STATUS (storeWord r (s.rd x.bank LOOP_STATUS) v)
  if fLOOP_STATUS_CLR_CNT.get v = 1 then s.tlmCleared (fun s => (s.wr x.bank LOOP_OVR_TICKS 0).wr x.bank LOOP_OVR_SKIPS 0) else s

/-- The table window of function x under a selector: hysteresis and ripple words store, coefficients join the queue, and a word beyond the part's tables
discards the write with BAD_WIN (R169 to R171). -/
def State.writeTable (s : State) (sel : Word) (x : Shep) (w : Nat) (v : Word) : State :=
  if !(winWord sel w).present s.part then s.pFlag x CMP_STATUS fCMP_STATUS_BAD_WIN
  else match winWord sel w with
    | .hys c w => s.cmpWord c (HYS_WORD c w) v
    | .rip c w => s.cmpWord c (RIP_WORD c w) v
    | .xt e => s.queueCoef e (v.toNat / 65536)

/-- TIM_SAMPLE_PD keeps the path delay that the next TIM_SAMPLE_OFS presents with its offset (R378). -/
def State.writeSample (s : State) (x : Shep) (v : Word) : State :=
  servoSample x (s.rd x.bank TIM_SAMPLE_PD).toNat (toSigned 32 v.toNat) s

/-- PDK_TEC_CFG(t): a rise of EN sets I to 0; the duty that stays when EN falls is not stated, a free value (R571). -/
def State.writeTec (s : State) (t : Nat) (v : Word) : State :=
  let was := s.dGet (PDK_TEC_CFG t) fPDK_TEC_CFG_EN
  let s := s.wr 0 (PDK_TEC_CFG t) (v &&& 0xCFF0FFFF)
  let s := if was = fPDK_TEC_CFG_EN.get v then s else { s with tecs := Tab.set s.tecs {} t {} }
  if was = 1 ∧ fPDK_TEC_CFG_EN.get v = 0 then
    let (k, s) := s.draw 10
    (s.dPut (PDK_TEC_STAT t) fPDK_TEC_STAT_DUTY (k.toNat % 1001)).send (.tecPwm t (k.toNat % 1001))
  else s

/-- The W1C bits and actions of a word that paddock p holds act on nothing while the paddock is in reset or reloaded (R486). -/
def State.padActs (s : State) (p : Nat) : Bool := decide ((s.pdk p).mode = .run)

/-- Writes of the GLB to LCS, HIF and TIM blocks with rules of their own; none: by the access types. -/
def State.writeSys (s : State) (x : Shep) (r : RegRow) (i off : Nat) (v : Word) : Option State :=
  if off = GLB_LOAD_CTRL then some (s.writeLoadCtrl x v)
  else if off = GLB_LOAD_PAGE then some (s.writeLoadPage x v)
  else if off = CLK_DROOP_CFG then some (s.writeDroopCfg x v)
  else if off = CLK_XING_FENCE then some (s.writeFence x v)
  else if off = PWR_WAKE then some (s.writeWake v)
  else if off = RST_CTRL then some (s.writeRstCtrl x v)
  else if off = RST_WDG then some (s.writeWdg x v)
  else if off = LCS_LOCK then some (if fLCS_LOCK_SET.get v = 1 then s.setLock else s)
  else if r.base = PDK_TEC_CFG 0 then some (s.writeTec i v)
  else if off = HIF_POLL then some (s.writePoll x v)
  else if off = HIF_TLM_CFG then some (s.writeTlmCfg x v)
  else if r.base = HIF_RING_CFG 0 then some (s.writeRingCfg x i v)
  else if r.base = HIF_CMD_BASE_LO 0 then some (s.writeCmdBase x i off (v &&& 0xFFFFF000))
  else if r.base = HIF_CMD_BASE_HI 0 then some (s.writeCmdBase x i off v)
  else if r.base = HIF_CMD_CFG 0 then some (s.writeCmdCfg x i v)
  else if off = TIM_INCR then some (s.writeIncr v)
  else if off = TIM_SERVO_CFG then some (s.writeServoCfg v)
  else if off = TIM_STEP_THR then some (s.writeStepThr v)
  else if off = TIM_PPS_CFG then some (s.writePpsCfg v)
  else if off = TIM_SAMPLE_PD then some (s.wr x.bank off v)
  else if off = TIM_SAMPLE_OFS then some (s.writeSample x v)
  else none

/-- Writes of the ETH block with rules of their own. -/
def State.writeEth (s : State) (r : RegRow) (i off : Nat) (v : Word) : Option State :=
  if off = ETH_CTL_CFG then some (s.writeCtlCfg v)
  else if r.base = ETH_PAIR_CFG 0 then some (s.writePairCfg i v)
  else if r.base = ETH_PORT_CFG 0 then some (s.writePortCfg i v)
  else if r.base = ETH_Q_SHAPE 0 0 then some (s.writeShape (i / 8) (i % 8) v)
  else if r.base = ETH_Q_SIZE 0 0 then some (s.writeQSize (i / 8) (i % 8) v)
  else none

/-- Writes of the DRV and SNS blocks and windows with rules of their own. -/
def State.writeAnalog (s : State) (x : Shep) (r : RegRow) (i off : Nat) (v : Word) : Option State :=
  if r.base = DRV_CLR_MASK 0 then some (s.writeClrMask i v)
  else if r.base = DRV_FLOCK_STROBE 0 then some (s.softStrobe i v)
  else if r.base = DRV_PDK_STATUS 0 then some (if s.padActs i then s.storeReg x r off v else s)
  else if r.base = DRV_FLOCK_CFG 0 then some (s.writeFlockCfg i v)
  else if r.base = DRV_FLOCK_CLR_V 0 ∨ r.base = DRV_FLOCK_CLR_I 0 then some (s.storeReg x r off v).settleAll
  else if r.base = DRV_CH_CTRL 0 then some (s.writeDrvCtrl i v)
  else if r.base = SNS_LINK_ERR 0 then some (s.writeLinkErr x i v)
  else if r.base = SNS_CH_CTRL 0 then some (s.writeSnsCtrl i v)
  else if r.base = SNS_DITHER 0 then some (s.writeDither i (if s.padActs (pdkOf i) then v else fSNS_DITHER_CLIP.put v 0))
  else none

/-- Writes of the LOOP and CMP blocks and windows with rules of their own. -/
def State.writeControl (s : State) (x : Shep) (r : RegRow) (i off : Nat) (v : Word) : Option State :=
  if off = LOOP_STATUS then some (s.writeLoopStatus x r v)
  else if r.base = LOOP_CTRL 0 then some (s.writeLoopCtrl i v)
  else if r.base = LOOP_SP 0 then some (s.writeLoopSp i v)
  else if r.base = LOOP_MON 0 then some (s.writeLoopMon i v)
  else if r.base = LOOP_CMP_CTRL 0 then some (s.writeCmpSlot i v)
  else if off = CMP_CFG then some (s.writeCmpPeriod v)
  else if off = CMP_WIN_SEL then some (s.writeWinSel x v)
  else if off = CMP_STAGE_CTRL then some (s.writeStageCtrl v)
  else if off = CMP_FIT_CTRL then some (s.writeFitCtrl v)
  else if off = CMP_FIT_BUDGET then some (s.writeFitBudget v)
  else if r.base = CMP_CH_CTRL 0 then some (s.writeCmpCtrl i v)
  else if r.base = CMP_RIP_CFG 0 then some (s.writeRipCfg i v)
  else none

/-- Writes of the DRO, SEQ, SRV, SHP, FLD and ALM blocks and windows with rules of their own. -/
def State.writeFabric (s : State) (x : Shep) (r : RegRow) (i off : Nat) (v : Word) : Option State :=
  if r.base = DRO_POS 0 then
    let s := s.sWr off v
    some { s with posWr := i :: s.posWr }
  else if off = SEQ_CFG then some (s.writeMargin v)
  else if off = SEQ_ARM_CTRL then some (s.writeArm v)
  else if off = SRV_CFG ∨ off = SRV_CFG2 then some (s.writeSrvCfg off v)
  else if off = SHP_CTRL then some (s.writeShpCtrl x v)
  else if off = SHP_CFG then some (s.writeShpCfg x v)
  else if off = SHP_HOST_DIV then some (s.writeHostDiv x v)
  else if off = FLD_LIB_CFG ∨ off = FLD_FITLOG_CFG then some (s.writeLayout off v)
  else if off = ALM_CFG then some (s.writeAlmCfg v)
  else if off = ALM_STATUS then some (s.writeAlmStatus v)
  else if off = ALM_PARKED then some (s.writeAlmParked v)
  else if r.base = ALM_CLEARED 0 then some (s.releaseFlocks i v.toNat)
  else if off = ALM_INJECT then some (s.writeInject v)
  else if r.base = ALM_CLASS 0 then some (s.writeAlmClass i v)
  else none

/-- The first of the four groups of registers that has a rule for a write. -/
def State.writeOwnRule (s : State) (x : Shep) (r : RegRow) (i off : Nat) (v : Word) : Option State :=
  ((((s.writeSys x r i off v).or (s.writeEth r i off v)).or (s.writeAnalog x r i off v)).or (s.writeControl x r i off v)).or
    (s.writeFabric x r i off v)

/-- A write under SET-UP LOCK is discarded whole where the register has no field but RWL ones (R6): its own rule does not run. -/
def lockedOut (r : RegRow) (locked : Bool) : Bool :=
  locked && decide (r.rwl ≠ 0 ∧ r.rw = 0 ∧ r.w1c = 0 ∧ r.w1s = 0 ∧ r.wo = 0)

/-- A write through the function of shepherd x takes effect; `sel` is CMP_WIN_SEL of that function as the write arrived (R169). -/
def State.applyReg (s : State) (x : Shep) (off : Nat) (v : Word) (sel : Word) : State :=
  if tableWin off then s.writeTable sel x ((off - 0x300000) / 4) v
  else if loadWin off then s.writeLoadWin x (off - 0x500000) v
  else match regAt off with
    | none => s
    | some (r, i) =>
      if lockedOut r s.locked then s else
      let v := lockWord r s.locked (s.rawWord x r off) v
      (s.writeOwnRule x r i off v).getD (s.storeReg x r off v)

/-! ### Arrival (R68, R140, R286, R305, R534 to R538) -/

/-- The function of shepherd x is that of a SYNCING or DETACHED shepherd (R286). -/
def State.apart (s : State) (x : Shep) : Bool := decide (s.role x = .syncing ∨ s.role x = .detached)

/-- The write waits for its tick boundary. -/
def State.queueWrite (s : State) (x : Shep) (off : Nat) (v : Word) (due : Nat) : State :=
  { s with writes := s.writes ++ [⟨x, off, v, due, s.edge, s.rd x.bank CMP_WIN_SEL⟩] }

/-- What a register's scope lets through of a write of a SYNCING or DETACHED shepherd: its own words and its own half of a mixed one. -/
def State.ownPart (s : State) (r : RegRow) (off : Nat) (v : Word) : Option Word :=
  match r.scope with
  | .dev => none
  | .shared => none
  | .per => some v
  | .mixed => some ((v &&& 0xFFFF0000) ||| (if off = CLK_XING_FENCE then s.rd 0 off &&& 0xFFFF else 0))

/-- A 32-bit write reaches the function of shepherd x. RELOCK acts at once (R506). -/
def State.arrive (s : State) (x : Shep) (off : Nat) (v : Word) : State :=
  if !s.served x off then s
  else if loadWin off then s.queueWrite x off v s.dueTick
  else if tableWin off then if s.apart x then s.badCtrl x else s.queueWrite x off v s.dueTick
  else match regAt off with
    | none => s.pFlag x GLB_STATUS fGLB_STATUS_HOLE_WR
    | some (r, i) =>
      match s.part.absentBits r i with
      | none => s.pFlag x GLB_STATUS fGLB_STATUS_ABSENT_WR
      | some m =>
        let gone : Word := BitVec.ofNat 32 m
        let s := if v &&& gone = 0 then s else s.pFlag x GLB_STATUS fGLB_STATUS_ABSENT_WR
        let v := v &&& ~~~gone
        if s.apart x then
          match s.ownPart r off v with
          | none => s.badCtrl x
          | some w => (if r.scope = .mixed ∧ v &&& 0xFFFF ≠ 0 then s.badCtrl x else s).queueWrite x off w s.dueTick
        else if off = LCS_DBG then s.writeDbg v
        else s.queueWrite x off v s.dueTick

/-- The words of a request that covers whole words, in ascending address order. -/
def State.arriveWords (x : Shep) : Nat → List Word → State → State
  | _, [], s => s
  | off, v :: r, s => State.arriveWords x (off + 4) r (s.arrive x off v)

/-- The little-endian words of a byte list, whole words only. -/
def leWords : List Byte → List Word
  | a :: b :: c :: d :: r => BitVec.ofNat 32 (leNat [a, b, c, d]) :: leWords r
  | _ => []

/-- A write request of any size and address reaches the function of shepherd x (R534, R535): whole words arrive at one moment; fewer than 4 bytes within a
word are discarded with NARROW_WR, also behind whole words; anything else is discarded with UNALIGNED. -/
def State.writeRequest (s : State) (x : Shep) (addr : Nat) (bs : List Byte) : State :=
  if bs = [] ∨ s.mode = .off ∨ s.mode = .reset ∨ (s.sh x).perst = true ∨ (s.sh x).railLow = true then s
  else if addr % 4 + bs.length ≤ 3 ∨ (bs.length < 4 ∧ addr % 4 + bs.length ≤ 4) then s.pFlag x GLB_STATUS fGLB_STATUS_NARROW_WR
  else if addr % 4 ≠ 0 then s.pFlag x GLB_STATUS fGLB_STATUS_UNALIGNED
  else
    let s := State.arriveWords x addr (leWords bs) s
    if bs.length % 4 = 0 then s else s.pFlag x GLB_STATUS fGLB_STATUS_NARROW_WR

/-! ### The boundary -/

/-- A write that reaches the register file only when a fence of shepherd x opens: a device-wide one while CLK_XING_FENCE bit 18 is set (R467, R468). -/
def State.heldByFence (s : State) (w : PendWrite) : Bool :=
  bitAt (s.rd w.sh.bank CLK_XING_FENCE).toNat 18 &&
  match regAt w.off with
  | some (r, _) => decide (r.scope = .dev)
  | none => false

/-- A write through the active shepherd's function, u, stands behind one through the other function, w (R68, R140): both write one shared word or one word of the
table window; or one device-wide word, which they reached in one cycle (log entry 73). -/
def State.standsBehind (s : State) (u w : PendWrite) : Bool :=
  decide (u.sh = s.lead) &&
  if tableWin w.off then
    tableWin u.off && decide (winWord u.sel ((u.off - 0x300000) / 4) = winWord w.sel ((w.off - 0x300000) / 4))
  else decide (u.off = w.off) && (sharedOff w.off || decide (u.edge = w.edge))

/-- A write takes its place behind those before it, but in front of the active shepherd's writes that stand behind it. -/
def State.placeWrite (s : State) (ws : List PendWrite) (w : PendWrite) : List PendWrite :=
  if w.sh = s.lead then ws ++ [w]
  else ws.takeWhile (fun u => !s.standsBehind u w) ++ w :: ws.dropWhile (fun u => !s.standsBehind u w)

/-- The writes of a boundary in the order in which they are applied (R68, R140, R169, R511): arrival order, but for words that both functions wrote, of which the
active shepherd's stands behind; the lock after all others. -/
def State.writeOrder (s : State) (ws : List PendWrite) : List PendWrite :=
  let lock := fun (w : PendWrite) => decide (w.off = LCS_LOCK)
  (ws.filter fun w => !lock w).foldl s.placeWrite [] ++ ws.filter lock

/-- The writes that are due at the present boundary take effect. -/
def State.applyDue (s : State) : State :=
  let due := s.writes.filter fun w => decide (w.due ≤ s.tick) && !s.heldByFence w
  let rest := s.writes.filter fun w => !(decide (w.due ≤ s.tick) && !s.heldByFence w)
  (s.writeOrder due).foldl (fun s w => s.applyReg w.sh w.off w.val w.sel) { s with writes := rest }

end Sys2Proof.Machine
end

