-- ==== Sys2Proof/Machine/Package.lean ====
section
/-! DEFINITION. The pads of the fabric site, the states of the pins, the SMBus target and the site thermal loops (R552, R553, R558, R569 to R572). -/

namespace Sys2Proof.Machine

/-! ### The fabric site (R552, R553) -/

/-- The centre of the pad in a row and column of paddock p's tile: x and y in units of 1 um from the fiducial corner. -/
def padAt (p row col : Nat) : Nat × Nat := (3200 * (p % 4) + 50 * col + 25, 4000 * (p / 4) + 50 * row + 25)

/-- Row and column of a drive channel's pad, and of a sense channel's. -/
def drivePad (n : Nat) : Nat × Nat := (5 * (n % 2048 / 128) + n % 128 / 64, n % 64)
def sensePad (m : Nat) : Nat × Nat := (5 * (m % 1024 / 64) + 3, m % 64)

/-- Where the pads lie. -/
def driveAt (n : Nat) : Nat × Nat := padAt (n / 2048) (drivePad n).1 (drivePad n).2
def senseAt (m : Nat) : Nat × Nat := padAt (m / 1024) (sensePad m).1 (sensePad m).2

/-! ### Pins (R528, R558) -/

/-- The pins and pads of R558. -/
inductive Pin where
  | drive (c : Nat)
  | sense (m : Nat)
  | shield (p : Nat)
  | vpark (p : Nat)
  | input
  | faultN
  | ppsOut
  | tecPwm (t : Nat)
  | smbSda
  | smbAlertN
  | tdo
  | flash
  | pcieTx (x : Shep)
  | ethTx (i : Nat)
  | ddr (x : Shep)
  deriving DecidableEq, Repr

/-- What a pin shows: high-impedance, a pad bled to VPARK, a level that the board sets, an input, driven, low or high, a sense pad held at VBIAS (in units of 12.5 mV),
a shield at analog ground, an open-drain line released or served, and the conditions of a link and of a fold. -/
inductive PinState where
  | highZ | bleed | board | input | driven | low | high
  | atBias (bias : Nat)
  | ground | released | served | shifting | unpowered | idle | training | link | resetLow | running | selfRefresh
  deriving DecidableEq, Repr

/-- The state of a pin (R558). -/
def State.pinState (s : State) (pin : Pin) : PinState :=
  let off := decide (s.mode = .off)
  let down := off || decide (s.mode = .reset)
  let boot := decide (s.mode = .boot)
  let deep := decide (s.lp = .deep)
  match pin with
  | .drive c => if s.driven c then .driven else .bleed
  | .sense m => if down || deep then .highZ else .atBias (if boot then 0 else s.dGet (SNS_CH_CTRL m) fSNS_CH_CTRL_BIAS)
  | .shield _ => if down || deep then .highZ else .ground
  | .vpark _ => .board
  | .input => .input
  | .faultN => if faultN s then .low else .highZ
  | .ppsOut =>
    if down || boot || decide (s.sGet TIM_PPS_CFG fTIM_PPS_CFG_OUT_EN = 0) then .highZ else if s.ppsLevel then .high else .low
  | .tecPwm t => if down || decide (s.dGet (PDK_TEC_CFG t) fPDK_TEC_CFG_EN = 0) then .highZ else .driven
  | .smbSda => if down then .released else .served
  | .smbAlertN => if down then .released else if faultN s then .low else .released
  | .tdo => if down then .highZ else .shifting
  | .flash => if down || deep then .highZ else if boot || s.busyWith .fwWrite then .driven else .highZ
  | .pcieTx _ => if off then .unpowered else if down then .idle else if boot then .training else .link
  | .ethTx i => if off then .unpowered else if down || boot || decide (s.speed i = 3) then .idle else .running
  | .ddr _ => if off then .unpowered else if down then .resetLow else if boot then .training else if deep then .selfRefresh else .running

/-! ### SMBus (R569) -/

/-- SMBUS_READ: the bytes that a read command at address 0x5A returns; every other command is not acknowledged. `power`: the device power in mW over the last
1,024 ticks, as a shepherd computes it (R492). -/
def doSmbus (cmd power : Nat) (s : State) : State :=
  let runs := (s.sh .A).writes || (s.sh .B).writes
  if s.mode = .off ∨ s.mode = .reset then s
  else match cmd with
    | 1 => s.send (.smbus (leBytes 4 (s.sysWord .A GLB_ID 0).toNat))
    | 2 => s.send (.smbus (leBytes 4 s.pwrWord.toNat))
    | 3 => s.send (.smbus (leBytes 2 (ofSigned 16 s.tlm.temp)))
    | 4 => s.send (.smbus (leBytes 4 (if runs then power else 0)))
    | 5 => s.send (.smbus (leBytes 1 ((s.formWord s.lead ⟨ALM_STATUS, 1, 4, .shared, .none, 0, 0, 0, 0, 0, 0⟩ 0 (s.sRd ALM_STATUS)).toNat % 8) ++
        leBytes 1 s.fuses.life))
    | _ => s

/-! ### The site thermal loops (R571) -/

/-- I of a site loop after a measurement with error `e`, in 1/4096 per mille (R571). -/
def tecInt (i ki : Nat) (e : Int) : Nat := (clampI 0 4096000 ((i : Int) + 2 ^ ki * e)).toNat

/-- The unclamped duty in 1/4096 per mille: 2^(KP - 8) e + I. -/
def tecSum (kp i : Nat) (e : Int) : Int := 2 ^ (kp + 4) * e + i

/-- The duty in per mille: rounded with halves up, clamped. -/
def tecDuty (sum : Int) : Nat := (clampI 0 1000 (roundHalfUp sum 4096)).toNat

/-- The error of a site loop (R571). -/
def tecErr (setp dir meas : Nat) : Int := if dir = 1 then (setp : Int) - meas else (meas : Int) - setp

/-- A site loop stops on an open or short thermistor: duty and I are 0, the flag sets and a NOTICE names the loop. -/
def State.tecFault (s : State) (t : Nat) (f : Fld) : State :=
  let s := { s with tecs := Tab.set s.tecs {} t { fault := true, due := s.tick + 1024 } }
  let s := (s.dPut (PDK_TEC_STAT t) fPDK_TEC_STAT_DUTY 0).dPut (PDK_TEC_STAT t) fPDK_TEC_STAT_SAT 0
  let s := (s.dFlag (PDK_TEC_STAT t) f).notice (PDK_TEC_STAT t) f.lo t []
  s.send (.tecPwm t 0)

/-- A site loop updates its duty. -/
def State.tecUpdate (s : State) (t meas : Nat) : State :=
  let w := s.rd 0 (PDK_TEC_CFG t)
  let e := tecErr (fPDK_TEC_CFG_SETPOINT.get w) (fPDK_TEC_CFG_DIR.get w) meas
  let i := tecInt (Tab.get s.tecs {} t).i (fPDK_TEC_CFG_KI.get w) e
  let sum := tecSum (fPDK_TEC_CFG_KP.get w) i e
  let duty := tecDuty sum
  let s := { s with tecs := Tab.set s.tecs {} t { i := i, due := s.tick + 1024 } }
  let s := s.dPut (PDK_TEC_STAT t) fPDK_TEC_STAT_DUTY duty
  let s := s.dPut (PDK_TEC_STAT t) fPDK_TEC_STAT_SAT (bitN (decide (roundHalfUp sum 4096 ≠ (duty : Int))))
  s.send (.tecPwm t duty)

/-- TEC_LOOP_UPDATE of loop t with a thermistor measurement in units of 2 ohm. After a fault the loop resumes with the measurement that follows 16 consecutive
ones in range. -/
def doTecUpdate (t meas : Nat) (s : State) : State :=
  let k := Tab.get s.tecs {} t
  if 4 ≤ t ∨ s.dGet (PDK_TEC_CFG t) fPDK_TEC_CFG_EN = 0 ∨ s.mode = .off ∨ s.mode = .reset ∨ s.tick < k.due then s
  else
    let s := s.dPut (PDK_TEC_STAT t) fPDK_TEC_STAT_MEAS (min meas 0xFFFF)
    if 0xFFFF ≤ meas then s.tecFault t fPDK_TEC_STAT_OPEN
    else if meas < 50 then s.tecFault t fPDK_TEC_STAT_SHORT
    else if k.fault ∧ k.good < 16 then
      { s with tecs := Tab.set s.tecs {} t { k with good := k.good + 1, due := s.tick + 1024 } }
    else s.tecUpdate t meas

end Sys2Proof.Machine
end

