-- ==== Sys2Proof/Machine/Lists.lean ====
section
/-! DEFINITION. The list opcodes and the fit descriptors (R94, R118, R153, R180 to R184, R338 to R341): each is checked whole, then firmware's writes
take effect at the boundaries that follow its start. -/

namespace Sys2Proof.Machine

/-! ### Records -/

/-- The records of a list of records of one size. -/
def listRecs (size : Nat) (d : Desc) : List (List Byte) := records size d.pay (d.len / size)

/-- The first failure of a list: LEN, the reserved bytes of a record (`rsv`), a number outside the part (`out`), a field value (`bad`). -/
def listFail (size : Nat) (d : Desc) (rsv out bad : List Byte → Bool) : Option Nat :=
  let rs := listRecs size d
  if d.len % size ≠ 0 ∨ (rs.any rsv) = true then some 0x02
  else if (rs.any out) = true then some 0x04
  else if (rs.any bad) = true then some 0x05
  else none

/-- The channel or monitor number that begins a record. -/
def recNum (r : List Byte) : Nat := leAt r 0 2

/-- Bytes `i` to `i + n - 1` of a record are not all 0. -/
def recRsv (r : List Byte) (i n : Nat) : Bool := decide (leAt r i n ≠ 0)

/-- A list starts: a failure completes at once, else the job goes on from the boundary at which firmware's first writes take effect. -/
def State.startList (s : State) (d : Desc) (k : JobKind) (fail : Option Nat) (nums : List Nat) : State :=
  match fail with
  | some c => s.completeHif d c
  | none => s.addJob ⟨d, k, 0, s.dueTick, nums⟩

/-- A list ends with every record applied. -/
def State.endList (s : State) (j : Job) (n : Nat) : State := (s.endJob j).complete j.d 0 0 (listResult n none)

/-- The job's next phase, a number of boundaries later. -/
def State.nextPhase (s : State) (j : Job) (k : Nat) : State := s.setJob j { j with phase := j.phase + 1, due := s.tick + k }

/-! ### Loops held for a list (R94, R153) -/

/-- LOOP_CTRL(c).HOLD written by firmware. -/
def State.putHold (s : State) (b : Bool) (c : Nat) : State := s.writeLoopCtrl c (fLOOP_CTRL_HOLD.put (s.sRd (LOOP_CTRL c)) (bitN b))

/-- The channels of a list whose loops are held already. -/
def State.heldOf (s : State) (cs : List Nat) : List Nat := cs.filter s.loopHold

/-- The loops of a list are held. -/
def State.holdAll (s : State) (cs : List Nat) : State := cs.foldl (fun s c => s.putHold true c) s

/-- The loops of a list that were not held before are released. -/
def State.freeAll (s : State) (cs before : List Nat) : State := (cs.filter fun c => decide (c ∉ before)).foldl (fun s c => s.putHold false c) s

/-- Firmware writes LOOP_INT with the seed of a position, which changes only that integral (R143). -/
def State.seedInt (s : State) (c p : Nat) : State :=
  both (fun x s => s.wr x.bank (LOOP_INT c) (BitVec.ofNat 32 (ofSigned 32 (Sys2Proof.Machine.seedInt (s.loopPol x c) p)))) s

/-! ### SETUP (R338, R339) -/

/-- The check of one SETUP record. -/
def State.setupFail (s : State) (r : List Byte) : Option Nat :=
  let off := leAt r 0 4
  let v : Word := BitVec.ofNat 32 (leAt r 4 4)
  if tableWin off then (if off % 4 = 0 then none else some 0x04)
  else match regAt off with
    | none => some 0x04
    | some (w, i) =>
      let per := fCMP_RIP_CFG_PERIOD.get v
      if s.part.absentBits w i = none ∨ loadOff off = true then some 0x04
      else if (off = CMP_CFG ∧ (fCMP_CFG_PERIOD.get v < 32 ∨ 1024 < fCMP_CFG_PERIOD.get v)) ∨ (w.base = CMP_RIP_CFG 0 ∧ 1 ≤ per ∧ per ≤ 31) ∨
          (off = CMP_FIT_CTRL ∧ 0x4000 < fCMP_FIT_CTRL_MU.get v) then some 0x05
      else if s.locked = true ∧ w.rwl ≠ 0 then some 0x0A
      else none

/-- The functions through which firmware writes an offset: each writing shepherd its own copy of a word that is held separately, else the lead alone. -/
def State.writers (s : State) (off : Nat) : List Shep :=
  match regAt off with
  | some (r, _) =>
    if r.scope = .per ∨ r.scope = .mixed then [Shep.A, Shep.B].filter fun x => (s.sh x).writes else [s.lead]
  | none => [s.lead]

/-- Firmware's write of one word: it takes effect as a host write that arrives now (R68, R140, R356). -/
def State.fwWrite (s : State) (off : Nat) (v : Word) : State :=
  (s.writers off).foldl (fun s x => s.queueWrite x off v s.dueTick) s

/-- SETUP. -/
def startSetup (d : Desc) (s : State) : State :=
  let rs := listRecs 8 d
  match if d.len % 8 ≠ 0 then some 0x02 else rs.findSome? s.setupFail with
  | some c => s.completeHif d c
  | none =>
    let s := rs.foldl (fun s r => s.fwWrite (leAt r 0 4) (BitVec.ofNat 32 (leAt r 4 4))) s
    s.addJob ⟨d, .setup, 0, s.dueTick, []⟩

/-! ### SET_SPAN and PARK (R94) -/

/-- SET_SPAN. -/
def startSetSpan (d : Desc) (s : State) : State :=
  let cs := (listRecs 8 d).map recNum
  s.startList d .setSpan (listFail 8 d (fun r => recRsv r 3 1 || recRsv r 6 2) (fun r => decide (s.part.chans ≤ recNum r))
    (fun r => decide (6 = leAt r 2 1 ∨ 8 ≤ leAt r 2 1))) (s.heldOf cs)

/-- The new span and park code of a record in one write. -/
def State.writeSpanRec (s : State) (r : List Byte) : State :=
  let c := recNum r
  let w := s.rd 0 (DRV_CH_CTRL c)
  s.writeDrvCtrl c (fDRV_CH_CTRL_PARK_CODE.put (fDRV_CH_CTRL_SPAN.put w (leAt r 2 1)) (leAt r 4 2))

/-- A NOTICE for a record whose final state is neither PARKED nor DRIVEN (R340). -/
def State.spanOutcome (s : State) (c : Nat) : State :=
  if s.outState c = 4 ∨ s.outState c = 5 then s else s.notice 0xFFFFFFFF 0 c []

/-- SET_SPAN at a boundary: hold, write, wait for the end of every span change, seed and release. -/
def State.stepSetSpan (s : State) (j : Job) : State :=
  let rs := listRecs 8 j.d
  let cs := rs.map recNum
  match j.phase with
  | 0 => (s.holdAll cs).nextPhase j 1
  | 1 => (rs.foldl State.writeSpanRec s).nextPhase j 1
  | 2 => if cs.all fun c => decide (s.outState c ≠ 2) then s.nextPhase j 1 else s
  | _ =>
    let s := cs.foldl (fun s c => s.seedInt c (s.parkCode c)) s
    let s := cs.foldl State.spanOutcome (s.freeAll cs j.nums)
    let last := match cs.getLast? with
      | some c => s.outState c
      | none => 0xFF
    (s.endJob j).complete j.d 0 0 (leBytes 4 cs.length ++ leBytes 3 0xFFFFFF ++ leBytes 1 last)

/-- PARK with either ACTION. -/
def startParkList (d : Desc) (s : State) : State :=
  let fail := (listFail 4 d (fun r => recRsv r 2 2) (fun r => decide (s.part.chans ≤ recNum r)) fun _ => false).or
    (if 2 ≤ d.in1 32 then some 0x05 else none)
  s.startList d .park fail []

/-- One channel of PARK: parked, or seeded from its park code and released at one boundary. -/
def State.parkOne (s : State) (release : Bool) (c : Nat) : State :=
  let w := s.rd 0 (DRV_CH_CTRL c)
  let s := if release then s.seedLoop c (s.parkCode c) else s
  s.writeDrvCtrl c (fDRV_CH_CTRL_PARK.put w (bitN (!release)))

def State.stepPark (s : State) (j : Job) : State :=
  let cs := (listRecs 4 j.d).map recNum
  (cs.foldl (fun s c => s.parkOne (decide (j.d.in1 32 = 1)) c) s).endList j cs.length

/-! ### SET_SENSE (R118) -/

def startSetSense (d : Desc) (s : State) : State :=
  s.startList d .setSense (listFail 8 d (fun r => recRsv r 5 3) (fun r => decide (s.part.senses ≤ recNum r))
    (fun r => decide (3 < leAt r 2 1 ∨ 240 < leAt r 3 1 ∨ 2 < leAt r 4 1))) []

/-- The word of a sense record, with MEASURE where RANGE or BIAS changes. -/
def State.senseWord (s : State) (r : List Byte) : Word :=
  let w := s.rd 0 (SNS_CH_CTRL (recNum r))
  let ch := decide (fSNS_CH_CTRL_RANGE.get w ≠ leAt r 2 1 ∨ fSNS_CH_CTRL_BIAS.get w ≠ leAt r 3 1)
  let w := fSNS_CH_CTRL_RANGE.put w (leAt r 2 1)
  let w := fSNS_CH_CTRL_BIAS.put w (leAt r 3 1)
  let w := fSNS_CH_CTRL_WINDOW.put w (leAt r 4 1)
  fSNS_CH_CTRL_MEASURE.put w (bitN ch)

/-- SET_SENSE at a boundary: the words are written, then every measurement that began is waited for. -/
def State.stepSetSense (s : State) (j : Job) : State :=
  let rs := listRecs 8 j.d
  let ms := rs.map recNum
  if j.phase = 0 then
    let meas := (rs.filter fun r => fSNS_CH_CTRL_MEASURE.bit (s.senseWord r)).map recNum
    let s := rs.foldl (fun s r => s.writeSnsCtrl (recNum r) (s.senseWord r)) s
    s.setJob j { j with phase := 1, nums := meas }
  else if j.nums.all fun m => decide (s.dGet (SNS_CH_CTRL m) fSNS_CH_CTRL_DARK_VALID = 1) then
    let ov := ms.filter fun m => decide (s.dGet (SNS_CH_STAT m) fSNS_CH_STAT_OVER_RUN ≠ 0)
    let co := ms.filter fun m => decide ((s.sense m).col ≠ [])
    (s.endJob j).complete j.d 0 0 (leBytes 2 ov.length ++ leBytes 2 co.length ++ leBytes 4 0xFFFFFFFF)
  else s

/-! ### SET_LOOP (R153) -/

/-- A monitor number of a record lies outside the part; 0xFFFF names none. -/
def State.monOut (s : State) (m : Nat) : Bool := decide (m ≠ 0xFFFF ∧ s.part.senses ≤ m)

def startSetLoop (d : Desc) (s : State) : State :=
  let cs := (listRecs 32 d).map recNum
  s.startList d .setLoop (listFail 32 d (fun r => decide (32 ≤ leAt r 2 1 ∨ 4 ≤ leAt r 22 1) || recRsv r 23 9)
    (fun r => decide (s.part.chans ≤ recNum r) || s.monOut (leAt r 4 2) || s.monOut (leAt r 6 2))
    (fun r => decide (4 < leAt r 2 1 % 8 ∨ 15 < leAt r 3 1) || (decide (leAt r 3 1 ≠ 0) && !s.isHeater (recNum r)) ||
      decide (63 < leAt r 19 1 ∧ leAt r 19 1 ≠ 255))) (s.heldOf cs)

/-- The LOOP_CTRL word of a loop image: its slots and HOLD stay. -/
def loopCtrlOf (w : Word) (r : List Byte) : Word :=
  let b := leAt r 2 1
  let w := fLOOP_CTRL_KIND.put w (b % 8)
  let w := fLOOP_CTRL_ACT.put w (b / 8 % 2)
  let w := fLOOP_CTRL_POL.put w (b / 16 % 2)
  fLOOP_CTRL_DIV.put w (leAt r 3 1)

/-- Every changed word of a loop image, and LOOP_INT where a seed is asked for or the kind changes. -/
def State.writeLoopImage (s : State) (r : List Byte) : State :=
  let c := recNum r
  let seed := decide (leAt r 22 1 % 2 = 1 ∨ leAt r 2 1 % 8 ≠ s.sGet (LOOP_CTRL c) fLOOP_CTRL_KIND)
  let mon : Word := BitVec.ofNat 32 (leAt r 4 4)
  let s := s.writeLoopCtrl c (loopCtrlOf (s.sRd (LOOP_CTRL c)) r)
  let s := if mon = s.sRd (LOOP_MON c) then s else s.writeLoopMon c mon
  let s := s.sWr (LOOP_KP c) (BitVec.ofNat 32 (leAt r 8 2))
  let s := s.sWr (LOOP_KI c) (BitVec.ofNat 32 (leAt r 10 2))
  let s := s.sWr (LOOP_SP c) (BitVec.ofNat 32 (leAt r 12 3))
  let s := s.sWr (LOOP_SLEW c) (BitVec.ofNat 32 (leAt r 16 3))
  let s := if leAt r 22 1 / 2 % 2 = 1 then
      let w := s.rd 0 (SNS_DITHER c) &&& 0x3FFF
      let w := fSNS_DITHER_AMP.put w (leAt r 15 1)
      s.writeDither c (if leAt r 19 1 = 255 then w else fSNS_DITHER_CODE.put w (leAt r 19 1))
    else s
  if seed then s.seedInt c (leAt r 20 2) else s

/-- SET_LOOP at a boundary: hold, write, release. -/
def State.stepSetLoop (s : State) (j : Job) : State :=
  let rs := listRecs 32 j.d
  let cs := rs.map recNum
  match j.phase with
  | 0 => (s.holdAll cs).nextPhase j 1
  | 1 => (rs.foldl State.writeLoopImage s).nextPhase j 1
  | _ => (s.freeAll cs j.nums).endList j cs.length

/-! ### ARM_COMP and DISARM_COMP (R153) -/

/-- The competitor ranges that channels own: channel, first slot, number (R143). -/
def State.ownedRanges (s : State) : List (Nat × Nat × Nat) :=
  let b := s.lead.bank * 0x10000000
  s.regs.filterMap fun e =>
    let off := e.1 - b
    if b + LOOP_CTRL 0 ≤ e.1 ∧ off < LOOP_CTRL 0 + 64 * 32768 ∧ off % 64 = 0 then
      let n := fLOOP_CTRL_COMP_COUNT.get e.2
      if n = 0 then none else some ((off - LOOP_CTRL 0) / 64, fLOOP_CTRL_COMP_BASE.get e.2, n)
    else none

/-- The lowest range of `n` slots of the pool that no channel but `c` owns. -/
def freeRange (owned : List (Nat × Nat × Nat)) (c n : Nat) : Option Nat :=
  let os := owned.filter fun o => decide (o.1 ≠ c)
  let free := fun (b : Nat) => decide (b + n ≤ 65536) && os.all fun o => decide (b + n ≤ o.2.1 ∨ o.2.1 + o.2.2 ≤ b)
  ((sortN (0 :: os.map fun o => o.2.1 + o.2.2)).filter free).head?

/-- Whether `b` starts a range of `n` slots that no channel but `c` owns. -/
def rangeFree (owned : List (Nat × Nat × Nat)) (c n b : Nat) : Bool :=
  decide (b + n ≤ 65536) && (owned.filter fun o => decide (o.1 ≠ c)).all fun o => decide (b + n ≤ o.2.1 ∨ o.2.1 + o.2.2 ≤ b)

/-- Firmware's allocation for a list of channel and needed number: channel, first slot and number in the order of the list; none where no range is free. A range
that can grow in place stays. -/
def allocate : List (Nat × Nat × Nat) → List (Nat × Nat) → Option (List (Nat × Nat × Nat))
  | _, [] => some []
  | owned, (c, need) :: rest =>
    let own := owned.find? fun o => decide (o.1 = c)
    let have_ := (own.map fun o => o.2.2).getD 0
    let n := max need have_
    let place := match own with
      | some o => if rangeFree owned c n o.2.1 then some o.2.1 else freeRange owned c n
      | none => freeRange owned c n
    match place with
    | none => none
    | some b =>
      let owned' := (c, b, n) :: owned.filter fun o => decide (o.1 ≠ c)
      (allocate owned' rest).map fun l => (c, b, n) :: l

/-- What a list of competitor images needs: channel and slots up to the record's index. -/
def armNeeds (rs : List (List Byte)) : List (Nat × Nat) := rs.map fun r => (recNum r, leAt r 2 1 + 1)

/-- ARM_COMP. -/
def startArmComp (d : Desc) (s : State) : State :=
  let rs := listRecs 16 d
  let fail := listFail 16 d (fun r => recRsv r 6 2 || recRsv r 11 1)
    (fun r => decide (s.part.chans ≤ recNum r) || s.monOut (leAt r 4 2)) (fun r => decide (2 < leAt r 2 1 ∨ 3 < leAt r 3 1))
  let fail := fail.or (if allocate s.ownedRanges (armNeeds rs) = none then some 0x06 else none)
  s.startList d .armComp fail (s.heldOf (rs.map recNum))

/-- The configuration words of a competitor slot. -/
def slotOffs (k : Nat) : List Nat := [LOOP_CMP_CTRL k, LOOP_CMP_LIMIT k, LOOP_CMP_GAIN k, LOOP_CMP_INT k]

/-- A channel's slots move to a range of `n` from `b`: new slots are NONE, those it had keep their words and integrals; a slot newly owned is armed with e_last 0
(R142, R153). -/
def State.moveSlots (s : State) (c b n : Nat) : State :=
  let w := s.sRd (LOOP_CTRL c)
  let old := fLOOP_CTRL_COMP_BASE.get w
  let m := fLOOP_CTRL_COMP_COUNT.get w
  if m = n ∧ old = b then s
  else
    let words := (List.range m).map fun i => (slotOffs (old + i)).map s.sRd
    let s := (List.range n).foldl (fun s i => s.sWr (LOOP_CMP_CTRL (b + i)) 0xFFFF0000) s
    let s := s.writeLoopCtrl c (fLOOP_CTRL_COMP_BASE.put (fLOOP_CTRL_COMP_COUNT.put w n) b)
    let s := ((List.range m).zip words).foldl (fun s e => ((slotOffs (b + e.1)).zip e.2).foldl (fun s p => s.sWr p.1 p.2) s) s
    let slots := ((List.range m).map fun i => b + i).filter fun k => decide (k < old ∨ old + m ≤ k)
    both (fun x s => slots.foldl (fun s k => s.modSh x fun h => { h with cmpErr := Tab.set h.cmpErr 0 k 0 }) s) s

/-- One competitor image is written into its slot. -/
def State.writeCmpImage (s : State) (r : List Byte) : State :=
  let k := s.sGet (LOOP_CTRL (recNum r)) fLOOP_CTRL_COMP_BASE + leAt r 2 1
  let s := s.sWr (LOOP_CMP_LIMIT k) (BitVec.ofNat 32 (leAt r 8 3))
  let s := s.sWr (LOOP_CMP_GAIN k) (BitVec.ofNat 32 (leAt r 12 4))
  s.writeCmpSlot k (BitVec.ofNat 32 (65536 * leAt r 4 2 + leAt r 3 1))

/-- ARM_COMP at a boundary: hold, allocate and write, release. -/
def State.stepArmComp (s : State) (j : Job) : State :=
  let rs := listRecs 16 j.d
  let cs := rs.map recNum
  match j.phase with
  | 0 => (s.holdAll cs).nextPhase j 1
  | 1 =>
    match allocate s.ownedRanges (armNeeds rs) with
    | none => ((s.freeAll cs j.nums).endJob j).completeHif j.d 0x06
    | some l =>
      let s := l.foldl (fun s e => s.moveSlots e.1 e.2.1 e.2.2) s
      (rs.foldl State.writeCmpImage s).nextPhase j 1
  | _ => (s.freeAll cs j.nums).endList j cs.length

/-- DISARM_COMP. -/
def startDisarmComp (d : Desc) (s : State) : State :=
  let cs := (listRecs 4 d).map recNum
  s.startList d .disarmComp (listFail 4 d (fun r => recRsv r 3 1) (fun r => decide (s.part.chans ≤ recNum r))
    (fun r => decide (2 < leAt r 2 1 ∧ leAt r 2 1 ≠ 255))) (s.heldOf cs)

/-- The competitors that a record names get kind NONE; the channel keeps its slots. -/
def State.disarmOne (s : State) (r : List Byte) : State :=
  let c := recNum r
  let w := s.sRd (LOOP_CTRL c)
  let b := fLOOP_CTRL_COMP_BASE.get w
  let is := (List.range (fLOOP_CTRL_COMP_COUNT.get w)).filter fun i => decide (leAt r 2 1 = 255 ∨ leAt r 2 1 = i)
  is.foldl (fun s i => s.writeCmpSlot (b + i) (fLOOP_CMP_CTRL_KIND.put (s.sRd (LOOP_CMP_CTRL (b + i))) 0)) s

/-- DISARM_COMP at a boundary: hold, write, release. -/
def State.stepDisarm (s : State) (j : Job) : State :=
  let rs := listRecs 4 j.d
  let cs := rs.map recNum
  match j.phase with
  | 0 => (s.holdAll cs).nextPhase j 1
  | 1 => (rs.foldl State.disarmOne s).nextPhase j 1
  | _ => (s.freeAll cs j.nums).endList j cs.length

/-! ### HOLD_LOOP, RELEASE_LOOP and SEED_LOOP (R153) -/

/-- HOLD_LOOP and RELEASE_LOOP. -/
def startHoldList (d : Desc) (s : State) : State :=
  s.startList d .holdLoop (listFail 4 d (fun r => recRsv r 2 2) (fun r => decide (s.part.chans ≤ recNum r)) fun _ => false) []

def State.stepHold (s : State) (j : Job) : State :=
  let cs := (listRecs 4 j.d).map recNum
  (cs.foldl (fun s c => s.putHold (decide (j.d.op = 0x1B)) c) s).endList j cs.length

/-- SEED_LOOP. -/
def startSeedList (d : Desc) (s : State) : State :=
  let cs := (listRecs 4 d).map recNum
  s.startList d .seedLoop (listFail 4 d (fun _ => false) (fun r => decide (s.part.chans ≤ recNum r)) fun _ => false) (s.heldOf cs)

/-- LOOP_INT takes a position (R143). -/
def State.writeSeed (s : State) (r : List Byte) : State :=
  s.seedInt (recNum r) (leAt r 2 2)

/-- SEED_LOOP at a boundary: hold, write, release. -/
def State.stepSeed (s : State) (j : Job) : State :=
  let rs := listRecs 4 j.d
  let cs := rs.map recNum
  match j.phase with
  | 0 => (s.holdAll cs).nextPhase j 1
  | 1 => (rs.foldl State.writeSeed s).nextPhase j 1
  | _ => (s.freeAll cs j.nums).endList j cs.length

/-! ### SET_COMP, SET_XTALK, SET_FIT and REVERT_FIT (R180, R184) -/

/-- SET_COMP. -/
def startSetComp (d : Desc) (s : State) : State :=
  s.startList d .setComp (listFail 336 d (fun r => decide (8 ≤ leAt r 2 1) || recRsv r 3 5) (fun r => decide (s.part.chans ≤ recNum r))
    (fun r => decide (leAt r 2 1 / 4 % 2 = 1 ∧ 1 ≤ fCMP_RIP_CFG_PERIOD.get (BitVec.ofNat 32 (leAt r 332 4)) ∧
      fCMP_RIP_CFG_PERIOD.get (BitVec.ofNat 32 (leAt r 332 4)) ≤ 31))) []

/-- Firmware fills the staging window with a record and applies it. -/
def State.applyCompRec (s : State) (r : List Byte) : State :=
  let s := (List.range 80).foldl (fun s i => s.sWr (CMP_STAGING i) (BitVec.ofNat 32 (leAt r (8 + 4 * i) 4))) s
  let s := s.sWr (CMP_STAGING 336) (BitVec.ofNat 32 (leAt r 328 4))
  let s := s.sWr (CMP_STAGING 337) (BitVec.ofNat 32 (leAt r 332 4))
  let p := leAt r 2 1
  s.writeStageCtrl (BitVec.ofNat 32 (recNum r + 2 ^ 24 * (p % 4) + 2 ^ 27 * (p / 4 % 2) + 2 ^ 31))

def State.stepSetComp (s : State) (j : Job) : State :=
  let rs := listRecs 336 j.d
  (rs.foldl State.applyCompRec s).endList j rs.length

/-- The xtalk records one after another (R338): victim, n and coefficients, and whether they cover the bytes exactly. `k` bounds their number. -/
def xtalkRecs : Nat → List Byte → List (Nat × Nat × List Nat) × Bool
  | 0, bs => ([], decide (bs = []))
  | k + 1, bs =>
    if bs = [] then ([], true)
    else
      let n := leAt bs 2 2
      let size := (4 + 2 * n + 3) / 4 * 4
      if bs.length < size then ([], false)
      else
        let r := xtalkRecs k (bs.drop size)
        ((leAt bs 0 2, n, (List.range n).map fun i => leAt bs (4 + 2 * i) 2) :: r.1, r.2)

/-- Matrix entries and coefficients that a list of xtalk records loads: coefficients beyond a victim's COUNT have no entry. -/
def State.xtalkPairs (s : State) (rs : List (Nat × Nat × List Nat)) : List Nat :=
  rs.flatMap fun r =>
    let cnt := s.sGet (CMP_XT_COUNT r.1) fCMP_XT_COUNT_COUNT
    let base := s.sGet (CMP_XT_BASE r.1) fCMP_XT_BASE_BASE
    (List.range (min cnt r.2.1)).flatMap fun i => [base + i, r.2.2.getD i 0]

/-- SET_XTALK. -/
def startSetXtalk (d : Desc) (s : State) : State :=
  let r := xtalkRecs (d.len / 4) d.pay
  let fail := if r.2 = false ∨ d.len % 4 ≠ 0 then some 0x02
    else if (r.1.any fun e => decide (s.part.chans ≤ e.1)) = true then some 0x04
    else if (r.1.any fun e => decide (512 < e.2.1)) = true then some 0x05
    else none
  s.startList d .setXtalk fail (s.xtalkPairs r.1)

/-- Up to `k` pairs of entry and coefficient join the update queue; the rest is answered. -/
def State.queuePairs : Nat → List Nat → State → State × List Nat
  | k + 1, e :: c :: r, s => State.queuePairs k r (s.queueCoef e c)
  | _, l, s => (s, l)

/-- Entries go into the room that the fit budget leaves (R181, R184); the command completes when the last has drained. -/
def State.stepXtalk (s : State) (j : Job) (n : Nat) : State :=
  if j.phase = 0 then
    let room := 65536 - (s.sh s.lead).xt.queue.length - s.sGet CMP_FIT_BUDGET fCMP_FIT_BUDGET_MAX_UPD
    let r := State.queuePairs room j.nums s
    if r.2 = [] then r.1.setJob j { j with phase := if j.nums = [] then 2 else 1, nums := [r.1.xtDrains] }
    else r.1.setJob j { j with nums := r.2 }
  else if j.phase = 1 ∧ s.xtDrains ≤ j.nums.headD 0 then s
  else (s.endJob j).complete j.d 0 0 (listResult n none)

/-- SET_FIT. -/
def startSetFit (d : Desc) (s : State) : State :=
  let fail := listFail 4 d (fun r => recRsv r 3 1) (fun r => decide (s.part.chans ≤ recNum r)) (fun r => decide (1 < leAt r 2 1))
  s.startList d .setFit (fail.or (if 0x4000 < d.in2 32 ∨ 32768 < d.in2 38 ∨ 1 < d.in1 44 then some 0x05 else none)) []

def State.stepSetFit (s : State) (j : Job) : State :=
  let d := j.d
  let rs := listRecs 4 d
  let s := s.writeFitCtrl (fCMP_FIT_CTRL_EN.put (fCMP_FIT_CTRL_MU.put 0 (d.in2 32)) (d.in1 44))
  let s := s.sWr CMP_FIT_LIMIT (fCMP_FIT_LIMIT_STEP_MAX.put (fCMP_FIT_LIMIT_BAND.put 0 (d.in2 36)) (d.in2 34))
  let s := s.writeFitBudget (BitVec.ofNat 32 (d.in2 38))
  let s := s.sWr CMP_FIT_EXCITE (BitVec.ofNat 32 (d.in4 40))
  let s := rs.foldl (fun s r => s.writeCmpCtrl (recNum r) (fCMP_CH_CTRL_FIT.put (s.sRd (CMP_CH_CTRL (recNum r))) (leAt r 2 1))) s
  s.endList j rs.length

/-- Entries whose coefficient differs from its anchor, with the anchor (R180). -/
def State.anchorPairs (s : State) : List Nat :=
  s.lists.flatMap fun e => (List.range e.2.2.length).flatMap fun i =>
    let k := e.2.1 + i
    let a := (s.sRd (XT_ANCHOR k)).toNat % 65536
    if (s.sRd (XT_WORD k)).toNat / 65536 = a then [] else [k, a]

/-- REVERT_FIT. -/
def startRevertFit (d : Desc) (s : State) : State :=
  if s.sGet CMP_FIT_CTRL fCMP_FIT_CTRL_EN = 1 then s.completeHif d 0x07
  else s.addJob ⟨d, .revertFit, 0, s.dueTick, []⟩

/-- REVERT_FIT queues at most MAX_UPD entries per period, the time between two drains (R180, R181), and completes when no entry differs from its anchor. -/
def State.stepRevert (s : State) (j : Job) : State :=
  if j.phase = 1 ∧ s.xtDrains ≤ j.nums.headD 0 then s
  else
    let pairs := s.anchorPairs
    if pairs = [] then (s.endJob j).complete j.d 0 0 []
    else
      let room := min (s.sGet CMP_FIT_BUDGET fCMP_FIT_BUDGET_MAX_UPD) (65536 - (s.sh s.lead).xt.queue.length)
      let r := State.queuePairs room pairs s
      r.1.setJob j { j with phase := 1, nums := [r.1.xtDrains] }

/-! ### The fit log (R182) -/

/-- The whole records, oldest first, that fit into `n` bytes. -/
def recsIn : Nat → List (List Byte) → List (List Byte)
  | _, [] => []
  | n, r :: rs => if r.length ≤ n then r :: recsIn (n - r.length) rs else []

/-- The bytes of a list of records. -/
def recBytes (rs : List (List Byte)) : Nat := (rs.map fun r => r.length).foldl (· + ·) 0

/-- FIT_LOG_READ: an OUT buffer that does not take the oldest record is too small. -/
def startFitLogRead (d : Desc) (s : State) : State :=
  let log := (s.sh s.lead).fit.log
  let rs := recsIn d.len log
  if rs = [] ∧ log ≠ [] then s.completeHif d 0x05
  else (s.writeOut d.outAddr rs.flatten).complete d 0 0 (leBytes 4 (recBytes rs) ++ leBytes 4 rs.length)

/-- FIT_LOG_FREE: BYTES of whole oldest records. -/
def startFitLogFree (d : Desc) (s : State) : State :=
  let log := (s.sh s.lead).fit.log
  let n := d.in4 32
  let rs := recsIn n log
  if recBytes log < n then s.completeHif d 0x07
  else if recBytes rs ≠ n then s.completeHif d 0x05
  else (s.modFit s.lead fun f => { f with log := f.log.drop rs.length }).completeHif d 0

/-! ### Progress at a boundary -/

/-- A job of this file goes on. -/
def State.stepList (s : State) (j : Job) : State :=
  if s.tick < j.due then s
  else match j.kind with
    | .setup =>
      match j.phase with
      | 0 => s.endList j (j.d.len / 8)
      | 10 => ((s.applyAlarmConfig j.d).endJob j).completeHif j.d 0
      | _ => ((s.applyAlarmRelease j.d).endJob j).completeHif j.d 0
    | .setSpan => s.stepSetSpan j
    | .park => s.stepPark j
    | .setSense => s.stepSetSense j
    | .setLoop => s.stepSetLoop j
    | .armComp => s.stepArmComp j
    | .disarmComp => s.stepDisarm j
    | .holdLoop => s.stepHold j
    | .seedLoop => s.stepSeed j
    | .setComp => s.stepSetComp j
    | .setXtalk => s.stepXtalk j (xtalkRecs (j.d.len / 4) j.d.pay).1.length
    | .revertFit => s.stepRevert j
    | .setFit => s.stepSetFit j
    | _ => s

/-- Every job of this file goes on at the present boundary. -/
def State.stepLists (s : State) : State := s.jobs.foldl State.stepList s

end Sys2Proof.Machine
end

