-- ==== Sys2Proof/Machine/Tick.lean ====
section
/-! DEFINITION. The start of commands and the tick boundary (R22, R28, R55, R256, R315, R333 to R335, R344). -/

namespace Sys2Proof.Machine

/-! ### What a descriptor does by its opcode (R338) -/

/-- NOP completes when it starts. -/
def startNop (d : Desc) (s : State) : State := s.completeHif d 0

/-- Whether an operation on fuses or the flash succeeds, where the model starts the command itself: open, a free bit (log entry 3). -/
def State.withLuck (s : State) (f : Bool → State → State) : State :=
  let r := s.draw 1
  f (decide (r.1 = 1)) r.2

/-- A descriptor's own work by its opcode. -/
def runDesc (d : Desc) (s : State) : State :=
  match d.op with
  | 0x00 => startNop d s
  | 0x01 => startSetup d s
  | 0x02 => startSetupLock d s
  | 0x03 => startMode d s
  | 0x04 => startPower d s
  | 0x08 => startMap d s
  | 0x09 => startMap d s
  | 0x10 => startSetSpan d s
  | 0x11 => startParkList d s
  | 0x12 => startSetSense d s
  | 0x18 => startSetLoop d s
  | 0x19 => startArmComp d s
  | 0x1A => startDisarmComp d s
  | 0x1B => startHoldList d s
  | 0x1C => startHoldList d s
  | 0x1D => startSeedList d s
  | 0x20 => startSetComp d s
  | 0x21 => startSetXtalk d s
  | 0x22 => startSetFit d s
  | 0x23 => startRevertFit d s
  | 0x24 => startFitLogRead d s
  | 0x25 => startFitLogFree d s
  | 0x38 => startTurnout d s
  | 0x39 => startTurnoutList d s
  | 0x3A => startTurnoutCancel d s
  | 0x3B => startRotationList d s
  | 0x3C => startRotationStop d s
  | 0x40 => startSurvey d s
  | 0x41 => startSurveyAbort d s
  | 0x42 => startSurveyExport d s
  | 0x48 => startHandover d s
  | 0x49 => startResync d s
  | 0x50 => startRecConfig d s
  | 0x51 => startRecControl d s
  | 0x52 => startRecRead d s
  | 0x53 => startMarch d s
  | 0x58 => startMusterRead d s
  | 0x59 => startAlarmCfg d s
  | 0x5C => startTime d s
  | 0x5D => startGateList d s
  | 0x5E => startPolicer d s
  | 0x60 => s.withLuck fun b => startLifecycle d b
  | 0x61 => startDebugToken d s
  | 0x62 => s.withLuck fun b => startKeyProvision d b
  | 0x63 => s.withLuck fun b => startFwUpdate d b
  | 0x68 => startTelemetryCfg d s
  | _ => if 0x28 ≤ d.op ∧ d.op ≤ 0x31 then startPlan d s else s.completeHif d 0x01

/-! ### Whether a descriptor may start (R334, R344) -/

/-- The descriptors of commands that have started and not completed. -/
def State.running (s : State) : List Desc := s.jobs.map (fun j => j.d) ++ (s.survey.bind fun v => v.d).toList

/-- The CPL ring of the lead has an entry for one more completion (R344); a NET command's completion takes none (R387). -/
def State.cplRoom (s : State) (d : Desc) : Bool :=
  decide (d.ring = 16) ||
  (let x := s.lead
   let r := s.ring x 0
   let used := (r.prod + 65536 - r.cons) % 65536 + (s.sh x).heldCpl.length + (s.running.filter fun e => decide (e.ring ≠ 16)).length
   decide (s.pGet x (HIF_RING_CFG 0) fHIF_RING_CFG_EN = 1 ∧ used < s.ringSize x 0))

/-- The rule of a function that keeps a command in its ring: a map command under way (R55), a survey of the reloaded domain (R256), the LIBRARY stage (R315). -/
def State.mustWait (s : State) (d : Desc) : Bool :=
  (s.busyWith .mapLoad && decide (d.op = 0x08 ∨ d.op = 0x09 ∨ d.op = 0x40 ∨ d.op = 0x03)) ||
  (decide (d.op = 0x09 ∧ s.mode = .maintenance ∧ s.oos = .domain (d.in1 32)) && decide (s.survey ≠ none)) ||
  (decide ((s.sync.map fun y => y.stage) = some 2) &&
    (decide (d.op = 0x2D ∨ d.op = 0x2E ∨ d.op = 0x2F ∨ d.op = 0x31) ||
     (decide (d.op = 0x28 ∨ d.op = 0x29 ∨ d.op = 0x2A) && (planReq d.pay).store)))

/-- A descriptor may start now: the previous command of its ring has completed, its fence and its function's rule allow it, and its completion has room. -/
def State.mayStart (s : State) (d : Desc) : Bool :=
  s.serves d && !(s.running.any fun e => decide (e.ring = d.ring)) && !(d.fence && decide (s.running ≠ [])) && !s.mustWait d && s.cplRoom d

/-! ### Starts at a boundary (R333, R334) -/

/-- The first descriptor of a ring in the fold of the lead. -/
def State.ringHead (s : State) (r : Nat) : Option FoldDesc := (s.sh s.lead).fold.find? fun f => decide (f.d.ring = r)

/-- The head of a ring is ready: it arrived at least 1 us before, and may start. -/
def State.headReady (s : State) (r : Nat) : Bool :=
  match s.ringHead r with
  | some f => decide (f.edge + 400 ≤ s.edge) && s.mayStart f.d
  | none => false

/-- The rings after the one served last, in turn; ring 16 is NET (R334, R386). -/
def ringTurn (last : Nat) : List Nat := (List.range 17).map fun i => (last + 1 + i) % 17

/-- The ring that is served next: the highest PRIO, and the first in turn of equals. -/
def State.nextRing (s : State) : Option Nat :=
  (ringTurn (s.sh s.lead).lastRing).foldl (fun b r =>
    if !s.headReady r then b
    else match b with
      | none => some r
      | some q => if s.cmdPrio q < s.cmdPrio r then some r else b) none

/-- Up to `n` ready commands start. -/
def State.startReady : Nat → State → State
  | 0, s => s
  | n + 1, s =>
    match s.nextRing with
    | none => s
    | some r =>
      match s.ringHead r with
      | none => s
      | some f =>
        let s := s.takeDesc f.d
        let s := both (fun x s => s.modSh x fun h => { h with lastRing := r }) s
        State.startReady n (s.startWith f.d runDesc)

/-- A descriptor that a command row starts leaves the folds when it is held there. -/
def State.claimDesc (s : State) (d : Desc) : State :=
  if (s.sh s.lead).fold.any fun f => sameCmd d f.d then s.takeDesc d else s

/-- A command row: the descriptor, when it is one of the row, starts now, or waits where R334 does not let it start. -/
def State.startRow (s : State) (d : Desc) (isRow : Bool) (f : Desc → State → State) : State :=
  if isRow && s.mayStart d then (s.claimDesc d).startWith d f else s

/-! ### The tick boundary (R22) -/

/-- What the converters, monitors and sensors delivered in the tick that ends. -/
def State.takeInput (s : State) (i : TickInput) : State :=
  let s := ((s.bankTick i.sram).busTick i.bus).doeTick i.doe
  let s := { s with raws := (i.raws.filter fun (e : Nat × Nat × Bool) => decide (e.1 < s.part.senses)).foldl (fun t (e : Nat × Nat × Bool) => Tab.set t (0, false) e.1 e.2) s.raws }
  let s := { s with amps := (i.amps.filter fun (e : Nat × Nat) => decide (e.1 < s.part.chans)).foldl (fun t (e : Nat × Nat) => Tab.set t 0 e.1 e.2) [] }
  let s := (i.vloads.filter fun (e : Nat × Nat) => decide (e.1 < s.part.chans) && current (s.spanOf e.1)).foldl
    (fun s (e : Nat × Nat) => s.dPut (DRV_CH_STAT e.1) fDRV_CH_STAT_VLOAD e.2) s
  let s := (i.refvs.filter fun (e : Nat × Nat) => decide (e.1 < s.part.paddocks)).foldl
    (fun s (e : Nat × Nat) => { s with vrefs := Tab.set s.vrefs {} e.1 { s.vref e.1 with pins := e.2 } }) s
  (i.temps.filter fun (e : Nat × Int) => decide (e.1 < s.part.paddocks)).foldl
    (fun s (e : Nat × Int) => s.dPut (PDK_TEMP e.1) fPDK_TEMP_TEMP (ofSigned 16 e.2)) s

/-- What ends with tick t: sense and power data are formed, and the counts of the tick are taken. -/
def State.endTick (s : State) (i : TickInput) (t : Nat) : State :=
  let s := ((((s.surveySample t).takeInput i).ditherEnd t).formFrames t).formPower
  let s := (s.junctionTick i.temp).tlmTick i.temp
  let s := (s.heartbeats i.beatA i.beatB).frameMissing
  let s := (s.divBoundary.copyBoundary t).syncBoundary
  let s := both (fun x s => s.recDrain x) s
  let s := { s.buildSome with posWr := [], seeded := [] }
  if s.clearFell then { s.recEvent fFLD_FREEZE_CFG_ON_CLEAR with clearFell := false } else s

/-- What waits at a crossing whose fence is down flows (R468). -/
def State.flowOpen (s : State) : State :=
  (s.xing.map fun e => e.1 % 16).foldl (fun s p => if s.fenced p then s else s.xingOpen p) s

/-- A SETUP_LOCK that is due puts the lock in force and completes (R511). -/
def State.lockBoundary (s : State) : State :=
  match s.job? .setupLock with
  | some j => if s.tick < j.due then s else ((s.setLock).endJob j).completeHif j.d 0
  | none => s

/-- The crosstalk queue drains at every boundary while no passes run (R171). -/
def State.drainIdle (s : State) : State := both (fun x s => if s.passesRun && s.runs x then s else s.drain x) s

/-- What the commands that have started do at a boundary, after the writes. -/
def State.stepJobs (s : State) : State :=
  ((s.driveBoundary.surveyBoundary.drainIdle.stepLists.lockBoundary.padResetBoundary).flowOpen.shpResetBoundary).handoverBoundary

/-- What begins with the tick: strobes, dither, and the samples of the egress queues. -/
def State.beginTick (s : State) : State := s.musterBoundary.capTick.tickStrobe.sweepStrobe.collisionBoundary.ditherFlags.sampleQueues

/-- What the writes and commands of the present boundary changed of the shared words reaches a standby later, when the record before the boundary was unsealed
(R305). -/
def State.standbyTakes (s was : State) : State :=
  match s.standby with
  | some x => if 0 < (s.sh x).copyMiss then s.deferShared was x else s
  | none => s

/-- TICK_BOUNDARY: the present tick ends and the next begins (R22). The clock stands in OFF and RESET. -/
def doTickBoundary (i : TickInput) (s : State) : State :=
  if s.mode = .off ∨ s.mode = .reset then s
  else
    let s := (s.fireStrays ((s.tick + 1) * 400 - 1)).toEdge ((s.tick + 1) * 400)
    let was := s.endTick i (s.tick - 1)
    let s := was.applyDue.stepJobs
    let s := s.claimBoundary.joinBoundary
    ((State.startReady 64 s).standbyTakes was).beginTick

/-- A PCLK edge on which nothing is commanded: time goes on up to the last edge before the next tick boundary (R22, R366). -/
def idle (s : State) : State :=
  if s.mode = .off ∨ s.mode = .reset ∨ s.edge % 400 = 399 then s else s.toEdge (s.edge + 1)

end Sys2Proof.Machine
end

