-- ==== Sys2Proof/Machine/Operands.lean ====
section
/-! DEFINITION. What the meanings of the commands share: their outcome, the words that the rows for register writes carry, and the
descriptor rows (R68, R338, R506). -/

namespace Sys2Proof

/-- A byte of the payload that tells rows apart. -/
def Desc.payByte (d : Desc) (i : Nat) : Nat := leAt d.pay i 1

end Sys2Proof

namespace Sys2Proof.Machine

/-- The outcome of a command: the machine goes on in state `t`. The queue of commands is the sender's; no command changes it. -/
def State.ran (s t : State) : Host.Outcome State Fault Refusal := .next { t with pending := s.pending }

/-- A row for a write of one register: the word reaches the function of shepherd x, where `ok` says that the register exists on some part (R68, R536). -/
def State.hostWrite (s : State) (x : Shep) (ok : Bool) (off : Nat) (v : Word) : State := if ok then s.arrive x off v else s

/-- RELOCK through the function of a shepherd, or through JTAG (R506). -/
def State.relock (s : State) (via : Option Shep) : State :=
  match via with
  | some x => s.arrive x LCS_DBG (fLCS_DBG_RELOCK.put 0 1)
  | none => if s.mode = .off ∨ s.mode = .reset then s else s.writeDbg (fLCS_DBG_RELOCK.put 0 1)

/-- A write of BAR0 through the function of shepherd x, or one that JTAG makes at FULL and that is handled as one through that function (R504). -/
def State.writePath (s : State) (x : Shep) (addr : Nat) (bs : List Byte) (jtag : Bool) : State :=
  if jtag ∧ s.jtagSet ≠ 4 then s else s.writeRequest x addr bs

/-- The release registers (R526): none for ALM_PARKED, a word of ALM_CLEARED else. -/
def releaseOff (k : Option Nat) : Nat :=
  match k with
  | none => ALM_PARKED
  | some k => ALM_CLEARED (k % 2)

/-- A sample that firmware of shepherd x, or the host through its function, presents to its servo (R377, R378). -/
def State.sampleRow (s : State) (x : Shep) (pd : Nat) (ofs : Int) : State :=
  if s.mode = .off ∨ s.mode = .reset ∨ (s.sh x).halted = true ∨ 2 ^ 32 ≤ pd ∨ ofs < -(2 ^ 31) ∨ 2 ^ 31 ≤ ofs then s else servoSample x pd ofs s

end Sys2Proof.Machine
end

