-- ==== Sys2Proof/Machine/CmdReset.lean ====
section
/-! DEFINITION. Resets, rails, pins and boot: the meanings of their events. -/

namespace Sys2Proof.Machine

/-- POR (R484): power-on reset when VDD_AON or VIO falls below threshold or at power-up; resets everything and samples the straps. -/
def execPor (s : State) : Host.Outcome State Fault Refusal := s.ran (doPor s)

/-- RESET_N_ASSERT (R484): RESET_N held low for 1.0 us resets the device except the kept always-on items. -/
def execResetNAssert (s : State) : Host.Outcome State Fault Refusal := s.ran (doResetN s)

/-- PLL_LOSS_OF_LOCK (R457): loss of root PLL lock stops the clocks within 50 ns and applies the RESET_N reset kind. -/
def execPllLossOfLock (s : State) : Host.Outcome State Fault Refusal := s.ran (doLossOfLock s)

/-- RESET_END (R471): end of a reset, with the root PLL locked, moves the device from RESET to BOOT. -/
def execResetEnd (straps : Nat) (s : State) : Host.Outcome State Fault Refusal := s.ran (doResetEnd straps s)

/-- PERST_ASSERT (R484): PERST_A_N or PERST_B_N low resets that shepherd and its PCIe endpoint while held low. -/
def execPerstAssert (x : Shep) (s : State) : Host.Outcome State Fault Refusal := s.ran (doPerst x s)

/-- PCIE_HOT_RESET (R484): A PCIe hot reset on a shepherd's link resets that shepherd. -/
def execPcieHotReset (x : Shep) (s : State) : Host.Outcome State Fault Refusal := s.ran (doHotReset x s)

/-- FUNCTION_LEVEL_RESET (R322): an FLR acts as the PCIe hot reset of that shepherd, without link retraining. -/
def execFunctionLevelReset (x : Shep) (s : State) : Host.Outcome State Fault Refusal := s.ran (doFlr x s)

/-- WATCHDOG_EXPIRY (R484): RST_WDG expires without a kick and applies a shepherd reset to that shepherd. -/
def execWatchdogExpiry (x : Shep) (s : State) : Host.Outcome State Fault Refusal := s.ran (doWatchdog x s)

/-- RAIL_BELOW_THRESHOLD (R482): A monitored rail stays below its threshold for 1 us and triggers the reset or flag of its row. -/
def execRailBelowThreshold (r : Rail) (s : State) : Host.Outcome State Fault Refusal := s.ran (doRailLow r s)

/-- RAIL_RESTORED (R482): A rail stays above its threshold for 1 ms and is restored, ending the reset it held. -/
def execRailRestored (r : Rail) (s : State) : Host.Outcome State Fault Refusal := s.ran (doRailRestored r s)

/-- VDR_LOW (R75): VDRP or VDRN leaves its range; the paddock opens its switches within 1 us and sets VDR_LOW. -/
def execVdrLow (p : Nat) (s : State) : Host.Outcome State Fault Refusal := s.ran (doVdrLow p s)

/-- VHTR_OUT_OF_RANGE (R91): VHTR below 3.1 V or above 5.25 V sets the sticky flag and raises VHTR_FAULT. -/
def execVhtrOutOfRange (p : Nat) (high : Bool) (s : State) : Host.Outcome State Fault Refusal := s.ran (doVhtr p high s)

/-- PADDOCK_RESET_RELEASE (R486): A paddock reset is released after 10 us, or when its rail returns, and the hub starts the reload. -/
def execPaddockResetRelease (p : Nat) (s : State) : Host.Outcome State Fault Refusal := s.ran (doPadRelease p s)

/-- PADDOCK_RELOAD_DONE (R486): the reload of DRV and SNS words and trims ends, RST_PDK_READY sets and restored channels enable. -/
def execPaddockReloadDone (p : Nat) (s : State) : Host.Outcome State Fault Refusal := s.ran (doPadReload p s)

/-- BOOT_COMPLETE (R490): A shepherd finishes its boot steps and requests a claim from the referee. -/
def execBootComplete (x : Shep) (b : BootInfo) (s : State) : Host.Outcome State Fault Refusal := s.ran (doBootComplete x b s)

/-- CLAIM_WINDOW_EXPIRY (R308): 16 ticks after the first claim the referee grants the first requester. -/
def execClaimWindowExpiry (s : State) : Host.Outcome State Fault Refusal := s.ran (doClaimExpiry s)

/-- CONVERTER_CALIBRATION_DONE (R260): converter calibration ends, every trim takes effect at one boundary, and a start-up survey enters PARKED. -/
def execConverterCalibrationDone (cals : List PdkCal) (darks : List (Nat × Nat)) (s : State) : Host.Outcome State Fault Refusal := s.ran (doConverterCalDone cals darks s)

/-- REFV_WINDOW_FAULT (R261): REFV outside the window for 16 ticks switches the paddock to the bandgap and raises REFV_FAULT. -/
def execRefvWindowFault (p : Nat) (refv : Nat) (s : State) : Host.Outcome State Fault Refusal := s.ran (doRefvFault p refv s)

/-- DROOP_TRIP (R458): A droop sensor trips and the shepherd's CCLK runs at half rate within 2 periods. -/
def execDroopTrip (x : Shep) (mask : Nat) (s : State) : Host.Outcome State Fault Refusal := s.ran (doDroopTrip x mask s)

/-- STRETCH_HOLD_END (R458): HOLD stretched periods pass with no trip and CCLK returns to full rate. -/
def execStretchHoldEnd (x : Shep) (periods : Nat) (s : State) : Host.Outcome State Fault Refusal := s.ran (doStretchEnd x periods s)

/-- CLEAR_N_FALL (R87): A recognised low CLEAR_N forces selected flocks to their clear codes within 1 us and wakes napped paddocks. -/
def execClearNFall (s : State) : Host.Outcome State Fault Refusal := s.ran (doClearLow s)

/-- CLEAR_N_RISE (R88): A recognised high CLEAR_N schedules the release of the cleared flocks. -/
def execClearNRise (s : State) : Host.Outcome State Fault Refusal := s.ran (doClearHigh s)

/-- FLOCK_RELEASE (R88): at the next tick boundary the flocks released from clear resume loading at their next strobe. -/
def execFlockRelease (s : State) : Host.Outcome State Fault Refusal := s.ran (doFlockRelease s)

/-- FLOCK_STB_EDGE (R83): A recognised FLOCK_STB edge loads the latest complete loop codes into the flocks that select that pin. -/
def execFlockStbEdge (pin : Nat) (falling : Bool) (s : State) : Host.Outcome State Fault Refusal := s.ran ((if pin < 4 then doFlockEdge pin falling s else s))

/-- WAKE_N_FALL (R479): WAKE_N held low for 100 ns wakes napped paddocks and leaves QUIESCE or DEEP. -/
def execWakeNFall (s : State) : Host.Outcome State Fault Refusal := s.ran (doWakeN s)

/-- LOW_POWER_EXIT_DONE (R480): the exit from NAP, QUIESCE or DEEP completes and the recorder, passes and paddocks resume. -/
def execLowPowerExitDone (s : State) : Host.Outcome State Fault Refusal := s.ran (doLowPowerExit s)

/-- PPS_IN_EDGE (R370): A rising edge on PPS_IN is timestamped in TIM_PPS_IN_TS. -/
def execPpsInEdge (s : State) : Host.Outcome State Fault Refusal := s.ran (doPpsIn s)

/-- PERST_RELEASE (R484): PERST_A_N or PERST_B_N rises, ending the reset of that shepherd and its endpoint, which then trains its link and boots. -/
def execPerstRelease (x : Shep) (s : State) : Host.Outcome State Fault Refusal := s.ran (doPerstRelease x s)

/-- ETH_LINK_CHANGE (R392): an Ethernet port's link goes down or comes up, which changes ETH_PORT_STAT.LINK, PTP sample flow and the sending of telemetry frames. -/
def execEthLinkChange (port : Nat) (up : Bool) (s : State) : Host.Outcome State Fault Refusal := s.ran (doLinkChange port up s)

/-- VPARK_OUT_OF_RANGE (R93): A paddock's VPARK pin goes outside -2.6 V to +2.6 V and sets DRV_PDK_STATUS.VPARK_RANGE. -/
def execVparkOutOfRange (p : Nat) (s : State) : Host.Outcome State Fault Refusal := s.ran (doVpark p s)

/-- LOAD_CHECK_DONE (R541): the boot ROM finishes checking an image from the load buffer; BUSY clears, and it either boots the image or gives the cause in BOOT_ERR. -/
def execLoadCheckDone (x : Shep) (s : State) : Host.Outcome State Fault Refusal := s.ran (doLoadCheck x s)

end Sys2Proof.Machine
end

