-- ==== Sys2Proof/Machine/CmdLoop.lean ====
section
/-! DEFINITION. The tick, the loops, the senses and the limits they report: the meanings of their events. -/

namespace Sys2Proof.Machine

/-- TICK_BOUNDARY (R22): each 400-PCLK tick boundary begins a tick; assigned writes, commands and copy records take effect and tick strobes fire. -/
def execTickBoundary (i : TickInput) (s : State) : Host.Outcome State Fault Refusal := s.ran (doTickBoundary i s)

/-- SENSE_FRAME_RECEIVE (R105): A shepherd receives a paddock's sense frame of the previous tick. -/
def execSenseFrameReceive (x : Shep) (p : Nat) (s : State) (noise : Noise := []) : Host.Outcome State Fault Refusal := s.ran (doSenseFrame x p noise s)

/-- SENSE_FRAME_DEADLINE (R106): no valid sense frame 400 ns after the boundary; the shepherd takes the paddock's counts as VOID and counts MISSED. -/
def execSenseFrameDeadline (x : Shep) (p : Nat) (s : State) : Host.Outcome State Fault Refusal := s.ran (doSenseDeadline x p s)

/-- LOOP_EVALUATION (R126): stage 3 evaluates the due primary and competitor loops of every channel and forms codes. -/
def execLoopEvaluation (x : Shep) (cap : Nat) (s : State) : Host.Outcome State Fault Refusal := s.ran (doLoopEvaluation x cap s)

/-- WINDOW_RESULT (R111): A demodulation window ends and gives each element its gradient, or no result under R113. -/
def execWindowResult (x : Shep) (m : Nat) (s : State) : Host.Outcome State Fault Refusal := s.ran ((if m < 16384 then doWindowResult x m s else s))

/-- SETTLING_END (R147): after the pre-instant evaluations and SETTLE more, a loop in SETTLING enters RUN. -/
def execSettlingEnd (c : Nat) (s : State) : Host.Outcome State Fault Refusal := s.ran (doSettlingEnd c s)

/-- LOOP_OVERRUN (R152): OVR_ALARM consecutive overrun ticks raise a LOOP_OVERRUN alarm. -/
def execLoopOverrun (x : Shep) (s : State) : Host.Outcome State Fault Refusal := s.ran (doLoopOverrun x s)

/-- LOOP_SAT (R517): A loop saturated in SAT_TICKS consecutive evaluations reports LOOP_SAT. -/
def execLoopSat (c : Nat) (s : State) : Host.Outcome State Fault Refusal := s.ran (doLoopSat c s)

/-- LOOP_ERROR (R517): A primary error above ERR_LIM for ERR_TICKS evaluations reports LOOP_ERROR. -/
def execLoopError (c : Nat) (s : State) : Host.Outcome State Fault Refusal := s.ran (doLoopError c s)

/-- SENSE_OVER (R101): OVER_RUN reaches 16 and a SENSE_OVER alarm naming the monitor is raised. -/
def execSenseOver (m : Nat) (s : State) : Host.Outcome State Fault Refusal := s.ran ((if m < 16384 then doSenseOver m s else s))

/-- VOID_PERIOD_END (R102): the VOID period after a RANGE or BIAS change ends and valid counts resume. -/
def execVoidPeriodEnd (m : Nat) (s : State) : Host.Outcome State Fault Refusal := s.ran (doVoidEnd m s)

/-- DARK_MEASURE_DONE (R103): the open-input measurement ends, stores DARK_OFFSET and sets DARK_VALID. -/
def execDarkMeasureDone (m : Nat) (sum : Nat) (s : State) : Host.Outcome State Fault Refusal := s.ran (doDarkDone m sum s)

/-- COMPLIANCE_SET (R90): A current shortfall for 4 ticks sets COMPLIANCE and COMPLIANCE_ANY. -/
def execComplianceSet (c : Nat) (s : State) : Host.Outcome State Fault Refusal := s.ran (doComplianceSet c s)

/-- COMPLIANCE_CLEAR (R90): 4 ticks within the limit clear COMPLIANCE. -/
def execComplianceClear (c : Nat) (s : State) : Host.Outcome State Fault Refusal := s.ran (doComplianceClear c s)

/-- JUNCTION_HOT (R516): junction above ALM_TEMP.HOT for 16 ticks reports JUNCTION_HOT. -/
def execJunctionHot (s : State) : Host.Outcome State Fault Refusal := s.ran (doJunctionHot s)

end Sys2Proof.Machine
end

