-- ==== Sys2Proof/Machine/CmdShep.lean ====
section
/-! DEFINITION. Frames of the paddock links, the state copy and the referee: the meanings of their events. -/

namespace Sys2Proof.Machine

/-- LOOP_OUTPUT_FRAME_RECEIVE (R291): A paddock receives a downstream loop output frame and keeps the first copy of its tick. -/
def execLoopOutputFrameReceive (x : Shep) (p : Nat) (noise : Noise) (s : State) : Host.Outcome State Fault Refusal := s.ran (doLoopFrame x p noise s)

/-- COPY_RECORD_SEND (R301): in the last 0.5 us of the tick the active sends the control section, digests and differing blocks. -/
def execCopyRecordSend (s : State) : Host.Outcome State Fault Refusal := s.ran (doCopySend s)

/-- COPY_RECORD_RECEIVE (R302): the standby receives a copy record into its free buffer and checks its seal. -/
def execCopyRecordReceive (ok : Bool) (s : State) : Host.Outcome State Fault Refusal := s.ran (doCopyReceive ok s)

/-- COPY_MISS_LIMIT (R304): COPY_MISS consecutive unsealed records make the standby DETACHED and raise CROOK_FAIL. -/
def execCopyMissLimit (s : State) : Host.Outcome State Fault Refusal := s.ran (doCopyMissLimit s)

/-- DIVERGENCE_LIMIT (R299): DIV_LIMIT consecutive divergent ticks make the referee fence the standby. -/
def execDivergenceLimit (s : State) : Host.Outcome State Fault Refusal := s.ran (doDivergenceLimit s)

/-- SHEPHERD_LOST (R307): A heartbeat count reaching HB_MISS makes the shepherd lost; the standby's claim is granted or the standby is fenced. -/
def execShepherdLost (x : Shep) (s : State) : Host.Outcome State Fault Refusal := s.ran (doShepherdLost x s)

/-- HANDOVER_GRANT (R312): 1 us after the HANDOVER boundary the referee grants the standby's claim and the roles swap. -/
def execHandoverGrant (s : State) : Host.Outcome State Fault Refusal := s.ran (doHandoverGrant s)

/-- RESYNC_BANK_DONE (R315): every bank page is copied and unchanged, and the resynchronisation enters LIBRARY. -/
def execResyncBankDone (s : State) : Host.Outcome State Fault Refusal := s.ran (doResyncBank s)

/-- RESYNC_LIBRARY_DONE (R315): every library and survey record is copied, and the resynchronisation enters STATE. -/
def execResyncLibraryDone (s : State) : Host.Outcome State Fault Refusal := s.ran (doResyncLibrary s)

/-- RESYNC_STATE_DONE (R316): after 16 agreeing ticks the shepherd becomes STANDBY at the next boundary. -/
def execResyncStateDone (s : State) : Host.Outcome State Fault Refusal := s.ran (doResyncState s)

/-- RESYNC_TIMEOUT (R317): A resynchronisation not ended within 4 s, or whose peer is lost, stops and the shepherd is DETACHED. -/
def execResyncTimeout (s : State) : Host.Outcome State Fault Refusal := s.ran (doResyncTimeout s)

/-- STAGE_FRAME (R210): A paddock receives a staging frame and writes the codes of its tagged channels into its shadow. -/
def execStageFrame (x : Shep) (p : Nat) (noise : Noise) (s : State) : Host.Outcome State Fault Refusal := s.ran (doCtlFrame .stage x p noise s)

/-- COMMIT_FRAME (R228): A paddock receives a commit frame and arms the commit of the named staging at its fire edge. -/
def execCommitFrame (x : Shep) (p : Nat) (noise : Noise) (s : State) : Host.Outcome State Fault Refusal := s.ran (doCtlFrame .commit x p noise s)

/-- RETIME_FRAME (R228): A paddock receives a retime frame and moves the armed commit. -/
def execRetimeFrame (x : Shep) (p : Nat) (noise : Noise) (s : State) : Host.Outcome State Fault Refusal := s.ran (doCtlFrame .retime x p noise s)

/-- CANCEL_FRAME (R228): A paddock receives a cancel frame and removes the armed commit. -/
def execCancelFrame (x : Shep) (p : Nat) (noise : Noise) (s : State) : Host.Outcome State Fault Refusal := s.ran (doCtlFrame .cancel x p noise s)

/-- CONTROL_FRAME_GAP (R291): A CTL_SEQ gap unfilled within 200 ns is counted, skipped and the held frames applied. -/
def execControlFrameGap (p : Nat) (s : State) : Host.Outcome State Fault Refusal := s.ran (doCtlGap p s)

end Sys2Proof.Machine
end

