-- ==== Sys2Proof/Machine/CmdFabric.lean ====
section
/-! DEFINITION. The sequencer, the drover, maps, spans, crosstalk passes and surveys: the meanings of their events. -/

namespace Sys2Proof.Machine

/-- STAGING_START (R230): the sequencer starts a staging at the first edge where its slot, links and previous commit allow. -/
def execStagingStart (s : State) : Host.Outcome State Fault Refusal := s.ran (doStagingStart s)

/-- STAGING_COMPLETE (R231): A staging finishes on its last link and each shepherd sends the commit frames. -/
def execStagingComplete (dom : Nat) (s : State) : Host.Outcome State Fault Refusal := s.ran (doStagingComplete dom s)

/-- LATE_STAGE (R232): A staging not started by fire edge minus L makes the commit late-staged. -/
def execLateStage (dom : Nat) (s : State) : Host.Outcome State Fault Refusal := s.ran (doLateStage dom s)

/-- COMMIT_FIRE (R227): at its fire edge a commit strobes the paddocks, the staged codes load and the slot becomes LIVE. -/
def execCommitFire (dom : Nat) (s : State) : Host.Outcome State Fault Refusal := s.ran (doCommitFire dom s)

/-- COMMIT_LOOP_SEED (R146): at the first tick boundary after the instant the domain's loops are seeded and setpoint actions applied. -/
def execCommitLoopSeed (dom : Nat) (s : State) : Host.Outcome State Fault Refusal := s.ran (doCommitLoopSeed dom s)

/-- ROTATION_TAKEOVER (R243): at boundary B the pending rotation list replaces the running one or stops the rotation. -/
def execRotationTakeover (dom : Nat) (s : State) : Host.Outcome State Fault Refusal := s.ran (doRotationTakeover dom s)

/-- SEQUENCER_TIME_STEP (R247): at the first edge after a time step the sequencer re-evaluates rotations and pending turnouts. -/
def execSequencerTimeStep (s : State) : Host.Outcome State Fault Refusal := s.ran (doSequencerStep s)

/-- ROUTE_COMPLETE (R199): the drover finishes routing or tracing a request and judges pins, protection and collateral. -/
def execRouteComplete (cycles : Nat) (s : State) : Host.Outcome State Fault Refusal := s.ran (doRouteComplete cycles s)

/-- IMAGE_BUILD_DONE (R207): the commit engine writes the last entry of the plan image and the slot becomes READY. -/
def execImageBuildDone (s : State) : Host.Outcome State Fault Refusal := s.ran (doImageBuildDone s)

/-- POSITION_TRACK (R193): every 1,024 ticks with TRACK set, positions of running unsaturated elements update from their loops. -/
def execPositionTrack (s : State) : Host.Outcome State Fault Refusal := s.ran (doPositionTrack s)

/-- MAP_VALIDATION_DONE (R54): validation of a map image ends with acceptance or a rejection code. -/
def execMapValidationDone (s : State) : Host.Outcome State Fault Refusal := s.ran (doMapValidationDone s)

/-- MAP_TAKES_EFFECT (R56): A validated map takes effect at the assigned boundary, clearing slots and lists and programming channels. -/
def execMapTakesEffect (s : State) : Host.Outcome State Fault Refusal := s.ran (doMapTakesEffect s)

/-- SPAN_CHANGE_SWITCH_OPEN (R76): 0.1 us into a span change the output switch opens. -/
def execSpanChangeSwitchOpen (c : Nat) (s : State) : Host.Outcome State Fault Refusal := s.ran (doSpanOpen c s)

/-- SPAN_CHANGE_SWITCH_CLOSE (R76): at 2.6 us the switch closes onto the new park code or clear code. -/
def execSpanChangeSwitchClose (c : Nat) (s : State) : Host.Outcome State Fault Refusal := s.ran (doSpanClose c s)

/-- SPAN_CHANGE_END (R76): the pad settles and STATE leaves SPAN_CHANGE. -/
def execSpanChangeEnd (c : Nat) (s : State) : Host.Outcome State Fault Refusal := s.ran (doSpanEnd c s)

/-- SPAN_CONFIG_END (R69): configuration of a span from NONE ends and the output enables if OE is 1. -/
def execSpanConfigEnd (c : Nat) (s : State) : Host.Outcome State Fault Refusal := s.ran (doSpanConfigEnd c s)

/-- CROSSTALK_PASS_START (R166): at an aligned boundary the queue drains, Pbar is latched and a crosstalk pass starts. -/
def execCrosstalkPassStart (x : Shep) (s : State) : Host.Outcome State Fault Refusal := s.ran (doCrosstalkPassStart x s)

/-- CROSSTALK_PASS_DONE (R167): A crosstalk pass completes and its terms are ready. -/
def execCrosstalkPassDone (x : Shep) (s : State) : Host.Outcome State Fault Refusal := s.ran (doPassDone x s)

/-- CROSSTALK_TERMS_IN_FORCE (R166): at tick n0 + P the terms of a finished pass come into force. -/
def execCrosstalkTermsInForce (x : Shep) (s : State) : Host.Outcome State Fault Refusal := s.ran (doTermsInForce x s)

/-- SURVEY_POINT_DONE (R267): A sweep point finishes its settle and average and the survey moves to the next point. -/
def execSurveyPointDone (s : State) : Host.Outcome State Fault Refusal := s.ran (doSurveyPointDone s)

end Sys2Proof.Machine
end

