-- ==== Sys2Proof/Machine/CmdHost.lean ====
section
/-! DEFINITION. Host rings, the recorder, memory, alarms, security and the package: the meanings of their events. -/

namespace Sys2Proof.Machine

/-- DOORBELL_POLL (R326): each poll period a shepherd reads the doorbell line and fetches new descriptors. -/
def execDoorbellPoll (x : Shep) (line : List Byte) (s : State) : Host.Outcome State Fault Refusal := s.ran (doDoorbell x line s)

/-- DESCRIPTOR_FETCH_DONE (R333): fetched descriptors are written into the fold and CMD_CONS advances. -/
def execDescriptorFetchDone (x : Shep) (ring : Nat) (ds : List (List Byte × Option (List Byte))) (s : State) : Host.Outcome State Fault Refusal := s.ran (doFetch x ring ds s)

/-- HOST_READ_ERROR (R354): A failed or poisoned host-memory read is handled for the doorbell, descriptors or payload. -/
def execHostReadError (x : Shep) (w : HostRead) (s : State) : Host.Outcome State Fault Refusal := s.ran (doHostReadError x w s)

/-- STATUS_LINE_WRITE (R328): A shepherd writes its status line after a changed poll period or every 1,024 ticks. -/
def execStatusLineWrite (x : Shep) (s : State) : Host.Outcome State Fault Refusal := s.ran (doStatusLine x s)

/-- IRQ_HOLDOFF_END (R353): the holdoff ends and a withheld MSI-X message is sent. -/
def execIrqHoldoffEnd (x : Shep) (vec : Nat) (s : State) : Host.Outcome State Fault Refusal := s.ran (doHoldoffEnd x vec s)

/-- HELD_COMPLETION_FLUSH (R344): held completions are written in order as CPL ring room appears. -/
def execHeldCompletionFlush (x : Shep) (s : State) : Host.Outcome State Fault Refusal := s.ran (doFlushCpl x s)

/-- EVENT_LOG_FLUSH (R349): waiting events are written from the event log as EVT ring room appears. -/
def execEventLogFlush (x : Shep) (s : State) : Host.Outcome State Fault Refusal := s.ran (doFlushEvt x s)

/-- TELEMETRY_INTERVAL (R350): every INTERVAL ticks a record of each enabled telemetry source is written. -/
def execTelemetryInterval (power : Nat) (headroom : Nat) (s : State) : Host.Outcome State Fault Refusal := s.ran (doTelemetry power headroom s)

/-- RECORDER_CONFIG_EFFECT (R426): an accepted recorder configuration takes effect at the next tick that is a multiple of 64. -/
def execRecorderConfigEffect (s : State) : Host.Outcome State Fault Refusal := s.ran (doRecorderConfigEffect s)

/-- RECORDER_POST_END (R429): POST ticks after a trigger the recorder enters FROZEN. -/
def execRecorderPostEnd (x : Shep) (s : State) : Host.Outcome State Fault Refusal := s.ran (doRecorderPostEnd x s)

/-- FOLD_ECC_ERROR (R423): A fold read finds a correctable or uncorrectable error and handles the unit. -/
def execFoldEccError (x : Shep) (ue : Bool) (u : FoldUnit) (s : State) : Host.Outcome State Fault Refusal := s.ran (doFoldEccError x ue u s)

/-- BANK_ECC_ERROR (R440): A bank read finds a double-bit error, delivers 0 and raises BANK_UE. -/
def execBankEccError (x : Shep) (double : Bool) (bank : Nat) (word : Nat) (off : Option Nat) (s : State) : Host.Outcome State Fault Refusal := s.ran (doBankEccError x double bank word off s)

/-- MATRIX_ACCESS_REFUSED (R450): an access to an unpermitted target or undecoded address is answered by the matrix and latched. -/
def execMatrixAccessRefused (x : Shep) (master : Nat) (target : Nat) (write : Bool) (addr : Nat) (s : State) (beats : Nat := 1) : Host.Outcome State Fault Refusal := s.ran (doMatrixRefused x master target write addr beats s)

/-- MUSTER_WINDOW_CLOSE (R521): A muster window closes, its root is found, its bitmap and MUSTER event are written. -/
def execMusterWindowClose (s : State) : Host.Outcome State Fault Refusal := s.ran (doMusterWindowClose s)

/-- FAULT_REACTION (R524): at the first boundary after a report its class parks domains, clears flocks or enters SAFE. -/
def execFaultReaction (s : State) : Host.Outcome State Fault Refusal := s.ran (doFaultReaction s)

/-- LIFECYCLE_RESET (R495): 100 us after a fuse burn the life-cycle change reset is applied. -/
def execLifecycleReset (s : State) : Host.Outcome State Fault Refusal := s.ran (doLifecycleReset s)

/-- JTAG_TOKEN (R505): A token presented through JTAG is verified and sets the debug level or requests a transition. -/
def execJtagToken (t : List Byte) (burned : Bool) (s : State) : Host.Outcome State Fault Refusal := s.ran (doJtagToken t burned s)

/-- JTAG_CORE_HALT (R507): A core halt at FULL is accepted only on an OFF-in-BOOT or DETACHED shepherd. -/
def execJtagCoreHalt (x : Shep) (s : State) : Host.Outcome State Fault Refusal := s.ran (doCoreHalt x s)

/-- SMBUS_READ (R569): an SMBus read command at address 0x5A returns its status bytes. -/
def execSmbusRead (cmd : Nat) (power : Nat) (s : State) : Host.Outcome State Fault Refusal := s.ran (doSmbus cmd power s)

/-- TEC_LOOP_UPDATE (R571): every 1,024 ticks each enabled site thermal loop measures its thermistor and updates its duty. -/
def execTecLoopUpdate (t : Nat) (meas : Nat) (s : State) : Host.Outcome State Fault Refusal := s.ran (doTecUpdate t meas s)

/-- MARCH_DONE (R444): the march engine finishes its banks, the results are written and the MARCH descriptor completes. -/
def execMarchDone (a : List MarchFail) (b : List MarchFail) (s : State) : Host.Outcome State Fault Refusal := s.ran (doMarchDone a b s)

/-- FW_STORE_WRITE_DONE (R499): writing and read-back of an image into a firmware store slot ends, and FW_UPDATE WRITE completes with its code. -/
def execFwStoreWriteDone (ok : Bool) (s : State) : Host.Outcome State Fault Refusal := s.ran (doFwStoreDone ok s)

end Sys2Proof.Machine
end

