-- ==== Sys2Proof/Machine/CmdNet.lean ====
section
/-! DEFINITION. Ethernet, PTP and device time: the meanings of their events. -/

namespace Sys2Proof.Machine

/-- ETH_FRAME_RECEIVE (R361): A received Ethernet frame is policed, deduplicated, forwarded or delivered by its pair's traffic rules. -/
def execEthFrameReceive (port : Nat) (f : EthFrame) (fcs : Bool) (s : State) : Host.Outcome State Fault Refusal := s.ran ((if port < 4 then doFrameReceive port f fcs s else s))

/-- CONTROL_FRAME_RECEIVE (R384): A COMMAND control frame is checked for format, authentication and replay and queued on NET. -/
def execControlFrameReceive (s : State) : Host.Outcome State Fault Refusal := s.ran (doControlFrame s)

/-- ETH_FRAME_OFFER (R296): A shepherd offers a frame to the MAC hub, which transmits the first offer of each number. -/
def execEthFrameOffer (x : Shep) (differs : Bool) (s : State) : Host.Outcome State Fault Refusal := s.ran (doOffer x differs s)

/-- TRANSMIT_SELECTION (R399): when the transmitter is free the eligible head frame of the highest queue is sent. -/
def execTransmitSelection (port : Nat) (late : Bool) (s : State) : Host.Outcome State Fault Refusal := s.ran ((if port < 4 then doTransmit port late s else s))

/-- GATE_ENTRY_START (R403): A gate list entry comes into force at its start on the grid. -/
def execGateEntryStart (port : Nat) (s : State) : Host.Outcome State Fault Refusal := s.ran (doGateEntry port s)

/-- GATE_LIST_TAKEOVER (R404): A pending gate list takes over at its boundary and entry 0 comes into force. -/
def execGateListTakeover (port : Nat) (s : State) : Host.Outcome State Fault Refusal := s.ran (doGateTakeover port s)

/-- SUPERVISION_FRAME (R362): every SUP_INT seconds a PRP or HSR supervision frame is sent. -/
def execSupervisionFrame (pair : Nat) (s : State) : Host.Outcome State Fault Refusal := s.ran (doSupervision pair s)

/-- TABLE_ENTRY_FORGET (R362): A duplicate or node table entry expires after its forget time. -/
def execTableEntryForget (pair : Nat) (s : State) : Host.Outcome State Fault Refusal := s.ran (doForget pair s)

/-- TELEMETRY_FRAME_SEND (R388): A TELEMETRY frame is sent on pair 1 with 16 records or 100 us after its first. -/
def execTelemetryFrameSend (s : State) : Host.Outcome State Fault Refusal := s.ran (doTelemetryFrame s)

/-- PTP_MESSAGE_RECEIVE (R372): the PTP instance receives a message and forms samples from its timestamps. -/
def execPtpMessageReceive (port : Nat) (m : PtpMsg) (s : State) : Host.Outcome State Fault Refusal := s.ran ((if port < 2 then doPtpMessage port m s else s))

/-- PTP_PORT_MOVE (R373): link failure or announce receipt timeout moves the AUTO PTP port to the other port. -/
def execPtpPortMove (s : State) : Host.Outcome State Fault Refusal := s.ran (doPtpPortMove s)

/-- SERVO_SAMPLE (R378): A write of TIM_SAMPLE_OFS presents a sample that steers, steps or holds the servo. -/
def execServoSample (x : Shep) (pd : Nat) (ofs : Int) (s : State) : Host.Outcome State Fault Refusal := s.ran (s.sampleRow x pd ofs)

/-- ASYM_HOLD_END (R380): ASYM_TIME ends and the next sample is handled as the first after ACQUIRE. -/
def execAsymHoldEnd (x : Shep) (s : State) : Host.Outcome State Fault Refusal := s.ran (doAsymHoldEnd x s)

/-- HOLDOVER (R377): no sample for HOLD_TIMEOUT enters HOLDOVER on the held increment. -/
def execHoldover (x : Shep) (s : State) : Host.Outcome State Fault Refusal := s.ran (doHoldover x s)

/-- TIME_WRAP (R368): TIM_NOW wraps, TIM_WRAPS increments and a WRAP event is written. -/
def execTimeWrap (s : State) : Host.Outcome State Fault Refusal := s.ran (doTimeWrap s)

/-- PPS_OUT_PULSE (R370): TB0 reaches TIM_PPS_NEXT, PPS_OUT rises for WIDTH and NEXT advances one second. -/
def execPpsOutPulse (s : State) : Host.Outcome State Fault Refusal := s.ran (doPpsOut s)

/-- PTP_MESSAGE_TIMER (R372): A configured PTP message interval expires and the instance sends Sync, Announce, Delay_Req or Pdelay_Req. -/
def execPtpMessageTimer (kind : Nat) (s : State) : Host.Outcome State Fault Refusal := s.ran (doPtpTimer kind s)

/-- PORT_MEASURE_DONE (R389): an internal port loopback measurement ends and returns its round trip, and the port carries frames again. -/
def execPortMeasureDone (rtt : Nat) (s : State) : Host.Outcome State Fault Refusal := s.ran (doPortMeasureDone rtt s)

end Sys2Proof.Machine
end

