-- ==== Sys2Proof/Machine/CmdWrite.lean ====
section
/-! DEFINITION. Writes and reads of BAR0: the meanings of their rows. -/

namespace Sys2Proof.Machine

/-- REGISTER_WRITE (R68): A BAR0 write to a register without its own row, handled by its access type, scope and alignment. -/
def execRegisterWrite (x : Shep) (addr : Nat) (bytes : List Byte) (s : State) (jtag : Bool := false) : Host.Outcome State Fault Refusal := s.ran (s.writePath x addr bytes jtag)

/-- TIM_NOW_READ (R367): A read of TIM_NOW latches TIM_NOW_FRAC and TIM_WRAPS for that path; the operands take any read request (R5, R534). -/
def execTimNowRead (path : Nat) (s : State) (addr : Nat := TIM_NOW) (len : Nat := 4) : Host.Outcome State Fault Refusal := s.ran (s.readPath path addr len)

/-- DRV_CH_CTRL_WRITE (R69): A write to a channel control word is discarded, altered, starts a span change or stores its fields. -/
def execDrvChCtrlWrite (x : Shep) (c : Nat) (v : Word) (s : State) : Host.Outcome State Fault Refusal := s.ran (s.hostWrite x (decide (c < 32768)) (DRV_CH_CTRL c) v)

/-- DRV_FLOCK_STROBE (R84): A 1 written to a flock bit performs a software strobe of a SOFTWARE flock. -/
def execDrvFlockStrobe (x : Shep) (w : Nat) (v : Word) (s : State) : Host.Outcome State Fault Refusal := s.ran (s.hostWrite x (decide (w < 2)) (DRV_FLOCK_STROBE w) v)

/-- SNS_CH_CTRL_WRITE (R102): A write to a sense channel changes range, bias, offset or window and starts its VOID period. -/
def execSnsChCtrlWrite (x : Shep) (m : Nat) (v : Word) (s : State) : Host.Outcome State Fault Refusal := s.ran (s.hostWrite x (decide (m < 16384)) (SNS_CH_CTRL m) v)

/-- SNS_MEASURE (R103): MEASURE written as 1 starts an open-input offset measurement. -/
def execSnsMeasure (x : Shep) (m : Nat) (v : Word) (s : State) : Host.Outcome State Fault Refusal := s.ran (s.hostWrite x (decide (m < 16384)) (SNS_CH_CTRL m) (fSNS_CH_CTRL_MEASURE.put v 1))

/-- SNS_LINK_ERR_CLEAR (R120): CLEAR written as 1 sets MISSED to 0. -/
def execSnsLinkErrClear (x : Shep) (p : Nat) (s : State) : Host.Outcome State Fault Refusal := s.ran (s.hostWrite x (decide (p < 16)) (SNS_LINK_ERR p) (fSNS_LINK_ERR_CLEAR.put 0 1))

/-- LOOP_CTRL_WRITE (R143): A LOOP_CTRL write is checked for kind, divider and slots and adds or releases competitor slots. -/
def execLoopCtrlWrite (x : Shep) (c : Nat) (v : Word) (s : State) : Host.Outcome State Fault Refusal := s.ran (s.hostWrite x (decide (c < 32768)) (LOOP_CTRL c) v)

/-- LOOP_INT_SEED (R143): A write of LOOP_INT seeds the primary integral. -/
def execLoopIntSeed (x : Shep) (c : Nat) (v : Word) (s : State) : Host.Outcome State Fault Refusal := s.ran (s.hostWrite x (decide (c < 32768)) (LOOP_INT c) v)

/-- LOOP_CLR_CNT (R155): CLR_CNT written as 1 sets LOOP_OVR_TICKS and LOOP_OVR_SKIPS to 0. -/
def execLoopClrCnt (x : Shep) (v : Word) (s : State) : Host.Outcome State Fault Refusal := s.ran (s.hostWrite x true LOOP_STATUS (fLOOP_STATUS_CLR_CNT.put v 1))

/-- CMP_WIN_SEL_WRITE (R169): A write selects the table page shown in the table window, or is discarded. -/
def execCmpWinSelWrite (x : Shep) (v : Word) (s : State) : Host.Outcome State Fault Refusal := s.ran (s.hostWrite x true CMP_WIN_SEL v)

/-- XT_COEF_WRITE (R171): A crosstalk coefficient write joins the update queue or is discarded when it is full. -/
def execXtCoefWrite (x : Shep) (w : Nat) (v : Word) (s : State) : Host.Outcome State Fault Refusal := s.ran (s.hostWrite x (decide (w < 262144)) (0x300000 + 4 * w) v)

/-- CMP_STAGE_APPLY (R172): APPLY copies the staged parts into the named channel and queues its coefficients, or is discarded whole. -/
def execCmpStageApply (x : Shep) (v : Word) (s : State) : Host.Outcome State Fault Refusal := s.ran (s.hostWrite x true CMP_STAGE_CTRL (fCMP_STAGE_CTRL_APPLY.put v 1))

/-- CMP_PERIOD_WRITE (R175): A new crosstalk period takes effect at the next pass boundary or is discarded. -/
def execCmpPeriodWrite (x : Shep) (v : Word) (s : State) : Host.Outcome State Fault Refusal := s.ran (s.hostWrite x true CMP_CFG v)

/-- SEQ_ARM_GO (R251): GO queues a staging of SLOT and arms an expert commit at SEQ_ARM_INSTANT. -/
def execSeqArmGo (x : Shep) (v : Word) (s : State) : Host.Outcome State Fault Refusal := s.ran (s.hostWrite x true SEQ_ARM_CTRL (fSEQ_ARM_CTRL_GO.put v 1))

/-- SEQ_ARM_CANCEL (R252): CANCEL removes the armed expert commit within the 100 ns limit. -/
def execSeqArmCancel (x : Shep) (v : Word) (s : State) : Host.Outcome State Fault Refusal := s.ran (s.hostWrite x true SEQ_ARM_CTRL (fSEQ_ARM_CTRL_CANCEL.put v 1))

/-- SEQ_MARGIN_WRITE (R252): A MARGIN write sets the staging lead or is discarded with BAD_CFG. -/
def execSeqMarginWrite (x : Shep) (v : Word) (s : State) : Host.Outcome State Fault Refusal := s.ran (s.hostWrite x true SEQ_CFG v)

/-- SHP_HANDOVER (R312): HANDOVER written through the active starts a planned switch-over when the standby is repaired. -/
def execShpHandover (x : Shep) (v : Word) (s : State) : Host.Outcome State Fault Refusal := s.ran (s.hostWrite x true SHP_CTRL (fSHP_CTRL_HANDOVER.put v 1))

/-- SHP_RESYNC_PEER (R315): RESYNC_PEER starts resynchronisation of the other shepherd. -/
def execShpResyncPeer (x : Shep) (v : Word) (s : State) : Host.Outcome State Fault Refusal := s.ran (s.hostWrite x true SHP_CTRL (fSHP_CTRL_RESYNC_PEER.put v 1))

/-- SHP_DETACH_PEER (R309): DETACH_PEER fences the other shepherd. -/
def execShpDetachPeer (x : Shep) (v : Word) (s : State) : Host.Outcome State Fault Refusal := s.ran (s.hostWrite x true SHP_CTRL (fSHP_CTRL_DETACH_PEER.put v 1))

/-- SHP_CLR_CNT (R321): CLR_CNT sets this shepherd's counters and SHP_PDK_ERR to 0. -/
def execShpClrCnt (x : Shep) (v : Word) (s : State) : Host.Outcome State Fault Refusal := s.ran (s.hostWrite x true SHP_CTRL (fSHP_CTRL_CLR_CNT.put v 1))

/-- SHP_HOST_DIV_REPORT (R297): REPORT written as 1 records a host-found divergence. -/
def execShpHostDivReport (x : Shep) (v : Word) (s : State) : Host.Outcome State Fault Refusal := s.ran (s.hostWrite x true SHP_HOST_DIV (fSHP_HOST_DIV_REPORT.put v 1))

/-- HIF_CMD_ENABLE (R330): setting a command ring's EN resets CMD_CONS and starts fetching; clearing it stops fetching. -/
def execHifCmdEnable (x : Shep) (ring : Nat) (v : Word) (s : State) : Host.Outcome State Fault Refusal := s.ran (s.hostWrite x (decide (ring < 16)) (HIF_CMD_CFG ring) v)

/-- HIF_RING_ENABLE (R343): setting a CPL, EVT or TLM ring's EN resets its producer index and PHASE. -/
def execHifRingEnable (x : Shep) (k : Nat) (v : Word) (s : State) : Host.Outcome State Fault Refusal := s.ran (s.hostWrite x (decide (k < 3)) (HIF_RING_CFG k) v)

/-- TIM_INCR_WRITE (R369): A host write of the increment is taken while the servo is off and in range. -/
def execTimIncrWrite (x : Shep) (v : Word) (s : State) : Host.Outcome State Fault Refusal := s.ran (s.hostWrite x true TIM_INCR v)

/-- ALM_INJECT_WRITE (R532): A write reports the TEST alarm for the written subject. -/
def execAlmInjectWrite (x : Shep) (v : Word) (s : State) : Host.Outcome State Fault Refusal := s.ran (s.hostWrite x true ALM_INJECT v)

/-- ALM_RELEASE_WRITE (R526): A 1 written to ALM_PARKED or ALM_CLEARED releases the domain, free elements or flock. -/
def execAlmReleaseWrite (x : Shep) (k : Option Nat) (v : Word) (s : State) : Host.Outcome State Fault Refusal := s.ran (s.hostWrite x true (releaseOff k) v)

/-- PWR_WAKE_WRITE (R479): WAKE written as 1 wakes napped paddocks and leaves QUIESCE or DEEP. -/
def execPwrWakeWrite (x : Shep) (v : Word) (s : State) : Host.Outcome State Fault Refusal := s.ran (s.hostWrite x true PWR_WAKE (fPWR_WAKE_WAKE.put v 1))

/-- RST_SHP_RESET (R484): SHP_RESET applies a shepherd reset to the selected shepherd. -/
def execRstShpReset (x : Shep) (v : Word) (s : State) : Host.Outcome State Fault Refusal := s.ran (s.hostWrite x true RST_CTRL (fRST_CTRL_SHP_RESET.put v 1))

/-- RST_SOFT_RESET (R485): SOFT_RESET restarts the cores of the selected shepherd. -/
def execRstSoftReset (x : Shep) (v : Word) (s : State) : Host.Outcome State Fault Refusal := s.ran (s.hostWrite x true RST_CTRL (fRST_CTRL_SOFT_RESET.put v 1))

/-- RST_PDK_RESET (R486): PDK_RESET resets the selected paddock when allowed. -/
def execRstPdkReset (x : Shep) (v : Word) (s : State) : Host.Outcome State Fault Refusal := s.ran (s.hostWrite x true RST_CTRL (fRST_CTRL_PDK_RESET.put v 1))

/-- LCS_LOCK_SET (R511): SET written as 1 puts SET-UP LOCK in force at the boundary. -/
def execLcsLockSet (x : Shep) (s : State) : Host.Outcome State Fault Refusal := s.ran (s.hostWrite x true LCS_LOCK (fLCS_LOCK_SET.put 0 1))

/-- LCS_RELOCK (R506): RELOCK written as 1 sets the debug level to LOCKED at once. -/
def execLcsRelock (via : Option Shep) (s : State) : Host.Outcome State Fault Refusal := s.ran (s.relock via)

/-- GLB_LOAD_START (R541): START hands the load buffer to the boot ROM as the firmware image. -/
def execGlbLoadStart (x : Shep) (v : Word) (s : State) : Host.Outcome State Fault Refusal := s.ran (s.hostWrite x true GLB_LOAD_CTRL (fGLB_LOAD_CTRL_START.put v 1))

/-- CLK_XING_FENCE_WRITE (R468): A fence bit stops new requests of its crossing group until cleared. -/
def execClkXingFenceWrite (x : Shep) (v : Word) (s : State) : Host.Outcome State Fault Refusal := s.ran (s.hostWrite x true CLK_XING_FENCE v)

/-- FLD_LAYOUT_WRITE (R422): A library or fit-log size write recomputes the fold layout when allowed. -/
def execFldLayoutWrite (x : Shep) (fitlog : Bool) (v : Word) (s : State) : Host.Outcome State Fault Refusal := s.ran (s.hostWrite x true (if fitlog then FLD_FITLOG_CFG else FLD_LIB_CFG) v)

end Sys2Proof.Machine
end

