-- ==== Sys2Proof/Machine/CmdDesc.lean ====
section
/-! DEFINITION. Descriptors of the basic and expert interfaces from NOP to RELEASE: the meanings of their rows. -/

namespace Sys2Proof.Machine

/-- NOP (R338): A NOP descriptor completes when started. -/
def execNop (d : Desc) (s : State) : Host.Outcome State Fault Refusal := s.ran (s.startRow d (decide (d.op = 0x00)) startNop)

/-- RESERVED_OPCODE (R338): A descriptor with a reserved opcode completes at once with HIF_OPCODE. -/
def execReservedOpcode (d : Desc) (s : State) : Host.Outcome State Fault Refusal := s.ran (s.startRow d (decide (d.op ∉ opcodes)) runDesc)

/-- SETUP (R339): writes a list of BAR0 offset and value records. -/
def execSetup (d : Desc) (s : State) : Host.Outcome State Fault Refusal := s.ran (s.startRow d (decide (d.op = 0x01)) startSetup)

/-- SETUP_LOCK (R511): requests SET-UP LOCK and completes when it is in force. -/
def execSetupLock (d : Desc) (s : State) : Host.Outcome State Fault Refusal := s.ran (s.startRow d (decide (d.op = 0x02)) startSetupLock)

/-- MODE_PARKED (R471): MODE with target PARKED parks every channel and cancels schedules, or leaves SAFE. -/
def execModeParked (d : Desc) (s : State) : Host.Outcome State Fault Refusal := s.ran (s.startRow d (decide (d.op = 0x03 ∧ d.in1 32 = 4)) startMode)

/-- MODE_SERVICE (R471): MODE with target SERVICE closes the loops and seeds them. -/
def execModeService (d : Desc) (s : State) : Host.Outcome State Fault Refusal := s.ran (s.startRow d (decide (d.op = 0x03 ∧ d.in1 32 = 5)) startMode)

/-- MODE_MAINTENANCE (R472): MODE with target MAINTENANCE takes a paddock or domain out of service. -/
def execModeMaintenance (d : Desc) (s : State) : Host.Outcome State Fault Refusal := s.ran (s.startRow d (decide (d.op = 0x03 ∧ d.in1 32 = 6)) startMode)

/-- NAP_ENTER (R478): POWER NAP_ENTER naps the paddocks of the mask. -/
def execNapEnter (d : Desc) (s : State) : Host.Outcome State Fault Refusal := s.ran (s.startRow d (decide (d.op = 0x04 ∧ d.in1 32 = 0)) startNapEnter)

/-- NAP_EXIT (R478): POWER NAP_EXIT wakes the paddocks of the mask. -/
def execNapExit (d : Desc) (s : State) : Host.Outcome State Fault Refusal := s.ran (s.startRow d (decide (d.op = 0x04 ∧ d.in1 32 = 1)) startNapExit)

/-- QUIESCE (R478): POWER QUIESCE enters the QUIESCE low-power state. -/
def execQuiesce (d : Desc) (s : State) : Host.Outcome State Fault Refusal := s.ran (s.startRow d (decide (d.op = 0x04 ∧ d.in1 32 = 2)) startQuiesce)

/-- DEEP (R478): POWER DEEP enters the DEEP low-power state after its completion is written. -/
def execDeep (d : Desc) (s : State) : Host.Outcome State Fault Refusal := s.ran (s.startRow d (decide (d.op = 0x04 ∧ d.in1 32 = 3)) startDeep)

/-- WAKE (R478): POWER WAKE leaves QUIESCE. -/
def execWake (d : Desc) (s : State) : Host.Outcome State Fault Refusal := s.ran (s.startRow d (decide (d.op = 0x04 ∧ d.in1 32 = 4)) startWake)

/-- PADDOCK_RESET (R478): POWER PADDOCK_RESET fences, resets and reloads one paddock. -/
def execPaddockReset (d : Desc) (s : State) : Host.Outcome State Fault Refusal := s.ran (s.startRow d (decide (d.op = 0x04 ∧ d.in1 32 = 5)) startPaddockReset)

/-- SHEPHERD_RESET (R478): POWER SHEPHERD_RESET resets one shepherd, handing over first if it is active. -/
def execShepherdReset (d : Desc) (s : State) : Host.Outcome State Fault Refusal := s.ran (s.startRow d (decide (d.op = 0x04 ∧ d.in1 32 = 6)) startShepherdReset)

/-- SOFT_RESET (R485): POWER SOFT_RESET restarts one shepherd's cores and aborts its running commands. -/
def execSoftReset (d : Desc) (s : State) : Host.Outcome State Fault Refusal := s.ran (s.startRow d (decide (d.op = 0x04 ∧ d.in1 32 = 7)) startSoftReset)

/-- MAP_LOAD (R53): validates a full map image in PARKED and installs it. -/
def execMapLoad (d : Desc) (s : State) : Host.Outcome State Fault Refusal := s.ran (s.startRow d (decide (d.op = 0x08)) startMap)

/-- DOMAIN_RELOAD (R53): validates and replaces the records of one out-of-service domain. -/
def execDomainReload (d : Desc) (s : State) : Host.Outcome State Fault Refusal := s.ran (s.startRow d (decide (d.op = 0x09)) startMap)

/-- SET_SPAN (R94): holds each loop, writes span and park code, waits for the sequence and re-seeds. -/
def execSetSpan (d : Desc) (s : State) : Host.Outcome State Fault Refusal := s.ran (s.startRow d (decide (d.op = 0x10)) startSetSpan)

/-- PARK (R94): PARK with ACTION park sets PARK = 1 on each listed channel. -/
def execPark (d : Desc) (s : State) : Host.Outcome State Fault Refusal := s.ran (s.startRow d (decide (d.op = 0x11 ∧ d.in1 32 = 0)) startParkList)

/-- PARK_RELEASE (R94): PARK with ACTION release seeds the loops from the park code and clears PARK. -/
def execParkRelease (d : Desc) (s : State) : Host.Outcome State Fault Refusal := s.ran (s.startRow d (decide (d.op = 0x11 ∧ d.in1 32 = 1)) startParkList)

/-- SET_SENSE (R118): writes sense settings, measures offsets after range or bias changes and waits for them. -/
def execSetSense (d : Desc) (s : State) : Host.Outcome State Fault Refusal := s.ran (s.startRow d (decide (d.op = 0x12)) startSetSense)

/-- SET_LOOP (R153): holds, rewrites and releases the loops of a list of loop images. -/
def execSetLoop (d : Desc) (s : State) : Host.Outcome State Fault Refusal := s.ran (s.startRow d (decide (d.op = 0x18)) startSetLoop)

/-- ARM_COMP (R153): arms competitors, allocating contiguous slots. -/
def execArmComp (d : Desc) (s : State) : Host.Outcome State Fault Refusal := s.ran (s.startRow d (decide (d.op = 0x19)) startArmComp)

/-- DISARM_COMP (R153): disarms one or all competitors of each listed channel. -/
def execDisarmComp (d : Desc) (s : State) : Host.Outcome State Fault Refusal := s.ran (s.startRow d (decide (d.op = 0x1A)) startDisarmComp)

/-- HOLD_LOOP (R153): sets HOLD on each listed channel and completes when it is in force. -/
def execHoldLoop (d : Desc) (s : State) : Host.Outcome State Fault Refusal := s.ran (s.startRow d (decide (d.op = 0x1B)) startHoldList)

/-- RELEASE_LOOP (R153): clears HOLD on each listed channel. -/
def execReleaseLoop (d : Desc) (s : State) : Host.Outcome State Fault Refusal := s.ran (s.startRow d (decide (d.op = 0x1C)) startHoldList)

/-- SEED_LOOP (R153): seeds each listed loop to a position. -/
def execSeedLoop (d : Desc) (s : State) : Host.Outcome State Fault Refusal := s.ran (s.startRow d (decide (d.op = 0x1D)) startSeedList)

/-- SET_COMP (R184): applies hysteresis, ripple and control words per channel through the staging window. -/
def execSetComp (d : Desc) (s : State) : Host.Outcome State Fault Refusal := s.ran (s.startRow d (decide (d.op = 0x20)) startSetComp)

/-- SET_XTALK (R184): paces coefficients into the update queue and completes when the last drains. -/
def execSetXtalk (d : Desc) (s : State) : Host.Outcome State Fault Refusal := s.ran (s.startRow d (decide (d.op = 0x21)) startSetXtalk)

/-- SET_FIT (R184): sets the fit parameters, FIT bits and EN. -/
def execSetFit (d : Desc) (s : State) : Host.Outcome State Fault Refusal := s.ran (s.startRow d (decide (d.op = 0x22)) startSetFit)

/-- REVERT_FIT (R180): queues the anchor of every coefficient that differs from it while the fit is off. -/
def execRevertFit (d : Desc) (s : State) : Host.Outcome State Fault Refusal := s.ran (s.startRow d (decide (d.op = 0x23)) startRevertFit)

/-- FIT_LOG_READ (R182): writes whole fit-log records, oldest first, to host memory. -/
def execFitLogRead (d : Desc) (s : State) : Host.Outcome State Fault Refusal := s.ran (s.startRow d (decide (d.op = 0x24)) startFitLogRead)

/-- FIT_LOG_FREE (R182): frees whole oldest fit-log records. -/
def execFitLogFree (d : Desc) (s : State) : Host.Outcome State Fault Refusal := s.ran (s.startRow d (decide (d.op = 0x25)) startFitLogFree)

end Sys2Proof.Machine
end

