-- ==== Sys2Proof/Machine/CmdPlan.lean ====
section
/-! DEFINITION. Descriptors of plans, turnouts, surveys, the recorder, alarms, time and security: the meanings of their rows. -/

namespace Sys2Proof.Machine

/-- PLAN_ROUTE (R220): routes a permutation, builds the slot and writes the report. -/
def execPlanRoute (d : Desc) (s : State) : Host.Outcome State Fault Refusal := s.ran (s.startRow d (decide (d.op = 0x28)) startPlan)

/-- PLAN_CELLS (R205): traces a cell-state array into a plan and builds the slot. -/
def execPlanCells (d : Desc) (s : State) : Host.Outcome State Fault Refusal := s.ran (s.startRow d (decide (d.op = 0x29)) startPlan)

/-- PLAN_DIRECT (R206): builds a direct-map domain's slot from per-element positions. -/
def execPlanDirect (d : Desc) (s : State) : Host.Outcome State Fault Refusal := s.ran (s.startRow d (decide (d.op = 0x2A)) startPlan)

/-- PLAN_FREE (R190): empties a slot that is not busy. -/
def execPlanFree (d : Desc) (s : State) : Host.Outcome State Fault Refusal := s.ran (s.startRow d (decide (d.op = 0x2B)) startPlan)

/-- PLAN_REFRESH (R209): rebuilds every CODE of a READY or LIVE slot from its FF fields. -/
def execPlanRefresh (d : Desc) (s : State) : Host.Outcome State Fault Refusal := s.ran (s.startRow d (decide (d.op = 0x2C)) startPlan)

/-- PLAN_STORE (R215): copies a READY or LIVE slot into a library record. -/
def execPlanStore (d : Desc) (s : State) : Host.Outcome State Fault Refusal := s.ran (s.startRow d (decide (d.op = 0x2D)) startPlan)

/-- PLAN_LOAD (R215): copies a library record into a slot and rebuilds its codes. -/
def execPlanLoad (d : Desc) (s : State) : Host.Outcome State Fault Refusal := s.ran (s.startRow d (decide (d.op = 0x2E)) startPlan)

/-- PLAN_IMPORT (R215): writes a library record from host memory. -/
def execPlanImport (d : Desc) (s : State) : Host.Outcome State Fault Refusal := s.ran (s.startRow d (decide (d.op = 0x2F)) startPlan)

/-- PLAN_EXPORT (R215): writes a library record to host memory. -/
def execPlanExport (d : Desc) (s : State) : Host.Outcome State Fault Refusal := s.ran (s.startRow d (decide (d.op = 0x30)) startPlan)

/-- PLAN_DELETE (R215): removes a library record. -/
def execPlanDelete (d : Desc) (s : State) : Host.Outcome State Fault Refusal := s.ran (s.startRow d (decide (d.op = 0x31)) startPlan)

/-- TURNOUT (R235): adds one turnout entry to its domain's list. -/
def execTurnout (d : Desc) (s : State) : Host.Outcome State Fault Refusal := s.ran (s.startRow d (decide (d.op = 0x38)) startTurnout)

/-- TURNOUT_LIST_ADD (R235): A turnout list with MODE ADD adds its entries whole or not at all. -/
def execTurnoutListAdd (d : Desc) (s : State) : Host.Outcome State Fault Refusal := s.ran (s.startRow d (decide (d.op = 0x39 ∧ d.payByte 1 = 0)) startTurnoutList)

/-- TURNOUT_LIST_REPLACE (R237): A turnout list with MODE REPLACE displaces entries from the takeover and adds new ones. -/
def execTurnoutListReplace (d : Desc) (s : State) : Host.Outcome State Fault Refusal := s.ran (s.startRow d (decide (d.op = 0x39 ∧ d.payByte 1 = 1)) startTurnoutList)

/-- TURNOUT_CANCEL (R238): removes the domain's pending entries with a given TAG, or all. -/
def execTurnoutCancel (d : Desc) (s : State) : Host.Outcome State Fault Refusal := s.ran (s.startRow d (decide (d.op = 0x3A)) startTurnoutCancel)

/-- ROTATION_LIST (R242): loads a rotation list as running or pending list of a bellwether domain. -/
def execRotationList (d : Desc) (s : State) : Host.Outcome State Fault Refusal := s.ran (s.startRow d (decide (d.op = 0x3B)) startRotationList)

/-- ROTATION_STOP (R243): loads an empty pending list that stops the rotation at its takeover. -/
def execRotationStop (d : Desc) (s : State) : Host.Outcome State Fault Refusal := s.ran (s.startRow d (decide (d.op = 0x3C)) startRotationStop)

/-- SURVEY (R254): starts a survey of converters and elements in the requested scope. -/
def execSurvey (d : Desc) (s : State) : Host.Outcome State Fault Refusal := s.ran (s.startRow d (decide (d.op = 0x40)) startSurvey)

/-- SURVEY_ABORT (R282): stops sweeping at the next boundary; unfinished elements report ABORTED. -/
def execSurveyAbort (d : Desc) (s : State) : Host.Outcome State Fault Refusal := s.ran (s.startRow d (decide (d.op = 0x41)) startSurveyAbort)

/-- SURVEY_EXPORT (R280): writes the survey results image to host memory. -/
def execSurveyExport (d : Desc) (s : State) : Host.Outcome State Fault Refusal := s.ran (s.startRow d (decide (d.op = 0x42)) startSurveyExport)

/-- HANDOVER (R319): waits for repair, writes HANDOVER and completes when the new roles are in force. -/
def execHandover (d : Desc) (s : State) : Host.Outcome State Fault Refusal := s.ran (s.startRow d (decide (d.op = 0x48)) startHandover)

/-- RESYNC (R319): writes RESYNC_PEER and completes at the end of STATE. -/
def execResync (d : Desc) (s : State) : Host.Outcome State Fault Refusal := s.ran (s.startRow d (decide (d.op = 0x49)) startResync)

/-- REC_CONFIG (R426): accepts or refuses a recorder configuration of groups. -/
def execRecConfig (d : Desc) (s : State) : Host.Outcome State Fault Refusal := s.ran (s.startRow d (decide (d.op = 0x50)) startRecConfig)

/-- REC_FREEZE (R429): REC_CONTROL FREEZE triggers the recorder with its own POST. -/
def execRecFreeze (d : Desc) (s : State) : Host.Outcome State Fault Refusal := s.ran (s.startRow d (decide (d.op = 0x51 ∧ d.in1 32 = 0)) startRecControl)

/-- REC_RESUME (R429): REC_CONTROL RESUME continues a frozen ring after its newest frame. -/
def execRecResume (d : Desc) (s : State) : Host.Outcome State Fault Refusal := s.ran (s.startRow d (decide (d.op = 0x51 ∧ d.in1 32 = 1)) startRecControl)

/-- REC_STOP (R429): REC_CONTROL STOP sets the recorder IDLE and keeps the ring. -/
def execRecStop (d : Desc) (s : State) : Host.Outcome State Fault Refusal := s.ran (s.startRow d (decide (d.op = 0x51 ∧ d.in1 32 = 2)) startRecControl)

/-- REC_READ (R430): copies recorder frames of each shepherd's ring to its destination. -/
def execRecRead (d : Desc) (s : State) : Host.Outcome State Fault Refusal := s.ran (s.startRow d (decide (d.op = 0x52)) startRecRead)

/-- MARCH (R444): runs the march engine destructively or preserving on a range of banks. -/
def execMarch (d : Desc) (s : State) : Host.Outcome State Fault Refusal := s.ran (s.startRow d (decide (d.op = 0x53)) startMarch)

/-- MUSTER_READ (R530): writes a closed window's muster bitmap to host memory. -/
def execMusterRead (d : Desc) (s : State) : Host.Outcome State Fault Refusal := s.ran (s.startRow d (decide (d.op = 0x58)) startMusterRead)

/-- ALARM_CONFIG (R531): ALARM_CFG CONFIG sets alarm classes, FAULT_N bits, WINDOW and COVER. -/
def execAlarmConfig (d : Desc) (s : State) : Host.Outcome State Fault Refusal := s.ran (s.startRow d (decide (d.op = 0x59 ∧ d.in1 36 = 0)) startAlarmCfg)

/-- ALARM_RELEASE (R531): ALARM_CFG RELEASE releases parked domains, free elements and cleared flocks. -/
def execAlarmRelease (d : Desc) (s : State) : Host.Outcome State Fault Refusal := s.ran (s.startRow d (decide (d.op = 0x59 ∧ d.in1 36 = 1)) startAlarmCfg)

/-- TIME_READ (R389): TIME READ writes the latched device time and increment to host memory. -/
def execTimeRead (d : Desc) (s : State) : Host.Outcome State Fault Refusal := s.ran (s.startRow d (decide (d.op = 0x5C ∧ d.in1 32 = 0)) startTime)

/-- TIME_SET (R381): TIME SET replaces the full device time at one edge as a step. -/
def execTimeSet (d : Desc) (s : State) : Host.Outcome State Fault Refusal := s.ran (s.startRow d (decide (d.op = 0x5C ∧ d.in1 32 = 1)) startTime)

/-- PTP_CONFIG (R390): TIME PTP_CONFIG applies a PTP configuration record at the next Announce interval. -/
def execPtpConfig (d : Desc) (s : State) : Host.Outcome State Fault Refusal := s.ran (s.startRow d (decide (d.op = 0x5C ∧ d.in1 32 = 2)) startTime)

/-- PORT_MEASURE (R389): TIME PORT_MEASURE loops a port back and returns its round trip. -/
def execPortMeasure (d : Desc) (s : State) : Host.Outcome State Fault Refusal := s.ran (s.startRow d (decide (d.op = 0x5C ∧ d.in1 32 = 3)) startTime)

/-- GATE_LIST (R402): loads a gate list for one port as its pending list. -/
def execGateList (d : Desc) (s : State) : Host.Outcome State Fault Refusal := s.ran (s.startRow d (decide (d.op = 0x5D)) startGateList)

/-- POLICER (R408): writes stream table entries with full buckets. -/
def execPolicer (d : Desc) (s : State) : Host.Outcome State Fault Refusal := s.ran (s.startRow d (decide (d.op = 0x5E)) startPolicer)

/-- LIFECYCLE (R495): checks a life-cycle transition and its token and burns the fuse. -/
def execLifecycle (d : Desc) (burned : Bool) (s : State) : Host.Outcome State Fault Refusal := s.ran (s.startRow d (decide (d.op = 0x60)) (fun d => startLifecycle d burned))

/-- DEBUG_TOKEN (R505): verifies a debug token against the challenge and sets the debug level. -/
def execDebugToken (d : Desc) (s : State) : Host.Outcome State Fault Refusal := s.ran (s.startRow d (decide (d.op = 0x61)) startDebugToken)

/-- CONTROL_KEY_PROVISION (R501): KEY_PROVISION kind 0x01 stores a control-frame key and resets its replay counter. -/
def execControlKeyProvision (d : Desc) (ok : Bool) (s : State) : Host.Outcome State Fault Refusal := s.ran (s.startRow d (decide (d.op = 0x62 ∧ d.payByte 0 = 1)) (fun d => startKeyProvision d ok))

/-- OWNER_DEBUG_KEY (R501): KEY_PROVISION kind 0x02 stores the owner debug public key. -/
def execOwnerDebugKey (d : Desc) (ok : Bool) (s : State) : Host.Outcome State Fault Refusal := s.ran (s.startRow d (decide (d.op = 0x62 ∧ d.payByte 0 = 2)) (fun d => startKeyProvision d ok))

/-- KEY_ERASE (R501): KEY_PROVISION kind 0x03 erases a key. -/
def execKeyErase (d : Desc) (ok : Bool) (s : State) : Host.Outcome State Fault Refusal := s.ran (s.startRow d (decide (d.op = 0x62 ∧ d.payByte 0 = 3)) (fun d => startKeyProvision d ok))

/-- RECORDER_KEEP (R509): KEY_PROVISION kind 0x04 sets the owner's recorder-keep setting. -/
def execRecorderKeep (d : Desc) (ok : Bool) (s : State) : Host.Outcome State Fault Refusal := s.ran (s.startRow d (decide (d.op = 0x62 ∧ d.payByte 0 = 4)) (fun d => startKeyProvision d ok))

/-- FW_WRITE (R499): FW_UPDATE WRITE checks an image and writes it to a slot. -/
def execFwWrite (d : Desc) (s : State) : Host.Outcome State Fault Refusal := s.ran (s.startRow d (decide (d.op = 0x63 ∧ d.in1 32 = 0)) startFwWrite)

/-- FW_INFO (R499): FW_UPDATE INFO writes both slot headers and the boot pointer. -/
def execFwInfo (d : Desc) (s : State) : Host.Outcome State Fault Refusal := s.ran (s.startRow d (decide (d.op = 0x63 ∧ d.in1 32 = 1)) startFwInfo)

/-- FW_SELECT (R499): FW_UPDATE SELECT sets the boot pointer to a slot. -/
def execFwSelect (d : Desc) (ok : Bool) (s : State) : Host.Outcome State Fault Refusal := s.ran (s.startRow d (decide (d.op = 0x63 ∧ d.in1 32 = 2)) (fun d => startFwSelect d ok))

/-- FW_RAISE_SVN (R499): FW_UPDATE RAISE_SVN raises the fused minimum SVN to the running SVN. -/
def execFwRaiseSvn (d : Desc) (burned : Bool) (s : State) : Host.Outcome State Fault Refusal := s.ran (s.startRow d (decide (d.op = 0x63 ∧ d.in1 32 = 3)) (fun d => startFwRaise d burned))

/-- TELEMETRY_CFG (R350): writes the telemetry interval and source mask. -/
def execTelemetryCfg (d : Desc) (s : State) : Host.Outcome State Fault Refusal := s.ran (s.startRow d (decide (d.op = 0x68)) startTelemetryCfg)

end Sys2Proof.Machine
end

