-- ==== Sys2Proof/Machine/Dispatch.lean ====
section
/-! DEFINITION. One arm per command: each calls its meaning. -/

namespace Sys2Proof.Machine

def exec (i : Instr) (s : State) : Host.Outcome State Fault Refusal :=
  match i with
  | .por => Sys2Proof.Machine.execPor s
  | .resetNAssert => Sys2Proof.Machine.execResetNAssert s
  | .pllLossOfLock => Sys2Proof.Machine.execPllLossOfLock s
  | .resetEnd straps => Sys2Proof.Machine.execResetEnd straps s
  | .perstAssert x => Sys2Proof.Machine.execPerstAssert x s
  | .pcieHotReset x => Sys2Proof.Machine.execPcieHotReset x s
  | .functionLevelReset x => Sys2Proof.Machine.execFunctionLevelReset x s
  | .watchdogExpiry x => Sys2Proof.Machine.execWatchdogExpiry x s
  | .railBelowThreshold r => Sys2Proof.Machine.execRailBelowThreshold r s
  | .railRestored r => Sys2Proof.Machine.execRailRestored r s
  | .vdrLow p => Sys2Proof.Machine.execVdrLow p s
  | .vhtrOutOfRange p high => Sys2Proof.Machine.execVhtrOutOfRange p high s
  | .paddockResetRelease p => Sys2Proof.Machine.execPaddockResetRelease p s
  | .paddockReloadDone p => Sys2Proof.Machine.execPaddockReloadDone p s
  | .bootComplete x b => Sys2Proof.Machine.execBootComplete x b s
  | .claimWindowExpiry => Sys2Proof.Machine.execClaimWindowExpiry s
  | .converterCalibrationDone cals darks => Sys2Proof.Machine.execConverterCalibrationDone cals darks s
  | .refvWindowFault p refv => Sys2Proof.Machine.execRefvWindowFault p refv s
  | .droopTrip x mask => Sys2Proof.Machine.execDroopTrip x mask s
  | .stretchHoldEnd x periods => Sys2Proof.Machine.execStretchHoldEnd x periods s
  | .clearNFall => Sys2Proof.Machine.execClearNFall s
  | .clearNRise => Sys2Proof.Machine.execClearNRise s
  | .flockRelease => Sys2Proof.Machine.execFlockRelease s
  | .flockStbEdge pin falling => Sys2Proof.Machine.execFlockStbEdge pin falling s
  | .wakeNFall => Sys2Proof.Machine.execWakeNFall s
  | .lowPowerExitDone => Sys2Proof.Machine.execLowPowerExitDone s
  | .ppsInEdge => Sys2Proof.Machine.execPpsInEdge s
  | .tickBoundary info => Sys2Proof.Machine.execTickBoundary info s
  | .senseFrameReceive x p noise => Sys2Proof.Machine.execSenseFrameReceive x p s noise
  | .senseFrameDeadline x p => Sys2Proof.Machine.execSenseFrameDeadline x p s
  | .loopEvaluation x cap => Sys2Proof.Machine.execLoopEvaluation x cap s
  | .windowResult x m => Sys2Proof.Machine.execWindowResult x m s
  | .settlingEnd c => Sys2Proof.Machine.execSettlingEnd c s
  | .loopOverrun x => Sys2Proof.Machine.execLoopOverrun x s
  | .loopSat c => Sys2Proof.Machine.execLoopSat c s
  | .loopError c => Sys2Proof.Machine.execLoopError c s
  | .senseOver m => Sys2Proof.Machine.execSenseOver m s
  | .voidPeriodEnd m => Sys2Proof.Machine.execVoidPeriodEnd m s
  | .darkMeasureDone m sum => Sys2Proof.Machine.execDarkMeasureDone m sum s
  | .complianceSet c => Sys2Proof.Machine.execComplianceSet c s
  | .complianceClear c => Sys2Proof.Machine.execComplianceClear c s
  | .junctionHot => Sys2Proof.Machine.execJunctionHot s
  | .loopOutputFrameReceive x p noise => Sys2Proof.Machine.execLoopOutputFrameReceive x p noise s
  | .copyRecordSend => Sys2Proof.Machine.execCopyRecordSend s
  | .copyRecordReceive ok => Sys2Proof.Machine.execCopyRecordReceive ok s
  | .copyMissLimit => Sys2Proof.Machine.execCopyMissLimit s
  | .divergenceLimit => Sys2Proof.Machine.execDivergenceLimit s
  | .shepherdLost x => Sys2Proof.Machine.execShepherdLost x s
  | .handoverGrant => Sys2Proof.Machine.execHandoverGrant s
  | .resyncBankDone => Sys2Proof.Machine.execResyncBankDone s
  | .resyncLibraryDone => Sys2Proof.Machine.execResyncLibraryDone s
  | .resyncStateDone => Sys2Proof.Machine.execResyncStateDone s
  | .resyncTimeout => Sys2Proof.Machine.execResyncTimeout s
  | .stageFrame x p noise => Sys2Proof.Machine.execStageFrame x p noise s
  | .commitFrame x p noise => Sys2Proof.Machine.execCommitFrame x p noise s
  | .retimeFrame x p noise => Sys2Proof.Machine.execRetimeFrame x p noise s
  | .cancelFrame x p noise => Sys2Proof.Machine.execCancelFrame x p noise s
  | .controlFrameGap p => Sys2Proof.Machine.execControlFrameGap p s
  | .stagingStart => Sys2Proof.Machine.execStagingStart s
  | .stagingComplete dom => Sys2Proof.Machine.execStagingComplete dom s
  | .lateStage dom => Sys2Proof.Machine.execLateStage dom s
  | .commitFire dom => Sys2Proof.Machine.execCommitFire dom s
  | .commitLoopSeed dom => Sys2Proof.Machine.execCommitLoopSeed dom s
  | .rotationTakeover dom => Sys2Proof.Machine.execRotationTakeover dom s
  | .sequencerTimeStep => Sys2Proof.Machine.execSequencerTimeStep s
  | .routeComplete cycles => Sys2Proof.Machine.execRouteComplete cycles s
  | .imageBuildDone => Sys2Proof.Machine.execImageBuildDone s
  | .positionTrack => Sys2Proof.Machine.execPositionTrack s
  | .mapValidationDone => Sys2Proof.Machine.execMapValidationDone s
  | .mapTakesEffect => Sys2Proof.Machine.execMapTakesEffect s
  | .spanChangeSwitchOpen c => Sys2Proof.Machine.execSpanChangeSwitchOpen c s
  | .spanChangeSwitchClose c => Sys2Proof.Machine.execSpanChangeSwitchClose c s
  | .spanChangeEnd c => Sys2Proof.Machine.execSpanChangeEnd c s
  | .spanConfigEnd c => Sys2Proof.Machine.execSpanConfigEnd c s
  | .crosstalkPassStart x => Sys2Proof.Machine.execCrosstalkPassStart x s
  | .crosstalkPassDone x => Sys2Proof.Machine.execCrosstalkPassDone x s
  | .crosstalkTermsInForce x => Sys2Proof.Machine.execCrosstalkTermsInForce x s
  | .surveyPointDone => Sys2Proof.Machine.execSurveyPointDone s
  | .doorbellPoll x line => Sys2Proof.Machine.execDoorbellPoll x line s
  | .descriptorFetchDone x ring ds => Sys2Proof.Machine.execDescriptorFetchDone x ring ds s
  | .hostReadError x w => Sys2Proof.Machine.execHostReadError x w s
  | .statusLineWrite x => Sys2Proof.Machine.execStatusLineWrite x s
  | .irqHoldoffEnd x vec => Sys2Proof.Machine.execIrqHoldoffEnd x vec s
  | .heldCompletionFlush x => Sys2Proof.Machine.execHeldCompletionFlush x s
  | .eventLogFlush x => Sys2Proof.Machine.execEventLogFlush x s
  | .telemetryInterval power headroom => Sys2Proof.Machine.execTelemetryInterval power headroom s
  | .ethFrameReceive port f fcs => Sys2Proof.Machine.execEthFrameReceive port f fcs s
  | .controlFrameReceive => Sys2Proof.Machine.execControlFrameReceive s
  | .ethFrameOffer x differs => Sys2Proof.Machine.execEthFrameOffer x differs s
  | .transmitSelection port late => Sys2Proof.Machine.execTransmitSelection port late s
  | .gateEntryStart port => Sys2Proof.Machine.execGateEntryStart port s
  | .gateListTakeover port => Sys2Proof.Machine.execGateListTakeover port s
  | .supervisionFrame pair => Sys2Proof.Machine.execSupervisionFrame pair s
  | .tableEntryForget pair => Sys2Proof.Machine.execTableEntryForget pair s
  | .telemetryFrameSend => Sys2Proof.Machine.execTelemetryFrameSend s
  | .ptpMessageReceive port m => Sys2Proof.Machine.execPtpMessageReceive port m s
  | .ptpPortMove => Sys2Proof.Machine.execPtpPortMove s
  | .servoSample x pd ofs => Sys2Proof.Machine.execServoSample x pd ofs s
  | .asymHoldEnd x => Sys2Proof.Machine.execAsymHoldEnd x s
  | .holdover x => Sys2Proof.Machine.execHoldover x s
  | .timeWrap => Sys2Proof.Machine.execTimeWrap s
  | .ppsOutPulse => Sys2Proof.Machine.execPpsOutPulse s
  | .recorderConfigEffect => Sys2Proof.Machine.execRecorderConfigEffect s
  | .recorderPostEnd x => Sys2Proof.Machine.execRecorderPostEnd x s
  | .foldEccError x ue u => Sys2Proof.Machine.execFoldEccError x ue u s
  | .bankEccError x double bank word off => Sys2Proof.Machine.execBankEccError x double bank word off s
  | .matrixAccessRefused x master target write addr beats => Sys2Proof.Machine.execMatrixAccessRefused x master target write addr s beats
  | .musterWindowClose => Sys2Proof.Machine.execMusterWindowClose s
  | .faultReaction => Sys2Proof.Machine.execFaultReaction s
  | .lifecycleReset => Sys2Proof.Machine.execLifecycleReset s
  | .jtagToken t burned => Sys2Proof.Machine.execJtagToken t burned s
  | .jtagCoreHalt x => Sys2Proof.Machine.execJtagCoreHalt x s
  | .smbusRead cmd power => Sys2Proof.Machine.execSmbusRead cmd power s
  | .tecLoopUpdate t meas => Sys2Proof.Machine.execTecLoopUpdate t meas s
  | .registerWrite x addr bytes jtag => Sys2Proof.Machine.execRegisterWrite x addr bytes s jtag
  | .timNowRead path addr len => Sys2Proof.Machine.execTimNowRead path s addr len
  | .drvChCtrlWrite x c v => Sys2Proof.Machine.execDrvChCtrlWrite x c v s
  | .drvFlockStrobe x w v => Sys2Proof.Machine.execDrvFlockStrobe x w v s
  | .snsChCtrlWrite x m v => Sys2Proof.Machine.execSnsChCtrlWrite x m v s
  | .snsMeasure x m v => Sys2Proof.Machine.execSnsMeasure x m v s
  | .snsLinkErrClear x p => Sys2Proof.Machine.execSnsLinkErrClear x p s
  | .loopCtrlWrite x c v => Sys2Proof.Machine.execLoopCtrlWrite x c v s
  | .loopIntSeed x c v => Sys2Proof.Machine.execLoopIntSeed x c v s
  | .loopClrCnt x v => Sys2Proof.Machine.execLoopClrCnt x v s
  | .cmpWinSelWrite x v => Sys2Proof.Machine.execCmpWinSelWrite x v s
  | .xtCoefWrite x w v => Sys2Proof.Machine.execXtCoefWrite x w v s
  | .cmpStageApply x v => Sys2Proof.Machine.execCmpStageApply x v s
  | .cmpPeriodWrite x v => Sys2Proof.Machine.execCmpPeriodWrite x v s
  | .seqArmGo x v => Sys2Proof.Machine.execSeqArmGo x v s
  | .seqArmCancel x v => Sys2Proof.Machine.execSeqArmCancel x v s
  | .seqMarginWrite x v => Sys2Proof.Machine.execSeqMarginWrite x v s
  | .shpHandover x v => Sys2Proof.Machine.execShpHandover x v s
  | .shpResyncPeer x v => Sys2Proof.Machine.execShpResyncPeer x v s
  | .shpDetachPeer x v => Sys2Proof.Machine.execShpDetachPeer x v s
  | .shpClrCnt x v => Sys2Proof.Machine.execShpClrCnt x v s
  | .shpHostDivReport x v => Sys2Proof.Machine.execShpHostDivReport x v s
  | .hifCmdEnable x ring v => Sys2Proof.Machine.execHifCmdEnable x ring v s
  | .hifRingEnable x k v => Sys2Proof.Machine.execHifRingEnable x k v s
  | .timIncrWrite x v => Sys2Proof.Machine.execTimIncrWrite x v s
  | .almInjectWrite x v => Sys2Proof.Machine.execAlmInjectWrite x v s
  | .almReleaseWrite x k v => Sys2Proof.Machine.execAlmReleaseWrite x k v s
  | .pwrWakeWrite x v => Sys2Proof.Machine.execPwrWakeWrite x v s
  | .rstShpReset x v => Sys2Proof.Machine.execRstShpReset x v s
  | .rstSoftReset x v => Sys2Proof.Machine.execRstSoftReset x v s
  | .rstPdkReset x v => Sys2Proof.Machine.execRstPdkReset x v s
  | .lcsLockSet x => Sys2Proof.Machine.execLcsLockSet x s
  | .lcsRelock via => Sys2Proof.Machine.execLcsRelock via s
  | .glbLoadStart x v => Sys2Proof.Machine.execGlbLoadStart x v s
  | .clkXingFenceWrite x v => Sys2Proof.Machine.execClkXingFenceWrite x v s
  | .fldLayoutWrite x fitlog v => Sys2Proof.Machine.execFldLayoutWrite x fitlog v s
  | .nop d => Sys2Proof.Machine.execNop d s
  | .reservedOpcode d => Sys2Proof.Machine.execReservedOpcode d s
  | .setup d => Sys2Proof.Machine.execSetup d s
  | .setupLock d => Sys2Proof.Machine.execSetupLock d s
  | .modeParked d => Sys2Proof.Machine.execModeParked d s
  | .modeService d => Sys2Proof.Machine.execModeService d s
  | .modeMaintenance d => Sys2Proof.Machine.execModeMaintenance d s
  | .napEnter d => Sys2Proof.Machine.execNapEnter d s
  | .napExit d => Sys2Proof.Machine.execNapExit d s
  | .quiesce d => Sys2Proof.Machine.execQuiesce d s
  | .deep d => Sys2Proof.Machine.execDeep d s
  | .wake d => Sys2Proof.Machine.execWake d s
  | .paddockReset d => Sys2Proof.Machine.execPaddockReset d s
  | .shepherdReset d => Sys2Proof.Machine.execShepherdReset d s
  | .softReset d => Sys2Proof.Machine.execSoftReset d s
  | .mapLoad d => Sys2Proof.Machine.execMapLoad d s
  | .domainReload d => Sys2Proof.Machine.execDomainReload d s
  | .setSpan d => Sys2Proof.Machine.execSetSpan d s
  | .park d => Sys2Proof.Machine.execPark d s
  | .parkRelease d => Sys2Proof.Machine.execParkRelease d s
  | .setSense d => Sys2Proof.Machine.execSetSense d s
  | .setLoop d => Sys2Proof.Machine.execSetLoop d s
  | .armComp d => Sys2Proof.Machine.execArmComp d s
  | .disarmComp d => Sys2Proof.Machine.execDisarmComp d s
  | .holdLoop d => Sys2Proof.Machine.execHoldLoop d s
  | .releaseLoop d => Sys2Proof.Machine.execReleaseLoop d s
  | .seedLoop d => Sys2Proof.Machine.execSeedLoop d s
  | .setComp d => Sys2Proof.Machine.execSetComp d s
  | .setXtalk d => Sys2Proof.Machine.execSetXtalk d s
  | .setFit d => Sys2Proof.Machine.execSetFit d s
  | .revertFit d => Sys2Proof.Machine.execRevertFit d s
  | .fitLogRead d => Sys2Proof.Machine.execFitLogRead d s
  | .fitLogFree d => Sys2Proof.Machine.execFitLogFree d s
  | .planRoute d => Sys2Proof.Machine.execPlanRoute d s
  | .planCells d => Sys2Proof.Machine.execPlanCells d s
  | .planDirect d => Sys2Proof.Machine.execPlanDirect d s
  | .planFree d => Sys2Proof.Machine.execPlanFree d s
  | .planRefresh d => Sys2Proof.Machine.execPlanRefresh d s
  | .planStore d => Sys2Proof.Machine.execPlanStore d s
  | .planLoad d => Sys2Proof.Machine.execPlanLoad d s
  | .planImport d => Sys2Proof.Machine.execPlanImport d s
  | .planExport d => Sys2Proof.Machine.execPlanExport d s
  | .planDelete d => Sys2Proof.Machine.execPlanDelete d s
  | .turnout d => Sys2Proof.Machine.execTurnout d s
  | .turnoutListAdd d => Sys2Proof.Machine.execTurnoutListAdd d s
  | .turnoutListReplace d => Sys2Proof.Machine.execTurnoutListReplace d s
  | .turnoutCancel d => Sys2Proof.Machine.execTurnoutCancel d s
  | .rotationList d => Sys2Proof.Machine.execRotationList d s
  | .rotationStop d => Sys2Proof.Machine.execRotationStop d s
  | .survey d => Sys2Proof.Machine.execSurvey d s
  | .surveyAbort d => Sys2Proof.Machine.execSurveyAbort d s
  | .surveyExport d => Sys2Proof.Machine.execSurveyExport d s
  | .handover d => Sys2Proof.Machine.execHandover d s
  | .resync d => Sys2Proof.Machine.execResync d s
  | .recConfig d => Sys2Proof.Machine.execRecConfig d s
  | .recFreeze d => Sys2Proof.Machine.execRecFreeze d s
  | .recResume d => Sys2Proof.Machine.execRecResume d s
  | .recStop d => Sys2Proof.Machine.execRecStop d s
  | .recRead d => Sys2Proof.Machine.execRecRead d s
  | .march d => Sys2Proof.Machine.execMarch d s
  | .musterRead d => Sys2Proof.Machine.execMusterRead d s
  | .alarmConfig d => Sys2Proof.Machine.execAlarmConfig d s
  | .alarmRelease d => Sys2Proof.Machine.execAlarmRelease d s
  | .timeRead d => Sys2Proof.Machine.execTimeRead d s
  | .timeSet d => Sys2Proof.Machine.execTimeSet d s
  | .ptpConfig d => Sys2Proof.Machine.execPtpConfig d s
  | .portMeasure d => Sys2Proof.Machine.execPortMeasure d s
  | .gateList d => Sys2Proof.Machine.execGateList d s
  | .policer d => Sys2Proof.Machine.execPolicer d s
  | .lifecycle d burned => Sys2Proof.Machine.execLifecycle d burned s
  | .debugToken d => Sys2Proof.Machine.execDebugToken d s
  | .controlKeyProvision d ok => Sys2Proof.Machine.execControlKeyProvision d ok s
  | .ownerDebugKey d ok => Sys2Proof.Machine.execOwnerDebugKey d ok s
  | .keyErase d ok => Sys2Proof.Machine.execKeyErase d ok s
  | .recorderKeep d ok => Sys2Proof.Machine.execRecorderKeep d ok s
  | .fwWrite d => Sys2Proof.Machine.execFwWrite d s
  | .fwInfo d => Sys2Proof.Machine.execFwInfo d s
  | .fwSelect d ok => Sys2Proof.Machine.execFwSelect d ok s
  | .fwRaiseSvn d burned => Sys2Proof.Machine.execFwRaiseSvn d burned s
  | .telemetryCfg d => Sys2Proof.Machine.execTelemetryCfg d s
  | .perstRelease x => Sys2Proof.Machine.execPerstRelease x s
  | .ethLinkChange port up => Sys2Proof.Machine.execEthLinkChange port up s
  | .vparkOutOfRange p => Sys2Proof.Machine.execVparkOutOfRange p s
  | .ptpMessageTimer kind => Sys2Proof.Machine.execPtpMessageTimer kind s
  | .marchDone a b => Sys2Proof.Machine.execMarchDone a b s
  | .portMeasureDone rtt => Sys2Proof.Machine.execPortMeasureDone rtt s
  | .fwStoreWriteDone ok => Sys2Proof.Machine.execFwStoreWriteDone ok s
  | .loadCheckDone x => Sys2Proof.Machine.execLoadCheckDone x s

end Sys2Proof.Machine
end

