-- ==== Sys2Proof/Safety.lean ====
section
/-! DEFINITION. What the claims call safe: the fuses of the life cycle, which no command and no reset may take back (R493 to R495, R514),
and the canonical form of the register words. -/

namespace Sys2Proof.Machine

/-- The reset word of a key of the register words. -/
def resetAt (k : Nat) : Word := resetWord (k % 0x10000000)

/-- The register words are in their one canonical form: keys rising, and no word listed that equals its reset word. -/
abbrev State.regsWf (s : State) : Prop := Tab.wf resetAt s.regs = true

/-- A life-cycle change that is due leads along R494's table from the state that is in force. -/
def State.lifeOk (s : State) : Bool :=
  match s.fuses.due with
  | none => true
  | some (_, target) => (transition s.fuses.life target).isSome

/-- Fuses g come after fuses f: the life-cycle state is the same or one transition of R494's table further, and the minimum SVN has not fallen. -/
def Fuses.leadsTo (f g : Fuses) : Prop := (g.life = f.life ∨ transition f.life g.life ≠ none) ∧ f.svnMin ≤ g.svnMin

end Sys2Proof.Machine
end

