-- ==== Sys2Proof/WellFormed.lean ====
section
/-! DEFINITION. Which terms of Instr stand for commands that the block can be given: numbers within the ranges that the spec gives them, and
descriptors of the row's opcode, subcommand and kind (R9, R17, R27, R336, R338). -/

namespace Sys2Proof

/-- The opcodes of the descriptor table (R338). -/
def rowOps : List Nat :=
  [0x00, 0x01, 0x02, 0x03, 0x04, 0x08, 0x09, 0x10, 0x11, 0x12, 0x18, 0x19, 0x1A, 0x1B, 0x1C, 0x1D, 0x20, 0x21, 0x22, 0x23, 0x24, 0x25] ++
  [0x28, 0x29, 0x2A, 0x2B, 0x2C, 0x2D, 0x2E, 0x2F, 0x30, 0x31, 0x38, 0x39, 0x3A, 0x3B, 0x3C, 0x40, 0x41, 0x42, 0x48, 0x49] ++
  [0x50, 0x51, 0x52, 0x53, 0x58, 0x59, 0x5C, 0x5D, 0x5E, 0x60, 0x61, 0x62, 0x63, 0x68]

/-- A descriptor's fields fit the 64 bytes of its format, from a command ring or from NET, ring 16 (R336, R386). -/
def Desc.fits (d : Desc) : Bool :=
  decide (d.ring < 17 ∧ d.index < 65536 ∧ d.op < 256 ∧ d.flags < 256 ∧ d.rsv2 < 65536 ∧ d.tag < 2 ^ 32 ∧ d.addr < 2 ^ 64 ∧ d.len < 2 ^ 32 ∧
    d.rsv20 < 2 ^ 32 ∧ d.outAddr < 2 ^ 64 ∧ d.inl.length = 32)

/-- A monitored rail of a paddock names one of 16 (R482). -/
def Rail.fits : Rail → Bool
  | .pdk p => decide (p < 16)
  | .vdr p => decide (p < 16)
  | .vhtr p => decide (p < 16)
  | .aon => true
  | .vddA => true
  | .vddB => true
  | .vddq => true
  | .serdes => true

/-- The command's operands are in the ranges that the spec gives them. -/
def Instr.wellFormed : Instr → Bool
  | .por => true
  | .resetNAssert => true
  | .pllLossOfLock => true
  | .resetEnd _ => true
  | .perstAssert _ => true
  | .pcieHotReset _ => true
  | .functionLevelReset _ => true
  | .watchdogExpiry _ => true
  | .railBelowThreshold r => r.fits
  | .railRestored r => r.fits
  | .vdrLow p => decide (p < 16)
  | .vhtrOutOfRange p _ => decide (p < 16)
  | .paddockResetRelease p => decide (p < 16)
  | .paddockReloadDone p => decide (p < 16)
  | .bootComplete _ _ => true
  | .claimWindowExpiry => true
  | .converterCalibrationDone _ _ => true
  | .refvWindowFault p _ => decide (p < 16)
  | .droopTrip _ _ => true
  | .stretchHoldEnd _ _ => true
  | .clearNFall => true
  | .clearNRise => true
  | .flockRelease => true
  | .flockStbEdge pin _ => decide (pin < 4)
  | .wakeNFall => true
  | .lowPowerExitDone => true
  | .ppsInEdge => true
  | .tickBoundary _ => true
  | .senseFrameReceive _ p _ => decide (p < 16)
  | .senseFrameDeadline _ p => decide (p < 16)
  | .loopEvaluation _ _ => true
  | .windowResult _ m => decide (m < 16384)
  | .settlingEnd c => decide (c < 32768)
  | .loopOverrun _ => true
  | .loopSat c => decide (c < 32768)
  | .loopError c => decide (c < 32768)
  | .senseOver m => decide (m < 16384)
  | .voidPeriodEnd m => decide (m < 16384)
  | .darkMeasureDone m _ => decide (m < 16384)
  | .complianceSet c => decide (c < 32768)
  | .complianceClear c => decide (c < 32768)
  | .junctionHot => true
  | .loopOutputFrameReceive _ p _ => decide (p < 16)
  | .copyRecordSend => true
  | .copyRecordReceive _ => true
  | .copyMissLimit => true
  | .divergenceLimit => true
  | .shepherdLost _ => true
  | .handoverGrant => true
  | .resyncBankDone => true
  | .resyncLibraryDone => true
  | .resyncStateDone => true
  | .resyncTimeout => true
  | .stageFrame _ p _ => decide (p < 16)
  | .commitFrame _ p _ => decide (p < 16)
  | .retimeFrame _ p _ => decide (p < 16)
  | .cancelFrame _ p _ => decide (p < 16)
  | .controlFrameGap p => decide (p < 16)
  | .stagingStart => true
  | .stagingComplete dom => decide (dom < 16)
  | .lateStage dom => decide (dom < 16)
  | .commitFire dom => decide (dom < 16)
  | .commitLoopSeed dom => decide (dom < 16)
  | .rotationTakeover dom => decide (dom < 16)
  | .sequencerTimeStep => true
  | .routeComplete _ => true
  | .imageBuildDone => true
  | .positionTrack => true
  | .mapValidationDone => true
  | .mapTakesEffect => true
  | .spanChangeSwitchOpen c => decide (c < 32768)
  | .spanChangeSwitchClose c => decide (c < 32768)
  | .spanChangeEnd c => decide (c < 32768)
  | .spanConfigEnd c => decide (c < 32768)
  | .crosstalkPassStart _ => true
  | .crosstalkPassDone _ => true
  | .crosstalkTermsInForce _ => true
  | .surveyPointDone => true
  | .doorbellPoll _ line => decide (line.length = 64)
  | .descriptorFetchDone _ ring ds => decide (ring < 16) && ds.all fun e => decide (e.1.length = 64)
  | .hostReadError _ _ => true
  | .statusLineWrite _ => true
  | .irqHoldoffEnd _ vec => decide (vec < 4)
  | .heldCompletionFlush _ => true
  | .eventLogFlush _ => true
  | .telemetryInterval _ _ => true
  | .ethFrameReceive port _ _ => decide (port < 4)
  | .controlFrameReceive => true
  | .ethFrameOffer _ _ => true
  | .transmitSelection port _ => decide (port < 4)
  | .gateEntryStart port => decide (port < 4)
  | .gateListTakeover port => decide (port < 4)
  | .supervisionFrame pair => decide (pair < 2)
  | .tableEntryForget pair => decide (pair < 2)
  | .telemetryFrameSend => true
  | .ptpMessageReceive port _ => decide (port < 2)
  | .ptpPortMove => true
  | .servoSample _ _ _ => true
  | .asymHoldEnd _ => true
  | .holdover _ => true
  | .timeWrap => true
  | .ppsOutPulse => true
  | .recorderConfigEffect => true
  | .recorderPostEnd _ => true
  | .foldEccError _ _ _ => true
  | .bankEccError _ _ bank _ _ => decide (bank < 128)
  | .matrixAccessRefused _ master target _ addr _ => decide (master < 15 ∧ target < 16 ∧ addr < 2 ^ 48)
  | .musterWindowClose => true
  | .faultReaction => true
  | .lifecycleReset => true
  | .jtagToken _ _ => true
  | .jtagCoreHalt _ => true
  | .smbusRead cmd _ => decide (cmd < 256)
  | .tecLoopUpdate t _ => decide (t < 4)
  | .registerWrite _ addr _ _ => decide (addr < 2 ^ 24)
  | .timNowRead path addr len => decide (path < 8 ∧ addr < 2 ^ 24 ∧ len ≤ 4096)
  | .drvChCtrlWrite _ c _ => decide (c < 32768)
  | .drvFlockStrobe _ w _ => decide (w < 2)
  | .snsChCtrlWrite _ m _ => decide (m < 16384)
  | .snsMeasure _ m _ => decide (m < 16384)
  | .snsLinkErrClear _ p => decide (p < 16)
  | .loopCtrlWrite _ c _ => decide (c < 32768)
  | .loopIntSeed _ c _ => decide (c < 32768)
  | .loopClrCnt _ _ => true
  | .cmpWinSelWrite _ _ => true
  | .xtCoefWrite _ w _ => decide (w < 262144)
  | .cmpStageApply _ _ => true
  | .cmpPeriodWrite _ _ => true
  | .seqArmGo _ _ => true
  | .seqArmCancel _ _ => true
  | .seqMarginWrite _ _ => true
  | .shpHandover _ _ => true
  | .shpResyncPeer _ _ => true
  | .shpDetachPeer _ _ => true
  | .shpClrCnt _ _ => true
  | .shpHostDivReport _ _ => true
  | .hifCmdEnable _ ring _ => decide (ring < 16)
  | .hifRingEnable _ k _ => decide (k < 3)
  | .timIncrWrite _ _ => true
  | .almInjectWrite _ _ => true
  | .almReleaseWrite _ _ _ => true
  | .pwrWakeWrite _ _ => true
  | .rstShpReset _ _ => true
  | .rstSoftReset _ _ => true
  | .rstPdkReset _ _ => true
  | .lcsLockSet _ => true
  | .lcsRelock _ => true
  | .glbLoadStart _ _ => true
  | .clkXingFenceWrite _ _ => true
  | .fldLayoutWrite _ _ _ => true
  | .nop d => d.fits && decide (d.op = 0x00)
  | .reservedOpcode d => d.fits && decide (d.op ∉ rowOps)
  | .setup d => d.fits && decide (d.op = 0x01)
  | .setupLock d => d.fits && decide (d.op = 0x02)
  | .modeParked d => d.fits && decide (d.op = 0x03 ∧ leAt d.inl 0 1 = 4)
  | .modeService d => d.fits && decide (d.op = 0x03 ∧ leAt d.inl 0 1 = 5)
  | .modeMaintenance d => d.fits && decide (d.op = 0x03 ∧ leAt d.inl 0 1 = 6)
  | .napEnter d => d.fits && decide (d.op = 0x04 ∧ leAt d.inl 0 1 = 0)
  | .napExit d => d.fits && decide (d.op = 0x04 ∧ leAt d.inl 0 1 = 1)
  | .quiesce d => d.fits && decide (d.op = 0x04 ∧ leAt d.inl 0 1 = 2)
  | .deep d => d.fits && decide (d.op = 0x04 ∧ leAt d.inl 0 1 = 3)
  | .wake d => d.fits && decide (d.op = 0x04 ∧ leAt d.inl 0 1 = 4)
  | .paddockReset d => d.fits && decide (d.op = 0x04 ∧ leAt d.inl 0 1 = 5)
  | .shepherdReset d => d.fits && decide (d.op = 0x04 ∧ leAt d.inl 0 1 = 6)
  | .softReset d => d.fits && decide (d.op = 0x04 ∧ leAt d.inl 0 1 = 7)
  | .mapLoad d => d.fits && decide (d.op = 0x08)
  | .domainReload d => d.fits && decide (d.op = 0x09)
  | .setSpan d => d.fits && decide (d.op = 0x10)
  | .park d => d.fits && decide (d.op = 0x11 ∧ leAt d.inl 0 1 = 0)
  | .parkRelease d => d.fits && decide (d.op = 0x11 ∧ leAt d.inl 0 1 = 1)
  | .setSense d => d.fits && decide (d.op = 0x12)
  | .setLoop d => d.fits && decide (d.op = 0x18)
  | .armComp d => d.fits && decide (d.op = 0x19)
  | .disarmComp d => d.fits && decide (d.op = 0x1A)
  | .holdLoop d => d.fits && decide (d.op = 0x1B)
  | .releaseLoop d => d.fits && decide (d.op = 0x1C)
  | .seedLoop d => d.fits && decide (d.op = 0x1D)
  | .setComp d => d.fits && decide (d.op = 0x20)
  | .setXtalk d => d.fits && decide (d.op = 0x21)
  | .setFit d => d.fits && decide (d.op = 0x22)
  | .revertFit d => d.fits && decide (d.op = 0x23)
  | .fitLogRead d => d.fits && decide (d.op = 0x24)
  | .fitLogFree d => d.fits && decide (d.op = 0x25)
  | .planRoute d => d.fits && decide (d.op = 0x28)
  | .planCells d => d.fits && decide (d.op = 0x29)
  | .planDirect d => d.fits && decide (d.op = 0x2A)
  | .planFree d => d.fits && decide (d.op = 0x2B)
  | .planRefresh d => d.fits && decide (d.op = 0x2C)
  | .planStore d => d.fits && decide (d.op = 0x2D)
  | .planLoad d => d.fits && decide (d.op = 0x2E)
  | .planImport d => d.fits && decide (d.op = 0x2F)
  | .planExport d => d.fits && decide (d.op = 0x30)
  | .planDelete d => d.fits && decide (d.op = 0x31)
  | .turnout d => d.fits && decide (d.op = 0x38)
  | .turnoutListAdd d => d.fits && decide (d.op = 0x39 ∧ leAt (d.payload.getD []) 1 1 = 0)
  | .turnoutListReplace d => d.fits && decide (d.op = 0x39 ∧ leAt (d.payload.getD []) 1 1 = 1)
  | .turnoutCancel d => d.fits && decide (d.op = 0x3A)
  | .rotationList d => d.fits && decide (d.op = 0x3B)
  | .rotationStop d => d.fits && decide (d.op = 0x3C)
  | .survey d => d.fits && decide (d.op = 0x40)
  | .surveyAbort d => d.fits && decide (d.op = 0x41)
  | .surveyExport d => d.fits && decide (d.op = 0x42)
  | .handover d => d.fits && decide (d.op = 0x48)
  | .resync d => d.fits && decide (d.op = 0x49)
  | .recConfig d => d.fits && decide (d.op = 0x50)
  | .recFreeze d => d.fits && decide (d.op = 0x51 ∧ leAt d.inl 0 1 = 0)
  | .recResume d => d.fits && decide (d.op = 0x51 ∧ leAt d.inl 0 1 = 1)
  | .recStop d => d.fits && decide (d.op = 0x51 ∧ leAt d.inl 0 1 = 2)
  | .recRead d => d.fits && decide (d.op = 0x52)
  | .march d => d.fits && decide (d.op = 0x53)
  | .musterRead d => d.fits && decide (d.op = 0x58)
  | .alarmConfig d => d.fits && decide (d.op = 0x59 ∧ leAt d.inl 4 1 = 0)
  | .alarmRelease d => d.fits && decide (d.op = 0x59 ∧ leAt d.inl 4 1 = 1)
  | .timeRead d => d.fits && decide (d.op = 0x5C ∧ leAt d.inl 0 1 = 0)
  | .timeSet d => d.fits && decide (d.op = 0x5C ∧ leAt d.inl 0 1 = 1)
  | .ptpConfig d => d.fits && decide (d.op = 0x5C ∧ leAt d.inl 0 1 = 2)
  | .portMeasure d => d.fits && decide (d.op = 0x5C ∧ leAt d.inl 0 1 = 3)
  | .gateList d => d.fits && decide (d.op = 0x5D)
  | .policer d => d.fits && decide (d.op = 0x5E)
  | .lifecycle d _ => d.fits && decide (d.op = 0x60)
  | .debugToken d => d.fits && decide (d.op = 0x61)
  | .controlKeyProvision d _ => d.fits && decide (d.op = 0x62 ∧ leAt (d.payload.getD []) 0 1 = 1)
  | .ownerDebugKey d _ => d.fits && decide (d.op = 0x62 ∧ leAt (d.payload.getD []) 0 1 = 2)
  | .keyErase d _ => d.fits && decide (d.op = 0x62 ∧ leAt (d.payload.getD []) 0 1 = 3)
  | .recorderKeep d _ => d.fits && decide (d.op = 0x62 ∧ leAt (d.payload.getD []) 0 1 = 4)
  | .fwWrite d => d.fits && decide (d.op = 0x63 ∧ leAt d.inl 0 1 = 0)
  | .fwInfo d => d.fits && decide (d.op = 0x63 ∧ leAt d.inl 0 1 = 1)
  | .fwSelect d _ => d.fits && decide (d.op = 0x63 ∧ leAt d.inl 0 1 = 2)
  | .fwRaiseSvn d _ => d.fits && decide (d.op = 0x63 ∧ leAt d.inl 0 1 = 3)
  | .telemetryCfg d => d.fits && decide (d.op = 0x68)
  | .perstRelease _ => true
  | .ethLinkChange port _ => decide (port < 4)
  | .vparkOutOfRange p => decide (p < 16)
  | .ptpMessageTimer kind => decide (kind < 3)
  | .marchDone _ _ => true
  | .portMeasureDone _ => true
  | .fwStoreWriteDone _ => true
  | .loadCheckDone _ => true

/-- The descriptor of a descriptor row. -/
def Instr.desc? : Instr → Option Desc
  | .nop d => some d
  | .reservedOpcode d => some d
  | .setup d => some d
  | .setupLock d => some d
  | .modeParked d => some d
  | .modeService d => some d
  | .modeMaintenance d => some d
  | .napEnter d => some d
  | .napExit d => some d
  | .quiesce d => some d
  | .deep d => some d
  | .wake d => some d
  | .paddockReset d => some d
  | .shepherdReset d => some d
  | .softReset d => some d
  | .mapLoad d => some d
  | .domainReload d => some d
  | .setSpan d => some d
  | .park d => some d
  | .parkRelease d => some d
  | .setSense d => some d
  | .setLoop d => some d
  | .armComp d => some d
  | .disarmComp d => some d
  | .holdLoop d => some d
  | .releaseLoop d => some d
  | .seedLoop d => some d
  | .setComp d => some d
  | .setXtalk d => some d
  | .setFit d => some d
  | .revertFit d => some d
  | .fitLogRead d => some d
  | .fitLogFree d => some d
  | .planRoute d => some d
  | .planCells d => some d
  | .planDirect d => some d
  | .planFree d => some d
  | .planRefresh d => some d
  | .planStore d => some d
  | .planLoad d => some d
  | .planImport d => some d
  | .planExport d => some d
  | .planDelete d => some d
  | .turnout d => some d
  | .turnoutListAdd d => some d
  | .turnoutListReplace d => some d
  | .turnoutCancel d => some d
  | .rotationList d => some d
  | .rotationStop d => some d
  | .survey d => some d
  | .surveyAbort d => some d
  | .surveyExport d => some d
  | .handover d => some d
  | .resync d => some d
  | .recConfig d => some d
  | .recFreeze d => some d
  | .recResume d => some d
  | .recStop d => some d
  | .recRead d => some d
  | .march d => some d
  | .musterRead d => some d
  | .alarmConfig d => some d
  | .alarmRelease d => some d
  | .timeRead d => some d
  | .timeSet d => some d
  | .ptpConfig d => some d
  | .portMeasure d => some d
  | .gateList d => some d
  | .policer d => some d
  | .lifecycle d _ => some d
  | .debugToken d => some d
  | .controlKeyProvision d _ => some d
  | .ownerDebugKey d _ => some d
  | .keyErase d _ => some d
  | .recorderKeep d _ => some d
  | .fwWrite d => some d
  | .fwInfo d => some d
  | .fwSelect d _ => some d
  | .fwRaiseSvn d _ => some d
  | .telemetryCfg d => some d
  | _ => none

end Sys2Proof
end

