-- ==== Sys2Proof/Certificates/Slice0/Obligations.lean ====
section
/-! DEFINITION. The statements for the provers. `Claims.Does` says that a command completes, and in which state. -/

open Sys2Proof Sys2Proof.Machine

/-- Command i at state s is answered with the next state t, under the queue of s. -/
def Claims.Does (i : Instr) (s t : State) : Prop := exec i s = .next { t with pending := s.pending }

/-- Descriptor d starts now (R334), and c is the state in which it does: that of s once d has left the folds (R333). It passes the checks that every descriptor
passes first. -/
def Claims.Starts (s c : State) (d : Desc) : Prop :=
  s.mayStart d = true ∧ c = s.claimDesc d ∧ c.serves d = true ∧ descFail d (decide (c.mode = .safe)) = none

open Claims

/-! ### The machine -/

/-- The block takes the command at the front of its queue and answers what `exec` answers on the queue's rest. -/
def Obligations.StepRunsFrontCommand : Prop :=
  ∀ (c : Instr) (s : State) (q : List Instr), step { s with pending := c :: q } = exec c { s with pending := q }

/-- With nothing commanded time goes on by one PCLK edge: TB0 gains TIM_INCR (R366), and no register word changes. The last edge before a tick boundary is
held until the boundary is commanded, and OFF and RESET hold the clock (log entry 1: the model's choice). -/
def Obligations.EmptyQueueIdles : Prop :=
  ∀ s : State, s.pending = [] →
    ((s.mode = .off ∨ s.mode = .reset ∨ s.edge % 400 = 399) → step s = .next s) ∧
    (s.mode ≠ .off → s.mode ≠ .reset → s.edge % 400 ≠ 399 →
      ∃ t, step s = .next t ∧ t.edge = s.edge + 1 ∧ t.tb0 = s.tb0 + (s.rd 0 TIM_INCR).toNat ∧ (∀ bank off, t.rd bank off = s.rd bank off) ∧
        t.pending = [] ∧ t.mode = s.mode ∧ t.jobs = s.jobs ∧ t.writes = s.writes)

/-- Every command is answered with a next state, and none touches the queue. -/
def Obligations.EveryCommandIsAnswered : Prop :=
  ∀ (c : Instr) (s : State), ∃ t, exec c s = .next t ∧ t.pending = s.pending

/-- Reset leaves BOOT at tick 0 with both shepherds booting and OFF (R484, R490), every register of the map at its reset word, and nothing loaded, scheduled,
armed or waiting (R489). -/
def Obligations.ResetLeavesBoot : Prop :=
  State.reset.mode = .boot ∧ State.reset.edge = 0 ∧ (∀ x, (State.reset.sh x).halted = true ∧ State.reset.role x = .off) ∧
  (∀ bank off r i, regFind off = some (r, i) → off < 0x1000000 → off ≠ ALM_CLASS 0x0E → State.reset.rd bank off = BitVec.ofNat 32 r.reset) ∧
  (∀ bank off, 0x1000000 ≤ off → State.reset.rd bank off = 0) ∧
  State.reset.map = none ∧ State.reset.jobs = [] ∧ State.reset.writes = [] ∧ State.reset.commits = [] ∧ State.reset.survey = none ∧
  State.reset.pending = [] ∧ State.reset.epoch = 0 ∧ ∀ i, State.reset.slot i = {}

/-- A register word reads as it was last written in its bank, and a write leaves every other word of every bank (R6). -/
def Obligations.RegisterWordsHold : Prop :=
  ∀ (s : State) (b o b' o' : Nat) (w : Word), o < 0x10000000 → o' < 0x10000000 →
    ((s.wr b o w).rd b o = w) ∧ ((b' ≠ b ∨ o' ≠ o) → (s.wr b o w).rd b' o' = s.rd b' o') ∧
    (s.regsWf → (s.wr b o w).regsWf)

/-- At reset the fuses are sound, and no change of the life cycle is due (the state in force there is the model's choice, log entry 2). -/
def Obligations.ResetLifeOk : Prop := State.reset.lifeOk = true ∧ State.reset.fuses.due = none

/-- Whatever command stands in front: a due life-cycle change stays one of R494's table, the state in force changes only along that table, and the minimum SVN
does not fall (R493, R494, R499). -/
def Obligations.LifeCycleOnlyForward : Prop :=
  ∀ s t : State, s.lifeOk = true → step s = .next t → t.lifeOk = true ∧ s.fuses.leadsTo t.fuses

/-- The commands that may change the fuses or their state in force: the resets of the whole device, the commands that burn, and the tick boundary, which may
start one. -/
def Claims.touchesFuses : Instr → Bool
  | .por => true
  | .resetNAssert => true
  | .pllLossOfLock => true
  | .railBelowThreshold r => decide (r = .aon)
  | .lifecycleReset => true
  | .jtagToken _ _ => true
  | .lifecycle _ _ => true
  | .fwRaiseSvn _ _ => true
  | .tickBoundary _ => true
  | _ => false

/-- Every other command leaves the fuses as they are: the life-cycle state, the minimum SVN and a change that is due. -/
def Obligations.OtherCommandsLeaveFuses : Prop :=
  ∀ (c : Instr) (s t : State), Claims.touchesFuses c = false → exec c s = .next t → t.fuses = s.fuses

/-- The 64 bytes of a descriptor spell it again, every field at every value that fits the format, and every 64 bytes are those of the descriptor that they
spell (R336). -/
def Obligations.DescriptorBytesSpellIt : Prop :=
  (∀ d : Desc, d.fits = true → d.bytes.length = 64 ∧ descOf d.ring d.index d.bytes d.payload = d) ∧
  (∀ (ring index : Nat) (bs : List Byte) (p : Option (List Byte)), ring < 17 → index < 65536 → bs.length = 64 →
    (descOf ring index bs p).fits = true ∧ (descOf ring index bs p).bytes = bs)

/-- A descriptor row starts the work that a tick boundary starts when it comes to the descriptor: of the rows whose outcome the row itself does not give. -/
def Obligations.RowsStartWhatBoundariesStart : Prop :=
  ∀ (i : Instr) (d : Desc) (s : State), i.wellFormed = true → i.desc? = some d → d.op ∉ [0x60, 0x62, 0x63] → Does i s (s.startRow d true runDesc)

/-! ### Descriptors of the basic interface -/

/-- NOP completes when it starts; a reserved opcode completes with HIF_OPCODE (R338); SETUP writes its records and SETUP_LOCK puts the lock in force (R339,
R511); TELEMETRY_CFG writes HIF_TLM_CFG of both shepherds (R350). -/
def Obligations.BasicDescriptorsComplete : Prop :=
  ∀ (s c : State) (d : Desc),
    (Starts s c d → d.op = 0x00 → Does (.nop d) s (c.completeHif d 0)) ∧
    (s.mayStart d = true → c = s.claimDesc d → c.serves d = true → d.op ∉ opcodes → Does (.reservedOpcode d) s (c.completeHif d 0x01)) ∧
    (Starts s c d → d.op = 0x01 → d.len % 8 = 0 → (∀ r ∈ listRecs 8 d, c.setupFail r = none) →
      let w := (listRecs 8 d).foldl (fun s r => s.fwWrite (leAt r 0 4) (BitVec.ofNat 32 (leAt r 4 4))) c
      Does (.setup d) s (w.addJob ⟨d, .setup, 0, w.dueTick, []⟩)) ∧
    (Starts s c d → d.op = 0x02 → c.locked = false → Does (.setupLock d) s (c.addJob ⟨d, .setupLock, 0, c.tick + 1, []⟩)) ∧
    (Starts s c d → d.op = 0x02 → c.locked = true → Does (.setupLock d) s (c.completeHif d 0)) ∧
    (Starts s c d → d.op = 0x68 → d.in2 32 ≠ 0 → d.in1 34 < 16 →
      Does (.telemetryCfg d) s ((both (fun x s =>
        (s.pPut x HIF_TLM_CFG fHIF_TLM_CFG_INTERVAL (d.in2 32)).pPut x HIF_TLM_CFG fHIF_TLM_CFG_SRC (d.in1 34)) c).completeHif d 0))

/-- MODE by its target and the mode in force (R471 to R474): parking from SERVICE, MAINTENANCE or SAFE, service from PARKED with a map and from MAINTENANCE,
maintenance of a part of the device from SERVICE. In NAP and QUIESCE each is refused (R479). -/
def Obligations.ModeDescriptorsChangeMode : Prop :=
  ∀ (s c : State) (d : Desc), Starts s c d → d.op = 0x03 → d.in1 35 < 2 →
    (c.lp = .quiesce ∨ c.napMask ≠ 0 →
      (d.in1 32 = 4 → Does (.modeParked d) s (c.completeHif d 7)) ∧ (d.in1 32 = 5 → Does (.modeService d) s (c.completeHif d 7)) ∧
      (d.in1 32 = 6 → d.in1 33 < 2 → Does (.modeMaintenance d) s (c.completeHif d 7))) ∧
    (d.in1 32 = 4 → c.lp ≠ .quiesce → c.napMask = 0 →
      (c.mode = .parked → Does (.modeParked d) s (c.completeHif d 0)) ∧
      (c.mode = .service → Does (.modeParked d) s ((c.enterParked 0).completeHif d 0)) ∧
      (c.mode = .maintenance → c.survey = none → Does (.modeParked d) s ((c.enterParked 0).completeHif d 0)) ∧
      (c.mode = .safe → c.safeExitOk = true → Does (.modeParked d) s ((c.enterParked 0).completeHif d 0))) ∧
    (d.in1 32 = 5 → c.lp ≠ .quiesce → c.napMask = 0 →
      (c.mode = .service → Does (.modeService d) s (c.completeHif d 0)) ∧
      (c.mode = .maintenance → c.survey = none → Does (.modeService d) s ((c.enterService (bitAt (d.in1 35) 0) 0).completeHif d 0)) ∧
      (c.mode = .parked → c.map ≠ none →
        Does (.modeService d) s ((c.enterService (bitAt (d.in1 35) 0) 0).completeHif d 0))) ∧
    (∀ out, (d.in1 33 = 0 ∧ d.in1 34 < c.part.paddocks ∧ out = .paddock (d.in1 34)) ∨ (d.in1 33 = 1 ∧ c.dom? (d.in1 34) ≠ none ∧ out = .domain (d.in1 34)) →
      d.in1 32 = 6 → c.lp ≠ .quiesce → c.napMask = 0 →
      (c.mode = .service → Does (.modeMaintenance d) s ((c.enterMaintenance out 0).completeHif d 0)) ∧
      (c.mode = .maintenance → Does (.modeMaintenance d) s (c.completeHif d (if c.oos = out then 0 else 7))))

/-- A MODE that may change the mode ends in the mode that it names, with the part that it names out of service and no other (R471, R472, R474). -/
def Obligations.ModeRequestsReachTheirMode : Prop :=
  ∀ (s c : State) (d : Desc), Starts s c d → d.op = 0x03 → d.in1 35 < 2 → c.lp ≠ .quiesce → c.napMask = 0 → c.survey = none →
    (d.in1 32 = 4 → (c.mode = .service ∨ c.mode = .maintenance ∨ (c.mode = .safe ∧ c.safeExitOk = true)) →
      ∃ t, exec (.modeParked d) s = .next t ∧ t.mode = .parked ∧ t.oos = .none ∧ t.pending = s.pending) ∧
    (d.in1 32 = 5 → (c.mode = .maintenance ∨ (c.mode = .parked ∧ c.map ≠ none)) →
      ∃ t, exec (.modeService d) s = .next t ∧ t.mode = .service ∧ t.oos = .none ∧ t.pending = s.pending) ∧
    (∀ out, (d.in1 33 = 0 ∧ d.in1 34 < c.part.paddocks ∧ out = .paddock (d.in1 34)) ∨ (d.in1 33 = 1 ∧ c.dom? (d.in1 34) ≠ none ∧ out = .domain (d.in1 34)) →
      d.in1 32 = 6 → (c.mode = .service ∨ (c.mode = .maintenance ∧ c.oos = out)) →
      ∃ t, exec (.modeMaintenance d) s = .next t ∧ t.mode = .maintenance ∧ t.oos = out ∧ t.pending = s.pending)

/-- POWER by its subcommand where the state allows it (R478, R479, R485): naps and wakes of the paddocks of the mask, QUIESCE and DEEP from PARKED and the
wake out of QUIESCE, and the resets of a paddock, a shepherd and its cores. DEEP writes its completion before it takes effect. -/
def Obligations.PowerDescriptorsAct : Prop :=
  ∀ (s c : State) (d : Desc), Starts s c d → d.op = 0x04 →
    (d.in1 32 = 0 → d.in2 34 < 2 ^ c.part.paddocks → c.mode = .parked → c.lp = .none →
      let new := (c.maskPdks (d.in2 34)).filter fun p => !(c.pdk p).nap
      let n := new.foldl (fun s p => s.modPdk p fun k => { k with nap := true }) c
      Does (.napEnter d) s (if new = [] then c.completeHif d 0 else (n.modeEvent n.mode 0).completeHif d 0)) ∧
    (d.in1 32 = 1 → d.in2 34 < 2 ^ c.part.paddocks → c.mode = .parked →
      let w := c.wakePdks (c.maskPdks (d.in2 34))
      let n := w.dFlag PWR_WAKE fPWR_WAKE_WAKE_SEEN
      (w.waking = [] → w.lp = .none → Does (.napExit d) s (w.completeHif d 0)) ∧
      (w.waking ≠ [] → w.lp = .none → Does (.napExit d) s (n.addJob ⟨d, .napExit, 0, 0, []⟩)) ∧
      (w.lp ≠ .none → Does (.napExit d) s (State.addJob { n with lpExit := some (n.lpExit.getD 0) } ⟨d, .napExit, 0, 0, []⟩))) ∧
    (d.in1 32 = 2 → c.mode = .parked → c.lp = .none →
      Does (.quiesce d) s ((State.modeEvent (State.stopPasses { c with lp := .quiesce }) c.mode 0).completeHif d 0)) ∧
    (d.in1 32 = 3 → c.mode = .parked → c.lp = .none →
      let e := State.stopPasses { c.completeHif d 0 with lp := .deep, waking := [] }
      let w := e.allPdks.foldl (fun s p => s.padLost p (if (s.pdk p).mode = .reset then .reset else .off)) e
      Does (.deep d) s (w.modeEvent w.mode 0)) ∧
    (d.in1 32 = 4 → c.lp = .quiesce →
      Does (.wake d) s (State.addJob { c.wakeAll 0 with lpExit := some (c.lpExit.getD 0) } ⟨d, .wake, 0, 0, []⟩)) ∧
    (d.in1 32 = 5 → d.in1 33 < c.part.paddocks → c.pdkResetOk (d.in1 33) = true →
      Does (.paddockReset d) s (c.addJob ⟨d, .padReset, 0, c.tick + 2, [d.in1 33]⟩)) ∧
    (∀ x : Shep, d.in1 32 = 6 → d.in1 33 = x.num → (∀ y, c.role y = .active ∨ c.role y = .standby) →
      Does (.shepherdReset d) s (c.addJob ⟨d, .shpReset, if c.role x = .active then 0 else 2, c.tick + 64, [x.num]⟩)) ∧
    (∀ x : Shep, d.in1 32 = 7 → d.in1 33 = x.num → Does (.softReset d) s ((c.softReset x).completeHif d 0))

/-! ### Descriptors that carry a list -/

/-- What a list command's descriptor must pass, beyond the checks of every descriptor, for its work to start: LEN whole records, reserved bytes 0, numbers of
the part, and values in range (R340). -/
def Claims.ListOk (size : Nat) (d : Desc) (rsv out bad : List Byte → Bool) : Prop :=
  d.len % size = 0 ∧ ∀ r ∈ listRecs size d, rsv r = false ∧ out r = false ∧ bad r = false

/-- A list command of the DRV and SNS functions whose records pass starts its work for the boundary of R140 (R94, R118). A list command of the loops whose
records pass starts its work for the boundary of R140, with the loops that were held before (R153). ARM_COMP also needs room for its competitors. -/
def Obligations.ChannelListsStart : Prop :=
  (∀ (s c : State) (d : Desc), Starts s c d →
     (d.op = 0x10 → ListOk 8 d (fun r => recRsv r 3 1 || recRsv r 6 2) (fun r => decide (c.part.chans ≤ recNum r))
         (fun r => decide (6 = leAt r 2 1 ∨ 8 ≤ leAt r 2 1)) →
       Does (.setSpan d) s (c.addJob ⟨d, .setSpan, 0, c.dueTick, c.heldOf ((listRecs 8 d).map recNum)⟩)) ∧
     (d.op = 0x11 → d.in1 32 = 0 → ListOk 4 d (fun r => recRsv r 2 2) (fun r => decide (c.part.chans ≤ recNum r)) (fun _ => false) →
       Does (.park d) s (c.addJob ⟨d, .park, 0, c.dueTick, []⟩)) ∧
     (d.op = 0x11 → d.in1 32 = 1 → ListOk 4 d (fun r => recRsv r 2 2) (fun r => decide (c.part.chans ≤ recNum r)) (fun _ => false) →
       Does (.parkRelease d) s (c.addJob ⟨d, .park, 0, c.dueTick, []⟩)) ∧
     (d.op = 0x12 → ListOk 8 d (fun r => recRsv r 5 3) (fun r => decide (c.part.senses ≤ recNum r))
         (fun r => decide (3 < leAt r 2 1 ∨ 240 < leAt r 3 1 ∨ 2 < leAt r 4 1)) →
       Does (.setSense d) s (c.addJob ⟨d, .setSense, 0, c.dueTick, []⟩))) ∧
  (∀ (s c : State) (d : Desc), Starts s c d →
     (d.op = 0x18 → ListOk 32 d (fun r => decide (32 ≤ leAt r 2 1 ∨ 4 ≤ leAt r 22 1) || recRsv r 23 9)
         (fun r => decide (c.part.chans ≤ recNum r) || c.monOut (leAt r 4 2) || c.monOut (leAt r 6 2))
         (fun r => decide (4 < leAt r 2 1 % 8 ∨ 15 < leAt r 3 1) || (decide (leAt r 3 1 ≠ 0) && !c.isHeater (recNum r)) ||
           decide (63 < leAt r 19 1 ∧ leAt r 19 1 ≠ 255)) →
       Does (.setLoop d) s (c.addJob ⟨d, .setLoop, 0, c.dueTick, c.heldOf ((listRecs 32 d).map recNum)⟩)) ∧
     (d.op = 0x19 → ListOk 16 d (fun r => recRsv r 6 2 || recRsv r 11 1) (fun r => decide (c.part.chans ≤ recNum r) || c.monOut (leAt r 4 2))
         (fun r => decide (2 < leAt r 2 1 ∨ 3 < leAt r 3 1)) → allocate c.ownedRanges (armNeeds (listRecs 16 d)) ≠ none →
       Does (.armComp d) s (c.addJob ⟨d, .armComp, 0, c.dueTick, c.heldOf ((listRecs 16 d).map recNum)⟩)) ∧
     (d.op = 0x1A → ListOk 4 d (fun r => recRsv r 3 1) (fun r => decide (c.part.chans ≤ recNum r)) (fun r => decide (2 < leAt r 2 1 ∧ leAt r 2 1 ≠ 255)) →
       Does (.disarmComp d) s (c.addJob ⟨d, .disarmComp, 0, c.dueTick, c.heldOf ((listRecs 4 d).map recNum)⟩)) ∧
     (d.op = 0x1B → ListOk 4 d (fun r => recRsv r 2 2) (fun r => decide (c.part.chans ≤ recNum r)) (fun _ => false) →
       Does (.holdLoop d) s (c.addJob ⟨d, .holdLoop, 0, c.dueTick, []⟩)) ∧
     (d.op = 0x1C → ListOk 4 d (fun r => recRsv r 2 2) (fun r => decide (c.part.chans ≤ recNum r)) (fun _ => false) →
       Does (.releaseLoop d) s (c.addJob ⟨d, .holdLoop, 0, c.dueTick, []⟩)) ∧
     (d.op = 0x1D → ListOk 4 d (fun _ => false) (fun r => decide (c.part.chans ≤ recNum r)) (fun _ => false) →
       Does (.seedLoop d) s (c.addJob ⟨d, .seedLoop, 0, c.dueTick, c.heldOf ((listRecs 4 d).map recNum)⟩)))

/-- SET_COMP, SET_XTALK, SET_FIT and REVERT_FIT whose records pass start their work for the boundary of R140 (R180, R184); the fit log is read and freed at
once, whole records, oldest first (R182). -/
def Obligations.CompensationDescriptorsStart : Prop :=
  ∀ (s c : State) (d : Desc), Starts s c d →
    (d.op = 0x20 → ListOk 336 d (fun r => decide (8 ≤ leAt r 2 1) || recRsv r 3 5) (fun r => decide (c.part.chans ≤ recNum r))
        (fun r => decide (leAt r 2 1 / 4 % 2 = 1 ∧ 1 ≤ fCMP_RIP_CFG_PERIOD.get (BitVec.ofNat 32 (leAt r 332 4)) ∧
          fCMP_RIP_CFG_PERIOD.get (BitVec.ofNat 32 (leAt r 332 4)) ≤ 31)) →
      Does (.setComp d) s (c.addJob ⟨d, .setComp, 0, c.dueTick, []⟩)) ∧
    (∀ rs, d.op = 0x21 → d.len % 4 = 0 → xtalkRecs (d.len / 4) d.pay = (rs, true) → (∀ e ∈ rs, e.1 < c.part.chans ∧ e.2.1 ≤ 512) →
      Does (.setXtalk d) s (c.addJob ⟨d, .setXtalk, 0, c.dueTick, c.xtalkPairs rs⟩)) ∧
    (d.op = 0x22 → ListOk 4 d (fun r => recRsv r 3 1) (fun r => decide (c.part.chans ≤ recNum r)) (fun r => decide (1 < leAt r 2 1)) →
      d.in2 32 ≤ 0x4000 → d.in2 38 ≤ 32768 → d.in1 44 ≤ 1 → Does (.setFit d) s (c.addJob ⟨d, .setFit, 0, c.dueTick, []⟩)) ∧
    (d.op = 0x23 → c.sGet CMP_FIT_CTRL fCMP_FIT_CTRL_EN = 0 → Does (.revertFit d) s (c.addJob ⟨d, .revertFit, 0, c.dueTick, []⟩)) ∧
    (let log := (c.sh c.lead).fit.log
     let rs := recsIn d.len log
     d.op = 0x24 → (log = [] ∨ rs ≠ []) →
      Does (.fitLogRead d) s ((c.writeOut d.outAddr rs.flatten).complete d 0 0 (leBytes 4 (recBytes rs) ++ leBytes 4 rs.length))) ∧
    (let log := (c.sh c.lead).fit.log
     let n := d.in4 32
     d.op = 0x25 → n ≤ recBytes log → recBytes (recsIn n log) = n →
      Does (.fitLogFree d) s ((c.modFit c.lead fun f => { f with log := f.log.drop (recsIn n log).length }).completeHif d 0))

/-- What the list commands do at the boundaries that follow, when they are due: SETUP ends; PARK parks or releases each channel, HOLD_LOOP and RELEASE_LOOP
write HOLD, SET_COMP applies each record, each at one boundary with its completion; SET_SPAN, SET_LOOP, ARM_COMP, DISARM_COMP and SEED_LOOP hold their loops
at one boundary, write at the next and release and complete behind it (R94, R118, R153, R184). -/
def Obligations.ListsWorkAtBoundaries : Prop :=
  ∀ (s : State) (j : Job), j.due ≤ s.tick →
    (j.kind = .setup → j.phase = 0 → s.stepList j = s.endList j (j.d.len / 8)) ∧
    (j.kind = .park → s.stepList j =
      (((listRecs 4 j.d).map recNum).foldl (fun s c => s.parkOne (decide (j.d.in1 32 = 1)) c) s).endList j (listRecs 4 j.d).length) ∧
    (j.kind = .holdLoop → s.stepList j =
      (((listRecs 4 j.d).map recNum).foldl (fun s c => s.putHold (decide (j.d.op = 0x1B)) c) s).endList j (listRecs 4 j.d).length) ∧
    (j.kind = .setComp → s.stepList j = ((listRecs 336 j.d).foldl State.applyCompRec s).endList j (listRecs 336 j.d).length) ∧
    (∀ (size : Nat) (write : State → List Byte → State),
      (j.kind = .setLoop ∧ size = 32 ∧ write = State.writeLoopImage) ∨ (j.kind = .disarmComp ∧ size = 4 ∧ write = State.disarmOne) ∨
        (j.kind = .seedLoop ∧ size = 4 ∧ write = State.writeSeed) →
      let rs := listRecs size j.d
      (j.phase = 0 → s.stepList j = (s.holdAll (rs.map recNum)).nextPhase j 1) ∧
      (j.phase = 1 → s.stepList j = (rs.foldl write s).nextPhase j 1) ∧
      (j.phase = 2 → s.stepList j = (s.freeAll (rs.map recNum) j.nums).endList j rs.length)) ∧
    (∀ l, j.kind = .armComp → j.phase = 1 → allocate s.ownedRanges (armNeeds (listRecs 16 j.d)) = some l →
      s.stepList j = ((listRecs 16 j.d).foldl State.writeCmpImage (l.foldl (fun s e => s.moveSlots e.1 e.2.1 e.2.2) s)).nextPhase j 1) ∧
    (j.kind = .setSpan → j.phase = 1 → s.stepList j = ((listRecs 8 j.d).foldl State.writeSpanRec s).nextPhase j 1)

/-! ### Maps and plans -/

/-- When the validation of a map command ends, a good image is to take effect at the next boundary and a bad one ends with its code and index (R54, R62); at
its boundary, with the drover idle, the map is installed (R56). -/
def Obligations.MapCommandsRun : Prop :=
  ∀ s : State,
    (∀ j m, s.job? .mapLoad = some j → j.phase = 0 → s.mapModeOk (mapDom j.d) = true →
      validateMap s.part (mapDom j.d) (s.mapLeft (mapDom j.d)) j.d.pay = .ok m →
      Does .mapValidationDone s ((s.sPut DRO_MAP_STATUS fDRO_MAP_STATUS_BUSY 0).setJob j { j with phase := 1, due := s.tick + 1 })) ∧
    (∀ j k i, s.job? .mapLoad = some j → j.phase = 0 → s.mapModeOk (mapDom j.d) = true →
      validateMap s.part (mapDom j.d) (s.mapLeft (mapDom j.d)) j.d.pay = .error (k, i) →
      Does .mapValidationDone s ((s.endJob j).mapEnd j.d k i [])) ∧
    (∀ j m, s.job? .mapLoad = some j → j.phase = 1 → s.edge % 400 = 0 → j.due ≤ s.tick → s.drover = none → s.mapModeOk (mapDom j.d) = true →
      validateMap s.part (mapDom j.d) (s.mapLeft (mapDom j.d)) j.d.pay = .ok m →
      Does .mapTakesEffect s ((s.endJob j).installMap j.d m))

/-- No plan command waits and none runs. -/
def Claims.DroverIdle (c : State) : Prop := c.drover = none ∧ c.busyWith .mapLoad = false ∧ ∀ j ∈ c.jobs, j.kind ≠ .planRoute

/-- The plan requests that pass begin their work with the drover idle: PLAN_ROUTE and PLAN_CELLS go to the routing, PLAN_DIRECT to its build (R198, R206,
R216). The slot of a request that is not a dry run reads BUILDING (R190), and the command's job joins those that run. The other plan commands with the drover
idle: FREE empties a slot that is not busy, REFRESH and LOAD build into theirs, STORE and IMPORT write a library record, EXPORT sends one and DELETE removes
one (R190, R209, R215). -/
def Obligations.PlansBeginAndAct : Prop :=
  (∀ (s c : State) (d : Desc) (dr : DomRec), Starts s c d → DroverIdle c → planCode c d.op d.pay = 0 → c.dom? (planReq d.pay).dom = some dr →
     let r := planReq d.pay
     let slots := if r.dryRun then c.slots else (c.reserve r.slot).slots
     (d.op = 0x28 → ∃ t, exec (.planRoute d) s = .next t ∧ ∃ w, t.drover = some w ∧ w.phase = 1 ∧ w.d = d ∧ w.slot = r.slot ∧
       w.plan.perm = numsAt r.body 0 2 dr.ports ∧ (w.refCells, w.refPerm) = (if r.dryRun then c else c.reserve r.slot).refPlan r dr.ports ∧ t.slots = slots ∧
       t.jobs = c.jobs ++ [⟨d, .planRoute, 0, 0, []⟩]) ∧
     (d.op = 0x29 → ∃ t, exec (.planCells d) s = .next t ∧ ∃ w, t.drover = some w ∧ w.phase = 1 ∧ w.d = d ∧ w.slot = r.slot ∧
       w.plan.cells = ((List.range dr.cells).filter fun k => decide (cellAt r.body k = 1)) ∧ t.slots = slots ∧
       t.jobs = c.jobs ++ [⟨d, .planRoute, 0, 0, []⟩]) ∧
     (d.op = 0x2A → r.dryRun = false → (r.store = true → c.libFull r.planId = false) →
       ∃ t, exec (.planDirect d) s = .next t ∧ ∃ w, t.drover = some w ∧ w.phase = 2 ∧ w.d = d ∧ w.slot = r.slot ∧ w.plan.targets = r.targets 0x2A dr ∧
         (∀ e ∈ w.plan.image, e.ch ∈ c.domChans r.dom) ∧ t.slots = slots ∧ t.jobs = c.jobs ++ [⟨d, .planRoute, 0, 0, []⟩])) ∧
  (∀ (s c : State) (d : Desc), Starts s c d → DroverIdle c → c.routeModeOk d.op = true →
     let a := c.addJob ⟨d, .planRoute, 0, 0, []⟩
     let k := c.slot (d.in1 32)
     (d.op = 0x2B → c.slotBusy (d.in1 32) = false → Does (.planFree d) s ((a.setSlot (d.in1 32) {}).planEnd d 0 [])) ∧
     (∀ p, d.op = 0x2C → k.plan = some p → 2 ≤ k.state → k.refresh = false →
       Does (.planRefresh d) s ((a.modSlot (d.in1 32) fun k => { k with refresh := true }).beginBuild d (d.in1 32) p [] [])) ∧
     (∀ p, d.op = 0x2D → k.plan = some p → 2 ≤ k.state → c.libFull (d.in4 36) = false →
       Does (.planStore d) s ((a.putRecord (d.in1 32) (some (d.in4 36)) { p with planId := d.in4 36 }).planEnd d 0 [])) ∧
     (∀ p dr, d.op = 0x2E → c.libRead (d.in4 36) = some p → c.dom? p.dom = some dr → c.slotBusy (d.in1 32) = false →
       p.mapId = (c.map.map fun m => m.id).getD 0 → p.image.map (fun e => e.ch) = sortN (c.domChans dr.dom) →
       Does (.planLoad d) s ((a.reserve (d.in1 32)).foldRecord.beginBuild d (d.in1 32) p [] [])) ∧
     (∀ p, d.op = 0x2F → d.len = c.part.recBytes → zeroAt d.pay [5, 6, 7] = true → zeroAt d.pay ((List.range 12).map (· + 20)) = true →
       leAt d.pay 12 2 ≤ 1024 → leAt d.pay 14 2 ≤ 1024 → p = planOf (sortN (c.domChans (leAt d.pay 4 1))) d.pay → c.dom? p.dom ≠ none →
       c.libFull p.planId = false → p.mapId = (c.map.map fun m => m.id).getD 0 →
       Does (.planImport d) s ((a.putRecord 0 (some p.planId) p).planEnd d 0 [])) ∧
     (∀ p, d.op = 0x30 → c.part.recBytes ≤ d.len → c.libRead (d.in4 36) = some p →
       Does (.planExport d) s ((a.writeOut d.outAddr (planBytes c.part p)).planEnd d 0 (leBytes 4 c.part.recBytes ++ leBytes 4 1))) ∧
     (d.op = 0x31 → c.libGet (d.in4 36) ≠ none → Does (.planDelete d) s ((a.libPut (d.in4 36) none).planEnd d 0 [])))

/-! ### Turnouts, rotations and the sequencer -/

/-- What turnout entries must pass before their instants are judged (R235, R245). -/
def Claims.EntriesPass (c : State) (dom : Nat) (es : List TurnEnt) : Prop :=
  c.seqModeBad dom = false ∧ c.dom? dom ≠ none ∧ c.rotOf dom = none ∧ ∀ e ∈ es, e.ok = true ∧ e.dom = dom ∧ c.slotReady e.slot dom = true

/-- The state after the entries of a turnout command are scheduled and it completes, with `removed` entries displaced before (R235, R237). -/
def Claims.scheduled (c : State) (d : Desc) (cs removed : List Commit) : State :=
  ((cs.foldl (fun s k => s.schedule { k with idx := s.freeIdx }) (removed.foldl (fun s k => s.dispose k 5) c)).complete d 3 0
    (leBytes 4 ((cs.map fun k => k.instant).headD 0) ++ leBytes 2 cs.length ++ leBytes 2 removed.length))

/-- TURNOUT and TURNOUT_LIST schedule all their entries or none: those of an ADD beside the ones that wait, those of a REPLACE in place of the ones that the
takeover displaces (R233 to R237). The instants are the assigned ones, rising, none crowded against one that is kept, none stale, with room in the pool.
TURNOUT_CANCEL takes back the entries of its tag, or all, that are 100 ns or more ahead (R238); a rotation list is loaded, and an empty list stops the
rotation at its takeover (R242, R243): where none runs, a list starts the rotation and a stop has nothing to do. -/
def Obligations.ScheduleDescriptorsAct : Prop :=
  (∀ (s c : State) (d : Desc), Starts s c d →
     (∀ cs, d.op = 0x38 → EntriesPass c (turnEnt d.inl).dom [turnEnt d.inl] →
       let dom := (turnEnt d.inl).dom
       assignInstants c dom [turnEnt d.inl] [] = (cs, false) → rising (cs.map fun k => k.instant) = true →
       crowded (((c.domCommits dom).filter fun k => decide (k.src = 0)).map fun k => k.instant) (cs.map fun k => k.instant) = false →
       c.poolUsed + cs.length ≤ 4096 → Does (.turnout d) s (scheduled c d cs [])) ∧
     (∀ cs n, d.op = 0x39 → d.payByte 1 = 0 → leAt d.pay 2 2 = n → 0 < n → n ≤ 4096 → leAt d.pay 8 8 = 0 → d.pay.length = 16 + 16 * n →
       let dom := leAt d.pay 0 1
       let es := (List.range n).map fun i => turnEnt (d.pay.drop (16 + 16 * i))
       EntriesPass c dom es → assignInstants c dom es [] = (cs, false) → rising (cs.map fun k => k.instant) = true →
       crowded (((c.domCommits dom).filter fun k => decide (k.src = 0)).map fun k => k.instant) (cs.map fun k => k.instant) = false →
       c.poolUsed + cs.length ≤ 4096 → Does (.turnoutListAdd d) s (scheduled c d cs [])) ∧
     (∀ cs n, d.op = 0x39 → d.payByte 1 = 1 → leAt d.pay 2 2 = n → n ≤ 4096 → leAt d.pay 8 8 = 0 → d.pay.length = 16 + 16 * n →
       let dom := leAt d.pay 0 1
       let es := (List.range n).map fun i => turnEnt (d.pay.drop (16 + 16 * i))
       let t := if c.future (leAt d.pay 4 4) = true then leAt d.pay 4 4 else c.now
       let removed := (c.domCommits dom).filter fun k => decide (k.src = 0 ∧ (k.instant + 2 ^ 32 - t) % 2 ^ 32 < 2 ^ 31) && !c.frozen k
       let c1 := { c with commits := c.commits.filter fun k => decide (k ∉ removed) }
       EntriesPass c dom es → assignInstants c1 dom es [] = (cs, false) → rising (cs.map fun k => k.instant) = true →
       (∀ k ∈ cs, (k.instant + 2 ^ 32 - t) % 2 ^ 32 < 2 ^ 31) →
       crowded (((c.domCommits dom).filter fun k => decide (k.src = 0 ∧ k ∉ removed)).map fun k => k.instant) (cs.map fun k => k.instant) = false →
       c1.poolUsed + cs.length ≤ 4096 → Does (.turnoutListReplace d) s (scheduled c d cs removed))) ∧
  (∀ (s c : State) (d : Desc), Starts s c d → (c.mode = .service ∨ c.mode = .maintenance) →
     (d.op = 0x3A → d.in1 33 ≤ 1 → c.dom? (d.in1 32) ≠ none →
       let rem := (c.domCommits (d.in1 32)).filter fun k =>
         decide (k.src = 0 ∧ (d.in1 33 = 1 ∨ k.tag = d.in4 36)) && decide (c.edge + edges100ns ≤ k.fire)
       Does (.turnoutCancel d) s ((rem.foldl (fun s k => s.dispose k 0x0A) c).complete d 3 0 (leBytes 2 rem.length))) ∧
     (∀ n dr, d.op = 0x3B → leAt d.pay 2 2 = n → 0 < n → n ≤ 1024 → d.pay.length = 32 + 8 * n → leAt d.pay 1 1 = 0 → leAt d.pay 16 8 = 0 → leAt d.pay 24 8 = 0 →
       (∀ i < n, leAt d.pay (32 + 8 * i + 1) 3 = 0) →
       let dom := leAt d.pay 0 1
       let cycle := leAt d.pay 8 4
       let ents := (List.range n).map fun i => (leAt d.pay (32 + 8 * i) 1, leAt d.pay (32 + 8 * i + 4) 4)
       c.seqModeBad dom = false → c.dom? dom = some dr → dr.bell = true → (∀ k ∈ c.domCommits dom, k.src ≠ 0) → (∀ e ∈ ents, c.slotReady e.1 dom = true) →
       (∀ e ∈ ents, 2000 ≤ e.2 ∧ 5 * c.leadEdges ≤ 2 * e.2) → cycle = (ents.map fun (e : Nat × Nat) => e.2).foldl (· + ·) 0 → cycle ≤ 2 ^ 30 →
       Does (.rotationList d) s (loadRotation d dom (leAt d.pay 4 4) cycle (leAt d.pay 12 4) ents c) ∧
       (c.rotOf dom = none →
         let first := firstBoundary (leAt d.pay 4 4) cycle (2 * c.now + 5 * c.leadEdges) (c.future (leAt d.pay 4 4))
         loadRotation d dom (leAt d.pay 4 4) cycle (leAt d.pay 12 4) ents c =
           ((c.setRot dom (some ⟨⟨first, cycle, ents⟩, c.unwrapped + (c.ahead first : Int), 0, none, 0⟩)).rotNext dom).complete d 3 0 (rotResult first true))) ∧
     (∀ dr, d.op = 0x3C → c.dom? (d.in1 32) = some dr → dr.bell = true →
       Does (.rotationStop d) s (loadRotation d (d.in1 32) 0 1 (d.in4 36) [] c) ∧
       (c.rotOf (d.in1 32) = none → loadRotation d (d.in1 32) 0 1 (d.in4 36) [] c = c.complete d 3 0 (rotResult 0 false))))

/-- A staging goes from its start through its links to the commit frames (R228, R230, R231), and one that has not started in time is late: a rotation's start
is skipped, an entry with its LATE flag set is scheduled again as early as possible, another is disposed of with MISSED (R232). -/
def Obligations.StagingsRun : Prop :=
  ∀ s : State,
    (∀ e c p, pickStage s s.eligible = some (e, c) → (s.slot c.slot).plan = some p →
      ∃ t, exec .stagingStart s = .next t ∧ t.edge = max s.edge e ∧ t.stageSeq = (s.stageSeq + 1) % 2 ^ 32 ∧
        t.stagings = s.stagings ++ [⟨s.stageSeq, c.dom, c.slot, ((s.toEdge e).stagingLinks c.dom).map fun l => (l.1, max s.edge e + l.2)⟩] ∧
        t.commits = s.commits.map fun k => if k = c then { k with stage := 1, seq := s.stageSeq } else k) ∧
    (∀ d r c, (s.stagings.find? fun t => decide (t.dom = d)) = some r → s.slotReady r.slot d = true →
      (s.commits.find? fun c => decide (c.seq = r.seq ∧ c.stage = 1)) = some c → (c.src ≠ 2 ∨ s.edge + edges100ns ≤ c.fire) →
      let n := State.modSlot { s with stagings := s.stagings.erase r } r.slot fun k => { k with staged := true }
      Does (.stagingComplete d) s
        ((State.sendCommit { n with commits := sortCommits (n.commits.map fun k => if k = c then { c with stage := 2 } else k) } .commit
          { c with stage := 2 }).refire d)) ∧
    (∀ d r c, (s.stagings.find? fun t => decide (t.dom = d)) = some r → s.slotReady r.slot d = true →
      (s.commits.find? fun c => decide (c.seq = r.seq ∧ c.stage = 1)) = some c → c.src = 2 → c.fire < s.edge + edges100ns →
      let n := State.modSlot { s with stagings := s.stagings.erase r } r.slot fun k => { k with staged := true }
      let c' := { c with stage := 2, fire := s.edge + edges100ns, late := true, fixed := true }
      Does (.stagingComplete d) s
        ((State.sendCommit { n with commits := sortCommits (n.commits.map fun k => if k = c then c' else k) } .commit c').refire d)) ∧
    (∀ d c, s.lateOne d = some c →
      (c.src = 1 → Does (.lateStage d) s ((s.dispose c 4).rotAdvance d)) ∧
      (c.src ≠ 1 → bitAt c.flags 0 = true →
        let n := (s.wrapCount SEQ_CNT_MISS 1).seqFlag fSEQ_STATUS_LATE_STAGE_SEEN
        Does (.lateStage d) s ((n.drop c).schedule { c with instant := (n.drop c).earliest d [], late := true })) ∧
      (c.src ≠ 1 → bitAt c.flags 0 = false → Does (.lateStage d) s (s.dispose c 4)))

/-- At its fire edge an armed commit strobes every paddock of its domain (R227). Where all had the complete staging its slot becomes LIVE and the COMMIT event
says FIRED, LATE or CLEARED; where one had not, the SPLIT alarm and flag say so and the slot stays as it was (R213, R229). -/
def Obligations.CommitsFire : Prop :=
  ∀ (s : State) (d : Nat) (c : Commit) (rest : List Commit), s.domCommits d = c :: rest → c.fire < (s.tick + 1) * 400 → s.skipsStart c = false →
    c.stage = 2 → c.src ≠ 1 →
    let e := (s.fireStrays c.fire).toEdge c.fire
    let r := (e.domPdks d).foldl (fun (a : State × List Nat) p =>
      let q := if a.1.fenced p then (a.1.xingPend p d, false) else a.1.firePdk d p c.seq c.fire
      (q.1, if q.2 then a.2 ++ [p] else a.2)) (e, [])
    let reported := r.2.foldl (fun s p => s.report ⟨0x03, .domain, d, 4, some p, 0⟩) r.1
    let done := fun (n : State) (outcome : Nat) =>
      let q := n.domSeqOf d
      let m := n.setDomSeq d { q with last := some c.fire, slot := c.slot, rotEnt := none, seed := some c.fire, split := r.2, reselect := false }
      let k := (m.domChans d).foldl State.spoil m
      let k := (k.domChans d).foldl (fun s c => both (fun x s => s.fitExclude x c) s) k
      (k.drop c).reportCommit d c.slot outcome c.src c.instant (k.timeAt c.fire) c.tag c.seq
    (r.2 = [] → Does (.commitFire d) s (done (r.1.makeLive d c.slot)
      (if e.domForced d = true ∧ (e.mode = .service ∨ e.mode = .maintenance) then 9 else if c.late then 2 else 1))) ∧
    (r.2 ≠ [] → Does (.commitFire d) s (done (both (fun x s => s.pFlag x DRO_ROUTE_STATUS fDRO_ROUTE_STATUS_SPLIT_SEEN) reported) 8))

/-- At the boundary behind a commit the loops of the domain that are not OPEN are seeded from the plan and take its setpoint actions (R146, R191); a pending
rotation list takes over at its boundary (R243); after a time step the sequencer takes up its commits and rotations again (R247). -/
def Obligations.SequencerFollowsUp : Prop :=
  ∀ s : State,
    (∀ d fire p, (s.domSeqOf d).seed = some fire → s.edge % 400 = 0 → fire < s.edge → (s.slot (s.domSeqOf d).slot).plan = some p →
      ∃ load : State → ImgEntry → State,
        Does (.commitLoopSeed d) s (p.image.foldl load (s.setDomSeq d { s.domSeqOf d with seed := none })) ∧
        (∀ u e, (u.loopState u.lead e.ch = 0 ∨ pdkOf e.ch ∈ (s.domSeqOf d).split) → load u e = u) ∧
        (∀ u e t, u.loopState u.lead e.ch ≠ 0 → pdkOf e.ch ∉ (s.domSeqOf d).split →
          (both (fun x s => s.setDir x e.ch (e.falling, e.tp)) u).targetOf p e.ch = some t →
          load u e = (both (fun x s => s.setDir x e.ch (e.falling, e.tp)) u).commitLoop e.ch e.ff (spAction t.action) t.sp fire)) ∧
    (∀ d r q, s.rotOf d = some r → r.pend = some q →
      let off := if q.ents = [] then r.takeOff else r.pendOff q
      ((off : Int) ≤ s.unwrapped - r.org ∨ s.edgeOf (r.instantAt off) < (s.tick + 1) * 400) →
      let e := s.toEdge (s.edgeOf (r.instantAt off))
      (q.ents = [] → Does (.rotationTakeover d) s (e.setRot d none)) ∧
      (q.ents ≠ [] → Does (.rotationTakeover d) s
        (e.setRot d (some { run := q, org := r.org + off, off := r.off - off, pend := none, takeOff := 0 })))) ∧
    (∀ k, s.stepped = some k →
      let n := both (fun x s => s.wr x.bank SEQ_STEP (BitVec.ofNat 32 (ofSigned 32 k))) { s with stepped := none }
      let m := (n.seqFlag fSEQ_STATUS_STEP_SEEN).notice SEQ_STATUS fSEQ_STATUS_STEP_SEEN.lo 0xFFFF []
      let past := m.commits.filter fun c => decide (c.src = 0) && !m.frozen c && !m.future c.instant
      let leave := fun (u : State) (c : Commit) =>
        if bitAt c.flags 0 = true then (if c.stage = 2 then u.sendCommit .cancel c else u).drop c else u.dispose c 3
      let redo := fun (u : State) (c : Commit) => u.schedule { c with instant := u.earliest c.dom [], late := true, stage := 0, seq := 0 }
      Does .sequencerTimeStep s ((past.filter fun c => bitAt c.flags 0).foldl redo
        ((List.range 16).foldl (fun s d => s.rotSelect d) (past.foldl leave m)).refireAll))


/-! ### Surveys, the pair, the recorder, march, alarms -/

/-- What a survey request must hold to be taken in a state (R254, R278, R279); the prior image follows its 32 bytes. -/
def Claims.SurveyOk (c : State) (q : List Byte) : Prop :=
  let scope := leAt q 0 1
  let flags := leAt q 2 2
  let mask := leAt q 4 4
  c.survey = none ∧ (c.mode = .parked ∨ (c.mode = .maintenance ∧ bitAt flags 0 = false ∧ scope ≠ 0 ∧ mask = c.partMask scope)) ∧
  scope ≤ 2 ∧ leAt q 1 1 = 0 ∧ flags < 32 ∧ (q.drop 20).take 12 = zeros 12 ∧ (bitAt flags 0 = true ∨ bitAt flags 1 = true ∨ bitAt flags 2 = true) ∧
  (bitAt flags 2 = true → bitAt flags 0 = false ∧ bitAt flags 1 = false) ∧ (bitAt flags 0 = true → scope = 0) ∧
  (bitAt flags 1 = true ∨ bitAt flags 2 = true → c.map ≠ none) ∧ c.srvMaskBad scope mask = false ∧
  (bitAt flags 4 = true → (q.drop 32).length = leAt q 16 4 ∧ priorOk ((c.map.map fun m => m.id).getD 0) (q.drop 32) = true) ∧
  (bitAt flags 2 = true → bitAt flags 4 = false → c.results ≠ [])

/-- SURVEY begins at its start, where paddocks nap once they are awake; SURVEY_ABORT waits for the boundary that stops the sweep (R282; log entry 11 where
there is none to stop); SURVEY_EXPORT writes the image (R280). At the boundary behind a point's settling and averaging the sweep measures a spoiled point
again, or goes on to the next point, or judges the batch and turns to the next (R267 to R275, R282). The converters' results take effect, and the elements or
the end of the survey follow (R260). -/
def Obligations.SurveysRun : Prop :=
  (∀ (s c : State) (d : Desc), Starts s c d →
     (d.op = 0x40 → d.len = 32 → SurveyOk c d.pay →
       let q := d.pay
       let flags := leAt q 2 2
       let v : Survey :=
         { d := some d, conv := bitAt flags 0, sweeps := bitAt flags 1, reuse := bitAt flags 2, noWrite := bitAt flags 3,
           prior := if bitAt flags 4 = true then some (priorRecs (q.drop 32)) else none, phase := 0, pass := 0,
           els := (if bitAt flags 1 = true ∨ bitAt flags 2 = true then c.srvScope (leAt q 0 1) (leAt q 4 4) else []).map c.newEl, todo := [], cur := none,
           ranges := c.mons.map fun m => (m.sense, c.rangeOf m.sense), abort := false, waits := decide (c.napMask ≠ 0), pdks := [] }
       let u := { c with survey := some v, tb2 := 0 }
       Does (.survey d) s (if c.napMask = 0 then u.surveyBegin else u.wakePdks u.allPdks)) ∧
     (d.op = 0x41 → c.survey = none → Does (.surveyAbort d) s (c.complete d 4 0 [])) ∧
     (d.op = 0x41 → c.survey ≠ none →
       Does (.surveyAbort d) s ((c.modSurvey fun v => { v with abort := true }).addJob ⟨d, .surveyAbort, 0, c.tick + 1, []⟩)) ∧
     (d.op = 0x42 →
       let img := srvImage ((c.results.head?.map fun r => r.mapId).getD 0) c.results
       img.length ≤ d.len →
       Does (.surveyExport d) s ((c.writeOut d.outAddr img).complete d 4 0 (leBytes 4 img.length ++ leBytes 4 c.results.length)))) ∧
  (∀ (s : State) (v : Survey), s.survey = some v → s.edge % 400 = 0 →
     (∀ b, v.cur = some b → s.pointEnd b < s.tick →
       (b.spoiled = true → Does .surveyPointDone s
         (s.modSurvey fun v =>
           { v with cur := some { b with start := s.tick + 1, spoiled := false, late := false, samples := b.samples.filter fun e => decide (e.1 / 65536 ≠ b.point) } }).sweepStrobe) ∧
       (b.spoiled = false →
         let n := (v.batchEls b).foldl (fun s e => s.surveyOver v b e) s
         (∀ pt, v.nextPoint b b.point = some pt → Does .surveyPointDone s
           (n.modSurvey fun v => { v with cur := v.cur.map fun b => { b with point := pt, start := n.tick - 1, spoiled := b.late, late := false } }).sweepStrobe) ∧
         (v.nextPoint b b.point = none → Does .surveyPointDone s
           (nextBatch 6 (State.modSurvey (((n.survey.bind fun v => v.cur).getD b).chans.foldl
             (fun s c => s.judgeEl ((n.survey.bind fun v => v.cur).getD b) c) n) fun v => { v with cur := none }))))) ∧
     (∀ cals darks, v.conv = true → v.waits = false → 0 < v.phase → v.phase < 6 →
       let e := s.calPhase.calPhase.calPhase.calPhase
       let ps := v.pdks.filter fun p => decide ((e.pdk p).mode = .run)
       let dark := fun (u : State) (q : Nat × Nat) => if q.1 / 1024 ∈ ps then
           (u.dPut (SNS_CH_CTRL q.1) fSNS_CH_CTRL_DARK_OFFSET ((q.2 + 32) / 64)).dPut (SNS_CH_CTRL q.1) fSNS_CH_CTRL_DARK_VALID 1 else u
       let n := (darks.foldl dark (ps.foldl (fun s p => s.pdkCal cals p) e)).modSurvey fun v => { v with conv := false }
       let m := n.allPdks.foldl State.enablePdk n
       Does (.converterCalibrationDone cals darks) s (if v.sweeps = true then m.surveyElements else m.surveyEnd)))

/-- HANDOVER waits at most 64 ticks for the repairs and then asks (R312, R319); RESYNC starts the peer's synchronisation, and waits for its end (R315). -/
def Obligations.PairDescriptorsStart : Prop :=
  ∀ (s c : State) (d : Desc), Starts s c d →
    (d.op = 0x48 → c.standby ≠ none → Does (.handover d) s (c.addJob ⟨d, .handover, 0, c.tick + 64, []⟩)) ∧
    (d.op = 0x49 → c.role c.lead.other = .detached → (c.sh c.lead.other).halted = false → (c.startSync c.lead.other).role c.lead.other = .syncing →
      Does (.resync d) s ((c.startSync c.lead.other).addJob ⟨d, .resync, 0, 0, []⟩))

/-- REC_CONFIG waits for the first multiple of 64 ticks behind its boundary (R426), where it takes effect and completes; FREEZE triggers, RESUME goes on, STOP
stops (R429), and REC_READ writes what the buffers hold (R430). POST ticks after its trigger a recorder is FROZEN. MARCH starts in the writing shepherds, who
say that it is busy (R444). When both are done each notes its result and writes its buffer; the failing columns are those of the banks asked for, repaired
only where repair was asked for, and a destroying march loses what the banks held. -/
def Obligations.RecorderAndMarchRun : Prop :=
  ((∀ (s c : State) (d : Desc), Starts s c d → d.outAddr = 0 →
     (∀ n, d.op = 0x50 → leAt d.pay 0 1 = n → n ≤ 16 → d.pay.length = 16 + 8 * n → (∀ i < 15, leAt d.pay (1 + i) 1 = 0) → (∀ i < n, leAt d.pay (22 + 8 * i) 2 = 0) →
       (∀ g ∈ recGroups d.pay, g.bad c.part = false) → groupsOverlap (recGroups d.pay) = false → rate64 (recGroups d.pay) ≤ 64 * 128000 →
       Does (.recConfig d) s (c.addJob ⟨d, .recConfig, 0, (c.dueTick / 64 + 1) * 64, []⟩)) ∧
     (d.op = 0x51 → d.in1 32 = 0 → (c.sh c.lead).recorder.state = 1 → Does (.recFreeze d) s ((c.recTrigger (d.in4 36)).complete d 5 0 [])) ∧
     (d.op = 0x51 → d.in1 32 = 1 → (c.sh c.lead).recorder.state = 3 →
       Does (.recResume d) s ((both (fun x s => s.modRec x fun r => { r with state := 1, trig := none }) c).complete d 5 0 [])) ∧
     (d.op = 0x51 → d.in1 32 = 2 → Does (.recStop d) s ((both (fun x s => s.modRec x fun r => { r with state := 0, trig := none }) c).complete d 5 0 [])) ∧
     (d.op = 0x52 → 64 ≤ d.len → Does (.recRead d) s
       ((c.writeOwn (fun x => if x = .A then d.in8 32 else d.in8 40) fun x => c.readBuf x (d.in4 48) (d.in4 52) d.len).complete d 5 0 []))) ∧
   ∀ s : State,
     (∀ j, s.job? .recConfig = some j → s.edge % 400 = 0 → s.tick % 64 = 0 → j.due ≤ s.tick →
       Does .recorderConfigEffect s (((s.applyRecConfig j.d.pay).endJob j).complete j.d 5 0 [])) ∧
     (∀ x, (s.sh x).recorder.state = 2 → (s.sh x).recorder.postEnd < s.tick → Does (.recorderPostEnd x) s (s.modRec x fun r => { r with state := 3 }))) ∧
  ((∀ (s c : State) (d : Desc), Starts s c d → d.op = 0x53 → d.outAddr = 0 → d.in1 50 < 4 → 32 ≤ d.len → c.part = .gl3280 → d.in1 48 ≤ 1 → d.in1 49 ≤ 3 →
     4 ≤ d.in1 52 → d.in1 52 + d.in1 53 ≤ 128 → c.mode = .parked → c.lp = .none → (d.in1 48 = 0 → c.map = none) →
     Does (.march d) s ((both (fun x s => if (s.sh x).writes = true then s.pFlag x BNK_STATUS fBNK_STATUS_MARCH_BUSY else s) c).addJob ⟨d, .march, 0, 0, []⟩)) ∧
   ∀ (s : State) (a b : List MarchFail) (j : Job), s.job? .march = some j →
     ∃ fs : Shep → List MarchFail,
       (∀ x f, f ∈ fs x ↔ ∃ e ∈ (if x = .A then a else b), j.d.in1 52 ≤ e.bank ∧ e.bank < j.d.in1 52 + j.d.in1 53 ∧
         f = { e with repaired := e.repaired && bitAt (j.d.in1 50) 1 }) ∧
       let n := both (fun x s => if (s.sh x).writes = true then s.marchResult x (fs x) else s) (s.endJob j)
       let m := if j.d.in1 48 = 0 then n.loseBanks fun k => decide (j.d.in1 52 ≤ k ∧ k < j.d.in1 52 + j.d.in1 53) else n
       Does (.marchDone a b) s
         ((m.writeOwn (fun x => if x = .A then j.d.in8 32 else j.d.in8 40) fun x => marchBuf (j.d.in1 53) j.d.len (fs x)).complete j.d 5 0 []))

/-- ALARM_CFG waits for its boundary (R526, R531). A window closes at the boundary that ends its length (R519); then its bitmap and its event are written and it is
counted in both shepherds, the oldest window first (R521, R522, R532). At a boundary the reports that have arrived act by their classes (R523, R524). -/
def Obligations.AlarmsRun : Prop :=
  (∀ (s c : State) (d : Desc), Starts s c d →
    (d.op = 0x59 → d.in1 36 = 0 → d.len % 4 = 0 → d.in1 37 = 0 → d.in2 38 = 0 → d.in8 40 = 0 → d.in1 35 = 0 →
      (∀ r ∈ alarmRecs d.pay, r.2.2.2 = 0 ∧ alarmCode r.1 = true ∧ r.2.1 ≤ 3 ∧ r.2.2.1 ≤ 1) → d.in2 32 ≤ 1024 → (d.in1 34 ≠ 0 → 50 ≤ d.in1 34 ∧ d.in1 34 ≤ 100) →
      c.locked = false → Does (.alarmConfig d) s (c.addJob ⟨d, .setup, 10, c.tick + 1, []⟩)) ∧
    (d.op = 0x59 → d.in1 36 = 1 → d.in1 37 < 2 → d.in2 32 = 0 → d.in2 34 = 0 → d.len = 0 →
      Does (.alarmRelease d) s (c.addJob ⟨d, .setup, 11, c.tick + 1, []⟩))) ∧
  ∀ s : State,
    (∀ w, s.muster.win = some w → w.openTick + w.len ≤ s.tick → s.musterBoundary = closeWindow s) ∧
    (∀ r rest, s.muster.closed = r :: rest →
      let n := { s with muster := { s.muster with closed := rest, bitmaps := Tab.set s.muster.bitmaps [] (r.no % 8192) r.bits } }
      Does .musterWindowClose s (both (fun x s => s.pCount x ALM_CNT fALM_CNT_COUNT 1) (n.event 6 r.pay))) ∧
    (s.edge % 400 = 0 → Does .faultReaction s
      (((s.muster.waiting.filter fun e => decide (e.1 ≤ s.tick)).map fun e => e.2).foldl State.react
        { s with muster := { s.muster with waiting := s.muster.waiting.filter fun e => decide (s.tick < e.1) } }))

/-- What other commands do at the boundaries behind their start, when they are due: ALARM_CFG applies its records or releases (R526, R531), SET_SENSE writes
its words and completes when the measurements are done (R118), a coefficient list is queued as the fit budget leaves room and completes when it has drained
(R181, R184), a revert queues at most MAX_UPD entries between two drains and completes when no entry differs from its anchor (R180, R181), SET_FIT writes the estimator's registers (R184), SETUP_LOCK puts the lock in force (R511), PADDOCK_RESET fences, resets, waits and lifts the
fence (R468), HANDOVER asks when no repair is pending (R312), and SURVEY_ABORT stops the sweep (R282). -/
def Obligations.CommandsEndAtBoundaries : Prop :=
  ∀ (s : State) (j : Job),
    (j.due ≤ s.tick →
      (j.kind = .setup → j.phase = 10 → s.stepList j = ((s.applyAlarmConfig j.d).endJob j).completeHif j.d 0) ∧
      (j.kind = .setup → j.phase = 11 → s.stepList j = ((s.applyAlarmRelease j.d).endJob j).completeHif j.d 0) ∧
      (j.kind = .setSense → j.phase = 0 →
        s.stepList j = State.setJob ((listRecs 8 j.d).foldl (fun s r => s.writeSnsCtrl (recNum r) (s.senseWord r)) s) j
          { j with phase := 1, nums := ((listRecs 8 j.d).filter fun r => fSNS_CH_CTRL_MEASURE.bit (s.senseWord r)).map recNum }) ∧
      (j.kind = .setSense → j.phase = 1 → (∀ m ∈ j.nums, s.dGet (SNS_CH_CTRL m) fSNS_CH_CTRL_DARK_VALID = 1) →
        let ms := (listRecs 8 j.d).map recNum
        s.stepList j = (s.endJob j).complete j.d 0 0
          (leBytes 2 (ms.filter fun m => decide (s.dGet (SNS_CH_STAT m) fSNS_CH_STAT_OVER_RUN ≠ 0)).length ++
           leBytes 2 (ms.filter fun m => decide ((s.sense m).col ≠ [])).length ++ leBytes 4 0xFFFFFFFF)) ∧
      (∀ n : State, j.kind = .setXtalk → j.phase = 0 → j.nums ≠ [] →
        State.queuePairs (65536 - (s.sh s.lead).xt.queue.length - s.sGet CMP_FIT_BUDGET fCMP_FIT_BUDGET_MAX_UPD) j.nums s = (n, []) →
        s.stepList j = n.setJob j { j with phase := 1, nums := [n.xtDrains] }) ∧
      (j.kind = .setXtalk → j.phase = 1 → j.nums.headD 0 < s.xtDrains →
        s.stepList j = (s.endJob j).complete j.d 0 0 (listResult (xtalkRecs (j.d.len / 4) j.d.pay).1.length none)) ∧
      (j.kind = .revertFit → (j.phase = 1 → j.nums.headD 0 < s.xtDrains) →
        let n := (State.queuePairs (min (s.sGet CMP_FIT_BUDGET fCMP_FIT_BUDGET_MAX_UPD) (65536 - (s.sh s.lead).xt.queue.length)) s.anchorPairs s).1
        (s.anchorPairs = [] → s.stepList j = (s.endJob j).complete j.d 0 0 []) ∧
        (s.anchorPairs ≠ [] → s.stepList j = n.setJob j { j with phase := 1, nums := [n.xtDrains] })) ∧
      (j.kind = .setFit → s.stepList j =
        let a := s.writeFitCtrl (fCMP_FIT_CTRL_EN.put (fCMP_FIT_CTRL_MU.put 0 (j.d.in2 32)) (j.d.in1 44))
        let b := a.sWr CMP_FIT_LIMIT (fCMP_FIT_LIMIT_STEP_MAX.put (fCMP_FIT_LIMIT_BAND.put 0 (j.d.in2 36)) (j.d.in2 34))
        let e := (b.writeFitBudget (BitVec.ofNat 32 (j.d.in2 38))).sWr CMP_FIT_EXCITE (BitVec.ofNat 32 (j.d.in4 40))
        State.endList ((listRecs 4 j.d).foldl
          (fun s r => s.writeCmpCtrl (recNum r) (fCMP_CH_CTRL_FIT.put (s.sRd (CMP_CH_CTRL (recNum r))) (leAt r 2 1))) e) j (listRecs 4 j.d).length) ∧
      (s.job? .setupLock = some j → s.lockBoundary = ((s.setLock).endJob j).completeHif j.d 0) ∧
      (s.job? .padReset = some j →
        let p := j.nums.headD 0
        let fence := fun (b : Bool) => s.dPut CLK_XING_FENCE fCLK_XING_FENCE_PDK (setBitAt (s.dGet CLK_XING_FENCE fCLK_XING_FENCE_PDK) p b)
        (j.phase = 0 → s.padResetBoundary = (fence true).setJob j { j with phase := 1, due := s.tick + 2 }) ∧
        (j.phase = 1 → s.pdkResetOk p = true → s.padResetBoundary = (s.padReset p).setJob j { j with phase := 2 }) ∧
        (j.phase = 2 → bitAt (s.dGet RST_PDK_READY fRST_PDK_READY_READY) p = true →
          s.padResetBoundary = s.setJob j { j with phase := 3, due := s.tick + 2 }) ∧
        (j.phase = 3 → s.padResetBoundary = ((fence false).endJob j).completeHif j.d 0))) ∧
    (s.job? .handover = some j → s.standby ≠ none →
      (j.phase = 0 → s.sGet SHP_STATUS fSHP_STATUS_REPAIR_PENDING = 0 → s.handoverBoundary = s.setJob j { j with phase := 1, due := s.tick + 1 }) ∧
      (j.phase = 1 → j.due ≤ s.tick → (s.handoverWrite s.lead).handover ≠ none →
        s.handoverBoundary = (s.handoverWrite s.lead).setJob j { j with phase := 2 })) ∧
    (∀ v, s.survey = some v → v.abort = true → s.surveyStop.job? .surveyAbort = some j →
      s.surveyBoundary = (s.surveyStop.endJob j).complete j.d 4 0 [])

/-- TIME by its subcommand: READ writes 16 bytes latched at one edge, SET steps the device time, PTP_CONFIG waits for the next Announce, PORT_MEASURE measures
one port and completes with the round trip (R381, R389, R390). GATE_LIST leaves a list pending for the port from the boundary that it answers with (R402,
R404); POLICER replaces the entries that its records name, each with a full bucket (R408). -/
def Obligations.TimeAndTrafficDescriptorsAct : Prop :=
  ((∀ (s c : State) (d : Desc), Starts s c d → d.op = 0x5C →
     (d.in1 32 = 0 → Does (.timeRead d) s
       ((c.writeOut d.outAddr (leBytes 4 c.wraps ++ leBytes 4 c.now ++ leBytes 4 c.frac ++ leBytes 4 (c.rd 0 TIM_INCR).toNat)).completeHif d 0)) ∧
     (d.in1 32 = 1 →
       let n := both (fun x s => if s.servoState x = 5 then (s.modServo x fun k => { k with pend := none }).setServo x 1 else s) c
       Does (.timeSet d) s ((n.stepTo ((d.in4 40 * 2 ^ 32 + d.in4 36) * 2 ^ 24) 0).completeHif d 0)) ∧
     (d.in1 32 = 2 → d.len = 32 → ptpRecOk d.pay = true → Does (.ptpConfig d) s (c.addJob ⟨d, .ptpConfig, 0, 0, []⟩)) ∧
     (d.in1 32 = 3 → d.in1 33 ≤ 3 → c.ptpUses (d.in1 33) = false → c.hsr (d.in1 33 / 2) = false →
       (2 ≤ d.in1 33 → c.dGet (ETH_PAIR_CFG 1) fETH_PAIR_CFG_TLM_EN ≠ 1) → c.dGet (ETH_PORT_CFG (d.in1 33)) fETH_PORT_CFG_SPEED ≠ 3 →
       Does (.portMeasure d) s (State.addJob { c with tb3 := 0 } ⟨d, .portMeasure, 0, 0, [d.in1 33]⟩))) ∧
   ∀ (s : State) (rtt : Nat) (j : Job), s.job? .portMeasure = some j → Does (.portMeasureDone rtt) s ((s.endJob j).complete j.d 0 0 (leBytes 4 rtt))) ∧
  (∀ (s c : State) (d : Desc), Starts s c d →
     (∀ n, d.op = 0x5D → leAt d.pay 2 2 = n → n ≤ 256 → d.len = 16 + 8 * n → leAt d.pay 0 1 ≤ 3 → leAt d.pay 1 1 = 0 → leAt d.pay 12 4 = 0 →
       (∀ j < n, leAt d.pay (16 + 8 * j + 1) 3 = 0) →
       let ents := gateEnts (d.pay.drop 16) n
       let cycle := leAt d.pay 8 4
       cycle = (ents.map fun (e : Nat × Nat) => e.2).foldl (· + ·) 0 → cycle ≤ 2 ^ 30 → (∀ e ∈ ents, 100 ≤ e.2) →
       let t := c.gateTakeover (leAt d.pay 4 4) cycle
       Does (.gateList d) s
         (((c.modPort (leAt d.pay 0 1) fun p => { p with pend := some (⟨t, cycle, ents⟩, t) }).gateStat (leAt d.pay 0 1)).complete d 0 0
           (leBytes 4 (t % ((2 ^ 32 : Nat) : Int)).toNat))) ∧
     (let rs := records 24 d.pay (d.len / 24)
      d.op = 0x5E → d.len % 24 = 0 → (∀ r ∈ rs, streamFail r = 0) →
       ∃ put : State → List Byte → State,
         Does (.policer d) s ((rs.foldl put c).complete d 0 0 (listResult rs.length none)) ∧
         ∀ u r,
           let st : Stream := ⟨leAt r 1 1, leAt r 2 1, leAt r 3 1, leAt r 4 2, (r.drop 6).take 6, leAt r 12 4, leAt r 16 4, 0, u.edge⟩
           put u r = { u with streams := Tab.set u.streams none (leAt r 0 1) (some st) }))

/-- LIFECYCLE burns the target of a transition of R494 that its signer allows, with the token where one is asked for (R495, R512), and a token that does not
pass is refused; a debug token sets the level (R505); KEY_PROVISION stores a key, the recorder's keep flag or an erasure (R501, R509); which key an erasure of
slot 0 names is open (log entry 3). -/
def Obligations.KeyDescriptorsAct : Prop :=
  ∀ (s c : State) (d : Desc), Starts s c d →
    (∀ signer, d.op = 0x60 → transition c.fuses.life (d.in1 32) = some signer → c.mode = .parked → c.lp = .none → c.fuses.due = none →
      (c.needsToken signer = false → d.len = 0 → Does (.lifecycle d true) s ((c.burnLife (d.in1 32)).lcs d 0)) ∧
      (c.needsToken signer = true → d.len = 104 → tokenForm d.pay = true → leAt d.pay 1 1 = 0x10 + d.in1 32 → leAt d.pay 2 1 = signer →
        let r := c.present d.pay true
        Does (.lifecycle d true) s (if r.1 = true then (r.2.burnLife (d.in1 32)).lcs d 0 else r.2.lcs d 4))) ∧
    (d.op = 0x61 → d.len = 104 → tokenForm d.pay = true → leAt d.pay 1 1 = 1 ∨ leAt d.pay 1 1 = 2 →
      let r := c.present d.pay (levelAllowed c.fuses.life (leAt d.pay 1 1) (leAt d.pay 2 1))
      Does (.debugToken d) s (if r.1 = true then (r.2.setLevel (leAt d.pay 1 1)).lcs d 0 else r.2.lcs d 4)) ∧
    (d.op = 0x62 → d.payByte 0 = 1 → c.keysOpen = true → keySlot d < 2 → keyForm d 32 = true →
      let n := c.setKeys fun k => if keySlot d = 0 then { k with ctl0 := some (keyValue d) } else { k with ctl1 := some (keyValue d) }
      Does (.controlKeyProvision d true) s (State.lcs { n with keySeq := Tab.set n.keySeq 0 (keySlot d) 0 } d 0)) ∧
    (d.op = 0x62 → d.payByte 0 = 2 → c.fuses.life = 1 → keySlot d = 0 → keyForm d 96 = true →
      onCurve (leNat ((keyValue d).take 48), leNat (((keyValue d).drop 48).take 48)) = true → c.locked = false →
      Does (.ownerDebugKey d true) s ((c.setKeys fun k => { k with dbgKey := some (keyValue d) }).lcs d 0)) ∧
    (d.op = 0x62 → d.payByte 0 = 3 → c.keysOpen = true → keySlot d < 2 → keyForm d 0 = true → (keySlot d = 0 → c.fuses.life = 1 ∧ c.locked = false) →
      ∃ dbg : Bool, (keySlot d = 1 → dbg = false) ∧
        Does (.keyErase d true) s (((c.draw 1).2.setKeys fun k =>
          if dbg = true then { k with dbgKey := none } else if keySlot d = 0 then { k with ctl0 := none } else { k with ctl1 := none }).lcs d 0)) ∧
    (d.op = 0x62 → d.payByte 0 = 4 → c.keysOpen = true → keySlot d = 0 → keyForm d 1 = true → leAt d.pay 4 1 ≤ 1 → c.locked = false →
      Does (.recorderKeep d true) s
        (((c.setKeys fun k => { k with keep := decide (leAt d.pay 4 1 = 1) }).dPut LCS_STATE fLCS_STATE_REC_KEEP (leAt d.pay 4 1)).lcs d 0))

/-- FW_UPDATE writes a sound image to the slot that the device did not boot from, tells the slots' headers, selects the slot to boot where its image is sound,
or raises the minimum SVN to that of the running image (R499). Tokens over JTAG act as the descriptors do, in BOOT and PARKED (R495, R505), and a halt is
taken where the shepherd neither leads nor stands by (R507). -/
def Obligations.FirmwareAndDebugAct : Prop :=
  (∀ (s c : State) (d : Desc), Starts s c d → d.op = 0x63 → c.fuses.life ≠ 4 →
    (d.in1 32 = 0 → c.bootedFrom (d.in1 33) = false → d.in1 33 < 2 → 512 ≤ d.len → d.len ≤ 33554432 →
      let e := c.imageErr d.pay
      Does (.fwWrite d) s (if e = 0 then c.addJob ⟨d, .fwWrite, 0, 0, [d.in1 33]⟩ else c.lcs d (if e = 3 then 5 else 4))) ∧
    (d.in1 32 = 1 → 1088 ≤ d.len → ∃ bs : List Byte, bs = c.fwInfo.1 ∧
      (∀ img, c.store.slot0 = some img → bs.take 512 = (img ++ zeros 512).take 512) ∧
      (∀ img, c.store.slot1 = some img → (bs.drop 512).take 512 = (img ++ zeros 512).take 512) ∧
      Does (.fwInfo d) s ((c.fwInfo.2.writeOut d.outAddr bs).lcs d 0)) ∧
    (d.in1 32 = 2 → d.in1 33 < 2 → Does (.fwSelect d true) s
      (if c.slotErr (d.in1 33) = 0 then State.lcs { c with store := { c.store with primary := d.in1 33 } } d 0 else c.lcs d 4)) ∧
    (∀ svn, d.in1 32 = 3 → c.pGet .A LCS_FW_INFO fLCS_FW_INFO_SVN = svn → c.pGet .B LCS_FW_INFO fLCS_FW_INFO_SVN = svn →
      Does (.fwRaiseSvn d true) s (State.lcs { c with fuses := { c.fuses with svnMin := max c.fuses.svnMin svn } } d 0))) ∧
  ∀ s : State,
    (∀ j, s.job? .fwWrite = some j →
      (j.nums = [0] → Does (.fwStoreWriteDone true) s
        (State.lcs { s.endJob j with store := { s.store with slot0 := some j.d.pay } } j.d 0)) ∧
      (j.nums = [1] → Does (.fwStoreWriteDone true) s
        (State.lcs { s.endJob j with store := { s.store with slot1 := some j.d.pay } } j.d 0)) ∧
      Does (.fwStoreWriteDone false) s ((s.endJob j).lcs j.d 6)) ∧
    (∀ t, s.mode ≠ .off →
      (∀ signer, 0x10 ≤ leAt t 1 1 → transition s.fuses.life (leAt t 1 1 - 0x10) = some signer → s.mode = .boot ∨ s.mode = .parked → s.lp = .none →
        s.fuses.due = none →
        (s.needsToken signer = false → tokenForm t = true → s.lockout = false →
          Does (.jtagToken t true) s (s.newNonce.burnLife (leAt t 1 1 - 0x10))) ∧
        (s.needsToken signer = true → leAt t 2 1 = signer →
          let r := s.present t true
          Does (.jtagToken t true) s (if r.1 = true then r.2.burnLife (leAt t 1 1 - 0x10) else r.2))) ∧
      (leAt t 1 1 < 0x10 →
        let r := s.present t (levelAllowed s.fuses.life (leAt t 1 1) (leAt t 2 1))
        Does (.jtagToken t true) s (if r.1 = true then r.2.setLevel (leAt t 1 1) else r.2))) ∧
    (∀ x, s.jtagSet = 4 → s.role x = .detached → Does (.jtagCoreHalt x) s (s.modSh x fun h => { h with coreHalt := true })) ∧
    (∀ x, s.jtagSet ≠ 4 → Does (.jtagCoreHalt x) s s) ∧
    (∀ x, s.jtagSet = 4 → s.role x = .active ∨ s.role x = .standby →
      Does (.jtagCoreHalt x) s (s.dFlag LCS_STATUS fLCS_STATUS_HALT_REFUSED))

/-! ### Resets, rails and boot -/

/-- What every reset of the device leaves behind a state (R471, R484, R489): RESET, nothing loaded, scheduled, running or waiting, the fuses with a burned
transition in force (R495), and the board's firmware store as it is. -/
def Claims.DeviceReset (s t : State) : Prop :=
  t.mode = .reset ∧ t.lp = .none ∧ t.map = none ∧ t.jobs = [] ∧ t.writes = [] ∧ t.commits = [] ∧ t.rots = [] ∧ t.slots = [] ∧ t.survey = none ∧ t.chans = [] ∧
  (∀ x, t.role x = .off ∧ (t.sh x).halted = true ∧ (t.sh x).fold = []) ∧ t.fuses = s.fuses.now ∧ t.store = s.store ∧ t.part = s.part

/-- Every reset of the device leaves RESET. After POR RST_CAUSE shows POR alone, the epoch is 0 and the edge count starts again; the others keep the epoch,
the grant count, the edge count and the causes before, and add their own (R484, R489, R491); a change of the life cycle, 100 us after its burn, keeps the
straps too (R488, R495). RESET ends in BOOT with the straps sampled, a new nonce and the level of R506. The reset kinds of one shepherd wipe it and note their
cause; PERST_N low, or the shepherd's rail, holds it until the pin or the rail comes back (R484, R487). The watchdog keeps no recorder (R509), and resets only
where it is enabled. PERST, a hot reset and an FLR reset the configuration space of the endpoint; a shepherd reset and the watchdog keep it (R489). -/
def Obligations.DevicesAndShepherdsReset : Prop :=
  (∀ s : State,
     (∃ t, exec .por s = .next t ∧ DeviceReset s t ∧ t.edge = 0 ∧ t.epoch = 0 ∧ ∀ x : Shep, t.rd x.bank RST_CAUSE = fRST_CAUSE_POR.put 0 1) ∧
     (∀ (i : Instr) (f : Fld), (i = .resetNAssert ∧ f = fRST_CAUSE_RESET_N) ∨ (i = .pllLossOfLock ∧ f = fRST_CAUSE_LOL) ∨
         ((∃ e l, s.fuses.due = some (e, l) ∧ e ≤ s.edge) ∧ i = .lifecycleReset ∧ f = fRST_CAUSE_LC) →
       ∃ t, exec i s = .next t ∧ DeviceReset s t ∧ t.edge = s.edge ∧ t.epoch = s.epoch ∧ t.rd 0 SHP_CNT_SWITCH = s.rd 0 SHP_CNT_SWITCH ∧
         (∀ x : Shep, t.rd x.bank RST_CAUSE = f.put (s.rd x.bank RST_CAUSE) 1) ∧
         (i = .pllLossOfLock → t.dGet CLK_STATUS fCLK_STATUS_LOL_SEEN = 1) ∧ (i = .lifecycleReset → t.rd 0 RST_STRAPS = s.rd 0 RST_STRAPS)) ∧
     (∀ straps, s.mode = .reset →
       let n := if s.strapsKept = true then s else s.wr 0 RST_STRAPS (BitVec.ofNat 32 (straps % 32))
       Does (.resetEnd straps) s (State.resetLevel (State.newNonce { n with mode := .boot, strapsKept := false })))) ∧
  (∀ (s : State) (x : Shep),
     Does (.perstAssert x) s ((s.shepReset x fRST_CAUSE_PERST true).modSh x fun h => { h with perst := true }) ∧
     Does (.perstRelease x) s (s.modSh x fun h => { h with perst := false }) ∧
     Does (.pcieHotReset x) s (s.shepReset x fRST_CAUSE_HOT true) ∧
     Does (.functionLevelReset x) s (s.shepReset x fRST_CAUSE_FLR true) ∧
     (s.pGet x RST_WDG fRST_WDG_EN = 1 → (s.sh x).perst = false → (s.sh x).railLow = false →
       Does (.watchdogExpiry x) s (s.shepReset x fRST_CAUSE_WATCHDOG false)) ∧
     (∀ f keep, s.mode ≠ .off → s.mode ≠ .reset → s.mode ≠ .boot → s.otherUp x = true → s.syncing ≠ some x → s.sync = none →
       let n := s.shepReset x f keep
       n = s.wipeShep x f (keep && s.recKeep) ∧ (n.sh x).halted = true ∧ (n.sh x).fold = [] ∧
       (n.sh x).msix = if f = fRST_CAUSE_SHP ∨ f = fRST_CAUSE_WATCHDOG then (s.sh x).msix else {}))

/-- A rail that falls resets what it feeds and is noted in PWR_RAIL: VDD_AON is a POR, VDD_A and VDD_B reset their shepherds, VDDQ both with their recorders,
whose keys are drawn anew (R419), a paddock's rail its paddock, SERDES none, but its links go down (R482, R484). The paddock rails of R75 and R91 open the switches or clear VHTR_OK, and report; VPARK only flags
(R93). What comes back, ends it. -/
def Obligations.RailsFallAndReturn : Prop :=
  ∀ s : State,
    Does (.railBelowThreshold .aon) s (doPor s) ∧
    (∀ x : Shep, Does (.railBelowThreshold (if x = .A then .vddA else .vddB)) s
      (((s.shpReset x).modSh x fun h => { h with railLow := true }).railFlag (if x = .A then fPWR_RAIL_VDD_A_LOW else fPWR_RAIL_VDD_B_LOW))) ∧
    (let low := fun (x : Shep) (s : State) => (s.shpReset x).modSh x fun h => { h with railLow := true }
     Does (.railBelowThreshold .vddq) s
      ((both (fun x s => (s.newKeys x false).modSh x fun h => { h with recorder := {} }) (low .B (low .A s))).railFlag fPWR_RAIL_VDDQ_LOW)) ∧
    Does (.railBelowThreshold .serdes) s (((List.range 4).foldl (fun s k => s.dPut (ETH_PORT_STAT k) fETH_PORT_STAT_LINK 0) s).railFlag fPWR_RAIL_SERDES_LOW) ∧
    (∀ p, p < s.part.paddocks →
      (let n := (s.padReset p).modPdk p fun k => { k with railLow := true }
       Does (.railBelowThreshold (.pdk p)) s (n.dPut PWR_RAIL fPWR_RAIL_PDK_LOW (setBitAt (n.dGet PWR_RAIL fPWR_RAIL_PDK_LOW) p true))) ∧
      (let n := (s.modPdk p fun k => { k with vdrLow := true }).dFlag (DRV_PDK_STATUS p) fDRV_PDK_STATUS_VDR_LOW
       let t := if n.pdkReports p = true then n.report ⟨0x06, .paddock, p, 1, none, 0⟩ else n
       Does (.vdrLow p) s t ∧ Does (.railBelowThreshold (.vdr p)) s t) ∧
      (∀ high,
       let n := (s.dFlag (DRV_PDK_STATUS p) (if high = true then fDRV_PDK_STATUS_VHTR_HIGH else fDRV_PDK_STATUS_VHTR_LOW)).modPdk p
         fun k => { k with vhtrOut := true }
       let t := if n.pdkReports p = true then n.report ⟨0x05, .paddock, p, 0, none, 0⟩ else n
       Does (.vhtrOutOfRange p high) s t ∧ (high = false → Does (.railBelowThreshold (.vhtr p)) s t)) ∧
      Does (.vparkOutOfRange p) s (s.dFlag (DRV_PDK_STATUS p) fDRV_PDK_STATUS_VPARK_RANGE) ∧
      Does (.railRestored (.vhtr p)) s (s.modPdk p fun k => { k with vhtrOut := false })) ∧
    (∀ x : Shep, Does (.railRestored (if x = .A then .vddA else .vddB)) s (s.modSh x fun h => { h with railLow := false })) ∧
    Does (.railRestored .vddq) s ((s.modSh .A fun h => { h with railLow := false }).modSh .B fun h => { h with railLow := false }) ∧
    (∀ p, Does (.railRestored (.pdk p)) s (s.modPdk p fun k => { k with railLow := false })) ∧
    (∀ p, (s.pdk p).vdrLow = true → Does (.railRestored (.vdr p)) s ((s.modPdk p fun k => { k with vdrLow := false }).enablePdk p)) ∧
    (∀ p, (s.pdk p).mode = .reset → (s.pdk p).railLow = false → Does (.paddockResetRelease p) s
      (s.modPdk p fun k => { k with mode := if s.lp = .deep then .off else .reload })) ∧
    (∀ p, (s.pdk p).mode = .reload →
      Does (.paddockReloadDone p) s (s.padRestored p)) ∧
    (∀ p refv, p < s.part.paddocks → ((s.pdk p).mode = .run ∨ (s.pdk p).mode = .reload) → refState refv ≠ 0 →
      s.dGet (SRV_PDK_CAL p) fSRV_PDK_CAL_REF_SRC ≠ 1 →
      let m := { s with vrefs := Tab.set s.vrefs {} p { s.vref p with pins := refv } }
      let n := (m.dPut (SRV_PDK_CAL p) fSRV_PDK_CAL_REF_SRC 1).dPut (SRV_PDK_CAL p) fSRV_PDK_CAL_REF_STATE (refState refv)
      let o := both (fun x s => s.pFlag x SRV_STATUS fSRV_STATUS_REFV_SEEN) n
      Does (.refvWindowFault p refv) s (State.surveyRestart (if o.pdkReports p = true then o.report ⟨0x04, .paddock, p, 3, none, 0⟩ else o) p))

/-- A shepherd that boots puts the columns of its fuses and, at POR on the 3280, of its march into BNK_REPAIR (R441, R443), runs the first image that passes
(R498), reads the keys, holds its identity (R503), checks its DRAM and then rejoins or claims (R308, R315, R490); the step at
which a boot stops is kept. Sixteen ticks after the first claim its shepherd is granted (R308). A loaded image that passes is what the boot then takes (R541).
-/
def Obligations.BootsAndClaims : Prop :=
  ∀ (s : State) (x : Shep),
    (∀ b : BootInfo, (s.sh x).halted = true → (s.sh x).perst = false → (s.sh x).railLow = false → (s.sh x).coreHalt = false → s.role x ≠ .active → s.role x ≠ .standby →
      s.mode ≠ .off → s.mode ≠ .reset →
      let march := (s.sh x).porBoot && decide (s.part = .gl3280)
      let m := if (s.sh x).porBoot = true then
        s.wr x.bank BNK_REPAIR (fBNK_REPAIR_FUSED.put (fBNK_REPAIR_SOFT.put 0 (if march = true then b.soft else 0)) b.fused) else s
      (b.unrepaired = true → march = true → Does (.bootComplete x b) s
        ((m.modSh x fun h => { h with unrepaired := true, bootStep := 3 }).pFlag x BNK_STATUS fBNK_STATUS_UNREPAIRED)) ∧
      ((b.unrepaired && march) = false → ∀ n,
        (m.bootImage x b.storeErr = (false, n) → Does (.bootComplete x b) s (n.modSh x fun h => { h with bootStep := 4 })) ∧
        (m.bootImage x b.storeErr = (true, n) →
          let k := ((n.pPut x MTX_REMAP fMTX_REMAP_REMAP 1).loadKeys b.keysOk).holdIdentity x
          (b.pop ≠ 0 → Does (.bootComplete x b) s ((k.pPut x FLD_STATUS fFLD_STATUS_POP_FAULT b.pop).modSh x fun h => { h with bootStep := 5 })) ∧
          (b.pop = 0 →
            let f := (((k.pPut x FLD_STATUS fFLD_STATUS_POP_FAULT 0).pPut x FLD_STATUS fFLD_STATUS_DPC b.dpc).pPut x FLD_STATUS fFLD_STATUS_CAP b.cap).capMismatch
            let g := if (f.sh x).recorder.state = 3 then f.pFlag x FLD_STATUS fFLD_STATUS_KEPT else f
            Does (.bootComplete x b) s ((g.modSh x fun h => { h with bootStep := 6 }).bootDone x))))) ∧
    (∀ t rest, s.claims = (x, t) :: rest → s.active = none → t + 16 ≤ s.tick → Does .claimWindowExpiry s (s.grantClaim x)) ∧
    (s.loadBusy x = true →
      let img := (s.sh x).loadImage (s.pGet x GLB_LOAD_CTRL fGLB_LOAD_CTRL_LENGTH)
      let n := s.pPut x GLB_LOAD_CTRL fGLB_LOAD_CTRL_BUSY 0
      Does (.loadCheckDone x) s (if n.imageErr img = 0 then
          (n.modSh x fun h => { h with loaded := some img, bootStep := max h.bootStep 4 }).pPut x LCS_FW_INFO fLCS_FW_INFO_BOOT_ERR 0
        else n.pPut x LCS_FW_INFO fLCS_FW_INFO_BOOT_ERR (n.imageErr img)))

/-! ### The tick, pins, clocks, outputs, senses and loops -/

/-- A tick boundary ends the present tick with what the converters delivered, applies the writes that are due, lets running commands go on, settles claims,
starts the descriptors that are ready, and begins the next tick (R22, R68, R140, R333); what it changed of the shared words waits for a standby behind an
unsealed record (R305). Where one unfenced write is due and nothing later, what is applied is
its register's effect. -/
def Obligations.TickBoundaries : Prop :=
  ∀ (s : State) (i : TickInput),
    (s.mode = .off ∨ s.mode = .reset → Does (.tickBoundary i) s s) ∧
    (s.mode ≠ .off → s.mode ≠ .reset →
      let f := s.fireStrays ((s.tick + 1) * 400 - 1)
      let e := f.toEdge ((s.tick + 1) * 400)
      let n := e.endTick i (e.tick - 1)
      let m := State.startReady 64 (n.applyDue.stepJobs.claimBoundary.joinBoundary)
      Does (.tickBoundary i) s (m.standbyTakes n).beginTick ∧
      (s.strays ((s.tick + 1) * 400 - 1) = [] → e.edge = (s.tick + 1) * 400 ∧ e.tick = s.tick + 1) ∧
      (∀ x, m.standby = some x → 0 < (m.sh x).copyMiss → m.standbyTakes n = m.deferShared n x) ∧
      (∀ x, m.standby = some x → (m.sh x).copyMiss = 0 → m.standbyTakes n = m)) ∧
    (∀ w, s.writes = [w] → w.due ≤ s.tick → s.heldByFence w = false → s.applyDue = State.applyReg { s with writes := [] } w.sh w.off w.val w.sel) ∧
    (∀ w, s.writes = [w] → s.tick < w.due → s.applyDue = s)

/-- Droop trips are noted and stretch the clock, and the stretch ends once HOLD periods passed without one (R458). CLEAR_N low forces the selected flocks, and
wakes napped paddocks (R87, R479); its release waits for a tick boundary (R88). An edge of FLOCK_STB loads the flocks that select it (R83). WAKE_N wakes
(R479), and an exit from a low-power state ends (R480). PPS_IN latches the time of the first of its two high samples (R370), and a port's link is noted
(R392). -/
def Obligations.PinsAndClocksAct : Prop :=
  ∀ s : State,
    (∀ x mask, 0 < mask → mask < 2 ^ 32 → s.mode ≠ .off → s.mode ≠ .reset → (s.sh x).perst = false → (s.sh x).railLow = false →
      let n := s.wr x.bank (CLK_DROOP_TRIP x.num) (s.rd x.bank (CLK_DROOP_TRIP x.num) ||| BitVec.ofNat 32 mask)
      let m := { n with tlm := { s.tlm with trips := s.tlm.trips + 1 } }.modSh x fun h => { h with sawStretch := true }
      Does (.droopTrip x mask) s (if (s.sh x).stretched = true then m else
        (m.pCount x CLK_STRETCH_EVT fCLK_STRETCH_EVT_COUNT 1).modSh x fun h => { h with stretched := true })) ∧
    (∀ x periods, (s.sh x).stretched = true → s.pGet x CLK_DROOP_CFG fCLK_DROOP_CFG_HOLD ≤ periods →
      Does (.stretchHoldEnd x periods) s
        ((s.pCount x CLK_STRETCH_CNT fCLK_STRETCH_CNT_COUNT periods).modSh x fun h => { h with stretched := false, sawFull := true })) ∧
    (s.napMask = 0 → Does .clearNFall s (State.settleAll { s with clearLow := true, clearHold := true, clearFell := true })) ∧
    (s.napMask ≠ 0 → s.lp = .none →
      let n := { s with clearLow := true, clearHold := true, clearFell := true }
      let w := (n.dFlag PWR_WAKE fPWR_WAKE_WAKE_SEEN).wakePdks n.allPdks
      Does .clearNFall s (State.settleAll { w with lpExit := some (w.lpExit.getD 4) })) ∧
    Does .clearNRise s { s with clearLow := false } ∧
    (s.clearHold = true → s.clearLow = false → s.edge % 400 = 0 →
      Does .flockRelease s (State.resume { s with clearHold := false } ((List.range s.part.flocks).filter fun f => s.clrMask f))) ∧
    (∀ pin falling, pin < 4 → Does (.flockStbEdge pin falling) s
      (((List.range s.part.flocks).filter fun f =>
        decide (s.flockSrc f = 2 + pin ∧ s.dGet (DRV_FLOCK_CFG f) fDRV_FLOCK_CFG_EDGE = bitN falling)).foldl State.strobeFlock s)) ∧
    Does .wakeNFall s (s.wakeAll 4) ∧
    (s.waking ≠ [] → s.lpExit = none →
      let r := (State.modeEvent { s.endNap with lpExit := none, safeDue := false } s.endNap.mode (if s.lp = .none then 0 else 4)).endWakeJobs
      Does .lowPowerExitDone s (if s.endNap.safeDue = true then r.enterSafe else r)) ∧
    (∀ cause, s.lpExit = some cause → s.lp = .quiesce ∨ s.lp = .deep →
      let n := if s.lp = .quiesce then State.endNap { s with lp := .none } else State.leaveDeep { s with lp := .none }
      let r := (State.modeEvent { n with lpExit := none, safeDue := false } n.mode cause).endWakeJobs.rejoinBooted
      Does .lowPowerExitDone s (if n.safeDue = true then r.enterSafe else r)) ∧
    (let t := (s.tb0 + 2 ^ 88 - 5 * 2 ^ 23) / 2 ^ 24
     Does .ppsInEdge s ((s.wr 0 TIM_PPS_IN_TS (BitVec.ofNat 32 t)).feed 1 Config.ppsDelay.toNat (((t + 500000000) % 1000000000 : Nat) - 500000000))) ∧
    (∀ i up, i < 4 → s.mode ≠ .off → s.mode ≠ .reset → s.speed i ≠ 3 → Does (.ethLinkChange i up) s (s.dPut (ETH_PORT_STAT i) fETH_PORT_STAT_LINK (bitN up)))

/-- The span change of an output: 0.1 us after its boundary the switch opens, at 2.6 us it closes onto the park or clear code where the output is enabled
(R76, R80), and when the pad has settled the loop codes are taken again (R78). A span from NONE ends its configuration and is enabled
when OE = 1, at its park or clear code and taking loop codes from the next tick on (R69, R72).
COMPLIANCE sets and clears (R90). A sense frame of the last tick that is heard brings its counts and its power data to a shepherd,
or at its deadline they are missing, which INPUT_MISS says
unless the paddock sends none (R105 to R107, R163, R298). A run of 16 over-range results is reported once (R101), the void period after a range change ends
(R102), and a dark measurement sets the offset to the average of its 64 results, halves rounded up (R103). -/
def Obligations.OutputsAndSensesWork : Prop :=
  (∀ (s : State) (c : Nat),
     let from_ := if s.edge % 400 = 0 then s.tick else s.tick + 1
     ((s.chan c).phase = .hold → Does (.spanChangeSwitchOpen c) s (s.modChan c fun h => { h with phase := .opened })) ∧
     ((s.chan c).phase = .opened →
       (s.oeOf c = true → s.disabled c = false → Does (.spanChangeSwitchClose c) s
         ((s.setDac c (if s.forced (flockOf c) = true then s.clearCode (flockOf c) (s.spanOf c) else s.parkCode c)).modChan c fun h => { h with phase := .closed })) ∧
       (s.oeOf c = false → Does (.spanChangeSwitchClose c) s
         ((s.setDac c (s.parkCode c)).modChan c fun h => { h with phase := .idle, acceptFrom := h.start + 3 }))) ∧
     ((s.chan c).phase = .closed → Does (.spanChangeEnd c) s ((s.modChan c fun h => { h with phase := .idle, acceptFrom := from_ }).takeForced c)) ∧
     ((s.chan c).phase = .config →
       let n := s.modChan c fun h => { h with phase := .idle }
       (n.on c = true →
         let k := n.modChan c fun h => { h with acceptFrom := from_ }
         Does (.spanConfigEnd c) s (if k.asleep (pdkOf c) = true then k
           else k.setDac c (if k.forced (flockOf c) = true then k.clearCode (flockOf c) (k.spanOf c) else k.parkCode c))) ∧
       (n.on c = false → Does (.spanConfigEnd c) s n)) ∧
     (c < s.part.chans →
       (current (s.spanOf c) = true →
         Does (.complianceSet c) s ((s.dFlag (DRV_CH_CTRL c) fDRV_CH_CTRL_COMPLIANCE).dFlag (DRV_PDK_STATUS (pdkOf c)) fDRV_PDK_STATUS_COMPLIANCE_ANY)) ∧
       Does (.complianceClear c) s (s.dPut (DRV_CH_CTRL c) fDRV_CH_CTRL_COMPLIANCE 0))) ∧
  (∀ (s : State),
     (∀ x p, s.role x ≠ .off → p < s.part.paddocks →
       (∀ noise g f, (s.pdk p).mode = .run → (s.pdk p).nap = false → Tab.get s.pdkCounts none p = some g → g.heard p (s.pdk p).epoch noise = some f →
         (f.tick + 1) % 2 ^ 48 = s.tick % 2 ^ 48 → Does (.senseFrameReceive x p noise) s ((takeCounts x p f s).takePower x p)) ∧
       ((s.pdk p).mode = .run → (s.pdk p).nap = false →
         Does (.senseFrameDeadline x p) s (((voidCounts x p s).missPower x p).modSh x fun h => { h with inputMiss := true })) ∧
       ((s.pdk p).mode ≠ .run ∨ (s.pdk p).nap = true → Does (.senseFrameDeadline x p) s ((voidCounts x p s).missPower x p))) ∧
     (∀ m, m < 16384 → 16 ≤ s.dGet (SNS_CH_STAT m) fSNS_CH_STAT_OVER_RUN → (s.sense m).reported = false →
       Does (.senseOver m) s (((s.modSense m fun h => { h with reported := true }).dFlag SNS_STATUS fSNS_STATUS_OVER_ANY).alarm 0x01 .monitor m)) ∧
     (∀ m, (s.sense m).voidUntil ≤ s.tick → Does (.voidPeriodEnd m) s (s.modSense m fun h => { h with voidUntil := 0 })) ∧
     (∀ m sum t, (s.sense m).meas = some t → t ≤ s.tick → (s.pdk (m / 1024)).mode = .run →
       let n := (s.dPut (SNS_CH_CTRL m) fSNS_CH_CTRL_DARK_OFFSET ((sum + 32) / 64)).dPut (SNS_CH_CTRL m) fSNS_CH_CTRL_DARK_VALID 1
       Does (.darkMeasureDone m sum) s ((n.modSense m fun h => { h with meas := none }).spoilMon m)))

/-- At the end of a monitor's window every element that reads it gets its gradient, the sum over the window weighted to 64 ticks, or none where a count is
missing or spoiled (R111, R113). The window judged is the one that the tick ends, also where WINDOW changed at its boundary. -/
def Obligations.WindowsEnd : Prop :=
  ∀ (s : State) (x : Shep) (m : Nat), m < 16384 → 0 < s.tick → s.tick % s.winEnded m = 0 →
    ∃ judge : State → Nat → State,
      Does (.windowResult x m) s ((s.infl m).foldl judge s) ∧
      (∀ u c, (u.demodMon c ≠ m → judge u c = u) ∧
        (u.demodMon c = m →
          let w := s.winEnded m
          let dm := (u.sh x).dm c
          (dm.n = w → dm.spoiled (u.tick - w) u.tick = false →
            judge u c = (u.modDemod x c fun k => { k with sum := 0, n := 0, g := some (k.sum * (64 / w : Nat)), noRes := false }).dPut (SNS_DITHER c)
              fSNS_DITHER_VOID_LAST 0) ∧
          (dm.n ≠ w ∨ dm.spoiled (u.tick - w) u.tick = true →
            judge u c = (u.modDemod x c fun k => { k with sum := 0, n := 0, g := none, noRes := true }).dPut (SNS_DITHER c) fSNS_DITHER_VOID_LAST 1))) ∧
      (∀ w, (s.sense m).winWas = some (s.tick, w) → s.winEnded m = w) ∧ ((s.sense m).winWas = none → s.winEnded m = s.winLen m)

/-- Stage 3 of a tick evaluates the loops within its capacity, 153,600 evaluations at the full clock and 76,800 stretched
(R27, R149), and records it (R126, R424); settling ends when its ticks have passed (R147). OVR_ALARM
consecutive overruns raise LOOP_OVERRUN (R152); runs of saturation, of error and of heat are reported once each (R516, R517). -/
def Obligations.LoopsRun : Prop :=
  ∀ (s : State),
    (∀ x cap,
      let n := if (s.sh x).sawStretch = false then 153600 else if (s.sh x).sawFull = false then 76800 else clampN 76800 153600 cap
      Does (.loopEvaluation x cap) s ((evalLoops x n s).recLoop x (tickWork (s.sumPower x) x n))) ∧
    (∀ c, ∃ done : Shep → State → State, Does (.settlingEnd c) s (both done s) ∧
      ∀ x u, ((u.dynOf x c).settle = none → done x u = u) ∧
        (∀ t, (u.dynOf x c).settle = some t →
          (settleOver u.tick t = true → done x u = u.modDyn x c fun d => { d with settle := none }) ∧ (settleOver u.tick t = false → done x u = u))) ∧
    (∀ x, s.pGet x LOOP_CFG fLOOP_CFG_OVR_ALARM ≠ 0 → (s.sh x).ovrRun = s.pGet x LOOP_CFG fLOOP_CFG_OVR_ALARM →
      Does (.loopOverrun x) s (s.alarm 0x02 .shepherd x.num)) ∧
    (∀ c, s.sGet ALM_LOOP fALM_LOOP_SAT_TICKS ≠ 0 → s.sGet ALM_LOOP fALM_LOOP_SAT_TICKS ≤ (s.dynOf s.lead c).satRun → (s.dynOf s.lead c).satRep = false →
      Does (.loopSat c) s ((both (fun x s => s.modDyn x c fun d => { d with satRep := true }) s).alarm 0x0F .channel c)) ∧
    (∀ c, s.sGet ALM_LOOP fALM_LOOP_ERR_TICKS ≠ 0 → s.sGet ALM_LOOP fALM_LOOP_ERR_TICKS ≤ (s.dynOf s.lead c).errRun → (s.dynOf s.lead c).errRep = false →
      Does (.loopError c) s ((both (fun x s => s.modDyn x c fun d => { d with errRep := true }) s).alarm 0x10 .channel c)) ∧
    (16 ≤ s.muster.hotRun → s.muster.hot = false → Does .junctionHot s (State.alarm { s with muster := { s.muster with hot := true } } 0x0E .device 0))

/-! ### The fabric's work, frames and the pair -/

/-- When a route or trace ends, the request is rejected with the first code that applies: pins that cannot be met 9, protection 10, collateral 11, a full
library 12; else a dry run ends and another request goes on to its build. The route time is written, and the report where the request ends (R199 to R205, R216, R217, R220). The last entry
of a build makes the slot READY with its image, or ends the refresh, and a stored request puts its record into the library, any other into
the slot's scratch record (R207 to R209). Every 1,024 ticks
the positions of running unsaturated elements of LIVE domains follow their loops, where TRACK is set, but for those that a write of the boundary set (R193).
-/
def Obligations.RoutesBuildsAndPositions : Prop :=
  (∀ (s : State) (cycles : Nat) (w : Drover) (dr : DomRec), s.drover = some w → s.dom? w.plan.dom = some dr → w.phase = 1 →
     let r := planReq w.d.pay
     let k := (log2Exact dr.ports).getD 0
     let perm := if w.d.op = 0x28 then w.plan.perm else tracePerm k fun c => decide (c ∈ w.plan.cells)
     let ctx := s.routeCtx dr w.refCells w.refPerm perm (if w.d.op = 0x28 then r.pins w.d.op dr else [])
     let routed := if w.d.op = 0x28 then routePerm ctx perm else (w.plan.cells, [])
     let rep := judge ctx dr.cells (fun c => decide (c ∈ routed.1)) perm w.refPerm
     let bad := (∃ c ∈ routed.2, c / (dr.ports / 2) = 0 ∨ c / (dr.ports / 2) = 2 * k - 2) ∨ (r.strict = true ∧ routed.2 ≠ [])
     let result := leBytes 2 rep.changedCells ++ leBytes 2 rep.changedCircuits ++ leBytes 2 rep.collateral.length ++ leBytes 2 routed.2.length
     let full := r.dryRun = false ∧ r.store = true ∧ s.libFull r.planId = true
     let report := fun code => reportBytes code r.dom r.slot dr.base cycles rep routed.2
     let n := both (fun x s => s.wr x.bank DRO_ROUTE_TIME (BitVec.ofNat 32 cycles)) s
     let u := if r.dryRun = true then n else n.unreserve r.slot
     let rejects := fun code =>
       Does (.routeComplete cycles) s ((u.writeReport w.d (report code)).planEnd w.d code result).droverNext
     (bad → rejects 0x09) ∧ (¬bad → rep.hit ≠ [] → rejects 0x0A) ∧
     (¬bad → rep.hit = [] → r.noCollateral = true → rep.collateral ≠ [] → rejects 0x0B) ∧
     (¬bad → rep.hit = [] → (r.noCollateral = true → rep.collateral = []) → full → rejects 0x0C) ∧
     (¬bad → rep.hit = [] → (r.noCollateral = true → rep.collateral = []) → ¬full →
       Does (.routeComplete cycles) s (if r.dryRun = true then ((n.writeReport w.d (report 0)).planEnd w.d 0 result).droverNext
         else n.beginBuild w.d w.slot { w.plan with cells := routed.1, perm := perm } result (report 0)))) ∧
  (∀ (s : State) (d : Desc) (bs : List Byte), bs ≠ [] → d.ring ≠ 16 → d.outAddr ≠ 0 → s.writeReport d bs = s.writeOut d.outAddr bs) ∧
  (∀ s : State,
     (∀ w, s.drover = some w → w.phase = 2 →
       let p := { w.plan with image := s.buildAll w }
       let ends := fun (n : State) => ((n.foldRecord.writeReport w.d w.report).planEnd w.d 0 w.result).droverNext
       let scratch := fun (n : State) => { n with scratch := Tab.set n.scratch none w.slot (some p) }
       (w.d.op = 0x2C → Does .imageBuildDone s (ends (scratch (s.modSlot w.slot fun k => { k with refresh := false, plan := some p })))) ∧
       (w.d.op ≠ 0x2C →
         let n := s.modSlot w.slot fun k => { k with state := 2, was := 0, plan := some p }
         let stored := 0x28 ≤ w.d.op ∧ w.d.op ≤ 0x2A ∧ (planReq w.d.pay).store = true
         (stored → Does .imageBuildDone s (ends (n.libPut (planReq w.d.pay).planId (some p)))) ∧
         (¬stored → Does .imageBuildDone s (ends (scratch n))))) ∧
     (s.edge % 400 = 0 → s.tick % 1024 = 0 → s.sGet DRO_ROUTE_CFG fDRO_ROUTE_CFG_TRACK = 1 →
       ∃ track : State → Nat → State, Does .positionTrack s (s.mapped.foldl track s) ∧
         ∀ u c e p, u.elem? c = some e → ((u.liveSlot e.dom).bind fun i => (u.slot i).plan) = some p →
           let st := u.rd u.lead.bank (LOOP_STAT c)
           let still := e.cell = 0xFFFF ∨ c ∈ u.posWr ∨ u.loopState u.lead c ≠ 4 ∨ fLOOP_STAT_WINNER.get st ≠ 0 ∨ fLOOP_STAT_SAT_HI.get st = 1 ∨
             fLOOP_STAT_SAT_LO.get st = 1
           (still → track u c = u) ∧
           (¬still → track u c = u.sPut (DRO_POS c) (if e.cell ∈ p.cells then fDRO_POS_CROSS_POS else fDRO_POS_BAR_POS)
             (posOf (u.loopPol u.lead c) (u.demand u.lead c) / 64))))

/-- A shepherd's loop frame of the tick reaches a paddock: the hub drops what its epoch does not allow (R295), one that fails its checks is counted as damaged
(R292), the first of its tick is kept, and a second that differs, in its epoch and without a flag that explains it, is a divergence (R291, R298). A control
frame of each kind leaves its link and reaches the paddock: dropped by the hub, damaged, stale, next in sequence and applied with what it was waited for, ahead
and held, or a duplicate, which is compared with what was applied under its number (R291 to R298). A gap that is not filled is counted, and what is held is
applied. A frame that arrives unchanged passes its checks. -/
def Obligations.LoopAndControlFramesArrive : Prop :=
  (∀ (s : State) (x : Shep) (p : Nat) (f : LoopFrame), (s.sh x).frame = some f → f.tick = s.tick % 2 ^ 48 →
     (∀ noise, s.hubPasses x f.epoch = false → Does (.loopOutputFrameReceive x p noise) s s.hubDrop) ∧
     f.heard p [] = some (f.toPdk p) ∧
     (s.hubPasses x f.epoch = true → s.pdkHears p = true → ∀ noise,
       (f.heard p noise = none → Does (.loopOutputFrameReceive x p noise) s (s.damaged p)) ∧
       (∀ h, f.heard p noise = some h → ∀ n,
         (s.takeEpoch p h.epoch = (false, n) → Does (.loopOutputFrameReceive x p noise) s n) ∧
         (s.takeEpoch p h.epoch = (true, n) → h.tick ≠ n.tick % 2 ^ 48 → Does (.loopOutputFrameReceive x p noise) s n) ∧
         (s.takeEpoch p h.epoch = (true, n) → h.tick = n.tick % 2 ^ 48 →
           ((n.pdk p).frame = none → Does (.loopOutputFrameReceive x p noise) s (n.modPdk p fun k => { k with frame := some h })) ∧
           (∀ g, (n.pdk p).frame = some g →
             let differs := g.epoch = h.epoch ∧ g.overrun = false ∧ h.overrun = false ∧ g.extended = false ∧ h.extended = false ∧
               g.inputMiss = false ∧ h.inputMiss = false ∧ g.codes ≠ h.codes ∧ crc32c (g.payload p) ≠ crc32c (h.payload p)
             (g.tick ≠ h.tick → Does (.loopOutputFrameReceive x p noise) s (n.modPdk p fun k => { k with frame := some h })) ∧
             (g.tick = h.tick → differs → Does (.loopOutputFrameReceive x p noise) s (n.diverge p)) ∧
             (g.tick = h.tick → ¬differs → Does (.loopOutputFrameReceive x p noise) s n)))))) ∧
  ((∀ (s : State) (i : Instr) (kind : CtlKind) (x : Shep) (p : Nat) (noise : Noise) (f : CtlFrame) (rest : List CtlFrame),
     (i = .stageFrame x p noise ∧ kind = .stage) ∨ (i = .commitFrame x p noise ∧ kind = .commit) ∨ (i = .retimeFrame x p noise ∧ kind = .retime) ∨
       (i = .cancelFrame x p noise ∧ kind = .cancel) →
     Tab.get s.links [] (linkKey p x) = f :: rest → f.kind = kind →
     let u := { s with links := Tab.set s.links [] (linkKey p x) rest }
     (u.hubPasses x f.epoch = false → Does i s u.hubDrop) ∧
     (f.pdk = p → f.heard p [] = some f) ∧
     (u.hubPasses x f.epoch = true → u.pdkHears p = true →
       (f.heard p noise = none → Does i s (u.damaged p)) ∧
       (∀ h, f.heard p noise = some h → ∀ n,
         (u.takeEpoch p h.epoch = (false, n) → Does i s n) ∧
         (u.takeEpoch p h.epoch = (true, n) →
           let m := if (n.pdk p).ctlAny = true then n.modPdk p fun k => { k with ctlAny := false, ctlSeq := (h.ctlSeq + 2 ^ 32 - 1) % 2 ^ 32 } else n
           let ahead := (h.ctlSeq + 2 ^ 32 - (m.pdk p).ctlSeq) % 2 ^ 32
           let again := ahead = 0 ∨ 2 ^ 31 ≤ ahead ∨ ∃ g ∈ (m.pdk p).held, g.ctlSeq = h.ctlSeq
           let kept := match (m.pdk p).held.find? fun g => decide (g.ctlSeq = h.ctlSeq) with
             | some g => some (g.epoch, crc32c g.payload)
             | none => ((m.pdk p).copies.find? fun q => decide (q.1 = h.ctlSeq)).map fun q => q.2
           (again → (∀ q, kept = some q → q.1 = h.epoch → q.2 ≠ crc32c h.payload → Does i s (m.diverge p)) ∧
             ((kept = none ∨ ∃ q, kept = some q ∧ (q.1 ≠ h.epoch ∨ q.2 = crc32c h.payload)) → Does i s m)) ∧
           (¬again → ahead = 1 → Does i s (applyHeld p 8 (m.applyCtl p h))) ∧
           (¬again → ahead ≠ 1 → (m.pdk p).held.length < 8 → Does i s (m.setPdk p { m.pdk p with held := (m.pdk p).held ++ [h] })) ∧
           (¬again → ahead ≠ 1 → 8 ≤ (m.pdk p).held.length → Does i s m))))) ∧
   ∀ (s : State) (p : Nat), (s.pdk p).held ≠ [] → s.fenced p = false →
     Does (.controlFrameGap p) s (applyAllHeld p 8 ((s.dCount (SHP_PDK_ERR p) fSHP_PDK_ERR_GAP 1).notice 0xFFFFFFFF 0 p [])))

/-- The copy records of the active: up to 32 blocks that differ, each block once in the STATE stage, with the handover's mark (R301, R315); whether the record
arrived, and in time (R302). Too many missed or diverging, a lost shepherd and a handover change roles through the referee (R299, R304, R307, R308, R312). The stages of a
resynchronisation: the banks, the library, and the state of 16 ticks in agreement, behind which the shepherd stands by (R315, R316); it fails at its time
limit (R317). -/
def Obligations.PairChangesAndResynchronises : Prop :=
  (∀ s : State,
     (s.activeWorks = true → s.copyTo ≠ none → ∃ all : List Nat,
       (∀ y, s.sync = some y → y.stage = 3 → all = sortN (y.left ++ s.differing).dedup) ∧ ((s.sync.map fun y => y.stage) ≠ some 3 → all = s.differing) ∧
       Does .copyRecordSend s { s with copyRec := some ⟨s.tick, all.take 32, decide (32 < all.length), decide (s.handover = some s.tick), false⟩ }) ∧
     (∀ ok r, s.copyRec = some r → r.tick = s.tick → s.copyTo ≠ none → 
       Does (.copyRecordReceive ok) s { s with copyRec := some { r with sealed := ok && decide (s.edge + 20 ≤ 400 * (s.tick + 1)) } }) ∧
     (∀ x a, s.standby = some x → s.active = some a → s.dGet SHP_CFG fSHP_CFG_COPY_MISS ≤ (s.sh x).copyMiss → (s.sh a).hbMiss = 0 →
       let n := (s.modSh x fun h => { h with copyMiss := 0 }).enterRole x .detached
       Does .copyMissLimit s (((n.shpFlag fSHP_EVENTS_CROOK_FAIL).repairPending false).alarm 0x08 .shepherd x.num)) ∧
     (∀ x, s.standby = some x → s.dGet SHP_CFG fSHP_CFG_DIV_LIMIT ≠ 0 → s.dGet SHP_CFG fSHP_CFG_DIV_LIMIT ≤ s.divRun → Does .divergenceLimit s (s.fence x)) ∧
     (∀ x, s.isLost x = true →
       (s.role x = .standby → s.isLost x.other = false → Does (.shepherdLost x) s ((s.fence x).alarm 0x09 .shepherd x.num)) ∧
       (s.role x = .standby → s.isLost x.other = true →
         Does (.shepherdLost x) s (State.checkOrphan { (s.fence x).fence x.other with bothLost := true })) ∧
       (s.role x ≠ .standby →
         (∀ y, s.standby = some y →
           ((s.sh y).hbMiss = 0 → s.fencedOwn y 16 = false → Does (.shepherdLost x) s (((s.fence x).grant y 0).alarm 0x0B .shepherd x.num)) ∧
           ((s.sh y).hbMiss ≠ 0 → s.isLost y = true →
             Does (.shepherdLost x) s (State.checkOrphan { (s.fence x).fence y with bothLost := true }))) ∧
         (s.standby = none → Does (.shepherdLost x) s (s.fence x).checkOrphan))) ∧
     (∀ b x y, s.handover = some b → s.active = some x → s.standby = some y → b + 1 ≤ s.tick →
       let n := (s.setRole x .standby).grant y 1
       (∀ j, n.job? .handover = some j → j.phase = 2 → Does .handoverGrant s ((n.endJob j).complete j.d 0 0 n.handoverResult)) ∧
       (n.job? .handover = none → Does .handoverGrant s n))) ∧
  (∀ (s : State) (y : Sync), s.sync = some y →
     (∀ x, s.syncing = some x →
       (y.stage = 1 → s.part.bankPages ≤ y.done → (∀ e ∈ y.todo, e.2 = 0) →
         let z := { y with stage := 2, done := 0, todo := s.recUnits, seen := s.syncSeen }
         Does .resyncBankDone s (State.resyncStage { s.copyBanks x.other x with sync := some z } 2 (s.recUnits.map fun e => e.2).sum)) ∧
       (y.stage = 2 → (∀ e ∈ y.todo, e.2 = 0) →
         let n := s.part.chanBlocks + 128
         Does .resyncLibraryDone s (State.resyncStage
           { (s.copyBanks x.other x).copyControl x.other x with sync := some { y with stage := 3, left := List.range n, agree := 0 } } 3 n)) ∧
       (y.stage = 3 → 16 ≤ y.agree →
         Does .resyncStateDone s (((State.resyncStage { s with sync := none } 0 0).becomeStandby x).resyncEnd 0))) ∧
     (y.start + syncTicks ≤ s.tick → Does .resyncTimeout s s.syncFail))

/-- A crosstalk pass starts at a multiple of its period, with a waiting period in force, the queued coefficients drained and the power latched, recorded where
the fit runs (R166, R171, R175, R425); its terms are ready for its period's end, or 64 ticks behind its start when it ran over, and come into force at their tick
(R165 to R167). -/
def Obligations.CrosstalkPasses : Prop :=
  ∀ (s : State) (x : Shep), s.passesRun = true → s.runs x = true →
    (s.edge % 400 = 0 → (s.sh x).xt.n0 = none → (s.sh x).xt.next ≤ s.tick → s.tick % s.xtPeriod x = 0 →
      let n := match (s.sh x).xt.period with
        | some p => (s.pPut x CMP_CFG fCMP_CFG_PERIOD p).modSh x fun h => { h with xt := { h.xt with period := none } }
        | none => s
      let u := (State.powerFrame x ((n.drain x).latch x)).runFit x
      Does (.crosstalkPassStart x) s (u.modSh x fun h => { h with xt := { h.xt with n0 := some u.tick, ext := false } })) ∧
    (s.pGet x CMP_FIT_CTRL fCMP_FIT_CTRL_EN = 0 → State.powerFrame x s = s) ∧
    (let f := s.recFrame x 2 0 s.part.dualChans.length 0 (s.part.dualChans.flatMap fun c => leBytes 4 (Tab.get (s.sh x).xt.pbar 0 c % 2 ^ 22))
     s.pGet x CMP_FIT_CTRL fCMP_FIT_CTRL_EN = 1 → s.recording x = true → f.recLost x = false → State.powerFrame x s = f) ∧
    (∀ n0, (s.sh x).xt.n0 = some n0 →
      let n := if n0 + s.xtPeriod x ≤ s.tick ∧ (s.sh x).xt.ext = false then s.extendPass x n0 else s
      let m := n.pPut x CMP_PASS_CNT fCMP_PASS_CNT_COUNT (n.pGet x CMP_PASS_CNT fCMP_PASS_CNT_COUNT + 1)
      Does (.crosstalkPassDone x) s (m.modSh x fun h => { h with xt := { h.xt with
        n0 := none, lastExt := (n.sh x).xt.ext,
        ready := some ⟨if (n.sh x).xt.ext = true then n0 + 64 else n0 + m.xtPeriod x, n.passTerms x⟩ } })) ∧
    (∀ r, (s.sh x).xt.ready = some r → r.tick ≤ s.tick →
      ∃ load : State → Nat × Int × Bool → State,
        Does (.crosstalkTermsInForce x) s
          (((r.terms.foldl load s).pPut x CMP_STATUS fCMP_STATUS_PASS_EXT 0).modSh x fun h => { h with xt := { h.xt with ready := none } }) ∧
        ∀ u v t,
          let k := u.pPut x (CMP_XT_TERM v) fCMP_XT_TERM_TERM (ofSigned 24 t)
          load u (v, t, false) = k ∧
          load u (v, t, true) = (k.pFlag x (CMP_CH_STAT v) fCMP_CH_STAT_XT_SAT).pFlag x CMP_STATUS fCMP_STATUS_XT_SAT_ANY)

/-! ### The host, the network and time -/

/-- A read of the doorbell line takes the producer indexes and the consumer indexes (R326, R331, R343); a fetch brings the descriptors for which the fold has room
into it (R333, R416); reads
that fail are counted, stop their ring or leave a payload unread (R354). A status line that changed, or at the latest after 1,024 ticks, is written, sealed
with its CRC, and the vectors of its records are signalled (R328, R353); held records are written when there is room (R344, R349). A withheld vector is sent when its holdoff ends; masked, it sets its pending
bit, and with MSI-X disabled nothing is sent (R353). -/
def Obligations.HostRingsMove : Prop :=
  ∀ (s : State) (x : Shep),
    (∀ line, s.polls x = true → s.sGet HIF_POLL fHIF_POLL_EN ≠ 0 →
      Does (.doorbellPoll x line) s ((List.range 3).foldl (fun s k => s.takeCons x line k)
        ((List.range 16).foldl (fun s r => s.takeProd x line r) (s.modSh x fun h => { h with dbFails := 0 })))) ∧
    (∀ r es c ds, c = s.cmdCons x r → ds = fitting (s.commandsHeld x).length es → s.polls x = true → r < 16 → s.cmdOn r = true → r ∉ (s.sh x).stopped → ds.length ≤ 32 →
      c % s.cmdSize r + ds.length ≤ s.cmdSize r → ds.length ≤ (s.cmdProd x r + 65536 - c) % 65536 → (s.sh x).fold.length < 4096 →
      Does (.descriptorFetchDone x r es) s
        (State.pPut (((List.range ds.length).zip ds).foldl (fun s e => s.intoFold x (descOf r ((c + e.1) % 65536) e.2.1 e.2.2)) s) x
          (HIF_CMD_STAT r) fHIF_CMD_STAT_CONS ((c + ds.length) % 65536))) ∧
    (s.polls x = true →
      (let n := s.modSh x fun h => { h with dbFails := (s.sh x).dbFails + 1 }
       Does (.hostReadError x .doorbell) s
         (if (s.sh x).dbFails + 1 = 16 then (n.pFlag x HIF_STATUS fHIF_STATUS_DB_FAULT).ringEvent x 0xFF 3 0xFFFF else n)) ∧
      (∀ r, s.cmdOn r = true → r ∉ (s.sh x).stopped → r < 16 → Does (.hostReadError x (.descriptors r)) s ((s.stopRing x r 1 (s.cmdCons x r)).unread x r)) ∧
      (∀ r i, Does (.hostReadError x (.payload r i)) s (s.modSh x fun h => { h with
        fold := h.fold.map fun f => if f.d.ring = r ∧ f.d.index = i then { f with d := { f.d with payload := none } } else f }))) ∧
    ((s.sh x).writes = true → s.pGet x HIF_STAT_ADDR_LO fHIF_STAT_ADDR_LO_EN ≠ 0 → (s.lineBody x ≠ (s.sh x).line ∨ (s.sh x).lineTick + 1024 ≤ s.tick) →
      let seq := ((s.sh x).lineSeq + 1) % 2 ^ 32
      let l := s.lineBody x ++ leBytes 4 seq ++ leBytes 4 s.tick ++ leBytes 4 s.now ++ zeros 4
      let n := s.modSh x fun h => { h with lineSeq := seq, line := s.lineBody x, lineTick := s.tick, irqWait := [] }
      Does (.statusLineWrite x) s ((s.sh x).irqWait.foldl (fun s v => s.irq x v) (n.send (.line x (l ++ leBytes 4 (crc32c l)))))) ∧
    (∀ v, v ∈ (s.sh x).irqHeld → s.irqFree x v = true →
      let m := (s.sh x).msix
      let held := (s.sh x).irqHeld.filter fun w => decide (w ≠ v)
      (m.on = true → m.allMasked = false → v ∉ m.masked → Does (.irqHoldoffEnd x v) s
        ((s.send (.msix x v)).modSh x fun h => { h with irqLast := Tab.set h.irqLast 0 v (s.edge + 1), irqHeld := held })) ∧
      (m.on = true → m.allMasked = true ∨ v ∈ m.masked → Does (.irqHoldoffEnd x v) s
        (s.modSh x fun h => { h with msix := { m with pbits := if v ∈ m.pbits then m.pbits else m.pbits ++ [v] }, irqHeld := held })) ∧
      (m.on = false → Does (.irqHoldoffEnd x v) s (s.modSh x fun h => { h with irqHeld := held }))) ∧
    ((s.sh x).writes = true → Does (.heldCompletionFlush x) s (s.flushCpl x) ∧ Does (.eventLogFlush x) s (s.flushEvt x))

/-- INTERVAL ticks after the last records a telemetry record of each enabled source is put (R350); sixteen records, or 100 us behind the first, go out in a
frame under the key of slot 0, and without that key they are dropped and counted (R388). -/
def Obligations.TelemetryIsSent : Prop :=
  ∀ s : State,
    (∀ power headroom, s.active ≠ none → s.tlmLast + s.pGet s.lead HIF_TLM_CFG fHIF_TLM_CFG_INTERVAL ≤ s.tick →
      let src := s.pGet s.lead HIF_TLM_CFG fHIF_TLM_CFG_SRC
      let n := s.tlm.ticks
      let a := if bitAt src 0 = true then s.putTlm 1 s.loopTlm else s
      let b := if bitAt src 1 = true then (bitsOf 32 (a.rd 0 ETH_TLM_QMASK).toNat).foldl
        (fun s k => (s.queueTlm (k / 8) (k % 8) n).2.putTlm 2 (s.queueTlm (k / 8) (k % 8) n).1) a else a
      let e := if bitAt src 2 = true then b.timeTlm.2.putTlm 3 b.timeTlm.1 else b
      let f := if bitAt src 3 = true then (e.powerTlm power headroom).2.putTlm 4 (e.powerTlm power headroom).1 else e
      Does (.telemetryInterval power headroom) s { f.queueFresh with
        tlmLast := f.tick, tlm := { ovr := f.tlmCounts.1, skip := f.tlmCounts.2.1, ext := f.tlmCounts.2.2, temp := f.tlm.temp } }) ∧
    (∀ n, n = min 16 s.tlmWait.length → n ≠ 0 → (n = 16 ∨ s.tlmSince + 40000 ≤ s.edge) →
      let u := { s with tlmWait := s.tlmWait.drop 16, tlmSince := s.edge }
      (s.keys.ctl0 = none → Does .telemetryFrameSend s (u.dCount ETH_CTL_STAT fETH_CTL_STAT_TLM_DROP n)) ∧
      (∀ key, s.keys.ctl0 = some key → Does .telemetryFrameSend s
        (State.queueTx { u with netSeq := (s.netSeq + 1) % 2 ^ 64 } 1
          (u.ctlFrame key (u.macOf ETH_TLM_DST_LO ETH_TLM_DST_HI) 1 3 0 s.netSeq none (leBytes 1 n) (s.tlmWait.take 16).flatten) none n)))

/-- Errors of the fold and of the banks: corrected ones are counted; an uncorrectable one is counted, flagged and alarmed, and a word that both shepherds hold alike is
taken from the other or written 0, which the report tells (R423, R434, R440). A refused matrix access, a burst over 16 beats or
across 4 KiB among them (R452), is latched as the first, or counted as one of several (R450). SMBus reads answer
(R569), and a TEC loop takes its measurement or faults outside the thermistor's range (R571). -/
def Obligations.ErrorsAndSensorsShow : Prop :=
  ∀ (s : State) (x : Shep),
    (∀ u, Does (.foldEccError x false u) s (s.pCount x FLD_ECC fFLD_ECC_CE 1) ∧
      Does (.foldEccError x true u) s
        ((((s.pCount x FLD_ECC fFLD_ECC_UE 1).pFlag x FLD_STATUS fFLD_STATUS_UE_SEEN).alarm 0x0C .shepherd x.num).foldUnit x u)) ∧
    (∀ bank word off, Does (.bankEccError x false bank word off) s (s.pCount x BNK_ECC fBNK_ECC_CE 1) ∧
      (let a := (s.pPut x BNK_ERR_ADDR fBNK_ERR_ADDR_BANK bank).pPut x BNK_ERR_ADDR fBNK_ERR_ADDR_WORD word
       let b := (a.pCount x BNK_ECC fBNK_ECC_UE 1).pFlag x BNK_STATUS fBNK_STATUS_UE_SEEN
       let told := fun act => b.report ⟨0x0D, .shepherd, x.num, 4, none, act⟩
       (workBank s.part bank = true → Does (.bankEccError x true bank word none) s (told 0)) ∧
       (∀ o, sharedOff o = false → Does (.bankEccError x true bank word (some o)) s (told 0)) ∧
       ((b.sh x.other).writes = true →
         (workBank s.part bank = false → Does (.bankEccError x true bank word none) s (told 1)) ∧
         ∀ o, sharedOff o = true → Does (.bankEccError x true bank word (some o)) s ((told 1).wr x.bank o ((told 1).rd x.other.bank o))) ∧
       ((b.sh x.other).writes = false →
         (workBank s.part bank = false → Does (.bankEccError x true bank word none) s (told 2)) ∧
         ∀ o, sharedOff o = true → Does (.bankEccError x true bank word (some o)) s ((told 2).wr x.bank o 0)))) ∧
    (∀ m t addr beats, 16 < beats ∨ 4096 < addr % 4096 / 32 * 32 + 32 * beats → matrixRefuses s.part (s.remap x) m t addr beats = true) ∧
    (∀ m t write addr beats, matrixRefuses s.part (s.remap x) m t addr beats = true → m < 15 → (s.sh x).perst = false → (s.sh x).railLow = false → s.mode ≠ .off → s.mode ≠ .reset →
      let n := s.pCount x MTX_ERR_STATUS fMTX_ERR_STATUS_COUNT 1
      (s.pGet x MTX_ERR_STATUS fMTX_ERR_STATUS_VALID = 0 →
        let a := (n.pPut x MTX_ERR_STATUS fMTX_ERR_STATUS_VALID 1).pPut x MTX_ERR_STATUS fMTX_ERR_STATUS_MASTER m
        let b := (a.pPut x MTX_ERR_STATUS fMTX_ERR_STATUS_TARGET (matrixTarget (a.remap x) m t addr)).pPut x MTX_ERR_STATUS fMTX_ERR_STATUS_WRITE (bitN write)
        Does (.matrixAccessRefused x m t write addr beats) s
          (((b.wr x.bank MTX_ERR_ADDR_LO (BitVec.ofNat 32 addr)).wr x.bank MTX_ERR_ADDR_HI (BitVec.ofNat 32 (addr / 2 ^ 32 % 65536))).noticeLocal x
            MTX_ERR_STATUS fMTX_ERR_STATUS_VALID.lo 0xFFFF)) ∧
      (s.pGet x MTX_ERR_STATUS fMTX_ERR_STATUS_VALID ≠ 0 → Does (.matrixAccessRefused x m t write addr beats) s
        ((n.pPut x MTX_ERR_STATUS fMTX_ERR_STATUS_MULTI 1).noticeLocal x MTX_ERR_STATUS fMTX_ERR_STATUS_MULTI.lo 0xFFFF))) ∧
    (∀ power, s.mode ≠ .off → s.mode ≠ .reset →
      Does (.smbusRead 1 power) s (s.send (.smbus (leBytes 4 (s.sysWord .A GLB_ID 0).toNat))) ∧
      Does (.smbusRead 2 power) s (s.send (.smbus (leBytes 4 s.pwrWord.toNat))) ∧
      Does (.smbusRead 3 power) s (s.send (.smbus (leBytes 2 (ofSigned 16 s.tlm.temp)))) ∧
      ((s.sh .A).writes = true ∨ (s.sh .B).writes = true → Does (.smbusRead 4 power) s (s.send (.smbus (leBytes 4 power)))) ∧
      ((s.sh .A).writes = false → (s.sh .B).writes = false → Does (.smbusRead 4 power) s (s.send (.smbus (leBytes 4 0))))) ∧
    (∀ t meas, t < 4 → s.dGet (PDK_TEC_CFG t) fPDK_TEC_CFG_EN ≠ 0 → s.mode ≠ .off → s.mode ≠ .reset → (Tab.get s.tecs {} t).due ≤ s.tick →
      let n := s.dPut (PDK_TEC_STAT t) fPDK_TEC_STAT_MEAS (min meas 0xFFFF)
      (0xFFFF ≤ meas → Does (.tecLoopUpdate t meas) s (n.tecFault t fPDK_TEC_STAT_OPEN)) ∧
      (meas < 50 → Does (.tecLoopUpdate t meas) s (n.tecFault t fPDK_TEC_STAT_SHORT)) ∧
      (50 ≤ meas → meas < 0xFFFF → (Tab.get s.tecs {} t).fault = false → Does (.tecLoopUpdate t meas) s (n.tecUpdate t meas)))

/-- A frame that a port receives in good order is policed (R409), and of those that pass a duplicate goes no further (R362, R364); others reach their
receivers when they are for the pair or a group, and in a ring go on when they are not the pair's own (R361, R363). A control frame that passes its checks
joins NET in the folds, and others are counted by the first check that fails (R384 to R387). -/
def Obligations.FramesAreReceived : Prop :=
  (∀ (s n : State) (i : Nat) (f : EthFrame), i < 4 → s.portUp i = true → f.len (s.hsr (i / 2)) ≤ 9216 →
    (s.police i f (f.len (s.hsr (i / 2))) = (false, n) → Does (.ethFrameReceive i f true) s n) ∧
    (s.police i f (f.len (s.hsr (i / 2))) = (true, n) →
      (f.etype = 0x8808 → Does (.ethFrameReceive i f true) s (n.dCount (ETH_PORT_STAT i) fETH_PORT_STAT_PAUSE 1)) ∧
      (∀ m, f.etype ≠ 0x8808 → n.hasMac (i / 2) = true ∨ f.etype = 0x88F7 → (s.hsr (i / 2) = true → f.src ≠ n.mac (i / 2)) →
        (f.red = none ∧ m = n) ∨ (∃ seq y, f.red = some (seq, y) ∧ (n.seeNode (i / 2) (leNat f.src)).duplicate (i / 2) (leNat f.src) seq = (false, m)) →
        let own := decide (f.dst = n.mac (i / 2))
        let u := if own = true ∨ bitAt (leAt f.dst 0 1) 0 = true then m.deliver i f else m
        Does (.ethFrameReceive i f true) s (if s.hsr (i / 2) = true ∧ own = false then u.forward i f else u)) ∧
      (∀ m seq y, f.etype ≠ 0x8808 → n.hasMac (i / 2) = true ∨ f.etype = 0x88F7 → (s.hsr (i / 2) = true → f.src ≠ n.mac (i / 2)) → f.red = some (seq, y) →
        (n.seeNode (i / 2) (leNat f.src)).duplicate (i / 2) (leNat f.src) seq = (true, m) → Does (.ethFrameReceive i f true) s m))) ∧
  ∀ (s : State) (j : Nat) (f : EthFrame) (rest : List (Nat × EthFrame)), s.rxCtl = (j, f) :: rest → s.active ≠ none →
    let u := { s with rxCtl := rest }
    let slot := leAt f.body 4 1
    let n := { u with keySeq := Tab.set s.keySeq 0 slot (leAt f.body 8 8) }
    (u.ctlFail j f = 0 → 256 ≤ n.netHeld → Does .controlFrameReceive s (n.dCount ETH_CTL_STAT fETH_CTL_STAT_FULL 1)) ∧
    (u.ctlFail j f = 0 → n.netHeld < 256 →
      let k := s.netCount % 65536
      let d := descOf 16 k ((f.body.drop 16).take 64) (some ((f.body.drop 80).take (leAt f.body 2 2 - 80)))
      let m := { n with netCount := s.netCount + 1, netFrom := Tab.set s.netFrom none k (some ⟨f.src, f.vlan, slot⟩) }
      Does .controlFrameReceive s
        (both (fun x s => if (s.sh x).writes = true then s.modSh x fun h => { h with fold := h.fold ++ [⟨d, s.edge⟩] } else s) m)) ∧
    (u.ctlFail j f = 1 → Does .controlFrameReceive s (u.dCount ETH_CTL_STAT fETH_CTL_STAT_FORMAT 1)) ∧
    (u.ctlFail j f = 2 → Does .controlFrameReceive s (u.dCount ETH_CTL_STAT fETH_CTL_STAT_AUTH 1)) ∧
    (u.ctlFail j f = 3 → Does .controlFrameReceive s (u.dCount ETH_CTL_STAT fETH_CTL_STAT_REPLAY 1))

/-- The hub drops the offer of a fenced shepherd, sends the first offer of a number, compares the other shepherd's of the same epoch and counts one that
comes too late (R295, R296, R298). A free transmitter takes the
head frame of the highest queue that may go (R399, R407); gate entries start and pending lists take over (R403, R404). Supervision frames go out in their
interval, and what the tables hold is forgotten (R362). -/
def Obligations.FramesAreSent : Prop :=
  ∀ s : State,
    (∀ x differs t, (s.sh x).offering = true → bitAt (s.rd x.bank CLK_XING_FENCE).toNat 19 = false →
      let n := s.formReplies
      (n.tx.find? fun t => decide (t.num = (n.sh x).offers)) = some t →
      let u := n.modSh x fun h => { h with offers := (h.offers + 1) % 2 ^ 32 }
      let epoch := n.pGet x SHP_STATUS fSHP_STATUS_EPOCH
      (u.hubPasses x epoch = false → Does (.ethFrameOffer x differs) s u.hubDrop.forgetTx) ∧
      (u.hubPasses x epoch = true → t.first = none →
        let r := u.hubSend t
        let m := { r.2 with tx := r.2.tx.map fun (k : TxFrame) => if k.num = t.num then { k with first := some (u.edge, epoch) } else k }
        Does (.ethFrameOffer x differs) s
          (if r.1 = false ∧ t.tlm ≠ 0 then m.dCount ETH_CTL_STAT fETH_CTL_STAT_TLM_DROP t.tlm else m).forgetTx) ∧
      (∀ e, u.hubPasses x epoch = true → t.first = some e →
        (u.edge ≤ e.1 + 25600 →
          (e.2 = epoch → Does (.ethFrameOffer x true) s (State.forgetTx { u.dCount SHP_HUB_DIV fSHP_HUB_DIV_COUNT 1 with divNow := true })) ∧
          (e.2 ≠ epoch → Does (.ethFrameOffer x true) s u.forgetTx) ∧
          Does (.ethFrameOffer x false) s u.forgetTx) ∧
        (e.1 + 25600 < u.edge → Does (.ethFrameOffer x differs) s (u.dCount SHP_HUB_DROP fSHP_HUB_DROP_COUNT 1).forgetTx))) ∧
    (∀ i late q f fs, i < 4 → s.portUp i = true → s.hasMac (i / 2) = true → (s.port i).free ≤ s.edge → ((List.range 8).reverse.find? fun q => s.headGoes i q) = some q →
      (s.queue i q).frames = f :: fs → Does (.transmitSelection i late) s
        (State.transmit (if late = true ∧ s.window i q ≠ none then s.dCount (ETH_Q_STAT i q) fETH_Q_STAT_OVERRUN 1 else s) i q f)) ∧
    (∀ i, i < 4 → (s.port i).oper ≠ none → Does (.gateEntryStart i) s (s.gateStat i)) ∧
    (∀ i g t, i < 4 → (s.port i).pend = some (g, t) → t ≤ (s.full : Int) →
      Does (.gateListTakeover i) s ((List.range 8).foldl (fun s q => s.judgeHeads i q)
        ((s.modPort i fun p => { p with oper := if g.ents = [] then none else some g, pend := none }).gateStat i))) ∧
    (∀ j, j < 2 → (s.pair j).supDue ≤ s.edge → s.hasMac j = true → s.active ≠ none →
      let body := beBytes2 1 ++ beBytes2 (s.pair j).sup ++ leBytes 1 (if s.hsr j = true then 23 else 20) ++ leBytes 1 6 ++ s.mac j ++ zeros 2
      let n := s.modPair j fun p => { p with
        sup := ((s.pair j).sup + 1) % 65536, supDue := s.edge + 400000000 * s.dGet (ETH_PAIR_CFG j) fETH_PAIR_CFG_SUP_INT }
      Does (.supervisionFrame j) s (n.queueTx j ⟨[0x01, 0x15, 0x4E, 0x00, 0x01, 0x00], n.mac j, none, 0x88FB, none, body⟩ none 0)) ∧
    (∀ j, Does (.tableEntryForget j) s (s.modPair j fun p => { p with
      dups := p.dups.filter fun e => decide (s.edge < e.2.2 + 160000000), nodes := p.nodes.filter fun e => decide (s.edge < e.2 + 24000000000) }))

/-- PTP messages on the port in use set the port's state, the path delay and, with both known, give the servo a sample, and requests are answered (R372, R373,
R375); the port moves
where its link or its announces fail in PRP (R373); intervals expire and are set again, and at an Announce a waiting configuration is applied (R389). A sample
reaches a shepherd's servo (R377 to R380); the asymmetry hold ends (R380), and with no sample in time the servo holds over at its last rate (R377, R382). A
wrap of the time is told (R368), and a pulse goes out at TIM_PPS_NEXT and the next is a second later (R370). -/
def Obligations.PtpAndTimeGoOn : Prop :=
  (∀ s : State,
     (∀ port, port < 2 → s.ptpUses port = true → s.ethLink port = true → s.lp = .none →
       Does (.ptpMessageReceive port .unsupported) s (s.sCount TIM_PTP_STAT fTIM_PTP_STAT_IGNORED 1) ∧
       (∀ st, Does (.ptpMessageReceive port (.announce st)) s (s.modPtp fun p => { p with state := st % 16, announced := s.edge })) ∧
       (∀ delay, Does (.ptpMessageReceive port (.pdelay delay)) s (s.modPtp fun p => { p with mpd := some delay })) ∧
       (∀ t1 t2 t3 t4, s.ptp.sync = some (t1, t2) →
         Does (.ptpMessageReceive port (.delayResp t3 t4)) s (s.modPtp fun p => { p with mpd := some (((t2 - t3) + (t4 - t1)) / 2).toNat })) ∧
       (∀ t1 t2, let u := s.modPtp fun p => { p with sync := some (t1, t2) }
         (s.ptp.mpd = none → Does (.ptpMessageReceive port (.sync t1 t2)) s u) ∧
         (∀ delay, s.ptp.mpd = some delay →
           let r := u.wholeNs (t2 - t1 - ((delay : Int) + toSigned 32 (u.sRd (TIM_PORT_ASYM port)).toNat))
           Does (.ptpMessageReceive port (.sync t1 t2)) s (r.2.feed 0 delay r.1))) ∧
       (∀ src seq corr t4, s.ptpSends = true → s.ptp.state = 6 → s.ptp.byte 2 = 0 →
         Does (.ptpMessageReceive port (.delayReq src seq corr t4)) s (s.answerDelay port src seq corr t4)) ∧
       (∀ src seq corr, s.ptpSends = true → s.ptp.byte 2 = 1 → Does (.ptpMessageReceive port (.pdelayReq src seq corr)) s (s.answerPdelay port src seq corr))) ∧
     (s.hsr 0 = false → s.ptp.byte 3 = 0 → (s.ethLink s.ptp.port = false ∨ s.ptp.announced + s.ptp.byte 11 * edgesLog (s.ptp.log 9) ≤ s.edge) →
       Does .ptpPortMove s (s.modPtp fun p => { p with port := 1 - s.ptp.port, announced := s.edge })) ∧
     (∀ k, k < 3 → s.lp = .none → (s.ptp.due[k]?).getD 0 ≤ s.edge → (∀ j, k = 1 → s.job? .ptpConfig ≠ some j) →
       let p := s.ptp
       let n := s.modPtp fun q => { q with due := p.due.set k (s.edge + edgesLog (p.log (8 + k))) }
       let m := n.ptp
       let sends := decide ((k = 2 ∧ (m.byte 2 = 1 ∨ m.state = 8 ∨ m.state = 9)) ∨ (k ≠ 2 ∧ m.state = 6))
       let ports := if n.hsr 0 = true then [0] else [0, 1].filter fun i => n.ptpUses i && n.ethLink i
       (sends = false → Does (.ptpMessageTimer k) s n) ∧
       (sends = true → n.hasMac 0 = true → n.active ≠ none →
         Does (.ptpMessageTimer k) s (ports.foldl (fun s i => s.queuePtp i (if k = 2 ∧ m.byte 2 = 1 then 3 else k)) n)))) ∧
  (∀ s : State,
     (∀ x pd ofs, s.mode ≠ .off → s.mode ≠ .reset → (s.sh x).halted = false → pd < 2 ^ 32 → -(2 ^ 31) ≤ ofs → ofs < 2 ^ 31 →
       Does (.servoSample x pd ofs) s (Sys2Proof.Machine.servoSample x pd ofs s)) ∧
     (∀ x, s.servoState x = 4 → (s.servo x).hold + edgesMs * s.sGet TIM_HOLD fTIM_HOLD_ASYM_TIME ≤ s.edge →
       Does (.asymHoldEnd x) s (s.modServo x fun k => { k with asymOver := true })) ∧
     (∀ x, s.servoOn = true → s.sGet TIM_HOLD fTIM_HOLD_HOLD_TIMEOUT ≠ 0 → s.servoState x ≠ 0 → s.servoState x ≠ 3 →
       (s.servo x).since + edgesMs * s.sGet TIM_HOLD fTIM_HOLD_HOLD_TIMEOUT ≤ s.edge →
       let n := s.modServo x fun k => { k with good := 0, pend := none, hold := s.edge }
       Does (.holdover x) s ((n.servoIncr x (n.servo x).held).setServo x 3)) ∧
     (s.wraps ≠ s.wrapSeen → Does .timeWrap s (State.timeEvent { s with wrapSeen := s.wraps } 0 0 0 0 0)) ∧
     (∀ next, next = (s.sRd TIM_PPS_NEXT).toNat → s.sGet TIM_PPS_CFG fTIM_PPS_CFG_OUT_EN = 1 → (s.now + 2 ^ 32 - next) % 2 ^ 32 < 2 ^ 31 →
       let width := s.sGet TIM_PPS_CFG fTIM_PPS_CFG_WIDTH
       Does .ppsOutPulse s (State.send { s.sWr TIM_PPS_NEXT (BitVec.ofNat 32 (next + 1000000000)) with ppsHigh := s.edge + 400 * width } (.ppsOut s.now width))))

/-! ### Writes of registers -/

/-- The write that a row of one register stands for: the function that it comes through, its offset and its word (R68). A row whose field is written as 1 sets
that field. -/
def Claims.writeOf : Instr → Option (Shep × Nat × Word)
  | .drvChCtrlWrite x c v => if c < 32768 then some (x, DRV_CH_CTRL c, v) else none
  | .drvFlockStrobe x w v => if w < 2 then some (x, DRV_FLOCK_STROBE w, v) else none
  | .snsChCtrlWrite x m v => if m < 16384 then some (x, SNS_CH_CTRL m, v) else none
  | .snsMeasure x m v => if m < 16384 then some (x, SNS_CH_CTRL m, fSNS_CH_CTRL_MEASURE.put v 1) else none
  | .snsLinkErrClear x p => if p < 16 then some (x, SNS_LINK_ERR p, fSNS_LINK_ERR_CLEAR.put 0 1) else none
  | .loopCtrlWrite x c v => if c < 32768 then some (x, LOOP_CTRL c, v) else none
  | .loopIntSeed x c v => if c < 32768 then some (x, LOOP_INT c, v) else none
  | .loopClrCnt x v => some (x, LOOP_STATUS, fLOOP_STATUS_CLR_CNT.put v 1)
  | .cmpWinSelWrite x v => some (x, CMP_WIN_SEL, v)
  | .xtCoefWrite x w v => if w < 262144 then some (x, 0x300000 + 4 * w, v) else none
  | .cmpStageApply x v => some (x, CMP_STAGE_CTRL, fCMP_STAGE_CTRL_APPLY.put v 1)
  | .cmpPeriodWrite x v => some (x, CMP_CFG, v)
  | .seqArmGo x v => some (x, SEQ_ARM_CTRL, fSEQ_ARM_CTRL_GO.put v 1)
  | .seqArmCancel x v => some (x, SEQ_ARM_CTRL, fSEQ_ARM_CTRL_CANCEL.put v 1)
  | .seqMarginWrite x v => some (x, SEQ_CFG, v)
  | .shpHandover x v => some (x, SHP_CTRL, fSHP_CTRL_HANDOVER.put v 1)
  | .shpResyncPeer x v => some (x, SHP_CTRL, fSHP_CTRL_RESYNC_PEER.put v 1)
  | .shpDetachPeer x v => some (x, SHP_CTRL, fSHP_CTRL_DETACH_PEER.put v 1)
  | .shpClrCnt x v => some (x, SHP_CTRL, fSHP_CTRL_CLR_CNT.put v 1)
  | .shpHostDivReport x v => some (x, SHP_HOST_DIV, fSHP_HOST_DIV_REPORT.put v 1)
  | .hifCmdEnable x r v => if r < 16 then some (x, HIF_CMD_CFG r, v) else none
  | .hifRingEnable x k v => if k < 3 then some (x, HIF_RING_CFG k, v) else none
  | .timIncrWrite x v => some (x, TIM_INCR, v)
  | .almInjectWrite x v => some (x, ALM_INJECT, v)
  | .almReleaseWrite x k v => some (x, releaseOff k, v)
  | .pwrWakeWrite x v => some (x, PWR_WAKE, fPWR_WAKE_WAKE.put v 1)
  | .rstShpReset x v => some (x, RST_CTRL, fRST_CTRL_SHP_RESET.put v 1)
  | .rstSoftReset x v => some (x, RST_CTRL, fRST_CTRL_SOFT_RESET.put v 1)
  | .rstPdkReset x v => some (x, RST_CTRL, fRST_CTRL_PDK_RESET.put v 1)
  | .lcsLockSet x => some (x, LCS_LOCK, fLCS_LOCK_SET.put 0 1)
  | .glbLoadStart x v => some (x, GLB_LOAD_CTRL, fGLB_LOAD_CTRL_START.put v 1)
  | .clkXingFenceWrite x v => some (x, CLK_XING_FENCE, v)
  | .fldLayoutWrite x fitlog v => some (x, if fitlog = true then FLD_FITLOG_CFG else FLD_LIB_CFG, v)
  | _ => none

/-- The write of such a row that its function serves waits for its tick boundary (R68, R140). Where the part has no such register it is discarded, and where the
part lacks some of its bits the others wait; both set ABSENT_WR (R537). Through the function of a SYNCING or DETACHED shepherd it reaches its own words alone: a
device-wide or shared register is left with BAD_CTRL, and a mixed one takes its own half (R286). Through a function that is not served it does nothing. -/
def Obligations.WriteRowsArrive : Prop :=
  ∀ (i : Instr) (s : State) (x : Shep) (off : Nat) (v : Word), writeOf i = some (x, off, v) →
    (s.served x off = false → Does i s s) ∧
    (s.served x off = true → tableWin off = true →
      (s.apart x = false → Does i s (s.queueWrite x off v s.dueTick)) ∧ (s.apart x = true → Does i s (s.badCtrl x))) ∧
    (∀ r k, s.served x off = true → tableWin off = false → regAt off = some (r, k) →
      (s.part.absentBits r k = none → Does i s (s.pFlag x GLB_STATUS fGLB_STATUS_ABSENT_WR)) ∧
      (∀ m, s.part.absentBits r k = some m →
        let gone : Word := BitVec.ofNat 32 m
        let u := if v &&& gone = 0 then s else s.pFlag x GLB_STATUS fGLB_STATUS_ABSENT_WR
        let w := v &&& ~~~gone
        (s.apart x = false ∨ r.scope = .per → Does i s (u.queueWrite x off w s.dueTick)) ∧
        (s.apart x = true → r.scope = .dev ∨ r.scope = .shared → Does i s (u.badCtrl x)) ∧
        (s.apart x = true → r.scope = .mixed →
          let h := if w &&& 0xFFFF = 0 then u else u.badCtrl x
          let own := (w &&& 0xFFFF0000) ||| (s.rd 0 off &&& 0xFFFF)
          Does i s (h.queueWrite x off own s.dueTick))))

/-- A write request of four bytes at a word is a write of that word, whatever the register, and one of whole words writes them in ascending order (R5, R68, R534).
One of less within a word is discarded with NARROW_WR, and one of a word or more that starts at no word with UNALIGNED (R534, R535). JTAG writes as the host does
at FULL, and not at all below it (R504). A word without a register sets HOLE_WR (R536), and a register that has no rule of its own takes its word at the boundary
by its access types (R6). A read of TIM_NOW latches what belongs to it for its path, so that one of 64 bits returns the nanoseconds and the fraction of one moment
(R367, R535); a read of whole words that starts at no word reads as 0 and sets UNALIGNED (R534). -/
def Obligations.RegisterRequestsArrive : Prop :=
  ∀ s : State,
    (∀ x addr bs jtag, s.mode ≠ .off → s.mode ≠ .reset → (s.sh x).perst = false → (s.sh x).railLow = false → jtag = false ∨ s.jtagSet = 4 →
      (bs.length = 4 → addr % 4 = 0 → Does (.registerWrite x addr bs jtag) s (s.arrive x addr (BitVec.ofNat 32 (leNat bs)))) ∧
      (∀ v : Word, ∀ rest, bs = leBytes 4 v.toNat ++ rest → rest ≠ [] → rest.length % 4 = 0 → addr % 4 = 0 →
        s.writeRequest x addr bs = State.arriveWords x (addr + 4) (leWords rest) (s.arrive x addr v)) ∧
      (0 < bs.length → bs.length < 4 → addr % 4 + bs.length ≤ 4 →
        Does (.registerWrite x addr bs jtag) s (s.pFlag x GLB_STATUS fGLB_STATUS_NARROW_WR)) ∧
      (4 ≤ bs.length ∨ 4 < addr % 4 + bs.length → addr % 4 ≠ 0 → Does (.registerWrite x addr bs jtag) s (s.pFlag x GLB_STATUS fGLB_STATUS_UNALIGNED))) ∧
    (∀ x addr bs, s.jtagSet ≠ 4 → Does (.registerWrite x addr bs true) s s) ∧
    (∀ x off v, s.served x off = true → loadWin off = false → tableWin off = false → regAt off = none →
      s.arrive x off v = s.pFlag x GLB_STATUS fGLB_STATUS_HOLE_WR) ∧
    (∀ x off v r k, s.served x off = true → loadWin off = false → tableWin off = false → regAt off = some (r, k) → s.part.absentBits r k = some 0 →
      s.apart x = false → off ≠ LCS_DBG →
      s.arrive x off v = s.queueWrite x off v s.dueTick ∧
      ((∀ u w, State.writeOwnRule u x r k off w = none) → lockedOut r s.locked = false →
        ∀ sel, s.applyReg x off v sel = s.storeReg x r off (lockWord r s.locked (s.rawWord x r off) v))) ∧
    (let latched := fun path => { s with latches := Tab.set s.latches (0, 0) path (s.frac, s.wraps) }
     (∀ path addr len, (path, addr) = (3, TIM_NOW) ∨ (path, addr) = (4, TIM_NOW) → Does (.timNowRead path addr len) s (latched path)) ∧
     (∀ path x, path = x.num → s.served x TIM_NOW = true → s.served x TIM_NOW_FRAC = true →
       Does (.timNowRead path TIM_NOW 8) s ((latched path).send (.read x TIM_NOW (leBytes 4 s.now ++ leBytes 4 s.frac)))) ∧
     (∀ path x addr len, path = x.num → s.served x addr = true → addr % 4 ≠ 0 → 4 ≤ len →
       Does (.timNowRead path addr len) s ((s.pFlag x GLB_STATUS fGLB_STATUS_UNALIGNED).send (.read x addr (zeros len)))))

/-- While SET-UP LOCK is in force a register that has no rule of its own keeps its RWL fields, whatever word takes effect, in every bank, and a write of a register
whose writable fields are all RWL is discarded whole (R6, R511). -/
def Obligations.SetUpLockKeepsFields : Prop :=
  ∀ (s : State) (x : Shep) (off : Nat) (v sel : Word) (r : RegRow) (k : Nat), s.locked = true → regAt off = some (r, k) → off < 0x10000000 →
    loadWin off = false → tableWin off = false →
    ((∀ u w, State.writeOwnRule u x r k off w = none) → r.scope = .dev ∨ r.scope = .per →
      ∀ b, (s.applyReg x off v sel).rd b off &&& BitVec.ofNat 32 r.rwl = s.rd b off &&& BitVec.ofNat 32 r.rwl) ∧
    (r.rwl ≠ 0 → r.rw = 0 → r.w1c = 0 → r.w1s = 0 → r.wo = 0 → s.applyReg x off v sel = s)

/-- DRV_CH_CTRL by the first matching row of R69: busy and bad spans are discarded with their notice; a word that is taken is stored, with OE as 0 and a notice for
OE = 1 where the channel is unmapped, and a mapped channel of a running paddock is configured, changes its span, is enabled or follows its force. COMPLIANCE and
VLOAD read 0 outside the current spans (R67, R70). A strobe word loads the software flocks written as 1 (R84). SNS_CH_CTRL with a bad BIAS or WINDOW is discarded
with its flags (R104). Another stores its four fields; a new RANGE or BIAS sets DARK_VALID to 0, and a new DARK_OFFSET under unchanged RANGE and BIAS sets it to 1
(R102); on a running paddock a new RANGE or BIAS starts its VOID period, of 4 ticks for BIAS (R102, R104), and MEASURE starts a measurement where none runs (R103).
CLEAR sets MISSED to 0 (R120). -/
def Obligations.DriveAndSenseWritesAct : Prop :=
  ∀ (s : State) (x : Shep) (v sel : Word), s.locked = false →
    (∀ c, c < 32768 →
      let span := fDRV_CH_CTRL_SPAN.get v
      let bad := span = 6 ∨ (current span = true ∧ dualMode c = false)
      let kept := fun (u : State) => if current span = true then u else
        (u.dPut (DRV_CH_CTRL c) fDRV_CH_CTRL_COMPLIANCE 0).dPut (DRV_CH_STAT c) fDRV_CH_STAT_VLOAD 0
      ((s.chan c).phase ≠ .idle → s.applyReg x (DRV_CH_CTRL c) v sel = s.drvNote fDRV_STATUS_BUSY_WR c) ∧
      ((s.chan c).phase = .idle → bad → s.applyReg x (DRV_CH_CTRL c) v sel = s.drvNote fDRV_STATUS_BAD_SPAN c) ∧
      ((s.chan c).phase = .idle → ¬bad → s.elem? c = none →
        (fDRV_CH_CTRL_OE.get v = 0 → s.applyReg x (DRV_CH_CTRL c) v sel = kept (s.storeCtrl c v 0)) ∧
        (fDRV_CH_CTRL_OE.get v = 1 → s.applyReg x (DRV_CH_CTRL c) v sel = kept ((s.drvNote fDRV_STATUS_UNMAPPED_WR c).storeCtrl c v 0))) ∧
      ((s.chan c).phase = .idle → ¬bad → s.elem? c ≠ none →
        let n := kept (s.storeCtrl c v (fDRV_CH_CTRL_OE.get v))
        ((s.pdk (pdkOf c)).mode ≠ .run ∨ span = 7 → s.applyReg x (DRV_CH_CTRL c) v sel = n) ∧
        ((s.pdk (pdkOf c)).mode = .run → span ≠ 7 →
          (s.spanOf c = 7 → s.applyReg x (DRV_CH_CTRL c) v sel = (n.modChan c fun h => { h with phase := .config, start := n.tick }).checkDiverge c) ∧
          (s.spanOf c ≠ 7 → span ≠ s.spanOf c →
            s.applyReg x (DRV_CH_CTRL c) v sel = (n.modChan c fun h => { h with phase := .hold, start := n.tick }).checkDiverge c) ∧
          (span = s.spanOf c → n.on c = true → s.on c = false → s.applyReg x (DRV_CH_CTRL c) v sel = n.enable c) ∧
          (span = s.spanOf c → n.on c = false ∨ s.on c = true → s.applyReg x (DRV_CH_CTRL c) v sel = n.takeForced c)))) ∧
    (∀ w, w < 2 → ∃ strobe : State → Nat → State, s.applyReg x (DRV_FLOCK_STROBE w) v sel = (bitsOf 32 v.toNat).foldl strobe s ∧
      ∀ u i, (u.part.flocks ≤ 32 * w + i → strobe u i = u) ∧
        (32 * w + i < u.part.flocks → u.flockSrc (32 * w + i) = 6 → strobe u i = u.strobeFlock (32 * w + i)) ∧
        (32 * w + i < u.part.flocks → u.flockSrc (32 * w + i) ≠ 6 → strobe u i = u.dFlag DRV_STATUS fDRV_STATUS_SW_STB_IGNORED)) ∧
    (∀ m, m < 16384 →
      let t := s.applyReg x (SNS_CH_CTRL m) v sel
      let badBias := 240 < fSNS_CH_CTRL_BIAS.get v
      let badWin := fSNS_CH_CTRL_WINDOW.get v = 3
      let diff := fun (f : Fld) => f.get (s.rd 0 (SNS_CH_CTRL m)) ≠ f.get v
      let run := (s.pdk (m / 1024)).mode = .run
      (badBias → ¬badWin → t = s.dFlag SNS_STATUS fSNS_STATUS_BAD_BIAS) ∧
      (¬badBias → badWin → t = s.dFlag SNS_STATUS fSNS_STATUS_BAD_WINDOW) ∧
      (badBias → badWin → t = (s.dFlag SNS_STATUS fSNS_STATUS_BAD_BIAS).dFlag SNS_STATUS fSNS_STATUS_BAD_WINDOW) ∧
      (¬badBias → ¬badWin →
        (∀ f ∈ [fSNS_CH_CTRL_RANGE, fSNS_CH_CTRL_BIAS, fSNS_CH_CTRL_DARK_OFFSET, fSNS_CH_CTRL_WINDOW], t.dGet (SNS_CH_CTRL m) f = f.get v) ∧
        (diff fSNS_CH_CTRL_RANGE ∨ diff fSNS_CH_CTRL_BIAS → t.dGet (SNS_CH_CTRL m) fSNS_CH_CTRL_DARK_VALID = 0) ∧
        (¬diff fSNS_CH_CTRL_RANGE → ¬diff fSNS_CH_CTRL_BIAS →
          (diff fSNS_CH_CTRL_DARK_OFFSET → t.dGet (SNS_CH_CTRL m) fSNS_CH_CTRL_DARK_VALID = 1) ∧
          (¬diff fSNS_CH_CTRL_DARK_OFFSET → t.dGet (SNS_CH_CTRL m) fSNS_CH_CTRL_DARK_VALID = s.dGet (SNS_CH_CTRL m) fSNS_CH_CTRL_DARK_VALID) ∧
          (t.sense m).voidUntil = (s.sense m).voidUntil ∧
          (run → fSNS_CH_CTRL_MEASURE.get v = 1 → (s.sense m).meas = none → (t.sense m).meas = some (t.tick + measLen (t.rangeOf m))) ∧
          (¬run ∨ fSNS_CH_CTRL_MEASURE.get v = 0 ∨ (s.sense m).meas ≠ none → (t.sense m).meas = (s.sense m).meas)) ∧
        (run → diff fSNS_CH_CTRL_RANGE ∨ diff fSNS_CH_CTRL_BIAS →
          (diff fSNS_CH_CTRL_BIAS → s.tick + 4 ≤ (t.sense m).voidUntil) ∧
          (diff fSNS_CH_CTRL_RANGE → s.tick + rangeVoid (t.rangeOf m) ≤ (t.sense m).voidUntil) ∧
          (fSNS_CH_CTRL_MEASURE.get v = 0 → (t.sense m).meas = none) ∧
          (fSNS_CH_CTRL_MEASURE.get v = 1 → (t.sense m).meas = some (t.tick + measLen (t.rangeOf m)))))) ∧
    (∀ p, p < 16 → s.applyReg x (SNS_LINK_ERR p) (fSNS_LINK_ERR_CLEAR.put 0 1) sel = s.pPut x (SNS_LINK_ERR p) fSNS_LINK_ERR_MISSED 0)

/-- LOOP_CTRL is discarded with a notice for each check that fails (R143), and else is taken in both copies, a new KIND with e_last at 0 (R142); LOOP_INT seeds the
integral (R143). CLR_CNT sets both overrun counters to 0 (R155). A window page that does not exist sets BAD_WIN, and is selected all the same where its table exists
(R169); a word of the window is stored in both copies, joins the queues of coefficients or is refused where they are full (R171), and sets BAD_WIN beyond the part's
tables (R169). APPLY acts on the stored staging word (R172). A period outside 32 to 1,024 is refused, and another waits for the next pass (R175). -/
def Obligations.LoopWritesAct : Prop :=
  ∀ (s : State) (x : Shep) (v sel : Word), s.locked = false →
    (∀ c, c < 32768 →
      let badKind := 4 < fLOOP_CTRL_KIND.get v
      let badDiv := fLOOP_CTRL_DIV.get v ≠ 0 ∧ s.isHeater c = false
      let badSlots := s.slotsBad c v = true
      let t := s.applyReg x (LOOP_CTRL c) v sel
      let kindNoted := if badKind then s.loopNote fLOOP_STATUS_BAD_KIND c else s
      let divNoted := if badDiv then kindNoted.loopNote fLOOP_STATUS_BAD_DIV c else kindNoted
      let slotsNoted := if badSlots then divNoted.loopNote fLOOP_STATUS_BAD_SLOTS c else divNoted
      (badKind ∨ badDiv ∨ badSlots → t = slotsNoted) ∧
      (¬badKind → ¬badDiv → ¬badSlots → ∀ y : Shep, t.rd y.bank (LOOP_CTRL c) = v &&& 0xFFFFFCE7 ∧
        (s.pGet y (LOOP_CTRL c) fLOOP_CTRL_KIND ≠ fLOOP_CTRL_KIND.get v → t.pGet y (LOOP_ERR c) fLOOP_ERR_E_LAST = 0)) ∧
      (∀ y : Shep, (s.applyReg x (LOOP_INT c) v sel).rd y.bank (LOOP_INT c) = v)) ∧
    (let t := s.applyReg x LOOP_STATUS (fLOOP_STATUS_CLR_CNT.put v 1) sel
     t.rd x.bank LOOP_OVR_TICKS = 0 ∧ t.rd x.bank LOOP_OVR_SKIPS = 0) ∧
    (let table := fCMP_WIN_SEL_TABLE.get v
     let page := fCMP_WIN_SEL_PAGE.get v
     let pages := if table = 0 then s.part.paddocks / 2 else if table = 1 then max 1 (s.part.paddocks / 8) else 4 * s.part.paddocks
     let flagged := s.pFlag x CMP_STATUS fCMP_STATUS_BAD_WIN
     let selected := fun (u : State) => (u.pPut x CMP_WIN_SEL fCMP_WIN_SEL_TABLE table).pPut x CMP_WIN_SEL fCMP_WIN_SEL_PAGE page
     (2 < table → s.applyReg x CMP_WIN_SEL v sel = flagged) ∧
     (table ≤ 2 → pages ≤ page → s.applyReg x CMP_WIN_SEL v sel = selected flagged) ∧
     (table ≤ 2 → page < pages → s.applyReg x CMP_WIN_SEL v sel = selected s)) ∧
    (∀ w, w < 262144 →
      let t := s.applyReg x (0x300000 + 4 * w) v sel
      ((winWord sel w).present s.part = false → t = s.pFlag x CMP_STATUS fCMP_STATUS_BAD_WIN) ∧
      ((winWord sel w).present s.part = true →
        (∀ c k, winWord sel w = .hys c k → ∀ y : Shep, t.rd y.bank (HYS_WORD c k) = v) ∧
        (∀ c k, winWord sel w = .rip c k → ∀ y : Shep, t.rd y.bank (RIP_WORD c k) = v) ∧
        (∀ e, winWord sel w = .xt e → ∃ put : Shep → State → State,
          t = (if s.queueFull s.lead = true then (both put s).notice CMP_STATUS fCMP_STATUS_XT_QFULL.lo 0xFFFF [e % 65536, e / 65536] else both put s) ∧
          ∀ y u, ((u.sh y).xt.queue.length < 65536 →
              put y u = u.modSh y fun h => { h with xt := { h.xt with queue := h.xt.queue ++ [⟨false, e, v.toNat / 65536⟩] } }) ∧
            (65536 ≤ (u.sh y).xt.queue.length → put y u = u.pFlag y CMP_STATUS fCMP_STATUS_XT_QFULL)))) ∧
    (let w := fCMP_STAGE_CTRL_APPLY.put v 1
     s.applyReg x CMP_STAGE_CTRL w sel = (s.sWr CMP_STAGE_CTRL (w &&& 0x0F00FFFF)).applyStage w) ∧
    (let p := fCMP_CFG_PERIOD.get v
     (p < 32 ∨ 1024 < p → s.applyReg x CMP_CFG v sel = both (fun y s => s.pFlag y CMP_STATUS fCMP_STATUS_BAD_PERIOD) s) ∧
     (32 ≤ p → p ≤ 1024 →
       s.applyReg x CMP_CFG v sel = both (fun y s => s.modSh y fun h => { h with xt := { h.xt with period := some p } }) s))

/-- SEQ_ARM_CTRL stores its slot and domain, takes back expert commits under the 100 ns limit, and arms one (R251, R252); MARGIN sets the lead, or is refused
(R252). SHP_CTRL through the ACTIVE hands over, resynchronises, fences or clears counters; elsewhere, or with two of them, it is refused (R309, R312, R315,
R321). REPORT counts a divergence (R297). -/
def Obligations.SequencerAndPairWritesAct : Prop :=
  ∀ (s : State) (x : Shep) (v sel : Word), s.locked = false →
    (let n := (s.sPut SEQ_ARM_CTRL fSEQ_ARM_CTRL_SLOT (fSEQ_ARM_CTRL_SLOT.get v)).sPut SEQ_ARM_CTRL fSEQ_ARM_CTRL_DOMAIN (fSEQ_ARM_CTRL_DOMAIN.get v)
     let cancelled := (n.commits.filter fun c => decide (c.src = 2) && !n.frozen c).foldl (fun s c => s.dispose c 0x0A) n
     (fSEQ_ARM_CTRL_CANCEL.bit v = true → fSEQ_ARM_CTRL_GO.bit v = false → s.applyReg x SEQ_ARM_CTRL v sel = cancelled) ∧
     (fSEQ_ARM_CTRL_CANCEL.bit v = false → fSEQ_ARM_CTRL_GO.bit v = true →
       let dom := fSEQ_ARM_CTRL_DOMAIN.get v
       let slot := fSEQ_ARM_CTRL_SLOT.get v
       let instant := (n.sRd SEQ_ARM_INSTANT).toNat
       let c : Commit := ⟨2, dom, slot, instant, 0, 0, 0, n.edge, false, 0, 0, n.unwrapped + toSigned 32 (n.ahead instant), decide (2 ^ 31 ≤ n.ahead instant)⟩
       let free := n.seqModeBad dom = false ∧ n.rotOf dom = none ∧ (∀ k ∈ n.domCommits dom, k.src ≠ 0) ∧ n.slotReady slot dom = true
       (¬free → s.applyReg x SEQ_ARM_CTRL v sel = n.seqFlag fSEQ_STATUS_BAD_ARM) ∧
       (free → s.applyReg x SEQ_ARM_CTRL v sel = n.schedule c))) ∧
    (let m := fSEQ_CFG_MARGIN.get v
     (m < 40 ∨ 10000 < m → s.applyReg x SEQ_CFG v sel = s.seqFlag fSEQ_STATUS_BAD_CFG) ∧
     (40 ≤ m → m ≤ 10000 → s.applyReg x SEQ_CFG v sel = (s.sPut SEQ_CFG fSEQ_CFG_MARGIN m).sPut SEQ_LEAD fSEQ_LEAD_LEAD (480 + m))) ∧
    (s.role x = .active → fSHP_CTRL_CLR_CNT.get v = 0 →
      (v.toNat / 2 ^ 29 = 4 → s.applyReg x SHP_CTRL v sel = s.handoverWrite x) ∧
      (v.toNat / 2 ^ 29 = 2 → s.role x.other = .detached → (s.sh x.other).halted = false → s.applyReg x SHP_CTRL v sel = s.startSync x.other) ∧
      (v.toNat / 2 ^ 29 = 1 → s.role x.other = .standby ∨ s.role x.other = .detached →
        s.applyReg x SHP_CTRL v sel = (s.fence x.other).repairPending false) ∧
      (v.toNat / 2 ^ 29 = 1 → s.role x.other = .syncing →
        s.applyReg x SHP_CTRL v sel = ((State.resyncStage { s with sync := none } 0 0).fence x.other).repairPending false) ∧
      (v.toNat / 2 ^ 29 = 3 ∨ 5 ≤ v.toNat / 2 ^ 29 → s.applyReg x SHP_CTRL v sel = s.badCtrl x)) ∧
    (s.role x ≠ .active → v.toNat / 2 ^ 29 ≠ 0 → s.applyReg x SHP_CTRL v sel = s.badCtrl x) ∧
    (fSHP_CTRL_CLR_CNT.get v = 1 → v.toNat / 2 ^ 29 = 0 →
      let t := s.applyReg x SHP_CTRL v sel
      t.rd x.bank SHP_CNT_DIVERGE = 0 ∧ t.rd x.bank SHP_CNT_UNSEALED = 0 ∧ t.rd x.bank SHP_CNT_REPAIR = 0 ∧
        t.pGet x SHP_HOST_DIV fSHP_HOST_DIV_COUNT = 0 ∧ (∀ p, p < 16 → t.rd 0 (SHP_PDK_ERR p) = 0)) ∧
    (fSHP_HOST_DIV_REPORT.get v = 1 → s.applyReg x SHP_HOST_DIV v sel = { s.pCount x SHP_HOST_DIV fSHP_HOST_DIV_COUNT 1 with divNow := true })

/-- A command ring that EN turns on starts anew in both shepherds with the size and priority written, and EN = 0 stops it (R330); a CPL, EVT or TLM ring that
EN turns on starts at index 0 (R343). TIM_INCR is taken with the servo off and within 1,000 ppm, or refused (R369). ALM_INJECT raises TEST for its subject
(R532), and a release acts on the domains, the free elements and the flocks that are written as 1 (R526). -/
def Obligations.HostTimeAlarmWritesAct : Prop :=
  ∀ (s : State) (x : Shep) (v sel : Word), s.locked = false →
    (∀ r, r < 16 → fHIF_CMD_CFG_SIZE.get v < 10 →
      (s.cmdOn r = false → fHIF_CMD_CFG_EN.get v = 1 →
        let n := ((s.sPut (HIF_CMD_CFG r) fHIF_CMD_CFG_PRIO (fHIF_CMD_CFG_PRIO.get v)).sPut (HIF_CMD_CFG r) fHIF_CMD_CFG_SIZE (fHIF_CMD_CFG_SIZE.get v)).sPut
          (HIF_CMD_CFG r) fHIF_CMD_CFG_EN 1
        s.applyReg x (HIF_CMD_CFG r) v sel = both (fun y s => (s.pPut y (HIF_CMD_STAT r) fHIF_CMD_STAT_CONS 0).modSh y fun h => { h with
          cmdProd := Tab.set h.cmdProd 0 r 0, stopped := h.stopped.filter fun q => decide (q ≠ r) }) n) ∧
      (s.cmdOn r = true → fHIF_CMD_CFG_SIZE.get v = s.sGet (HIF_CMD_CFG r) fHIF_CMD_CFG_SIZE → fHIF_CMD_CFG_PRIO.get v = s.cmdPrio r →
        s.applyReg x (HIF_CMD_CFG r) v sel = s.sPut (HIF_CMD_CFG r) fHIF_CMD_CFG_EN (fHIF_CMD_CFG_EN.get v)) ∧
      (s.cmdOn r = true → fHIF_CMD_CFG_SIZE.get v ≠ s.sGet (HIF_CMD_CFG r) fHIF_CMD_CFG_SIZE ∨ fHIF_CMD_CFG_PRIO.get v ≠ s.cmdPrio r →
        s.applyReg x (HIF_CMD_CFG r) v sel = (s.hifBad x).sPut (HIF_CMD_CFG r) fHIF_CMD_CFG_EN (fHIF_CMD_CFG_EN.get v))) ∧
    (∀ k, k < 3 → fHIF_RING_CFG_SIZE.get v < 10 →
      let n := (s.pPut x (HIF_RING_CFG k) fHIF_RING_CFG_SIZE (fHIF_RING_CFG_SIZE.get v)).pPut x (HIF_RING_CFG k) fHIF_RING_CFG_EN (fHIF_RING_CFG_EN.get v)
      (s.pGet x (HIF_RING_CFG k) fHIF_RING_CFG_EN = 0 → fHIF_RING_CFG_EN.get v = 1 → s.applyReg x (HIF_RING_CFG k) v sel = n.modRing x k fun _ => {}) ∧
      (s.pGet x (HIF_RING_CFG k) fHIF_RING_CFG_EN ≠ 0 ∨ fHIF_RING_CFG_EN.get v ≠ 1 → s.applyReg x (HIF_RING_CFG k) v sel = n)) ∧
    (s.servoOn = true ∨ v.toNat + 41943 < nominalIncr ∨ nominalIncr + 41943 < v.toNat →
      s.applyReg x TIM_INCR v sel = s.timBad fTIM_SERVO_STATUS_BAD_INCR) ∧
    (s.servoOn = false → nominalIncr ≤ v.toNat + 41943 → v.toNat ≤ nominalIncr + 41943 → s.applyReg x TIM_INCR v sel = s.setIncr v.toNat) ∧
    (∀ k kind, (k, kind) ∈ [(0, SubjKind.channel), (1, .monitor), (2, .paddock), (3, .domain), (4, .shepherd), (5, .device)] → fALM_INJECT_KIND.get v = k →
      s.applyReg x ALM_INJECT v sel = s.alarm 0x1F kind (fALM_INJECT_ID.get v)) ∧
    (let n := s.releaseDomains (fALM_PARKED_DOMAIN.get v)
     (fALM_PARKED_FREE.get v = 1 → s.applyReg x ALM_PARKED v sel = n.releaseFree) ∧ (fALM_PARKED_FREE.get v = 0 → s.applyReg x ALM_PARKED v sel = n)) ∧
    (∀ k, k < 2 →
      let fs := (bitsOf 32 v.toNat).filter fun i => bitAt (s.sRd (ALM_CLEARED k)).toNat i
      s.applyReg x (ALM_CLEARED k) v sel = State.resume
        (fs.foldl (fun s i => s.sWr (ALM_CLEARED k) (BitVec.ofNat 32 (setBitAt (s.sRd (ALM_CLEARED k)).toNat i false))) s) (fs.map fun i => 32 * k + i))

/-- WAKE wakes (R479). RST_CTRL resets the shepherd or the paddock that it names, or restarts its shepherd's cores, with its fields stored, and is refused
with more than one reset, or for a paddock that may not be reset (R484 to R486). SET puts the lock in force (R511), and RELOCK sets the debug level to LOCKED
at once (R506). START hands the load buffer over (R541). A fence that falls lets its paddock's writes flow, and the increment of its
servo (R468). A layout is taken with the recorder stopped
and the library and fit log empty, or refused (R422). -/
def Obligations.PowerAndSecurityWritesAct : Prop :=
  ∀ (s : State) (x : Shep) (v sel : Word), s.locked = false →
    (fPWR_WAKE_WAKE.get v = 1 → fPWR_WAKE_WAKE_SEEN.get v = 0 → s.applyReg x PWR_WAKE v sel = s.wakeAll 4) ∧
    (let n := (s.dPut RST_CTRL fRST_CTRL_SHEPHERD (fRST_CTRL_SHEPHERD.get v)).dPut RST_CTRL fRST_CTRL_PADDOCK (fRST_CTRL_PADDOCK.get v)
     (v.toNat / 2 ^ 29 = 4 → s.applyReg x RST_CTRL v sel = n.shpReset (ctrlShep v)) ∧
     (v.toNat / 2 ^ 29 = 2 → s.applyReg x RST_CTRL v sel = n.softReset (ctrlShep v)) ∧
     (v.toNat / 2 ^ 29 = 1 → s.pdkResetOk (fRST_CTRL_PADDOCK.get v) = true → s.applyReg x RST_CTRL v sel = n.padReset (fRST_CTRL_PADDOCK.get v)) ∧
     (v.toNat / 2 ^ 29 = 1 → s.pdkResetOk (fRST_CTRL_PADDOCK.get v) = false → s.applyReg x RST_CTRL v sel = s.rstBad x) ∧
     (v.toNat / 2 ^ 29 = 3 ∨ 5 ≤ v.toNat / 2 ^ 29 → s.applyReg x RST_CTRL v sel = s.rstBad x)) ∧
    (s.applyReg x LCS_LOCK (fLCS_LOCK_SET.put 0 1) sel = s.dPut LCS_LOCK fLCS_LOCK_SET 1 ∧ (s.dPut LCS_LOCK fLCS_LOCK_SET 1).locked = true) ∧
    (s.served x LCS_DBG = true → s.apart x = false → Does (.lcsRelock (some x)) s (s.setLevel 0)) ∧
    (s.mode ≠ .off → s.mode ≠ .reset → Does (.lcsRelock none) s (s.setLevel 0)) ∧
    (fGLB_LOAD_CTRL_START.get v = 1 → s.loadBusy x = false →
      let len := fGLB_LOAD_CTRL_LENGTH.get v
      (0 < len → len ≤ s.part.loadBytes →
        s.applyReg x GLB_LOAD_CTRL v sel = (s.pPut x GLB_LOAD_CTRL fGLB_LOAD_CTRL_LENGTH len).pPut x GLB_LOAD_CTRL fGLB_LOAD_CTRL_BUSY 1) ∧
      (len = 0 ∨ s.part.loadBytes < len → s.applyReg x GLB_LOAD_CTRL v sel = s.badLoad x)) ∧
    (let was := (s.rd 0 CLK_XING_FENCE).toNat
     let pads := v.toNat % 2 ^ s.part.paddocks
     let n := (s.wr 0 CLK_XING_FENCE (BitVec.ofNat 32 pads)).wr x.bank CLK_XING_FENCE (BitVec.ofNat 32 (fCLK_XING_FENCE_SHP.get v * 65536))
     let opens := (s.wr 0 CLK_XING_FENCE (BitVec.ofNat 32 pads)).fencedOwn x 17 = true ∧ n.fencedOwn x 17 = false ∧ n.servoOn = true ∧ n.steers x = .tb0
     let m := if opens then n.setIncr (n.servo x).incr else n
     s.applyReg x CLK_XING_FENCE v sel = ((List.range s.part.paddocks).filter fun p => bitAt was p && !bitAt pads p).foldl State.xingOpen m) ∧
    (∀ (off : Nat) (f : Fld), (off = FLD_LIB_CFG ∧ f = fFLD_LIB_CFG_RECORDS ∧ f.get v ≤ 65536) ∨
        (off = FLD_FITLOG_CFG ∧ f = fFLD_FITLOG_CFG_SIZE ∧ 16 ≤ f.get v ∧ f.get v ≤ 1024) →
      let idle := (s.sh s.lead).recorder.state = 0 ∧ s.library = [] ∧ (s.sh s.lead).fit.log = []
      (¬idle → s.applyReg x off v sel = both (fun y s => s.pFlag y FLD_STATUS fFLD_STATUS_BAD_CFG) s) ∧
      (idle → ∃ keep : Bool, let n := ((s.sPut off f (f.get v)).draw 1).2
        s.applyReg x off v sel = both (fun y s => s.modRec y fun r => { r with
          ring := if keep = true then (newestFit (s.ringBytes y) r.ring.reverse).reverse else [] }) n))

/-! ### Rules of single sentences -/

/-- A request to enter SERVICE while no map is in force is refused, and the device stays in PARKED (R58). -/
def Obligations.ServiceNeedsMap : Prop :=
  ∀ (s c : State) (d : Desc), Starts s c d → d.op = 0x03 → d.in1 32 = 5 → c.mode = .parked → c.map = none →
    ∃ code, code ≠ 0 ∧ Does (.modeService d) s (c.completeHif d code) ∧ (c.completeHif d code).mode = .parked

/-- A full map load is accepted only in PARKED, and a domain reload only in MAINTENANCE and for a domain that is out of service; both while no survey runs
(R256). In any other case the command completes with MAP_MODE, 1, and the map in force is unchanged (R53). -/
def Obligations.MapCommandsNeedTheirMode : Prop :=
  ∀ (s c : State) (d : Desc), Starts s c d →
    let begun := (c.sPut DRO_MAP_STATUS fDRO_MAP_STATUS_BUSY 1).addJob ⟨d, .mapLoad, 0, 0, []⟩
    let refused := c.mapEnd d 1 0xFFFFFFFF []
    refused.map = c.map ∧
    (d.op = 0x08 →
      (c.mode = .parked → c.surveying = false → Does (.mapLoad d) s begun) ∧ (c.mode ≠ .parked ∨ c.surveying = true → Does (.mapLoad d) s refused)) ∧
    (d.op = 0x09 →
      (c.mode = .maintenance → c.domOut (d.in1 32) = true → c.surveying = false → Does (.domainReload d) s begun) ∧
      (c.mode ≠ .maintenance ∨ c.domOut (d.in1 32) = false ∨ c.surveying = true → Does (.domainReload d) s refused))

/-- MUSTER_READ writes the 8,192-byte bitmap of the window that INLINE bytes 32 to 35 name to OUT_ADDR. A LEN below 8,192 completes with HIF_VALUE, 5, and a
window that is still open, never existed, or whose bitmap has been overwritten with HIF_STATE, 7: windows are numbered from 1, modulo 2^32 on the wire, the bitmaps
of the windows up to `last` are written, and 8,192 of them are kept (R522, R530). -/
def Obligations.MusterReadGivesBitmaps : Prop :=
  ∀ (s c : State) (d : Desc), Starts s c d → d.op = 0x58 →
    let n := d.in4 32
    let last := c.muster.no - c.muster.closed.length
    let held := ∃ w, 0 < w ∧ w ≤ last ∧ last < w + 8192 ∧ n = w % 2 ^ 32
    let bits := bitmapBytes (Tab.get c.muster.bitmaps [] (n % 8192))
    bits.length = 8192 ∧
    (d.len < 8192 → Does (.musterRead d) s (c.completeHif d 5)) ∧
    (8192 ≤ d.len → ¬held → Does (.musterRead d) s (c.completeHif d 7)) ∧
    (8192 ≤ d.len → held → Does (.musterRead d) s ((c.writeOut d.outAddr bits).completeHif d 0))
end

