-- ==== Sys2Proof/Laws/Fuses1.lean ====
section
/-! SUPPORT. The fuses are left by every operation of the machine, from the named operations to the descriptors. Each lemma says it of one function. -/

set_option maxRecDepth 4000
set_option linter.unreachableTactic false
set_option linter.unusedTactic false
set_option linter.unusedSimpArgs false

namespace Sys2Proof.Machine

/-- What the fuses hold; a function of its own, so that a proof compares states and not the fields of states. -/
def State.otp (s : State) : Fuses := s.fuses

theorem mk_otp (a : State) (v0 v1 v2 v3 v4 v5 v6 v7 v8 v9 v10 v11 v12 v13 v14 v15 v16 v17 v18 v19 v20 v21 v22 v23 v24 v25 v26 v27 v28 v29 v30 v31 v32 v33 v34 v35 v36 v37 v38 v39 v40 v41 v42 v43 v44 v45 v46 v47 v48 v49 v50 v51 v52 v53 v54 v55 v56 v57 v58 v59 v60 v61 v62 v63 v64 v65 v66 v67 v68 v69 v70 v71 v72 v73 v74 v75 v76 v77 v79 v80 v81 v82 v83 v84 v85 v86 v87 v88 v89 v90 v91 v92 v93 v94 v95 v96 v97 v98 v99) :
    (State.mk v0 v1 v2 v3 v4 v5 v6 v7 v8 v9 v10 v11 v12 v13 v14 v15 v16 v17 v18 v19 v20 v21 v22 v23 v24 v25 v26 v27 v28 v29 v30 v31 v32 v33 v34 v35 v36 v37 v38 v39 v40 v41 v42 v43 v44 v45 v46 v47 v48 v49 v50 v51 v52 v53 v54 v55 v56 v57 v58 v59 v60 v61 v62 v63 v64 v65 v66 v67 v68 v69 v70 v71 v72 v73 v74 v75 v76 v77 a.fuses v79 v80 v81 v82 v83 v84 v85 v86 v87 v88 v89 v90 v91 v92 v93 v94 v95 v96 v97 v98 v99).otp = a.otp := by unfold State.otp; rfl
theorem ite2_otp {c : Prop} [Decidable c] {a b : State} {x : Fuses} (ha : a.otp = x) (hb : b.otp = x) : (if c then a else b).otp = x := by
  split <;> assumption
theorem ite_some_otp {c : Prop} [Decidable c] {a : State} {b : Option State} {x : Fuses} (ha : a.otp = x)
    (hb : ∀ t, b = some t → t.otp = x) : ∀ t, (if c then some a else b) = some t → t.otp = x := by
  intro t h
  split at h
  · cases h; exact ha
  · exact hb t h
theorem none_otp (x : Fuses) : ∀ t : State, none = some t → t.otp = x := fun _ h => nomatch h
/-- A fold keeps what each of its steps keeps. -/
theorem foldl_otp {α : Type} (f : State → α → State) (l : List α) (s : State) (h : ∀ s a, (f s a).otp = s.otp) : (l.foldl f s).otp = s.otp := by
  induction l generalizing s with
  | nil => rfl
  | cons a l ih => rw [List.foldl_cons, ih, h]
theorem foldl_otp_fst {α β : Type} (f : State × β → α → State × β) (l : List α) (r : State × β) (h : ∀ r a, (f r a).1.otp = r.1.otp) :
    (l.foldl f r).1.otp = r.1.otp := by
  induction l generalizing r with
  | nil => rfl
  | cons a l ih => rw [List.foldl_cons, ih, h]
theorem foldl_otp_snd {α β : Type} (f : β × State → α → β × State) (l : List α) (r : β × State) (h : ∀ r a, (f r a).2.otp = r.2.otp) :
    (l.foldl f r).2.otp = r.2.otp := by
  induction l generalizing r with
  | nil => rfl
  | cons a l ih => rw [List.foldl_cons, ih, h]
theorem both_otp (f : Shep → State → State) (s : State) (h : ∀ x s, (f x s).otp = s.otp) : (both f s).otp = s.otp := by
  unfold both; rw [h, h]
theorem State.draw_otp (s : State) (w : Nat) : (s.draw w).2.otp = s.otp := rfl

theorem State.wr_otp (s : State) (bank off : Nat) (w : Word) : (State.wr s bank off w).otp = s.otp := by
  unfold State.wr
  repeat' (first | with_reducible rfl | with_reducible refine ite2_otp ?_ ?_ | simp only [mk_otp] | dsimp only | split | intro _)

theorem State.dropRegs_otp (s : State) (bank : Nat) (p : Nat → Bool) : (State.dropRegs s bank p).otp = s.otp := by
  unfold State.dropRegs
  repeat' (first | with_reducible rfl | with_reducible refine ite2_otp ?_ ?_ | simp only [mk_otp] | dsimp only | split | intro _)

theorem State.dPut_otp (s : State) (off : Nat) (f : Fld) (v : Nat) : (State.dPut s off f v).otp = s.otp := by
  unfold State.dPut
  repeat' (first | with_reducible rfl | with_reducible refine ite2_otp ?_ ?_ | with_reducible refine (State.wr_otp ..).trans ?_ | simp only [mk_otp] | dsimp only | split | intro _)

theorem State.pPut_otp (s : State) (x : Shep) (off : Nat) (f : Fld) (v : Nat) : (State.pPut s x off f v).otp = s.otp := by
  unfold State.pPut
  repeat' (first | with_reducible rfl | with_reducible refine ite2_otp ?_ ?_ | with_reducible refine (State.wr_otp ..).trans ?_ | simp only [mk_otp] | dsimp only | split | intro _)

theorem State.modSh_otp (s : State) (x : Shep) (f : ShepSt → ShepSt) : (State.modSh s x f).otp = s.otp := by
  unfold State.modSh
  repeat' (first | with_reducible rfl | with_reducible refine ite2_otp ?_ ?_ | simp only [mk_otp] | dsimp only | split | intro _)

theorem State.sPut_otp (s : State) (off : Nat) (f : Fld) (v : Nat) : (State.sPut s off f v).otp = s.otp := by
  unfold State.sPut
  repeat' (first | with_reducible rfl | with_reducible refine ite2_otp ?_ ?_ | with_reducible refine (State.pPut_otp ..).trans ?_ | simp only [mk_otp] | dsimp only | split | intro _)

theorem State.sWr_otp (s : State) (off : Nat) (w : Word) : (State.sWr s off w).otp = s.otp := by
  unfold State.sWr
  repeat' (first | with_reducible rfl | with_reducible refine ite2_otp ?_ ?_ | with_reducible refine (State.wr_otp ..).trans ?_ | simp only [mk_otp] | dsimp only | split | intro _)

theorem State.dFlag_otp (s : State) (off : Nat) (f : Fld) : (State.dFlag s off f).otp = s.otp := by
  unfold State.dFlag
  repeat' (first | with_reducible rfl | with_reducible refine ite2_otp ?_ ?_ | with_reducible refine (State.dPut_otp ..).trans ?_ | simp only [mk_otp] | dsimp only | split | intro _)

theorem State.pFlag_otp (s : State) (x : Shep) (off : Nat) (f : Fld) : (State.pFlag s x off f).otp = s.otp := by
  unfold State.pFlag
  repeat' (first | with_reducible rfl | with_reducible refine ite2_otp ?_ ?_ | with_reducible refine (State.pPut_otp ..).trans ?_ | simp only [mk_otp] | dsimp only | split | intro _)

theorem State.sFlag_otp (s : State) (off : Nat) (f : Fld) : (State.sFlag s off f).otp = s.otp := by
  unfold State.sFlag
  repeat' (first | with_reducible rfl | with_reducible refine ite2_otp ?_ ?_ | with_reducible refine (State.sPut_otp ..).trans ?_ | simp only [mk_otp] | dsimp only | split | intro _)

theorem State.dCount_otp (s : State) (off : Nat) (f : Fld) (k : Nat) : (State.dCount s off f k).otp = s.otp := by
  unfold State.dCount
  repeat' (first | with_reducible rfl | with_reducible refine ite2_otp ?_ ?_ | with_reducible refine (State.dPut_otp ..).trans ?_ | simp only [mk_otp] | dsimp only | split | intro _)

theorem State.pCount_otp (s : State) (x : Shep) (off : Nat) (f : Fld) (k : Nat) : (State.pCount s x off f k).otp = s.otp := by
  unfold State.pCount
  repeat' (first | with_reducible rfl | with_reducible refine ite2_otp ?_ ?_ | with_reducible refine (State.pPut_otp ..).trans ?_ | simp only [mk_otp] | dsimp only | split | intro _)

theorem State.sCount_otp (s : State) (off : Nat) (f : Fld) (k : Nat) : (State.sCount s off f k).otp = s.otp := by
  unfold State.sCount
  repeat' (first | with_reducible rfl | with_reducible refine ite2_otp ?_ ?_ | with_reducible refine (State.pCount_otp ..).trans ?_ | simp only [mk_otp] | dsimp only | split | intro _)

theorem State.toEdge_otp (s : State) (e : Nat) : (State.toEdge s e).otp = s.otp := by
  unfold State.toEdge
  repeat' (first | with_reducible rfl | with_reducible refine ite2_otp ?_ ?_ | simp only [mk_otp] | dsimp only | split | intro _)

theorem State.setPdk_otp (s : State) (p : Nat) (v : Pdk) : (State.setPdk s p v).otp = s.otp := by
  unfold State.setPdk
  repeat' (first | with_reducible rfl | with_reducible refine ite2_otp ?_ ?_ | simp only [mk_otp] | dsimp only | split | intro _)

theorem State.modPdk_otp (s : State) (p : Nat) (f : Pdk → Pdk) : (State.modPdk s p f).otp = s.otp := by
  unfold State.modPdk
  repeat' (first | with_reducible rfl | with_reducible refine ite2_otp ?_ ?_ | with_reducible refine (State.setPdk_otp ..).trans ?_ | simp only [mk_otp] | dsimp only | split | intro _)

theorem State.modChan_otp (s : State) (c : Nat) (f : ChPdk → ChPdk) : (State.modChan s c f).otp = s.otp := by
  unfold State.modChan
  repeat' (first | with_reducible rfl | with_reducible refine ite2_otp ?_ ?_ | simp only [mk_otp] | dsimp only | split | intro _)

theorem State.modSense_otp (s : State) (m : Nat) (f : SnsHid → SnsHid) : (State.modSense s m f).otp = s.otp := by
  unfold State.modSense
  repeat' (first | with_reducible rfl | with_reducible refine ite2_otp ?_ ?_ | simp only [mk_otp] | dsimp only | split | intro _)

theorem State.newKeys_otp (s : State) (x : Shep) (keep : Bool) : (State.newKeys s x keep).otp = s.otp := by
  unfold State.newKeys
  repeat' (first | with_reducible rfl | with_reducible refine ite2_otp ?_ ?_ | with_reducible refine (State.modSh_otp ..).trans ?_ | simp only [mk_otp] | dsimp only | split | intro _)

theorem State.send_otp (s : State) (o : Out) : (State.send s o).otp = s.otp := by
  unfold State.send
  repeat' (first | with_reducible rfl | with_reducible refine ite2_otp ?_ ?_ | simp only [mk_otp] | dsimp only | split | intro _)

theorem State.modRing_otp (s : State) (x : Shep) (k : Nat) (f : RingSt → RingSt) : (State.modRing s x k f).otp = s.otp := by
  unfold State.modRing
  repeat' (first | with_reducible rfl | with_reducible refine ite2_otp ?_ ?_ | with_reducible refine (State.modSh_otp ..).trans ?_ | simp only [mk_otp] | dsimp only | split | intro _)

theorem State.irqMark_otp (s : State) (x : Shep) (vec : Nat) : (State.irqMark s x vec).otp = s.otp := by
  unfold State.irqMark
  repeat' (first | with_reducible rfl | with_reducible refine ite2_otp ?_ ?_ | with_reducible refine (State.modSh_otp ..).trans ?_ | simp only [mk_otp] | dsimp only | split | intro _)

theorem State.putRec_otp (s : State) (x : Shep) (k : Nat) (mk : Nat → Nat → Out) : (State.putRec s x k mk).otp = s.otp := by
  unfold State.putRec
  repeat' (first | with_reducible rfl | with_reducible refine ite2_otp ?_ ?_ | with_reducible refine (State.send_otp ..).trans ?_ | with_reducible refine (State.modRing_otp ..).trans ?_ | with_reducible refine (State.irqMark_otp ..).trans ?_ | simp only [mk_otp] | dsimp only | split | intro _)

theorem flushCplN_otp (x : Shep) (a0_ : Nat) (s_ : State) : (flushCplN x a0_ s_).otp = s_.otp := by
  induction a0_ generalizing s_ with
  | zero => rfl
  | succ n ih =>
    unfold flushCplN
    repeat' (first | with_reducible rfl | with_reducible refine ite2_otp ?_ ?_ | with_reducible refine (ih _).trans ?_ | with_reducible refine (State.modSh_otp ..).trans ?_ | with_reducible refine (State.putRec_otp ..).trans ?_ | simp only [mk_otp] | dsimp only | split | intro _)

theorem State.flushCpl_otp (s : State) (x : Shep) : (State.flushCpl s x).otp = s.otp := by
  unfold State.flushCpl
  repeat' (first | with_reducible rfl | with_reducible refine ite2_otp ?_ ?_ | with_reducible refine (flushCplN_otp ..).trans ?_ | simp only [mk_otp] | dsimp only | split | intro _)

theorem State.pushCpl_otp (s : State) (x : Shep) (body : List Byte) : (State.pushCpl s x body).otp = s.otp := by
  unfold State.pushCpl
  repeat' (first | with_reducible rfl | with_reducible refine ite2_otp ?_ ?_ | with_reducible refine (State.modSh_otp ..).trans ?_ | with_reducible refine (State.pCount_otp ..).trans ?_ | with_reducible refine (State.flushCpl_otp ..).trans ?_ | simp only [mk_otp] | dsimp only | split | intro _)

theorem flushEvtN_otp (x : Shep) (a0_ : Nat) (s_ : State) : (flushEvtN x a0_ s_).otp = s_.otp := by
  induction a0_ generalizing s_ with
  | zero => rfl
  | succ n ih =>
    unfold flushEvtN
    repeat' (first | with_reducible rfl | with_reducible refine ite2_otp ?_ ?_ | with_reducible refine (ih _).trans ?_ | with_reducible refine (State.modSh_otp ..).trans ?_ | with_reducible refine (State.putRec_otp ..).trans ?_ | with_reducible refine (State.drop_otp ..).trans ?_ | simp only [mk_otp] | dsimp only | split | intro _)

theorem flushRoleN_otp (x : Shep) (a0_ : Nat) (s_ : State) : (flushRoleN x a0_ s_).otp = s_.otp := by
  induction a0_ generalizing s_ with
  | zero => rfl
  | succ n ih =>
    unfold flushRoleN
    repeat' (first | with_reducible rfl | with_reducible refine ite2_otp ?_ ?_ | with_reducible refine (ih _).trans ?_ | with_reducible refine (State.modSh_otp ..).trans ?_ | with_reducible refine (State.putRec_otp ..).trans ?_ | with_reducible refine (State.drop_otp ..).trans ?_ | simp only [mk_otp] | dsimp only | split | intro _)

theorem State.flushEvt_otp (s : State) (x : Shep) : (State.flushEvt s x).otp = s.otp := by
  unfold State.flushEvt
  repeat' (first | with_reducible rfl | with_reducible refine ite2_otp ?_ ?_ | with_reducible refine (flushEvtN_otp ..).trans ?_ | with_reducible refine (flushRoleN_otp ..).trans ?_ | simp only [mk_otp] | dsimp only | split | intro _)

theorem State.logEvt_otp (s : State) (x : Shep) (flags : Nat) (body : List Byte) : (State.logEvt s x flags body).otp = s.otp := by
  unfold State.logEvt
  repeat' (first | with_reducible rfl | with_reducible refine ite2_otp ?_ ?_ | with_reducible refine (State.modSh_otp ..).trans ?_ | with_reducible refine (State.pCount_otp ..).trans ?_ | with_reducible refine (State.flushEvt_otp ..).trans ?_ | simp only [mk_otp] | dsimp only | split | intro _)

theorem State.event_otp (s : State) (type : Nat) (payload : List Byte) : (State.event s type payload).otp = s.otp := by
  unfold State.event
  repeat' (first | with_reducible rfl | with_reducible refine ite2_otp ?_ ?_ | with_reducible refine (State.logEvt_otp ..).trans ?_ | simp only [mk_otp] | dsimp only | split | intro _)

theorem State.eventLocal_otp (s : State) (x : Shep) (type : Nat) (payload : List Byte) : (State.eventLocal s x type payload).otp = s.otp := by
  unfold State.eventLocal
  repeat' (first | with_reducible rfl | with_reducible refine ite2_otp ?_ ?_ | with_reducible refine (State.logEvt_otp ..).trans ?_ | simp only [mk_otp] | dsimp only | split | intro _)

theorem State.notice_otp (s : State) (off bit num : Nat) (more : List Nat) : (State.notice s off bit num more).otp = s.otp := by
  unfold State.notice
  repeat' (first | with_reducible rfl | with_reducible refine ite2_otp ?_ ?_ | with_reducible refine (foldl_otp _ _ _ ?_).trans ?_ | with_reducible refine (State.event_otp ..).trans ?_ | simp only [mk_otp] | dsimp only | split | intro _)

theorem State.noticeLocal_otp (s : State) (x : Shep) (off bit num : Nat) : (State.noticeLocal s x off bit num).otp = s.otp := by
  unfold State.noticeLocal
  repeat' (first | with_reducible rfl | with_reducible refine ite2_otp ?_ ?_ | with_reducible refine (State.eventLocal_otp ..).trans ?_ | simp only [mk_otp] | dsimp only | split | intro _)

theorem State.ringEvent_otp (s : State) (x : Shep) (ring cause index : Nat) : (State.ringEvent s x ring cause index).otp = s.otp := by
  unfold State.ringEvent
  repeat' (first | with_reducible rfl | with_reducible refine ite2_otp ?_ ?_ | with_reducible refine (State.irqMark_otp ..).trans ?_ | with_reducible refine (State.eventLocal_otp ..).trans ?_ | with_reducible refine (State.cause_otp ..).trans ?_ | simp only [mk_otp] | dsimp only | split | intro _)

theorem openWindow_otp (s : State) (t : Nat) (rs : List Report) : (openWindow s t rs).otp = s.otp := by
  unfold openWindow
  repeat' (first | with_reducible rfl | with_reducible refine ite2_otp ?_ ?_ | with_reducible refine (State.applied_otp ..).trans ?_ | simp only [mk_otp] | dsimp only | split | intro _)

theorem joinWindow_otp (s : State) (r : Report) : (joinWindow s r).otp = s.otp := by
  unfold joinWindow
  repeat' (first | with_reducible rfl | with_reducible refine ite2_otp ?_ ?_ | with_reducible refine (openWindow_otp ..).trans ?_ | simp only [mk_otp] | dsimp only | split | intro _)

theorem State.report_otp (s : State) (r : Report) : (State.report s r).otp = s.otp := by
  unfold State.report
  repeat' (first | with_reducible rfl | with_reducible refine ite2_otp ?_ ?_ | with_reducible refine (State.sFlag_otp ..).trans ?_ | with_reducible refine (joinWindow_otp ..).trans ?_ | simp only [mk_otp] | dsimp only | split | intro _)

theorem State.alarm_otp (s : State) (code : Nat) (k : SubjKind) (id : Nat) : (State.alarm s code k id).otp = s.otp := by
  unfold State.alarm
  repeat' (first | with_reducible rfl | with_reducible refine ite2_otp ?_ ?_ | with_reducible refine (State.report_otp ..).trans ?_ | simp only [mk_otp] | dsimp only | split | intro _)

theorem State.releaseReports_otp (s : State) : (State.releaseReports s).otp = s.otp := by
  unfold State.releaseReports
  repeat' (first | with_reducible rfl | with_reducible refine ite2_otp ?_ ?_ | with_reducible refine (foldl_otp _ _ _ ?_).trans ?_ | with_reducible refine (joinWindow_otp ..).trans ?_ | simp only [mk_otp] | dsimp only | split | intro _)

theorem closeWindow_otp (s : State) : (closeWindow s).otp = s.otp := by
  unfold closeWindow
  repeat' (first | with_reducible rfl | with_reducible refine ite2_otp ?_ ?_ | with_reducible refine (foldl_otp _ _ _ ?_).trans ?_ | with_reducible refine (openWindow_otp ..).trans ?_ | with_reducible refine (State.applied_otp ..).trans ?_ | simp only [mk_otp] | dsimp only | split | intro _)

theorem State.musterBoundary_otp (s : State) : (State.musterBoundary s).otp = s.otp := by
  unfold State.musterBoundary
  repeat' (first | with_reducible rfl | with_reducible refine ite2_otp ?_ ?_ | with_reducible refine (closeWindow_otp ..).trans ?_ | simp only [mk_otp] | dsimp only | split | intro _)

theorem doMusterWindowClose_otp (s : State) : (doMusterWindowClose s).otp = s.otp := by
  unfold doMusterWindowClose
  repeat' (first | with_reducible rfl | with_reducible refine ite2_otp ?_ ?_ | with_reducible refine (State.pCount_otp ..).trans ?_ | with_reducible refine (State.event_otp ..).trans ?_ | simp only [mk_otp] | dsimp only | split | intro _)

theorem State.junctionTick_otp (s : State) (temp : Int) : (State.junctionTick s temp).otp = s.otp := by
  unfold State.junctionTick
  repeat' (first | with_reducible rfl | with_reducible refine ite2_otp ?_ ?_ | simp only [mk_otp] | dsimp only | split | intro _)

theorem doJunctionHot_otp (s : State) : (doJunctionHot s).otp = s.otp := by
  unfold doJunctionHot
  repeat' (first | with_reducible rfl | with_reducible refine ite2_otp ?_ ?_ | with_reducible refine (State.alarm_otp ..).trans ?_ | simp only [mk_otp] | dsimp only | split | intro _)

theorem State.setDac_otp (s : State) (c code : Nat) : (State.setDac s c code).otp = s.otp := by
  unfold State.setDac
  repeat' (first | with_reducible rfl | with_reducible refine ite2_otp ?_ ?_ | with_reducible refine (State.dPut_otp ..).trans ?_ | simp only [mk_otp] | dsimp only | split | intro _)

theorem State.takeForced_otp (s : State) (c : Nat) : (State.takeForced s c).otp = s.otp := by
  unfold State.takeForced
  repeat' (first | with_reducible rfl | with_reducible refine ite2_otp ?_ ?_ | with_reducible refine (State.setDac_otp ..).trans ?_ | simp only [mk_otp] | dsimp only | split | intro _)

theorem State.settleAll_otp (s : State) : (State.settleAll s).otp = s.otp := by
  unfold State.settleAll
  repeat' (first | with_reducible rfl | with_reducible refine ite2_otp ?_ ?_ | with_reducible refine (foldl_otp _ _ _ ?_).trans ?_ | with_reducible refine (State.takeForced_otp ..).trans ?_ | simp only [mk_otp] | dsimp only | split | intro _)

theorem State.spoilTick_otp (s : State) (c t : Nat) : (State.spoilTick s c t).otp = s.otp := by
  unfold State.spoilTick
  repeat' (first | with_reducible rfl | with_reducible refine ite2_otp ?_ ?_ | with_reducible refine (State.modSh_otp ..).trans ?_ | with_reducible refine (State.spoil_otp ..).trans ?_ | simp only [mk_otp] | dsimp only | split | intro _)

theorem State.spoil_otp (s : State) (c : Nat) : (State.spoil s c).otp = s.otp := by
  unfold State.spoil
  repeat' (first | with_reducible rfl | with_reducible refine ite2_otp ?_ ?_ | with_reducible refine (State.spoilTick_otp ..).trans ?_ | simp only [mk_otp] | dsimp only | split | intro _)

theorem State.turnCode_otp (s : State) (c : Nat) : (State.turnCode s c).otp = s.otp := by
  unfold State.turnCode
  repeat' (first | with_reducible rfl | with_reducible refine ite2_otp ?_ ?_ | with_reducible refine (State.modSh_otp ..).trans ?_ | simp only [mk_otp] | dsimp only | split | intro _)

theorem State.loadCode_otp (s : State) (c code : Nat) : (State.loadCode s c code).otp = s.otp := by
  unfold State.loadCode
  repeat' (first | with_reducible rfl | with_reducible refine ite2_otp ?_ ?_ | with_reducible refine (State.dFlag_otp ..).trans ?_ | with_reducible refine (State.setDac_otp ..).trans ?_ | with_reducible refine (State.spoil_otp ..).trans ?_ | simp only [mk_otp] | dsimp only | split | intro _)

theorem State.strobeLoop_otp (s : State) (fr : LoopFrame) (e : Nat × Nat) : (State.strobeLoop s fr e).otp = s.otp := by
  unfold State.strobeLoop
  repeat' (first | with_reducible rfl | with_reducible refine ite2_otp ?_ ?_ | with_reducible refine (State.takeForced_otp ..).trans ?_ | with_reducible refine (State.loadCode_otp ..).trans ?_ | simp only [mk_otp] | dsimp only | split | intro _)

theorem State.strobeFlock_otp (s : State) (f : Nat) : (State.strobeFlock s f).otp = s.otp := by
  unfold State.strobeFlock
  repeat' (first | with_reducible rfl | with_reducible refine ite2_otp ?_ ?_ | with_reducible refine (foldl_otp _ _ _ ?_).trans ?_ | with_reducible refine (State.strobeLoop_otp ..).trans ?_ | simp only [mk_otp] | dsimp only | split | intro _)

theorem State.strobePdk_otp (s : State) (p : Nat) : (State.strobePdk s p).otp = s.otp := by
  unfold State.strobePdk
  repeat' (first | with_reducible rfl | with_reducible refine ite2_otp ?_ ?_ | with_reducible refine (foldl_otp _ _ _ ?_).trans ?_ | with_reducible refine (State.strobeLoop_otp ..).trans ?_ | simp only [mk_otp] | dsimp only | split | intro _)

theorem State.xingPend_otp (s : State) (p e : Nat) : (State.xingPend s p e).otp = s.otp := by
  unfold State.xingPend
  repeat' (first | with_reducible rfl | with_reducible refine ite2_otp ?_ ?_ | with_reducible refine (State.wr_otp ..).trans ?_ | simp only [mk_otp] | dsimp only | split | intro _)

theorem State.tickStrobe_otp (s : State) : (State.tickStrobe s).otp = s.otp := by
  unfold State.tickStrobe
  repeat' (first | with_reducible rfl | with_reducible refine ite2_otp ?_ ?_ | with_reducible refine (foldl_otp _ _ _ ?_).trans ?_ | with_reducible refine (State.strobePdk_otp ..).trans ?_ | with_reducible refine (State.xingPend_otp ..).trans ?_ | simp only [mk_otp] | dsimp only | split | intro _)

theorem State.enable_otp (s : State) (c : Nat) : (State.enable s c).otp = s.otp := by
  unfold State.enable
  repeat' (first | with_reducible rfl | with_reducible refine ite2_otp ?_ ?_ | with_reducible refine (State.modChan_otp ..).trans ?_ | with_reducible refine (State.setDac_otp ..).trans ?_ | simp only [mk_otp] | dsimp only | split | intro _)

theorem State.enablePdk_otp (s : State) (p : Nat) : (State.enablePdk s p).otp = s.otp := by
  unfold State.enablePdk
  repeat' (first | with_reducible rfl | with_reducible refine ite2_otp ?_ ?_ | with_reducible refine (foldl_otp _ _ _ ?_).trans ?_ | with_reducible refine (State.enable_otp ..).trans ?_ | with_reducible refine (idle_otp ..).trans ?_ | simp only [mk_otp] | dsimp only | split | intro _)

theorem State.checkDiverge_otp (s : State) (c : Nat) : (State.checkDiverge s c).otp = s.otp := by
  unfold State.checkDiverge
  repeat' (first | with_reducible rfl | with_reducible refine ite2_otp ?_ ?_ | with_reducible refine (State.sFlag_otp ..).trans ?_ | with_reducible refine (State.notice_otp ..).trans ?_ | simp only [mk_otp] | dsimp only | split | intro _)

theorem State.storeCtrl_otp (s : State) (c : Nat) (v : Word) (oe : Nat) : (State.storeCtrl s c v oe).otp = s.otp := by
  unfold State.storeCtrl
  repeat' (first | with_reducible rfl | with_reducible refine ite2_otp ?_ ?_ | with_reducible refine (State.dPut_otp ..).trans ?_ | simp only [mk_otp] | dsimp only | split | intro _)

theorem State.drvNote_otp (s : State) (f : Fld) (c : Nat) : (State.drvNote s f c).otp = s.otp := by
  unfold State.drvNote
  repeat' (first | with_reducible rfl | with_reducible refine ite2_otp ?_ ?_ | with_reducible refine (State.dFlag_otp ..).trans ?_ | with_reducible refine (State.notice_otp ..).trans ?_ | simp only [mk_otp] | dsimp only | split | intro _)

theorem State.leaveCurrent_otp (s : State) (c span : Nat) : (State.leaveCurrent s c span).otp = s.otp := by
  unfold State.leaveCurrent
  repeat' (first | with_reducible rfl | with_reducible refine ite2_otp ?_ ?_ | with_reducible refine (State.dPut_otp ..).trans ?_)

theorem State.follow_otp (s : State) (c span was : Nat) (wasOn : Bool) : (State.follow s c span was wasOn).otp = s.otp := by
  unfold State.follow
  repeat' (first | with_reducible rfl | with_reducible refine ite2_otp ?_ ?_ | with_reducible refine (State.modChan_otp ..).trans ?_ | with_reducible refine (State.takeForced_otp ..).trans ?_ | with_reducible refine (State.enable_otp ..).trans ?_ | with_reducible refine (State.checkDiverge_otp ..).trans ?_ | with_reducible refine (idle_otp ..).trans ?_ | simp only [mk_otp] | dsimp only | split | intro _)

theorem State.writeDrvCtrl_otp (s : State) (c : Nat) (v : Word) : (State.writeDrvCtrl s c v).otp = s.otp := by
  unfold State.writeDrvCtrl
  repeat' (first | with_reducible rfl | with_reducible refine ite2_otp ?_ ?_ | with_reducible refine (State.follow_otp ..).trans ?_ | with_reducible refine (State.leaveCurrent_otp ..).trans ?_ | with_reducible refine (State.storeCtrl_otp ..).trans ?_ | with_reducible refine (State.drvNote_otp ..).trans ?_ | simp only [mk_otp] | dsimp only | split | intro _)

theorem doSpanOpen_otp (c : Nat) (s : State) : (doSpanOpen c s).otp = s.otp := by
  unfold doSpanOpen
  repeat' (first | with_reducible rfl | with_reducible refine ite2_otp ?_ ?_ | with_reducible refine (State.modChan_otp ..).trans ?_ | simp only [mk_otp] | dsimp only | split | intro _)

theorem doSpanClose_otp (c : Nat) (s : State) : (doSpanClose c s).otp = s.otp := by
  unfold doSpanClose
  repeat' (first | with_reducible rfl | with_reducible refine ite2_otp ?_ ?_ | with_reducible refine (State.modChan_otp ..).trans ?_ | with_reducible refine (State.setDac_otp ..).trans ?_ | with_reducible refine (idle_otp ..).trans ?_ | simp only [mk_otp] | dsimp only | split | intro _)

theorem doSpanEnd_otp (c : Nat) (s : State) : (doSpanEnd c s).otp = s.otp := by
  unfold doSpanEnd
  repeat' (first | with_reducible rfl | with_reducible refine ite2_otp ?_ ?_ | with_reducible refine (State.modChan_otp ..).trans ?_ | with_reducible refine (State.takeForced_otp ..).trans ?_ | with_reducible refine (idle_otp ..).trans ?_ | simp only [mk_otp] | dsimp only | split | intro _)

theorem doSpanConfigEnd_otp (c : Nat) (s : State) : (doSpanConfigEnd c s).otp = s.otp := by
  unfold doSpanConfigEnd
  repeat' (first | with_reducible rfl | with_reducible refine ite2_otp ?_ ?_ | with_reducible refine (State.modChan_otp ..).trans ?_ | with_reducible refine (State.enable_otp ..).trans ?_ | with_reducible refine (idle_otp ..).trans ?_ | simp only [mk_otp] | dsimp only | split | intro _)

theorem doClearHigh_otp (s : State) : (doClearHigh s).otp = s.otp := by
  unfold doClearHigh
  repeat' (first | with_reducible rfl | with_reducible refine ite2_otp ?_ ?_ | simp only [mk_otp] | dsimp only | split | intro _)

theorem State.resume_otp (s : State) (fs : List Nat) : (State.resume s fs).otp = s.otp := by
  unfold State.resume
  repeat' (first | with_reducible rfl | with_reducible refine ite2_otp ?_ ?_ | with_reducible refine (foldl_otp _ _ _ ?_).trans ?_ | with_reducible refine (State.modChan_otp ..).trans ?_ | with_reducible refine (State.takeForced_otp ..).trans ?_ | simp only [mk_otp] | dsimp only | split | intro _)

theorem doFlockRelease_otp (s : State) : (doFlockRelease s).otp = s.otp := by
  unfold doFlockRelease
  repeat' (first | with_reducible rfl | with_reducible refine ite2_otp ?_ ?_ | with_reducible refine (State.resume_otp ..).trans ?_ | simp only [mk_otp] | dsimp only | split | intro _)

theorem doFlockEdge_otp (pin : Nat) (falling : Bool) (s : State) : (doFlockEdge pin falling s).otp = s.otp := by
  unfold doFlockEdge
  repeat' (first | with_reducible rfl | with_reducible refine ite2_otp ?_ ?_ | with_reducible refine (foldl_otp _ _ _ ?_).trans ?_ | with_reducible refine (State.strobeFlock_otp ..).trans ?_ | simp only [mk_otp] | dsimp only | split | intro _)

theorem State.softStrobe_otp (s : State) (word : Nat) (v : Word) : (State.softStrobe s word v).otp = s.otp := by
  unfold State.softStrobe
  repeat' (first | with_reducible rfl | with_reducible refine ite2_otp ?_ ?_ | with_reducible refine (foldl_otp _ _ _ ?_).trans ?_ | with_reducible refine (State.dFlag_otp ..).trans ?_ | with_reducible refine (State.strobeFlock_otp ..).trans ?_ | simp only [mk_otp] | dsimp only | split | intro _)

theorem doVdrLow_otp (p : Nat) (s : State) : (doVdrLow p s).otp = s.otp := by
  unfold doVdrLow
  repeat' (first | with_reducible rfl | with_reducible refine ite2_otp ?_ ?_ | with_reducible refine (State.dFlag_otp ..).trans ?_ | with_reducible refine (State.modPdk_otp ..).trans ?_ | with_reducible refine (State.report_otp ..).trans ?_ | simp only [mk_otp] | dsimp only | split | intro _)

theorem doVhtr_otp (p : Nat) (high : Bool) (s : State) : (doVhtr p high s).otp = s.otp := by
  unfold doVhtr
  repeat' (first | with_reducible rfl | with_reducible refine ite2_otp ?_ ?_ | with_reducible refine (State.dFlag_otp ..).trans ?_ | with_reducible refine (State.modPdk_otp ..).trans ?_ | with_reducible refine (State.report_otp ..).trans ?_ | simp only [mk_otp] | dsimp only | split | intro _)

theorem doVpark_otp (p : Nat) (s : State) : (doVpark p s).otp = s.otp := by
  unfold doVpark
  repeat' (first | with_reducible rfl | with_reducible refine ite2_otp ?_ ?_ | with_reducible refine (State.dFlag_otp ..).trans ?_ | simp only [mk_otp] | dsimp only | split | intro _)

theorem doComplianceSet_otp (c : Nat) (s : State) : (doComplianceSet c s).otp = s.otp := by
  unfold doComplianceSet
  repeat' (first | with_reducible rfl | with_reducible refine ite2_otp ?_ ?_ | with_reducible refine (State.dFlag_otp ..).trans ?_ | simp only [mk_otp] | dsimp only | split | intro _)

theorem doComplianceClear_otp (c : Nat) (s : State) : (doComplianceClear c s).otp = s.otp := by
  unfold doComplianceClear
  repeat' (first | with_reducible rfl | with_reducible refine ite2_otp ?_ ?_ | with_reducible refine (State.dPut_otp ..).trans ?_ | simp only [mk_otp] | dsimp only | split | intro _)

theorem State.writeFlockCfg_otp (s : State) (f : Nat) (v : Word) : (State.writeFlockCfg s f v).otp = s.otp := by
  unfold State.writeFlockCfg
  repeat' (first | with_reducible rfl | with_reducible refine ite2_otp ?_ ?_ | with_reducible refine (foldl_otp _ _ _ ?_).trans ?_ | with_reducible refine (State.dPut_otp ..).trans ?_ | with_reducible refine (State.dFlag_otp ..).trans ?_ | with_reducible refine (State.takeForced_otp ..).trans ?_ | simp only [mk_otp] | dsimp only | split | intro _)

theorem State.countOver_otp (s : State) (m c : Nat) : (State.countOver s m c).otp = s.otp := by
  unfold State.countOver
  repeat' (first | with_reducible rfl | with_reducible refine ite2_otp ?_ ?_ | with_reducible refine (State.dPut_otp ..).trans ?_ | with_reducible refine (State.modSense_otp ..).trans ?_ | simp only [mk_otp] | dsimp only | split | intro _)

theorem State.formFrames_otp (s : State) (t : Nat) : (State.formFrames s t).otp = s.otp := by
  unfold State.formFrames
  repeat' (first | with_reducible rfl | with_reducible refine ite2_otp ?_ ?_ | with_reducible refine (foldl_otp _ _ _ ?_).trans ?_ | with_reducible refine (both_otp _ _ ?_).trans ?_ | with_reducible refine (State.modSh_otp ..).trans ?_ | with_reducible refine (State.countOver_otp ..).trans ?_ | simp only [mk_otp] | dsimp only | split | intro _)

theorem doSenseOver_otp (m : Nat) (s : State) : (doSenseOver m s).otp = s.otp := by
  unfold doSenseOver
  repeat' (first | with_reducible rfl | with_reducible refine ite2_otp ?_ ?_ | with_reducible refine (State.dFlag_otp ..).trans ?_ | with_reducible refine (State.modSense_otp ..).trans ?_ | with_reducible refine (State.alarm_otp ..).trans ?_ | simp only [mk_otp] | dsimp only | split | intro _)

theorem State.modDemod_otp (s : State) (x : Shep) (c : Nat) (f : Demod → Demod) : (State.modDemod s x c f).otp = s.otp := by
  unfold State.modDemod
  repeat' (first | with_reducible rfl | with_reducible refine ite2_otp ?_ ?_ | with_reducible refine (State.modSh_otp ..).trans ?_ | simp only [mk_otp] | dsimp only | split | intro _)

theorem State.accumulate_otp (s : State) (x : Shep) (m t : Nat) : (State.accumulate s x m t).otp = s.otp := by
  unfold State.accumulate
  repeat' (first | with_reducible rfl | with_reducible refine ite2_otp ?_ ?_ | with_reducible refine (foldl_otp _ _ _ ?_).trans ?_ | with_reducible refine (State.modDemod_otp ..).trans ?_ | simp only [mk_otp] | dsimp only | split | intro _)

theorem State.takeFrame_otp (s : State) (x : Shep) (p : Nat) (f : SenseFrame) : (State.takeFrame s x p f).otp = s.otp := by
  unfold State.takeFrame
  repeat' (first | with_reducible rfl | with_reducible refine ite2_otp ?_ ?_ | with_reducible refine (foldl_otp _ _ _ ?_).trans ?_ | with_reducible refine (State.modSh_otp ..).trans ?_ | with_reducible refine (State.accumulate_otp ..).trans ?_ | simp only [mk_otp] | dsimp only | split | intro _)

theorem takeCounts_otp (x : Shep) (p : Nat) (f : SenseFrame) (s : State) : (takeCounts x p f s).otp = s.otp := by
  unfold takeCounts
  repeat' (first | with_reducible rfl | with_reducible refine ite2_otp ?_ ?_ | with_reducible refine (State.takeFrame_otp ..).trans ?_ | simp only [mk_otp] | dsimp only | split | intro _)

theorem voidCounts_otp (x : Shep) (p : Nat) (s : State) : (voidCounts x p s).otp = s.otp := by
  unfold voidCounts
  repeat' (first | with_reducible rfl | with_reducible refine ite2_otp ?_ ?_ | with_reducible refine (State.pCount_otp ..).trans ?_ | with_reducible refine (State.noticeLocal_otp ..).trans ?_ | with_reducible refine (State.takeFrame_otp ..).trans ?_ | simp only [mk_otp] | dsimp only | split | intro _)

theorem State.ditherEnd_otp (s : State) (t : Nat) : (State.ditherEnd s t).otp = s.otp := by
  unfold State.ditherEnd
  repeat' (first | with_reducible rfl | with_reducible refine ite2_otp ?_ ?_ | with_reducible refine (foldl_otp _ _ _ ?_).trans ?_ | with_reducible refine (State.spoilTick_otp ..).trans ?_ | simp only [mk_otp] | dsimp only | split | intro _)

theorem State.ditherFlags_otp (s : State) : (State.ditherFlags s).otp = s.otp := by
  unfold State.ditherFlags
  repeat' (first | with_reducible rfl | with_reducible refine ite2_otp ?_ ?_ | with_reducible refine (foldl_otp _ _ _ ?_).trans ?_ | with_reducible refine (State.dPut_otp ..).trans ?_ | with_reducible refine (State.spoil_otp ..).trans ?_ | with_reducible refine (State.turnCode_otp ..).trans ?_ | simp only [mk_otp] | dsimp only | split | intro _)

theorem doWindowResult_otp (x : Shep) (m : Nat) (s : State) : (doWindowResult x m s).otp = s.otp := by
  unfold doWindowResult
  repeat' (first | with_reducible rfl | with_reducible refine ite2_otp ?_ ?_ | with_reducible refine (foldl_otp _ _ _ ?_).trans ?_ | with_reducible refine (State.dPut_otp ..).trans ?_ | with_reducible refine (State.modDemod_otp ..).trans ?_ | simp only [mk_otp] | dsimp only | split | intro _)

theorem State.evalCollisions_otp (s : State) : (State.evalCollisions s).otp = s.otp := by
  unfold State.evalCollisions
  repeat' (first | with_reducible rfl | with_reducible refine ite2_otp ?_ ?_ | with_reducible refine (foldl_otp _ _ _ ?_).trans ?_ | with_reducible refine (State.dFlag_otp ..).trans ?_ | with_reducible refine (State.modSense_otp ..).trans ?_ | with_reducible refine (State.notice_otp ..).trans ?_ | with_reducible refine (State.spoil_otp ..).trans ?_ | simp only [mk_otp] | dsimp only | split | intro _)

theorem State.endCollisions_otp (s : State) : (State.endCollisions s).otp = s.otp := by
  unfold State.endCollisions
  repeat' (first | with_reducible rfl | with_reducible refine ite2_otp ?_ ?_ | with_reducible refine (foldl_otp _ _ _ ?_).trans ?_ | with_reducible refine (State.modSense_otp ..).trans ?_ | simp only [mk_otp] | dsimp only | split | intro _)

theorem State.collisionBoundary_otp (s : State) : (State.collisionBoundary s).otp = s.otp := by
  unfold State.collisionBoundary
  repeat' (first | with_reducible rfl | with_reducible refine ite2_otp ?_ ?_ | with_reducible refine (State.evalCollisions_otp ..).trans ?_ | with_reducible refine (State.endCollisions_otp ..).trans ?_ | simp only [mk_otp] | dsimp only | split | intro _)

theorem State.assignCodes_otp (s : State) (es : List Elem) : (State.assignCodes s es).otp = s.otp := by
  unfold State.assignCodes
  repeat' (first | with_reducible rfl | with_reducible refine ite2_otp ?_ ?_ | with_reducible refine (foldl_otp _ _ _ ?_).trans ?_ | with_reducible refine (State.dPut_otp ..).trans ?_ | with_reducible refine (State.dFlag_otp ..).trans ?_ | with_reducible refine (State.notice_otp ..).trans ?_ | with_reducible refine (State.spoil_otp ..).trans ?_ | simp only [mk_otp] | dsimp only | split | intro _)

theorem State.startMeasure_otp (s : State) (m : Nat) : (State.startMeasure s m).otp = s.otp := by
  unfold State.startMeasure
  repeat' (first | with_reducible rfl | with_reducible refine ite2_otp ?_ ?_ | with_reducible refine (State.modSense_otp ..).trans ?_ | simp only [mk_otp] | dsimp only | split | intro _)

theorem State.spoilMon_otp (s : State) (m : Nat) : (State.spoilMon s m).otp = s.otp := by
  unfold State.spoilMon
  repeat' (first | with_reducible rfl | with_reducible refine ite2_otp ?_ ?_ | with_reducible refine (foldl_otp _ _ _ ?_).trans ?_ | with_reducible refine (State.spoil_otp ..).trans ?_ | simp only [mk_otp] | dsimp only | split | intro _)

theorem State.storeSns_otp (s : State) (m : Nat) (v : Word) : (State.storeSns s m v).otp = s.otp := by
  unfold State.storeSns
  repeat' (first | with_reducible rfl | with_reducible refine ite2_otp ?_ ?_ | with_reducible refine (State.dPut_otp ..).trans ?_ | simp only [mk_otp] | dsimp only | split | intro _)

theorem State.newDark_otp (s : State) (m : Nat) (a b : Bool) : (State.newDark s m a b).otp = s.otp := by
  unfold State.newDark
  repeat' (first | with_reducible rfl | with_reducible refine ite2_otp ?_ ?_ | with_reducible refine (State.dPut_otp ..).trans ?_ | simp only [mk_otp] | dsimp only | split | intro _)

theorem State.newSamples_otp (s : State) (m : Nat) (a b : Bool) (w : Nat) : (State.newSamples s m a b w).otp = s.otp := by
  unfold State.newSamples
  repeat' (first | with_reducible rfl | with_reducible refine ite2_otp ?_ ?_ | with_reducible refine (State.modSense_otp ..).trans ?_ | with_reducible refine (State.spoilMon_otp ..).trans ?_ | simp only [mk_otp] | dsimp only | split | intro _)

theorem State.inputSettles_otp (s : State) (m : Nat) (a b c : Bool) : (State.inputSettles s m a b c).otp = s.otp := by
  unfold State.inputSettles
  repeat' (first | with_reducible rfl | with_reducible refine ite2_otp ?_ ?_ | with_reducible refine (State.modSense_otp ..).trans ?_ | with_reducible refine (State.startMeasure_otp ..).trans ?_ | simp only [mk_otp] | dsimp only | split | intro _)

theorem State.writeSnsCtrl_otp (s : State) (m : Nat) (v : Word) : (State.writeSnsCtrl s m v).otp = s.otp := by
  unfold State.writeSnsCtrl
  repeat' (first | with_reducible rfl | with_reducible refine ite2_otp ?_ ?_ | with_reducible refine (State.inputSettles_otp ..).trans ?_ | with_reducible refine (State.newSamples_otp ..).trans ?_ | with_reducible refine (State.newDark_otp ..).trans ?_ | with_reducible refine (State.storeSns_otp ..).trans ?_ | with_reducible refine (State.dFlag_otp ..).trans ?_ | simp only [mk_otp] | dsimp only | split | intro _)

theorem State.writeDither_otp (s : State) (c : Nat) (v : Word) : (State.writeDither s c v).otp = s.otp := by
  unfold State.writeDither
  repeat' (first | with_reducible rfl | with_reducible refine ite2_otp ?_ ?_ | with_reducible refine (State.dPut_otp ..).trans ?_ | with_reducible refine (State.spoil_otp ..).trans ?_ | simp only [mk_otp] | dsimp only | split | intro _)

theorem doVoidEnd_otp (m : Nat) (s : State) : (doVoidEnd m s).otp = s.otp := by
  unfold doVoidEnd
  repeat' (first | with_reducible rfl | with_reducible refine ite2_otp ?_ ?_ | with_reducible refine (State.modSense_otp ..).trans ?_ | simp only [mk_otp] | dsimp only | split | intro _)

theorem doDarkDone_otp (m sum : Nat) (s : State) : (doDarkDone m sum s).otp = s.otp := by
  unfold doDarkDone
  repeat' (first | with_reducible rfl | with_reducible refine ite2_otp ?_ ?_ | with_reducible refine (State.dPut_otp ..).trans ?_ | with_reducible refine (State.modSense_otp ..).trans ?_ | with_reducible refine (State.spoilMon_otp ..).trans ?_ | simp only [mk_otp] | dsimp only | split | intro _)

theorem State.modDyn_otp (s : State) (x : Shep) (c : Nat) (f : ChDyn → ChDyn) : (State.modDyn s x c f).otp = s.otp := by
  unfold State.modDyn
  repeat' (first | with_reducible rfl | with_reducible refine ite2_otp ?_ ?_ | with_reducible refine (State.modSh_otp ..).trans ?_ | simp only [mk_otp] | dsimp only | split | intro _)

theorem State.setDir_otp (s : State) (x : Shep) (c : Nat) (d : Bool × Nat) : (State.setDir s x c d).otp = s.otp := by
  unfold State.setDir
  repeat' (first | with_reducible rfl | with_reducible refine ite2_otp ?_ ?_ | with_reducible refine (State.pPut_otp ..).trans ?_ | with_reducible refine (State.modDyn_otp ..).trans ?_ | simp only [mk_otp] | dsimp only | split | intro _)

theorem compensate_otp (s : State) (x : Shep) (c pos : Nat) : (compensate s x c pos).1.otp = s.otp := by
  unfold compensate
  repeat' (first | with_reducible rfl | with_reducible refine ite2_otp ?_ ?_ | with_reducible refine (State.pPut_otp ..).trans ?_ | with_reducible refine (State.setDir_otp ..).trans ?_ | simp only [mk_otp] | dsimp only | split | intro _)

theorem State.formPower_otp (s : State) : (State.formPower s).otp = s.otp := by
  unfold State.formPower
  repeat' (first | with_reducible rfl | with_reducible refine ite2_otp ?_ ?_ | with_reducible refine (foldl_otp _ _ _ ?_).trans ?_ | simp only [mk_otp] | dsimp only | split | intro _)

theorem State.takePower_otp (s : State) (x : Shep) (p : Nat) : (State.takePower s x p).otp = s.otp := by
  unfold State.takePower
  repeat' (first | with_reducible rfl | with_reducible refine ite2_otp ?_ ?_ | with_reducible refine (foldl_otp _ _ _ ?_).trans ?_ | with_reducible refine (State.modSh_otp ..).trans ?_ | simp only [mk_otp] | dsimp only | split | intro _)

theorem State.missPower_otp (s : State) (x : Shep) (p : Nat) : (State.missPower s x p).otp = s.otp := by
  unfold State.missPower
  repeat' (first | with_reducible rfl | with_reducible refine ite2_otp ?_ ?_ | with_reducible refine (State.modSh_otp ..).trans ?_ | simp only [mk_otp] | dsimp only | split | intro _)

theorem doSenseFrame_otp (x : Shep) (p : Nat) (noise : Noise) (s : State) : (doSenseFrame x p noise s).otp = s.otp := by
  unfold doSenseFrame
  repeat' (first | with_reducible rfl | with_reducible refine ite2_otp ?_ ?_ | with_reducible refine (takeCounts_otp ..).trans ?_ | with_reducible refine (State.takePower_otp ..).trans ?_ | simp only [mk_otp] | dsimp only | split | intro _)

theorem doSenseDeadline_otp (x : Shep) (p : Nat) (s : State) : (doSenseDeadline x p s).otp = s.otp := by
  unfold doSenseDeadline
  repeat' (first | with_reducible rfl | with_reducible refine ite2_otp ?_ ?_ | with_reducible refine (State.modSh_otp ..).trans ?_ | with_reducible refine (voidCounts_otp ..).trans ?_ | with_reducible refine (State.missPower_otp ..).trans ?_ | simp only [mk_otp] | dsimp only | split | intro _)

theorem State.sumPower_otp (s : State) (x : Shep) : (State.sumPower s x).otp = s.otp := by
  unfold State.sumPower
  repeat' (first | with_reducible rfl | with_reducible refine ite2_otp ?_ ?_ | with_reducible refine (foldl_otp _ _ _ ?_).trans ?_ | with_reducible refine (State.modSh_otp ..).trans ?_ | simp only [mk_otp] | dsimp only | split | intro _)

theorem State.putCoef_otp (s : State) (x : Shep) (u : XtUpd) : (State.putCoef s x u).otp = s.otp := by
  unfold State.putCoef
  repeat' (first | with_reducible rfl | with_reducible refine ite2_otp ?_ ?_ | with_reducible refine (State.wr_otp ..).trans ?_ | with_reducible refine (State.pPut_otp ..).trans ?_ | simp only [mk_otp] | dsimp only | split | intro _)

theorem State.drain_otp (s : State) (x : Shep) : (State.drain s x).otp = s.otp := by
  unfold State.drain
  repeat' (first | with_reducible rfl | with_reducible refine ite2_otp ?_ ?_ | with_reducible refine (foldl_otp _ _ _ ?_).trans ?_ | with_reducible refine (State.modSh_otp ..).trans ?_ | with_reducible refine (State.putCoef_otp ..).trans ?_ | simp only [mk_otp] | dsimp only | split | intro _)

theorem State.queueCoef_otp (s : State) (entry coef : Nat) : (State.queueCoef s entry coef).otp = s.otp := by
  unfold State.queueCoef
  repeat' (first | with_reducible rfl | with_reducible refine ite2_otp ?_ ?_ | with_reducible refine (both_otp _ _ ?_).trans ?_ | with_reducible refine (State.modSh_otp ..).trans ?_ | with_reducible refine (State.pFlag_otp ..).trans ?_ | with_reducible refine (State.notice_otp ..).trans ?_ | simp only [mk_otp] | dsimp only | split | intro _)

theorem State.stopPass_otp (s : State) (x : Shep) : (State.stopPass s x).otp = s.otp := by
  unfold State.stopPass
  repeat' (first | with_reducible rfl | with_reducible refine ite2_otp ?_ ?_ | with_reducible refine (State.pPut_otp ..).trans ?_ | with_reducible refine (State.modSh_otp ..).trans ?_ | simp only [mk_otp] | dsimp only | split | intro _)

theorem State.stopPasses_otp (s : State) : (State.stopPasses s).otp = s.otp := by
  unfold State.stopPasses
  repeat' (first | with_reducible rfl | with_reducible refine ite2_otp ?_ ?_ | with_reducible refine (both_otp _ _ ?_).trans ?_ | with_reducible refine (State.stopPass_otp ..).trans ?_ | simp only [mk_otp] | dsimp only | split | intro _)

theorem State.latch_otp (s : State) (x : Shep) : (State.latch s x).otp = s.otp := by
  unfold State.latch
  repeat' (first | with_reducible rfl | with_reducible refine ite2_otp ?_ ?_ | with_reducible refine (foldl_otp _ _ _ ?_).trans ?_ | with_reducible refine (State.modSh_otp ..).trans ?_ | simp only [mk_otp] | dsimp only | split | intro _)

theorem State.modFit_otp (s : State) (x : Shep) (f : FitSt → FitSt) : (State.modFit s x f).otp = s.otp := by
  unfold State.modFit
  repeat' (first | with_reducible rfl | with_reducible refine ite2_otp ?_ ?_ | with_reducible refine (State.modSh_otp ..).trans ?_ | simp only [mk_otp] | dsimp only | split | intro _)

theorem State.fitRoom_otp (s : State) (x : Shep) : (State.fitRoom s x).otp = s.otp := by
  unfold State.fitRoom
  repeat' (first | with_reducible rfl | with_reducible refine ite2_otp ?_ ?_ | with_reducible refine (State.pPut_otp ..).trans ?_ | with_reducible refine (State.noticeLocal_otp ..).trans ?_ | simp only [mk_otp] | dsimp only | split | intro _)

theorem State.fitCover_otp (s : State) (x : Shep) (enabled : Bool) : (State.fitCover s x enabled).otp = s.otp := by
  unfold State.fitCover
  repeat' (first | with_reducible rfl | with_reducible refine ite2_otp ?_ ?_ | with_reducible refine (foldl_otp _ _ _ ?_).trans ?_ | with_reducible refine (both_otp _ _ ?_).trans ?_ | with_reducible refine (State.pPut_otp ..).trans ?_ | simp only [mk_otp] | dsimp only | split | intro _)

theorem fitOne_otp (x : Shep) (acc : State × Nat) (e : Nat × Nat × List Nat) : (fitOne x acc e).1.otp = acc.1.otp := by
  obtain ⟨s, left⟩ := acc
  obtain ⟨v, base, l⟩ := e
  unfold fitOne
  repeat' (first | with_reducible rfl | with_reducible refine ite2_otp ?_ ?_ | with_reducible refine (both_otp _ _ ?_).trans ?_ | with_reducible refine (State.modSh_otp ..).trans ?_ | with_reducible refine (State.pFlag_otp ..).trans ?_ | with_reducible refine (State.pCount_otp ..).trans ?_ | with_reducible refine (State.modFit_otp ..).trans ?_ | with_reducible refine (State.fitRoom_otp ..).trans ?_ | simp only [mk_otp] | dsimp only | split | intro _)

theorem State.runFit_otp (s : State) (x : Shep) : (State.runFit s x).otp = s.otp := by
  unfold State.runFit
  repeat' (first | with_reducible rfl | with_reducible refine ite2_otp ?_ ?_ | with_reducible refine (foldl_otp_fst _ _ _ fun r a => fitOne_otp ..).trans ?_ | with_reducible refine (foldl_otp _ _ _ ?_).trans ?_ | with_reducible refine (State.pPut_otp ..).trans ?_ | with_reducible refine (State.modFit_otp ..).trans ?_ | with_reducible refine (State.fitRoom_otp ..).trans ?_ | with_reducible refine (State.fitCover_otp ..).trans ?_ | simp only [mk_otp] | dsimp only | split | intro _)

theorem doPassStart_otp (x : Shep) (frame : State → State) (s : State) (h : ∀ s, (frame s).otp = s.otp) : (doPassStart x frame s).otp = s.otp := by
  unfold doPassStart
  dsimp only
  split
  · refine (State.modSh_otp ..).trans ((State.runFit_otp ..).trans ((h _).trans ((State.latch_otp ..).trans ((State.drain_otp ..).trans ?_))))
    split
    · exact (State.modSh_otp ..).trans (State.pPut_otp ..)
    · rfl
  · rfl

theorem State.fitExclude_otp (s : State) (x : Shep) (v : Nat) : (State.fitExclude s x v).otp = s.otp := by
  unfold State.fitExclude
  repeat' (first | with_reducible rfl | with_reducible refine ite2_otp ?_ ?_ | with_reducible refine (State.modFit_otp ..).trans ?_ | simp only [mk_otp] | dsimp only | split | intro _)

theorem State.fitRecord_otp (s : State) (x : Shep) (v : Nat) (code? : Option Nat) : (State.fitRecord s x v code?).otp = s.otp := by
  unfold State.fitRecord
  repeat' (first | with_reducible rfl | with_reducible refine ite2_otp ?_ ?_ | with_reducible refine (State.modFit_otp ..).trans ?_ | simp only [mk_otp] | dsimp only | split | intro _)

theorem State.fitTick_otp (s : State) (x : Shep) (running : Nat → Bool) : (State.fitTick s x running).otp = s.otp := by
  unfold State.fitTick
  repeat' (first | with_reducible rfl | with_reducible refine ite2_otp ?_ ?_ | with_reducible refine (foldl_otp _ _ _ ?_).trans ?_ | with_reducible refine (State.fitExclude_otp ..).trans ?_ | simp only [mk_otp] | dsimp only | split | intro _)

theorem State.extendPass_otp (s : State) (x : Shep) (n0 : Nat) : (State.extendPass s x n0).otp = s.otp := by
  unfold State.extendPass
  repeat' (first | with_reducible rfl | with_reducible refine ite2_otp ?_ ?_ | with_reducible refine (State.pPut_otp ..).trans ?_ | with_reducible refine (State.modSh_otp ..).trans ?_ | with_reducible refine (State.pFlag_otp ..).trans ?_ | with_reducible refine (State.noticeLocal_otp ..).trans ?_ | simp only [mk_otp] | dsimp only | split | intro _)

theorem doPassDone_otp (x : Shep) (s : State) : (doPassDone x s).otp = s.otp := by
  unfold doPassDone
  repeat' (first | with_reducible rfl | with_reducible refine ite2_otp ?_ ?_ | with_reducible refine (State.pPut_otp ..).trans ?_ | with_reducible refine (State.modSh_otp ..).trans ?_ | with_reducible refine (State.extendPass_otp ..).trans ?_ | simp only [mk_otp] | dsimp only | split | intro _)

theorem doTermsInForce_otp (x : Shep) (s : State) : (doTermsInForce x s).otp = s.otp := by
  unfold doTermsInForce
  repeat' (first | with_reducible rfl | with_reducible refine ite2_otp ?_ ?_ | with_reducible refine (foldl_otp _ _ _ ?_).trans ?_ | with_reducible refine (State.pPut_otp ..).trans ?_ | with_reducible refine (State.modSh_otp ..).trans ?_ | with_reducible refine (State.pFlag_otp ..).trans ?_ | with_reducible refine (State.extendPass_otp ..).trans ?_ | simp only [mk_otp] | dsimp only | split | intro _)

theorem State.writeWinSel_otp (s : State) (x : Shep) (v : Word) : (State.writeWinSel s x v).otp = s.otp := by
  unfold State.writeWinSel
  repeat' (first | with_reducible rfl | with_reducible refine ite2_otp ?_ ?_ | with_reducible refine (State.pPut_otp ..).trans ?_ | with_reducible refine (State.pFlag_otp ..).trans ?_ | simp only [mk_otp] | dsimp only | split | intro _)

theorem State.cmpWord_otp (s : State) (c off : Nat) (v : Word) : (State.cmpWord s c off v).otp = s.otp := by
  unfold State.cmpWord
  repeat' (first | with_reducible rfl | with_reducible refine ite2_otp ?_ ?_ | with_reducible refine (both_otp _ _ ?_).trans ?_ | with_reducible refine (State.sWr_otp ..).trans ?_ | with_reducible refine (State.fitExclude_otp ..).trans ?_ | simp only [mk_otp] | dsimp only | split | intro _)

theorem State.writeRipCfg_otp (s : State) (c : Nat) (v : Word) : (State.writeRipCfg s c v).otp = s.otp := by
  unfold State.writeRipCfg
  repeat' (first | with_reducible rfl | with_reducible refine ite2_otp ?_ ?_ | with_reducible refine (both_otp _ _ ?_).trans ?_ | with_reducible refine (State.pFlag_otp ..).trans ?_ | with_reducible refine (State.cmpWord_otp ..).trans ?_ | simp only [mk_otp] | dsimp only | split | intro _)

theorem State.writeCmpCtrl_otp (s : State) (c : Nat) (v : Word) : (State.writeCmpCtrl s c v).otp = s.otp := by
  unfold State.writeCmpCtrl
  repeat' (first | with_reducible rfl | with_reducible refine ite2_otp ?_ ?_ | with_reducible refine (State.cmpWord_otp ..).trans ?_ | simp only [mk_otp] | dsimp only | split | intro _)

theorem State.writeCmpPeriod_otp (s : State) (v : Word) : (State.writeCmpPeriod s v).otp = s.otp := by
  unfold State.writeCmpPeriod
  repeat' (first | with_reducible rfl | with_reducible refine ite2_otp ?_ ?_ | with_reducible refine (both_otp _ _ ?_).trans ?_ | with_reducible refine (State.modSh_otp ..).trans ?_ | with_reducible refine (State.pFlag_otp ..).trans ?_ | simp only [mk_otp] | dsimp only | split | intro _)

theorem State.applyStage_otp (s : State) (v : Word) : (State.applyStage s v).otp = s.otp := by
  unfold State.applyStage
  repeat' (first | with_reducible rfl | with_reducible refine ite2_otp ?_ ?_ | with_reducible refine (foldl_otp _ _ _ ?_).trans ?_ | with_reducible refine (both_otp _ _ ?_).trans ?_ | with_reducible refine (State.pFlag_otp ..).trans ?_ | with_reducible refine (State.notice_otp ..).trans ?_ | with_reducible refine (State.queueCoef_otp ..).trans ?_ | with_reducible refine (State.cmpWord_otp ..).trans ?_ | with_reducible refine (State.writeRipCfg_otp ..).trans ?_ | with_reducible refine (State.writeCmpCtrl_otp ..).trans ?_ | simp only [mk_otp] | dsimp only | split | intro _)

theorem State.writeStageCtrl_otp (s : State) (v : Word) : (State.writeStageCtrl s v).otp = s.otp := by
  unfold State.writeStageCtrl
  repeat' (first | with_reducible rfl | with_reducible refine ite2_otp ?_ ?_ | with_reducible refine (State.sWr_otp ..).trans ?_ | with_reducible refine (State.applyStage_otp ..).trans ?_ | simp only [mk_otp] | dsimp only | split | intro _)

theorem State.writeFitCtrl_otp (s : State) (v : Word) : (State.writeFitCtrl s v).otp = s.otp := by
  unfold State.writeFitCtrl
  repeat' (first | with_reducible rfl | with_reducible refine ite2_otp ?_ ?_ | with_reducible refine (both_otp _ _ ?_).trans ?_ | with_reducible refine (State.sWr_otp ..).trans ?_ | with_reducible refine (State.pFlag_otp ..).trans ?_ | simp only [mk_otp] | dsimp only | split | intro _)

theorem State.writeFitBudget_otp (s : State) (v : Word) : (State.writeFitBudget s v).otp = s.otp := by
  unfold State.writeFitBudget
  repeat' (first | with_reducible rfl | with_reducible refine ite2_otp ?_ ?_ | with_reducible refine (both_otp _ _ ?_).trans ?_ | with_reducible refine (State.sWr_otp ..).trans ?_ | with_reducible refine (State.pFlag_otp ..).trans ?_ | simp only [mk_otp] | dsimp only | split | intro _)

theorem State.layMatrix_otp (s : State) (kept : List (Nat × Nat)) : (State.layMatrix s kept).otp = s.otp := by
  unfold State.layMatrix
  repeat' (first | with_reducible rfl | with_reducible refine ite2_otp ?_ ?_ | with_reducible refine (foldl_otp _ _ _ ?_).trans ?_ | with_reducible refine (both_otp _ _ ?_).trans ?_ | with_reducible refine (foldl_otp_fst _ _ _ ?_).trans ?_ | with_reducible refine (foldl_otp_snd _ _ _ ?_).trans ?_ | with_reducible refine (State.wr_otp ..).trans ?_ | with_reducible refine (State.dropRegs_otp ..).trans ?_ | with_reducible refine (State.modSh_otp ..).trans ?_ | simp only [mk_otp] | dsimp only | split | intro _)

theorem State.resetComp_otp (s : State) : (State.resetComp s).otp = s.otp := by
  unfold State.resetComp
  repeat' (first | with_reducible rfl | with_reducible refine ite2_otp ?_ ?_ | with_reducible refine (both_otp _ _ ?_).trans ?_ | with_reducible refine (State.dropRegs_otp ..).trans ?_ | with_reducible refine (State.modSh_otp ..).trans ?_ | with_reducible refine (State.stopPass_otp ..).trans ?_ | with_reducible refine (State.layMatrix_otp ..).trans ?_ | simp only [mk_otp] | dsimp only | split | intro _)

theorem State.resetCompDom_otp (s : State) (cs : List Nat) (kept : List (Nat × Nat)) : (State.resetCompDom s cs kept).otp = s.otp := by
  unfold State.resetCompDom
  repeat' (first | with_reducible rfl | with_reducible refine ite2_otp ?_ ?_ | with_reducible refine (foldl_otp _ _ _ ?_).trans ?_ | with_reducible refine (both_otp _ _ ?_).trans ?_ | with_reducible refine (foldl_otp_fst _ _ _ ?_).trans ?_ | with_reducible refine (foldl_otp_snd _ _ _ ?_).trans ?_ | with_reducible refine (State.dropRegs_otp ..).trans ?_ | with_reducible refine (State.modSh_otp ..).trans ?_ | with_reducible refine (State.modDyn_otp ..).trans ?_ | with_reducible refine (State.layMatrix_otp ..).trans ?_ | simp only [mk_otp] | dsimp only | split | intro _)

theorem evalCmp_otp (s : State) (x : Shep) (c k : Nat) : (evalCmp s x c k).otp = s.otp := by
  unfold evalCmp
  repeat' (first | with_reducible rfl | with_reducible refine ite2_otp ?_ ?_ | with_reducible refine (State.pPut_otp ..).trans ?_ | with_reducible refine (State.modSh_otp ..).trans ?_ | simp only [mk_otp] | dsimp only | split | intro _)

theorem runsAfter_otp (s : State) (x : Shep) (c : Nat) (sat : Bool) : (runsAfter s x c sat).otp = s.otp := by
  unfold runsAfter
  repeat' (first | with_reducible rfl | with_reducible refine ite2_otp ?_ ?_ | with_reducible refine (State.modDyn_otp ..).trans ?_ | simp only [mk_otp] | dsimp only | split | intro _)

theorem repeatDemand_otp (s : State) (x : Shep) (c : Nat) : (repeatDemand s x c).1.otp = s.otp := by
  unfold repeatDemand
  repeat' (first | with_reducible rfl | with_reducible refine ite2_otp ?_ ?_ | with_reducible refine (compensate_otp ..).trans ?_ | simp only [mk_otp] | dsimp only | split | intro _)

theorem putResult_otp (s : State) (x : Shep) (c : Nat) (d : Int) (w : Nat) (sat : Bool × Bool) (noIn : Bool) : (putResult s x c d w sat noIn).otp = s.otp := by
  unfold putResult
  repeat' (first | with_reducible rfl | with_reducible refine ite2_otp ?_ ?_ | with_reducible refine (foldl_otp _ _ _ ?_).trans ?_ | with_reducible refine (foldl_otp_fst _ _ _ ?_).trans ?_ | with_reducible refine (foldl_otp_snd _ _ _ ?_).trans ?_ | with_reducible refine (State.pPut_otp ..).trans ?_ | simp only [mk_otp] | dsimp only | split | intro _)

theorem evalLoop_otp (s : State) (x : Shep) (done : List Nat) (c : Nat) : (evalLoop s x done c).1.otp = s.otp := by
  unfold evalLoop
  repeat' (first | with_reducible rfl | with_reducible refine ite2_otp ?_ ?_ | with_reducible refine (State.wr_otp ..).trans ?_ | with_reducible refine (State.pPut_otp ..).trans ?_ | with_reducible refine (State.modDemod_otp ..).trans ?_ | with_reducible refine (State.modDyn_otp ..).trans ?_ | with_reducible refine (compensate_otp ..).trans ?_ | with_reducible refine (State.fitExclude_otp ..).trans ?_ | with_reducible refine (runsAfter_otp ..).trans ?_ | with_reducible refine (putResult_otp ..).trans ?_ | simp only [mk_otp] | dsimp only | split | intro _)

theorem State.capTick_otp (s : State) : (State.capTick s).otp = s.otp := by
  unfold State.capTick
  repeat' (first | with_reducible rfl | with_reducible refine ite2_otp ?_ ?_ | with_reducible refine (both_otp _ _ ?_).trans ?_ | with_reducible refine (State.modSh_otp ..).trans ?_ | simp only [mk_otp] | dsimp only | split | intro _)

theorem evalLoops_otp (x : Shep) (cap : Nat) (s : State) : (evalLoops x cap s).otp = s.otp := by
  unfold evalLoops
  repeat' (first | with_reducible rfl | with_reducible refine ite2_otp ?_ ?_ | with_reducible refine (foldl_otp _ _ _ ?_).trans ?_ | with_reducible refine (foldl_otp_fst _ _ _ ?_).trans ?_ | with_reducible refine (foldl_otp_snd _ _ _ ?_).trans ?_ | with_reducible refine (State.pPut_otp ..).trans ?_ | with_reducible refine (State.modSh_otp ..).trans ?_ | with_reducible refine (State.pFlag_otp ..).trans ?_ | with_reducible refine (State.pCount_otp ..).trans ?_ | with_reducible refine (State.noticeLocal_otp ..).trans ?_ | with_reducible refine (State.resume_otp ..).trans ?_ | with_reducible refine (State.sumPower_otp ..).trans ?_ | with_reducible refine (State.fitTick_otp ..).trans ?_ | with_reducible refine (evalCmp_otp ..).trans ?_ | with_reducible refine (repeatDemand_otp ..).trans ?_ | with_reducible refine (evalLoop_otp ..).trans ?_ | simp only [mk_otp] | dsimp only | split | intro _)

theorem doLoopOverrun_otp (x : Shep) (s : State) : (doLoopOverrun x s).otp = s.otp := by
  unfold doLoopOverrun
  repeat' (first | with_reducible rfl | with_reducible refine ite2_otp ?_ ?_ | with_reducible refine (State.alarm_otp ..).trans ?_ | simp only [mk_otp] | dsimp only | split | intro _)

theorem doSettlingEnd_otp (c : Nat) (s : State) : (doSettlingEnd c s).otp = s.otp := by
  unfold doSettlingEnd
  repeat' (first | with_reducible rfl | with_reducible refine ite2_otp ?_ ?_ | with_reducible refine (both_otp _ _ ?_).trans ?_ | with_reducible refine (State.modDyn_otp ..).trans ?_ | simp only [mk_otp] | dsimp only | split | intro _)

theorem doLoopSat_otp (c : Nat) (s : State) : (doLoopSat c s).otp = s.otp := by
  unfold doLoopSat
  repeat' (first | with_reducible rfl | with_reducible refine ite2_otp ?_ ?_ | with_reducible refine (both_otp _ _ ?_).trans ?_ | with_reducible refine (State.alarm_otp ..).trans ?_ | with_reducible refine (State.modDyn_otp ..).trans ?_ | simp only [mk_otp] | dsimp only | split | intro _)

theorem doLoopError_otp (c : Nat) (s : State) : (doLoopError c s).otp = s.otp := by
  unfold doLoopError
  repeat' (first | with_reducible rfl | with_reducible refine ite2_otp ?_ ?_ | with_reducible refine (both_otp _ _ ?_).trans ?_ | with_reducible refine (State.alarm_otp ..).trans ?_ | with_reducible refine (State.modDyn_otp ..).trans ?_ | simp only [mk_otp] | dsimp only | split | intro _)

theorem State.seedLoop_otp (s : State) (c p : Nat) : (State.seedLoop s c p).otp = s.otp := by
  unfold State.seedLoop
  repeat' (first | with_reducible rfl | with_reducible refine ite2_otp ?_ ?_ | with_reducible refine (foldl_otp _ _ _ ?_).trans ?_ | with_reducible refine (both_otp _ _ ?_).trans ?_ | with_reducible refine (State.wr_otp ..).trans ?_ | with_reducible refine (State.pPut_otp ..).trans ?_ | with_reducible refine (State.modSh_otp ..).trans ?_ | with_reducible refine (State.seedInt_otp ..).trans ?_ | simp only [mk_otp] | dsimp only | split | intro _)

theorem State.commitLoop_otp (s : State) (c ff : Nat) (a : SpAction) (target fire : Nat) : (State.commitLoop s c ff a target fire).otp = s.otp := by
  unfold State.commitLoop
  repeat' (first | simp only [mk_otp] | with_reducible rfl | with_reducible refine ite2_otp ?_ ?_ | with_reducible refine (both_otp _ _ ?_).trans ?_ | with_reducible refine (State.pPut_otp ..).trans ?_ | with_reducible refine (State.modDyn_otp ..).trans ?_ | with_reducible refine (State.fitExclude_otp ..).trans ?_ | with_reducible refine (State.seedLoop_otp ..).trans ?_ | simp only [mk_otp] | dsimp only | split | intro _)

theorem State.armCmp_otp (s : State) (x : Shep) (c k : Nat) : (State.armCmp s x c k).otp = s.otp := by
  unfold State.armCmp
  repeat' (first | with_reducible rfl | with_reducible refine ite2_otp ?_ ?_ | with_reducible refine (State.wr_otp ..).trans ?_ | with_reducible refine (State.modSh_otp ..).trans ?_ | simp only [mk_otp] | dsimp only | split | intro _)

theorem State.loopNote_otp (s : State) (f : Fld) (c : Nat) : (State.loopNote s f c).otp = s.otp := by
  unfold State.loopNote
  repeat' (first | with_reducible rfl | with_reducible refine ite2_otp ?_ ?_ | with_reducible refine (both_otp _ _ ?_).trans ?_ | with_reducible refine (State.pFlag_otp ..).trans ?_ | with_reducible refine (State.notice_otp ..).trans ?_ | simp only [mk_otp] | dsimp only | split | intro _)

theorem State.leaveSlots_otp (s : State) (x : Shep) (ks : List Nat) : (State.leaveSlots s x ks).otp = s.otp := by
  unfold State.leaveSlots
  repeat' (first | with_reducible rfl | with_reducible refine ite2_otp ?_ ?_ | with_reducible refine (foldl_otp _ _ _ ?_).trans ?_ | with_reducible refine (State.pPut_otp ..).trans ?_ | simp only [mk_otp] | dsimp only | split | intro _)

theorem State.joinSlots_otp (s : State) (x : Shep) (c : Nat) (ks : List Nat) : (State.joinSlots s x c ks).otp = s.otp := by
  unfold State.joinSlots
  repeat' (first | with_reducible rfl | with_reducible refine ite2_otp ?_ ?_ | with_reducible refine (foldl_otp _ _ _ ?_).trans ?_ | with_reducible refine (State.armCmp_otp ..).trans ?_ | with_reducible refine (State.pPut_otp ..).trans ?_ | simp only [mk_otp] | dsimp only | split | intro _)

theorem State.freshLoop_otp (s : State) (x : Shep) (c : Nat) : (State.freshLoop s x c).otp = s.otp := by
  unfold State.freshLoop
  repeat' (first | with_reducible rfl | with_reducible refine ite2_otp ?_ ?_ | with_reducible refine (State.fitExclude_otp ..).trans ?_ | with_reducible refine (State.pPut_otp ..).trans ?_ | simp only [mk_otp] | dsimp only | split | intro _)

theorem State.takeLoop_otp (s : State) (x : Shep) (c : Nat) (v : Word) : (State.takeLoop s x c v).otp = s.otp := by
  unfold State.takeLoop
  repeat' (first | with_reducible rfl | with_reducible refine ite2_otp ?_ ?_ | with_reducible refine (State.freshLoop_otp ..).trans ?_ | with_reducible refine (State.joinSlots_otp ..).trans ?_ | with_reducible refine (State.leaveSlots_otp ..).trans ?_ | with_reducible refine (State.wr_otp ..).trans ?_ | simp only [mk_otp] | dsimp only | split | intro _)

theorem State.writeLoopCtrl_otp (s : State) (c : Nat) (v : Word) : (State.writeLoopCtrl s c v).otp = s.otp := by
  unfold State.writeLoopCtrl
  repeat' (first | with_reducible rfl | with_reducible refine ite2_otp ?_ ?_ | with_reducible refine (both_otp _ _ ?_).trans ?_ | with_reducible refine (State.takeLoop_otp ..).trans ?_ | with_reducible refine (State.loopNote_otp ..).trans ?_ | with_reducible refine (State.spoil_otp ..).trans ?_ | simp only [mk_otp] | dsimp only | split | intro _)

theorem State.writeLoopSp_otp (s : State) (c : Nat) (v : Word) : (State.writeLoopSp s c v).otp = s.otp := by
  unfold State.writeLoopSp
  repeat' (first | with_reducible rfl | with_reducible refine ite2_otp ?_ ?_ | with_reducible refine (both_otp _ _ ?_).trans ?_ | with_reducible refine (State.sWr_otp ..).trans ?_ | with_reducible refine (State.fitExclude_otp ..).trans ?_ | simp only [mk_otp] | dsimp only | split | intro _)

theorem State.writeLoopMon_otp (s : State) (c : Nat) (v : Word) : (State.writeLoopMon s c v).otp = s.otp := by
  unfold State.writeLoopMon
  repeat' (first | with_reducible rfl | with_reducible refine ite2_otp ?_ ?_ | with_reducible refine (State.sWr_otp ..).trans ?_ | with_reducible refine (State.spoil_otp ..).trans ?_ | simp only [mk_otp] | dsimp only | split | intro _)

theorem State.writeCmpSlot_otp (s : State) (k : Nat) (v : Word) : (State.writeCmpSlot s k v).otp = s.otp := by
  unfold State.writeCmpSlot
  repeat' (first | with_reducible rfl | with_reducible refine ite2_otp ?_ ?_ | with_reducible refine (both_otp _ _ ?_).trans ?_ | with_reducible refine (State.wr_otp ..).trans ?_ | with_reducible refine (State.modSh_otp ..).trans ?_ | with_reducible refine (State.armCmp_otp ..).trans ?_ | simp only [mk_otp] | dsimp only | split | intro _)

theorem State.complete_otp (s : State) (d : Desc) (space code : Nat) (result : List Byte) : (State.complete s d space code result).otp = s.otp := by
  unfold State.complete
  repeat' (first | with_reducible rfl | with_reducible refine ite2_otp ?_ ?_ | with_reducible refine (State.pushCpl_otp ..).trans ?_ | simp only [mk_otp] | dsimp only | split | intro _)

theorem State.completeHif_otp (s : State) (d : Desc) (code : Nat) : (State.completeHif s d code).otp = s.otp := by
  unfold State.completeHif
  repeat' (first | with_reducible rfl | with_reducible refine ite2_otp ?_ ?_ | with_reducible refine (State.complete_otp ..).trans ?_ | simp only [mk_otp] | dsimp only | split | intro _)

theorem State.writeOut_otp (s : State) (addr : Nat) (bytes : List Byte) : (State.writeOut s addr bytes).otp = s.otp := by
  unfold State.writeOut
  repeat' (first | with_reducible rfl | with_reducible refine ite2_otp ?_ ?_ | with_reducible refine (State.send_otp ..).trans ?_ | simp only [mk_otp] | dsimp only | split | intro _)

theorem State.addJob_otp (s : State) (j : Job) : (State.addJob s j).otp = s.otp := by
  unfold State.addJob
  repeat' (first | with_reducible rfl | with_reducible refine ite2_otp ?_ ?_ | simp only [mk_otp] | dsimp only | split | intro _)

theorem State.endJob_otp (s : State) (j : Job) : (State.endJob s j).otp = s.otp := by
  unfold State.endJob
  repeat' (first | with_reducible rfl | with_reducible refine ite2_otp ?_ ?_ | simp only [mk_otp] | dsimp only | split | intro _)

theorem State.setJob_otp (s : State) (j j' : Job) : (State.setJob s j j').otp = s.otp := by
  unfold State.setJob
  repeat' (first | with_reducible rfl | with_reducible refine ite2_otp ?_ ?_ | simp only [mk_otp] | dsimp only | split | intro _)

end Sys2Proof.Machine
end

