-- ==== Sys2Proof/Laws/Fuses2.lean ====
section
/-! SUPPORT. The fuses are left by every operation of the machine, from routing to time. Each lemma says it of one function. -/

set_option maxRecDepth 4000
set_option linter.unreachableTactic false
set_option linter.unusedTactic false
set_option linter.unusedSimpArgs false

namespace Sys2Proof.Machine

theorem State.setSlot_otp (s : State) (i : Nat) (v : Slot) : (State.setSlot s i v).otp = s.otp := by
  unfold State.setSlot
  repeat' (first | with_reducible rfl | with_reducible refine ite2_otp ?_ ?_ | simp only [mk_otp] | dsimp only | split | intro _)

theorem State.modSlot_otp (s : State) (i : Nat) (f : Slot → Slot) : (State.modSlot s i f).otp = s.otp := by
  unfold State.modSlot
  repeat' (first | with_reducible rfl | with_reducible refine ite2_otp ?_ ?_ | with_reducible refine (State.setSlot_otp ..).trans ?_ | simp only [mk_otp] | dsimp only | split | intro _)

theorem State.buildSome_otp (s : State) : (State.buildSome s).otp = s.otp := by
  unfold State.buildSome
  repeat' (first | with_reducible rfl | with_reducible refine ite2_otp ?_ ?_ | with_reducible refine (foldl_otp _ _ _ ?_).trans ?_ | with_reducible refine (foldl_otp_fst _ _ _ ?_).trans ?_ | with_reducible refine (foldl_otp_snd _ _ _ ?_).trans ?_ | with_reducible refine (State.draw_otp ..).trans ?_ | simp only [mk_otp] | dsimp only | split | intro _)

theorem State.libPut_otp (s : State) (id : Nat) (p : Option Plan) : (State.libPut s id p).otp = s.otp := by
  unfold State.libPut
  repeat' (first | with_reducible rfl | with_reducible refine ite2_otp ?_ ?_ | simp only [mk_otp] | dsimp only | split | intro _)

theorem State.foldRecord_otp (s : State) : (State.foldRecord s).otp = s.otp := by
  unfold State.foldRecord
  repeat' (first | with_reducible rfl | with_reducible refine ite2_otp ?_ ?_ | with_reducible refine (both_otp _ _ ?_).trans ?_ | with_reducible refine (State.modSh_otp ..).trans ?_ | simp only [mk_otp] | dsimp only | split | intro _)

theorem State.putRecord_otp (s : State) (slot : Nat) (id : Option Nat) (p : Plan) : (State.putRecord s slot id p).otp = s.otp := by
  unfold State.putRecord
  repeat' (first | with_reducible rfl | with_reducible refine ite2_otp ?_ ?_ | with_reducible refine (State.libPut_otp ..).trans ?_ | with_reducible refine (State.foldRecord_otp ..).trans ?_ | simp only [mk_otp] | dsimp only | split | intro _)

theorem State.planEnd_otp (s : State) (d : Desc) (code : Nat) (result : List Byte) : (State.planEnd s d code result).otp = s.otp := by
  unfold State.planEnd
  repeat' (first | simp only [mk_otp] | with_reducible rfl | with_reducible refine ite2_otp ?_ ?_ | with_reducible refine (both_otp _ _ ?_).trans ?_ | with_reducible refine (State.pPut_otp ..).trans ?_ | with_reducible refine (State.complete_otp ..).trans ?_ | simp only [mk_otp] | dsimp only | split | intro _)

theorem State.beginBuild_otp (s : State) (d : Desc) (slot : Nat) (p : Plan) (result report : List Byte) : (State.beginBuild s d slot p result report).otp = s.otp := by
  unfold State.beginBuild
  repeat' (first | with_reducible rfl | with_reducible refine ite2_otp ?_ ?_ | with_reducible refine (State.report_otp ..).trans ?_ | simp only [mk_otp] | dsimp only | split | intro _)

theorem State.writeReport_otp (s : State) (d : Desc) (report : List Byte) : (State.writeReport s d report).otp = s.otp := by
  unfold State.writeReport
  repeat' (first | with_reducible rfl | with_reducible refine ite2_otp ?_ ?_ | with_reducible refine (State.report_otp ..).trans ?_ | with_reducible refine (State.writeOut_otp ..).trans ?_ | simp only [mk_otp] | dsimp only | split | intro _)

theorem State.endRequest_otp (s : State) (d : Desc) (code : Nat) : (State.endRequest s d code).otp = s.otp := by
  unfold State.endRequest
  repeat' (first | with_reducible rfl | with_reducible refine ite2_otp ?_ ?_ | with_reducible refine (State.planEnd_otp ..).trans ?_ | with_reducible refine (State.writeReport_otp ..).trans ?_ | simp only [mk_otp] | dsimp only | split | intro _)

theorem State.reserve_otp (s : State) (i : Nat) : (State.reserve s i).otp = s.otp := by
  unfold State.reserve
  repeat' (first | with_reducible rfl | with_reducible refine ite2_otp ?_ ?_ | with_reducible refine (State.modSlot_otp ..).trans ?_ | simp only [mk_otp] | dsimp only | split | intro _)

theorem State.unreserve_otp (s : State) (i : Nat) : (State.unreserve s i).otp = s.otp := by
  unfold State.unreserve
  repeat' (first | with_reducible rfl | with_reducible refine ite2_otp ?_ ?_ | with_reducible refine (State.modSlot_otp ..).trans ?_ | simp only [mk_otp] | dsimp only | split | intro _)

theorem State.beginRequest_otp (s : State) (d : Desc) : (State.beginRequest s d).otp = s.otp := by
  unfold State.beginRequest
  repeat' (first | with_reducible rfl | with_reducible refine ite2_otp ?_ ?_ | with_reducible refine (State.beginBuild_otp ..).trans ?_ | with_reducible refine (State.endRequest_otp ..).trans ?_ | with_reducible refine (State.reserve_otp ..).trans ?_ | simp only [mk_otp] | dsimp only | split | intro _)

theorem State.beginOther_otp (s : State) (d : Desc) : (State.beginOther s d).otp = s.otp := by
  unfold State.beginOther
  repeat' (first | with_reducible rfl | with_reducible refine ite2_otp ?_ ?_ | with_reducible refine (State.writeOut_otp ..).trans ?_ | with_reducible refine (State.setSlot_otp ..).trans ?_ | with_reducible refine (State.modSlot_otp ..).trans ?_ | with_reducible refine (State.libPut_otp ..).trans ?_ | with_reducible refine (State.foldRecord_otp ..).trans ?_ | with_reducible refine (State.putRecord_otp ..).trans ?_ | with_reducible refine (State.planEnd_otp ..).trans ?_ | with_reducible refine (State.beginBuild_otp ..).trans ?_ | with_reducible refine (State.reserve_otp ..).trans ?_ | simp only [mk_otp] | dsimp only | split | intro _)

theorem droverN_otp (a0_ : Nat) (s_ : State) : (droverN a0_ s_).otp = s_.otp := by
  induction a0_ generalizing s_ with
  | zero => rfl
  | succ n ih =>
    unfold droverN
    repeat' (first | with_reducible rfl | with_reducible refine ite2_otp ?_ ?_ | with_reducible refine (ih _).trans ?_ | with_reducible refine (State.beginRequest_otp ..).trans ?_ | with_reducible refine (State.beginOther_otp ..).trans ?_ | simp only [mk_otp] | dsimp only | split | intro _)

theorem State.droverNext_otp (s : State) : (State.droverNext s).otp = s.otp := by
  unfold State.droverNext
  repeat' (first | with_reducible rfl | with_reducible refine ite2_otp ?_ ?_ | with_reducible refine (droverN_otp ..).trans ?_ | simp only [mk_otp] | dsimp only | split | intro _)

theorem startPlan_otp (d : Desc) (s : State) : (startPlan d s).otp = s.otp := by
  unfold startPlan
  repeat' (first | with_reducible rfl | with_reducible refine ite2_otp ?_ ?_ | with_reducible refine (State.completeHif_otp ..).trans ?_ | with_reducible refine (State.addJob_otp ..).trans ?_ | with_reducible refine (State.droverNext_otp ..).trans ?_ | simp only [mk_otp] | dsimp only | split | intro _)

theorem doRouteComplete_otp (cycles : Nat) (s : State) : (doRouteComplete cycles s).otp = s.otp := by
  unfold doRouteComplete
  repeat' (first | with_reducible rfl | with_reducible refine ite2_otp ?_ ?_ | with_reducible refine (both_otp _ _ ?_).trans ?_ | with_reducible refine (State.wr_otp ..).trans ?_ | with_reducible refine (State.report_otp ..).trans ?_ | with_reducible refine (State.planEnd_otp ..).trans ?_ | with_reducible refine (State.beginBuild_otp ..).trans ?_ | with_reducible refine (State.writeReport_otp ..).trans ?_ | with_reducible refine (State.unreserve_otp ..).trans ?_ | with_reducible refine (State.droverNext_otp ..).trans ?_ | simp only [mk_otp] | dsimp only | split | intro _)

theorem doImageBuildDone_otp (s : State) : (doImageBuildDone s).otp = s.otp := by
  unfold doImageBuildDone
  repeat' (first | with_reducible rfl | with_reducible refine ite2_otp ?_ ?_ | with_reducible refine (State.report_otp ..).trans ?_ | with_reducible refine (State.modSlot_otp ..).trans ?_ | with_reducible refine (State.putRecord_otp ..).trans ?_ | with_reducible refine (State.planEnd_otp ..).trans ?_ | with_reducible refine (State.writeReport_otp ..).trans ?_ | with_reducible refine (State.droverNext_otp ..).trans ?_ | simp only [mk_otp] | dsimp only | split | intro _)

theorem doPositionTrack_otp (s : State) : (doPositionTrack s).otp = s.otp := by
  unfold doPositionTrack
  repeat' (first | with_reducible rfl | with_reducible refine ite2_otp ?_ ?_ | with_reducible refine (foldl_otp _ _ _ ?_).trans ?_ | with_reducible refine (State.sPut_otp ..).trans ?_ | simp only [mk_otp] | dsimp only | split | intro _)

theorem State.sendCtl_otp (s : State) (p : Nat) (f : CtlFrame) : (State.sendCtl s p f).otp = s.otp := by
  unfold State.sendCtl
  repeat' (first | with_reducible rfl | with_reducible refine ite2_otp ?_ ?_ | with_reducible refine (both_otp _ _ ?_).trans ?_ | simp only [mk_otp] | dsimp only | split | intro _)

theorem State.hubDrop_otp (s : State) : (State.hubDrop s).otp = s.otp := by
  unfold State.hubDrop
  repeat' (first | with_reducible rfl | with_reducible refine ite2_otp ?_ ?_ | with_reducible refine (State.dCount_otp ..).trans ?_ | simp only [mk_otp] | dsimp only | split | intro _)

theorem State.pdkErr_otp (s : State) (p lo : Nat) : (State.pdkErr s p lo).otp = s.otp := by
  unfold State.pdkErr
  repeat' (first | with_reducible rfl | with_reducible refine ite2_otp ?_ ?_ | with_reducible refine (foldl_otp _ _ _ ?_).trans ?_ | with_reducible refine (State.dCount_otp ..).trans ?_ | with_reducible refine (State.xingPend_otp ..).trans ?_ | simp only [mk_otp] | dsimp only | split | intro _)

theorem State.takeEpoch_otp (s : State) (p epoch : Nat) : (State.takeEpoch s p epoch).2.otp = s.otp := by
  unfold State.takeEpoch
  repeat' (first | with_reducible rfl | with_reducible refine ite2_otp ?_ ?_ | with_reducible refine (State.setPdk_otp ..).trans ?_ | with_reducible refine (State.pdkErr_otp ..).trans ?_ | simp only [mk_otp] | dsimp only | split | intro _)

theorem State.diverge_otp (s : State) (p : Nat) : (State.diverge s p).otp = s.otp := by
  unfold State.diverge
  repeat' (first | simp only [mk_otp] | with_reducible rfl | with_reducible refine ite2_otp ?_ ?_ | with_reducible refine (State.pdkErr_otp ..).trans ?_ | simp only [mk_otp] | dsimp only | split | intro _)

theorem State.damaged_otp (s : State) (p : Nat) : (State.damaged s p).otp = s.otp := by
  unfold State.damaged
  repeat' (first | with_reducible rfl | with_reducible refine ite2_otp ?_ ?_ | with_reducible refine (State.pdkErr_otp ..).trans ?_ | simp only [mk_otp] | dsimp only | split | intro _)

theorem doLoopFrame_otp (x : Shep) (p : Nat) (noise : Noise) (s : State) : (doLoopFrame x p noise s).otp = s.otp := by
  unfold doLoopFrame
  repeat' (first | with_reducible rfl | with_reducible refine ite2_otp ?_ ?_ | with_reducible refine (State.modPdk_otp ..).trans ?_ | with_reducible refine (State.hubDrop_otp ..).trans ?_ | with_reducible refine (State.takeEpoch_otp ..).trans ?_ | with_reducible refine (State.diverge_otp ..).trans ?_ | with_reducible refine (State.damaged_otp ..).trans ?_ | simp only [mk_otp] | dsimp only | split | intro _)

theorem State.ctlDuplicate_otp (s : State) (p : Nat) (f : CtlFrame) : (State.ctlDuplicate s p f).otp = s.otp := by
  unfold State.ctlDuplicate
  repeat' (first | with_reducible rfl | with_reducible refine ite2_otp ?_ ?_ | with_reducible refine (State.diverge_otp ..).trans ?_ | simp only [mk_otp] | dsimp only | split | intro _)

theorem State.applyCtl_otp (s : State) (p : Nat) (f : CtlFrame) : (State.applyCtl s p f).otp = s.otp := by
  unfold State.applyCtl
  repeat' (first | with_reducible rfl | with_reducible refine ite2_otp ?_ ?_ | with_reducible refine (foldl_otp _ _ _ ?_).trans ?_ | with_reducible refine (State.modPdk_otp ..).trans ?_ | simp only [mk_otp] | dsimp only | split | intro _)

theorem applyHeld_otp (p : Nat) (a0_ : Nat) (s_ : State) : (applyHeld p a0_ s_).otp = s_.otp := by
  induction a0_ generalizing s_ with
  | zero => rfl
  | succ n ih =>
    unfold applyHeld
    repeat' (first | with_reducible rfl | with_reducible refine ite2_otp ?_ ?_ | with_reducible refine (ih _).trans ?_ | with_reducible refine (State.modPdk_otp ..).trans ?_ | with_reducible refine (State.applyCtl_otp ..).trans ?_ | simp only [mk_otp] | dsimp only | split | intro _)

theorem doCtlFrame_otp (kind : CtlKind) (x : Shep) (p : Nat) (noise : Noise) (s : State) : (doCtlFrame kind x p noise s).otp = s.otp := by
  unfold doCtlFrame
  repeat' (first | with_reducible rfl | with_reducible refine ite2_otp ?_ ?_ | with_reducible refine (State.setPdk_otp ..).trans ?_ | with_reducible refine (State.modPdk_otp ..).trans ?_ | with_reducible refine (State.hubDrop_otp ..).trans ?_ | with_reducible refine (State.takeEpoch_otp ..).trans ?_ | with_reducible refine (State.damaged_otp ..).trans ?_ | with_reducible refine (State.ctlDuplicate_otp ..).trans ?_ | with_reducible refine (State.applyCtl_otp ..).trans ?_ | with_reducible refine (applyHeld_otp ..).trans ?_ | simp only [mk_otp] | dsimp only | split | intro _)

theorem applyAllHeld_otp (p : Nat) (a0_ : Nat) (s_ : State) : (applyAllHeld p a0_ s_).otp = s_.otp := by
  induction a0_ generalizing s_ with
  | zero => rfl
  | succ n ih =>
    unfold applyAllHeld
    repeat' (first | with_reducible rfl | with_reducible refine ite2_otp ?_ ?_ | with_reducible refine (ih _).trans ?_ | with_reducible refine (State.modPdk_otp ..).trans ?_ | with_reducible refine (State.applyCtl_otp ..).trans ?_ | simp only [mk_otp] | dsimp only | split | intro _)

theorem doCtlGap_otp (p : Nat) (s : State) : (doCtlGap p s).otp = s.otp := by
  unfold doCtlGap
  repeat' (first | with_reducible rfl | with_reducible refine ite2_otp ?_ ?_ | with_reducible refine (State.notice_otp ..).trans ?_ | with_reducible refine (State.pdkErr_otp ..).trans ?_ | with_reducible refine (applyAllHeld_otp ..).trans ?_ | simp only [mk_otp] | dsimp only | split | intro _)

theorem State.commitChan_otp (s : State) (slot : Nat) (e : Nat × Nat) : (State.commitChan s slot e).otp = s.otp := by
  unfold State.commitChan
  repeat' (first | with_reducible rfl | with_reducible refine ite2_otp ?_ ?_ | with_reducible refine (State.dFlag_otp ..).trans ?_ | with_reducible refine (State.modChan_otp ..).trans ?_ | with_reducible refine (State.notice_otp ..).trans ?_ | with_reducible refine (State.takeForced_otp ..).trans ?_ | with_reducible refine (State.loadCode_otp ..).trans ?_ | with_reducible refine (idle_otp ..).trans ?_ | simp only [mk_otp] | dsimp only | split | intro _)

theorem State.strobeCommit_otp (s : State) (p : Nat) (c : PdkCommit) : (State.strobeCommit s p c).1.otp = s.otp := by
  unfold State.strobeCommit
  repeat' (first | with_reducible rfl | with_reducible refine ite2_otp ?_ ?_ | with_reducible refine (foldl_otp _ _ _ ?_).trans ?_ | with_reducible refine (foldl_otp_fst _ _ _ ?_).trans ?_ | with_reducible refine (foldl_otp_snd _ _ _ ?_).trans ?_ | with_reducible refine (State.setPdk_otp ..).trans ?_ | with_reducible refine (State.commitChan_otp ..).trans ?_ | simp only [mk_otp] | dsimp only | split | intro _)

theorem State.firePdk_otp (s : State) (d p seq fire : Nat) : (State.firePdk s d p seq fire).1.otp = s.otp := by
  unfold State.firePdk
  repeat' (first | with_reducible rfl | with_reducible refine ite2_otp ?_ ?_ | with_reducible refine (State.strobeCommit_otp ..).trans ?_ | simp only [mk_otp] | dsimp only | split | intro _)

theorem State.frameMissing_otp (s : State) : (State.frameMissing s).otp = s.otp := by
  unfold State.frameMissing
  repeat' (first | with_reducible rfl | with_reducible refine ite2_otp ?_ ?_ | with_reducible refine (foldl_otp _ _ _ ?_).trans ?_ | with_reducible refine (State.pdkErr_otp ..).trans ?_ | simp only [mk_otp] | dsimp only | split | intro _)

theorem State.setDomSeq_otp (s : State) (d : Nat) (v : DomSeq) : (State.setDomSeq s d v).otp = s.otp := by
  unfold State.setDomSeq
  repeat' (first | with_reducible rfl | with_reducible refine ite2_otp ?_ ?_ | simp only [mk_otp] | dsimp only | split | intro _)

theorem State.shadowsLost_otp (s : State) (ps : List Nat) : (State.shadowsLost s ps).otp = s.otp := by
  unfold State.shadowsLost
  repeat' (first | with_reducible rfl | with_reducible refine ite2_otp ?_ ?_ | simp only [mk_otp] | dsimp only | split | intro _)

theorem State.sendCommit_otp (s : State) (kind : CtlKind) (c : Commit) : (State.sendCommit s kind c).otp = s.otp := by
  unfold State.sendCommit
  repeat' (first | with_reducible rfl | with_reducible refine ite2_otp ?_ ?_ | with_reducible refine (foldl_otp _ _ _ ?_).trans ?_ | with_reducible refine (State.sendCtl_otp ..).trans ?_ | simp only [mk_otp] | dsimp only | split | intro _)

theorem State.refire_otp (s : State) (d : Nat) : (State.refire s d).otp = s.otp := by
  unfold State.refire
  repeat' (first | with_reducible rfl | with_reducible refine ite2_otp ?_ ?_ | with_reducible refine (foldl_otp _ _ _ ?_).trans ?_ | with_reducible refine (State.sendCommit_otp ..).trans ?_ | simp only [mk_otp] | dsimp only | split | intro _)

theorem State.schedule_otp (s : State) (c : Commit) : (State.schedule s c).otp = s.otp := by
  unfold State.schedule
  repeat' (first | with_reducible rfl | with_reducible refine ite2_otp ?_ ?_ | with_reducible refine (State.refire_otp ..).trans ?_ | simp only [mk_otp] | dsimp only | split | intro _)

theorem State.wrapCount_otp (s : State) (off k : Nat) : (State.wrapCount s off k).otp = s.otp := by
  unfold State.wrapCount
  repeat' (first | with_reducible rfl | with_reducible refine ite2_otp ?_ ?_ | with_reducible refine (both_otp _ _ ?_).trans ?_ | with_reducible refine (State.wr_otp ..).trans ?_ | simp only [mk_otp] | dsimp only | split | intro _)

theorem State.seqFlag_otp (s : State) (f : Fld) : (State.seqFlag s f).otp = s.otp := by
  unfold State.seqFlag
  repeat' (first | with_reducible rfl | with_reducible refine ite2_otp ?_ ?_ | with_reducible refine (both_otp _ _ ?_).trans ?_ | with_reducible refine (State.pFlag_otp ..).trans ?_ | simp only [mk_otp] | dsimp only | split | intro _)

theorem State.countOutcome_otp (s : State) (outcome : Nat) : (State.countOutcome s outcome).otp = s.otp := by
  unfold State.countOutcome
  repeat' (first | with_reducible rfl | with_reducible refine ite2_otp ?_ ?_ | with_reducible refine (State.wrapCount_otp ..).trans ?_ | with_reducible refine (State.seqFlag_otp ..).trans ?_ | simp only [mk_otp] | dsimp only | split | intro _)

theorem State.reportCommit_otp (s : State) (dom slot outcome src instant time tag seq : Nat) : (State.reportCommit s dom slot outcome src instant time tag seq).otp = s.otp := by
  unfold State.reportCommit
  repeat' (first | with_reducible rfl | with_reducible refine ite2_otp ?_ ?_ | with_reducible refine (State.sPut_otp ..).trans ?_ | with_reducible refine (State.event_otp ..).trans ?_ | with_reducible refine (State.countOutcome_otp ..).trans ?_ | simp only [mk_otp] | dsimp only | split | intro _)

theorem State.drop_otp (s : State) (c : Commit) : (State.drop s c).otp = s.otp := by
  unfold State.drop
  repeat' (first | with_reducible rfl | with_reducible refine ite2_otp ?_ ?_ | simp only [mk_otp] | dsimp only | split | intro _)

theorem State.dispose_otp (s : State) (c : Commit) (outcome : Nat) : (State.dispose s c outcome).otp = s.otp := by
  unfold State.dispose
  repeat' (first | with_reducible rfl | with_reducible refine ite2_otp ?_ ?_ | with_reducible refine (State.sendCommit_otp ..).trans ?_ | with_reducible refine (State.reportCommit_otp ..).trans ?_ | with_reducible refine (State.drop_otp ..).trans ?_ | simp only [mk_otp] | dsimp only | split | intro _)

theorem State.setRot_otp (s : State) (d : Nat) (r : Option Rot) : (State.setRot s d r).otp = s.otp := by
  unfold State.setRot
  repeat' (first | with_reducible rfl | with_reducible refine ite2_otp ?_ ?_ | simp only [mk_otp] | dsimp only | split | intro _)

theorem rotPick_otp (d : Nat) (r : Rot) (a0_ : Nat) (a1_ : Nat) (s_ : State) : (rotPick d r a0_ a1_ s_).1.otp = s_.otp := by
  induction a0_ generalizing a1_ s_ with
  | zero => rfl
  | succ n ih =>
    unfold rotPick
    split
    · rfl
    · split
      · exact (ih _ _).trans (State.reportCommit_otp ..)
      · rfl

theorem State.rotNext_otp (s : State) (d : Nat) : (State.rotNext s d).otp = s.otp := by
  unfold State.rotNext
  split
  · rename_i r _ _
    have h := rotPick_otp d r 8 r.off s
    split
    · rename_i e; rw [e] at h
      exact ((State.schedule_otp ..).trans (State.setRot_otp ..)).trans h
    · rename_i e; rw [e] at h
      exact h
  · rfl

theorem State.rotAdvance_otp (s : State) (d : Nat) : (State.rotAdvance s d).otp = s.otp := by
  unfold State.rotAdvance
  repeat' (first | with_reducible rfl | with_reducible refine ite2_otp ?_ ?_ | with_reducible refine (State.setRot_otp ..).trans ?_ | with_reducible refine (State.rotNext_otp ..).trans ?_ | simp only [mk_otp] | dsimp only | split | intro _)

theorem State.rotGuard_otp (s : State) (d : Nat) : (State.rotGuard s d).otp = s.otp := by
  unfold State.rotGuard
  repeat' (first | with_reducible rfl | with_reducible refine ite2_otp ?_ ?_ | with_reducible refine (State.dispose_otp ..).trans ?_ | with_reducible refine (State.rotAdvance_otp ..).trans ?_ | simp only [mk_otp] | dsimp only | split | intro _)

theorem State.refireAll_otp (s : State) : (State.refireAll s).otp = s.otp := by
  unfold State.refireAll
  repeat' (first | with_reducible rfl | with_reducible refine ite2_otp ?_ ?_ | with_reducible refine (foldl_otp _ _ _ ?_).trans ?_ | with_reducible refine (State.refire_otp ..).trans ?_ | with_reducible refine (State.rotGuard_otp ..).trans ?_ | simp only [mk_otp] | dsimp only | split | intro _)

theorem State.rotReplan_otp (s : State) (d : Nat) : (State.rotReplan s d).otp = s.otp := by
  unfold State.rotReplan
  repeat' (first | with_reducible rfl | with_reducible refine ite2_otp ?_ ?_ | with_reducible refine (State.sendCommit_otp ..).trans ?_ | with_reducible refine (State.drop_otp ..).trans ?_ | with_reducible refine (State.rotNext_otp ..).trans ?_ | simp only [mk_otp] | dsimp only | split | intro _)

theorem skipStarts_otp (d : Nat) (r : Rot) (upTo : Int) (a0_ : Nat) (a1_ : Nat) (s_ : State) : (skipStarts d r upTo a0_ a1_ s_).otp = s_.otp := by
  induction a0_ generalizing a1_ s_ with
  | zero => rfl
  | succ n ih =>
    unfold skipStarts
    repeat' (first | with_reducible rfl | with_reducible refine ite2_otp ?_ ?_ | with_reducible refine (ih _ _).trans ?_ | with_reducible refine (State.reportCommit_otp ..).trans ?_ | simp only [mk_otp] | dsimp only | split | intro _)

theorem omitStarts_otp (d : Nat) (r : Rot) (a0_ : Nat) (a1_ : Nat) (s_ : State) : (omitStarts d r a0_ a1_ s_).1.otp = s_.otp := by
  induction a0_ generalizing a1_ s_ with
  | zero => rfl
  | succ n ih =>
    unfold omitStarts
    repeat' (first | with_reducible rfl | with_reducible refine ite2_otp ?_ ?_ | with_reducible refine (ih _ _).trans ?_ | with_reducible refine (State.reportCommit_otp ..).trans ?_ | simp only [mk_otp] | dsimp only | split | intro _)

theorem State.rotSelect_go_otp (s : State) (d : Nat) (r : Rot) (c : Option Commit) : (State.rotSelect.go d s r c).otp = s.otp := by
  unfold State.rotSelect.go
  repeat' (first | with_reducible rfl | with_reducible refine ite2_otp ?_ ?_ | with_reducible refine (State.setDomSeq_otp ..).trans ?_ | with_reducible refine (State.sendCommit_otp ..).trans ?_ | with_reducible refine (State.drop_otp ..).trans ?_ | with_reducible refine (State.setRot_otp ..).trans ?_ | with_reducible refine (State.rotNext_otp ..).trans ?_ | with_reducible refine (skipStarts_otp ..).trans ?_ | with_reducible refine (omitStarts_otp ..).trans ?_ | simp only [mk_otp] | dsimp only | split | intro _)

theorem State.rotSelect_otp (s : State) (d : Nat) : (State.rotSelect s d).otp = s.otp := by
  unfold State.rotSelect
  repeat' (first | with_reducible rfl | with_reducible refine ite2_otp ?_ ?_ | with_reducible refine (State.rotSelect_go_otp ..).trans ?_ | with_reducible refine (State.setDomSeq_otp ..).trans ?_ | with_reducible refine (State.sendCommit_otp ..).trans ?_ | with_reducible refine (State.drop_otp ..).trans ?_ | with_reducible refine (State.setRot_otp ..).trans ?_ | with_reducible refine (State.rotNext_otp ..).trans ?_ | with_reducible refine (skipStarts_otp ..).trans ?_ | with_reducible refine (omitStarts_otp ..).trans ?_ | simp only [mk_otp] | dsimp only | split | intro _)

theorem evalTurnouts_otp (d : Desc) (dom : Nat) (k : Option Nat) (es : List TurnEnt) (fmt : Bool) (s : State) : (evalTurnouts d dom k es fmt s).otp = s.otp := by
  unfold evalTurnouts
  repeat' (first | with_reducible rfl | with_reducible refine ite2_otp ?_ ?_ | with_reducible refine (foldl_otp _ _ _ ?_).trans ?_ | with_reducible refine (State.complete_otp ..).trans ?_ | with_reducible refine (State.schedule_otp ..).trans ?_ | with_reducible refine (State.dispose_otp ..).trans ?_ | simp only [mk_otp] | dsimp only | split | intro _)

theorem startTurnout_otp (d : Desc) (s : State) : (startTurnout d s).otp = s.otp := by
  unfold startTurnout
  repeat' (first | with_reducible rfl | with_reducible refine ite2_otp ?_ ?_ | with_reducible refine (evalTurnouts_otp ..).trans ?_ | simp only [mk_otp] | dsimp only | split | intro _)

theorem startTurnoutList_otp (d : Desc) (s : State) : (startTurnoutList d s).otp = s.otp := by
  unfold startTurnoutList
  repeat' (first | with_reducible rfl | with_reducible refine ite2_otp ?_ ?_ | with_reducible refine (State.drop_otp ..).trans ?_ | with_reducible refine (evalTurnouts_otp ..).trans ?_ | simp only [mk_otp] | dsimp only | split | intro _)

theorem startTurnoutCancel_otp (d : Desc) (s : State) : (startTurnoutCancel d s).otp = s.otp := by
  unfold startTurnoutCancel
  repeat' (first | with_reducible rfl | with_reducible refine ite2_otp ?_ ?_ | with_reducible refine (foldl_otp _ _ _ ?_).trans ?_ | with_reducible refine (State.complete_otp ..).trans ?_ | with_reducible refine (State.dispose_otp ..).trans ?_ | simp only [mk_otp] | dsimp only | split | intro _)

theorem loadRotation_otp (d : Desc) (dom base cycle takeover : Nat) (ents : List (Nat × Nat)) (s : State) : (loadRotation d dom base cycle takeover ents s).otp = s.otp := by
  unfold loadRotation
  repeat' (first | with_reducible rfl | with_reducible refine ite2_otp ?_ ?_ | with_reducible refine (State.complete_otp ..).trans ?_ | with_reducible refine (State.reportCommit_otp ..).trans ?_ | with_reducible refine (State.setRot_otp ..).trans ?_ | with_reducible refine (State.rotNext_otp ..).trans ?_ | with_reducible refine (State.rotReplan_otp ..).trans ?_ | simp only [mk_otp] | dsimp only | split | intro _)

theorem startRotationList_otp (d : Desc) (s : State) : (startRotationList d s).otp = s.otp := by
  unfold startRotationList
  repeat' (first | with_reducible rfl | with_reducible refine ite2_otp ?_ ?_ | with_reducible refine (foldl_otp _ _ _ ?_).trans ?_ | with_reducible refine (foldl_otp_fst _ _ _ ?_).trans ?_ | with_reducible refine (foldl_otp_snd _ _ _ ?_).trans ?_ | with_reducible refine (State.complete_otp ..).trans ?_ | with_reducible refine (loadRotation_otp ..).trans ?_ | simp only [mk_otp] | dsimp only | split | intro _)

theorem startRotationStop_otp (d : Desc) (s : State) : (startRotationStop d s).otp = s.otp := by
  unfold startRotationStop
  repeat' (first | with_reducible rfl | with_reducible refine ite2_otp ?_ ?_ | with_reducible refine (State.complete_otp ..).trans ?_ | with_reducible refine (loadRotation_otp ..).trans ?_ | simp only [mk_otp] | dsimp only | split | intro _)

theorem doRotationTakeover_otp (d : Nat) (s : State) : (doRotationTakeover d s).otp = s.otp := by
  unfold doRotationTakeover
  repeat' (first | with_reducible rfl | with_reducible refine ite2_otp ?_ ?_ | with_reducible refine (State.toEdge_otp ..).trans ?_ | with_reducible refine (State.setRot_otp ..).trans ?_ | simp only [mk_otp] | dsimp only | split | intro _)

theorem doStagingStart_otp (s : State) : (doStagingStart s).otp = s.otp := by
  unfold doStagingStart
  repeat' (first | with_reducible rfl | with_reducible refine ite2_otp ?_ ?_ | with_reducible refine (foldl_otp _ _ _ ?_).trans ?_ | with_reducible refine (State.toEdge_otp ..).trans ?_ | with_reducible refine (State.sendCtl_otp ..).trans ?_ | simp only [mk_otp] | dsimp only | split | intro _)

theorem doStagingComplete_otp (d : Nat) (s : State) : (doStagingComplete d s).otp = s.otp := by
  unfold doStagingComplete
  repeat' (first | with_reducible rfl | with_reducible refine ite2_otp ?_ ?_ | with_reducible refine (State.modSlot_otp ..).trans ?_ | with_reducible refine (State.sendCommit_otp ..).trans ?_ | with_reducible refine (State.refire_otp ..).trans ?_ | simp only [mk_otp] | dsimp only | split | intro _)

theorem doLateStage_otp (d : Nat) (s : State) : (doLateStage d s).otp = s.otp := by
  unfold doLateStage
  repeat' (first | with_reducible rfl | with_reducible refine ite2_otp ?_ ?_ | with_reducible refine (State.schedule_otp ..).trans ?_ | with_reducible refine (State.wrapCount_otp ..).trans ?_ | with_reducible refine (State.seqFlag_otp ..).trans ?_ | with_reducible refine (State.drop_otp ..).trans ?_ | with_reducible refine (State.dispose_otp ..).trans ?_ | with_reducible refine (State.rotAdvance_otp ..).trans ?_ | simp only [mk_otp] | dsimp only | split | intro _)

theorem State.makeLive_otp (s : State) (d slot : Nat) : (State.makeLive s d slot).otp = s.otp := by
  unfold State.makeLive
  repeat' (first | with_reducible rfl | with_reducible refine ite2_otp ?_ ?_ | with_reducible refine (State.modSlot_otp ..).trans ?_ | simp only [mk_otp] | dsimp only | split | intro _)

theorem State.fireStrays_otp (s : State) (upTo : Nat) : (State.fireStrays s upTo).otp = s.otp := by
  unfold State.fireStrays
  repeat' (first | with_reducible rfl | with_reducible refine ite2_otp ?_ ?_ | with_reducible refine (foldl_otp _ _ _ ?_).trans ?_ | with_reducible refine (State.toEdge_otp ..).trans ?_ | with_reducible refine (State.report_otp ..).trans ?_ | with_reducible refine (State.xingPend_otp ..).trans ?_ | with_reducible refine (State.strobeCommit_otp ..).trans ?_ | simp only [mk_otp] | dsimp only | split | intro _)

theorem doCommitFire_otp (d : Nat) (s : State) : (doCommitFire d s).otp = s.otp := by
  unfold doCommitFire
  repeat' (first | with_reducible rfl | with_reducible refine ite2_otp ?_ ?_ | with_reducible refine (foldl_otp _ _ _ ?_).trans ?_ | with_reducible refine (both_otp _ _ ?_).trans ?_ | with_reducible refine (foldl_otp_fst _ _ _ ?_).trans ?_ | with_reducible refine (foldl_otp_snd _ _ _ ?_).trans ?_ | with_reducible refine (State.pFlag_otp ..).trans ?_ | with_reducible refine (State.toEdge_otp ..).trans ?_ | with_reducible refine (State.report_otp ..).trans ?_ | with_reducible refine (State.spoil_otp ..).trans ?_ | with_reducible refine (State.xingPend_otp ..).trans ?_ | with_reducible refine (State.fitExclude_otp ..).trans ?_ | with_reducible refine (State.firePdk_otp ..).trans ?_ | with_reducible refine (State.setDomSeq_otp ..).trans ?_ | with_reducible refine (State.reportCommit_otp ..).trans ?_ | with_reducible refine (State.drop_otp ..).trans ?_ | with_reducible refine (State.dispose_otp ..).trans ?_ | with_reducible refine (State.setRot_otp ..).trans ?_ | with_reducible refine (State.rotAdvance_otp ..).trans ?_ | with_reducible refine (State.rotSelect_otp ..).trans ?_ | with_reducible refine (State.makeLive_otp ..).trans ?_ | with_reducible refine (State.fireStrays_otp ..).trans ?_ | with_reducible refine (State.cleared_otp ..).trans ?_ | simp only [mk_otp] | dsimp only | split | intro _)

theorem doCommitLoopSeed_otp (d : Nat) (s : State) : (doCommitLoopSeed d s).otp = s.otp := by
  unfold doCommitLoopSeed
  repeat' (first | with_reducible rfl | with_reducible refine ite2_otp ?_ ?_ | with_reducible refine (foldl_otp _ _ _ ?_).trans ?_ | with_reducible refine (both_otp _ _ ?_).trans ?_ | with_reducible refine (State.setDir_otp ..).trans ?_ | with_reducible refine (State.commitLoop_otp ..).trans ?_ | with_reducible refine (State.setDomSeq_otp ..).trans ?_ | simp only [mk_otp] | dsimp only | split | intro _)

theorem doSequencerStep_otp (s : State) : (doSequencerStep s).otp = s.otp := by
  unfold doSequencerStep
  repeat' (first | with_reducible rfl | with_reducible refine ite2_otp ?_ ?_ | with_reducible refine (foldl_otp _ _ _ ?_).trans ?_ | with_reducible refine (both_otp _ _ ?_).trans ?_ | with_reducible refine (State.wr_otp ..).trans ?_ | with_reducible refine (State.notice_otp ..).trans ?_ | with_reducible refine (State.sendCommit_otp ..).trans ?_ | with_reducible refine (State.schedule_otp ..).trans ?_ | with_reducible refine (State.seqFlag_otp ..).trans ?_ | with_reducible refine (State.drop_otp ..).trans ?_ | with_reducible refine (State.dispose_otp ..).trans ?_ | with_reducible refine (State.refireAll_otp ..).trans ?_ | with_reducible refine (State.rotSelect_otp ..).trans ?_ | simp only [mk_otp] | dsimp only | split | intro _)

theorem State.listCancelled_otp (s : State) (d : Nat) (l : RotList) (held : Nat) : (State.listCancelled s d l held).otp = s.otp := by
  unfold State.listCancelled
  repeat' (first | with_reducible rfl | with_reducible refine ite2_otp ?_ ?_ | with_reducible refine (State.reportCommit_otp ..).trans ?_ | simp only [mk_otp] | dsimp only | split | intro _)

theorem State.rotCancelled_otp (s : State) (d : Nat) (started : Bool) (r : Rot) : (State.rotCancelled s d started r).otp = s.otp := by
  unfold State.rotCancelled
  repeat' (first | with_reducible rfl | with_reducible refine ite2_otp ?_ ?_ | with_reducible refine (State.listCancelled_otp ..).trans ?_ | simp only [mk_otp] | dsimp only | split | intro _)

theorem State.cancelSchedules_otp (s : State) (dom : Nat → Bool) : (State.cancelSchedules s dom).otp = s.otp := by
  unfold State.cancelSchedules
  repeat' (first | with_reducible rfl | with_reducible refine ite2_otp ?_ ?_ | with_reducible refine (foldl_otp _ _ _ ?_).trans ?_ | with_reducible refine (State.dispose_otp ..).trans ?_ | with_reducible refine (State.rotCancelled_otp ..).trans ?_ | simp only [mk_otp] | dsimp only | split | intro _)

theorem State.domainOut_otp (s : State) (d : Nat) : (State.domainOut s d).otp = s.otp := by
  unfold State.domainOut
  repeat' (first | with_reducible rfl | with_reducible refine ite2_otp ?_ ?_ | with_reducible refine (foldl_otp _ _ _ ?_).trans ?_ | with_reducible refine (State.sendCommit_otp ..).trans ?_ | with_reducible refine (State.dispose_otp ..).trans ?_ | simp only [mk_otp] | dsimp only | split | intro _)

theorem State.armCancel_otp (s : State) : (State.armCancel s).otp = s.otp := by
  unfold State.armCancel
  repeat' (first | with_reducible rfl | with_reducible refine ite2_otp ?_ ?_ | with_reducible refine (foldl_otp _ _ _ ?_).trans ?_ | with_reducible refine (State.dispose_otp ..).trans ?_ | simp only [mk_otp] | dsimp only | split | intro _)

theorem State.armGo_otp (s : State) (dom slot instant : Nat) : (State.armGo s dom slot instant).otp = s.otp := by
  unfold State.armGo
  repeat' (first | with_reducible rfl | with_reducible refine ite2_otp ?_ ?_ | with_reducible refine (State.schedule_otp ..).trans ?_ | with_reducible refine (State.seqFlag_otp ..).trans ?_ | simp only [mk_otp] | dsimp only | split | intro _)

theorem State.writeArm_otp (s : State) (v : Word) : (State.writeArm s v).otp = s.otp := by
  unfold State.writeArm
  repeat' (first | with_reducible rfl | with_reducible refine ite2_otp ?_ ?_ | with_reducible refine (State.sPut_otp ..).trans ?_ | with_reducible refine (State.armCancel_otp ..).trans ?_ | with_reducible refine (State.armGo_otp ..).trans ?_ | simp only [mk_otp] | dsimp only | split | intro _)

theorem State.writeMargin_otp (s : State) (v : Word) : (State.writeMargin s v).otp = s.otp := by
  unfold State.writeMargin
  repeat' (first | with_reducible rfl | with_reducible refine ite2_otp ?_ ?_ | with_reducible refine (State.sPut_otp ..).trans ?_ | with_reducible refine (State.seqFlag_otp ..).trans ?_ | simp only [mk_otp] | dsimp only | split | intro _)

theorem State.modRec_otp (s : State) (x : Shep) (f : RecSt → RecSt) : (State.modRec s x f).otp = s.otp := by
  unfold State.modRec
  repeat' (first | with_reducible rfl | with_reducible refine ite2_otp ?_ ?_ | with_reducible refine (State.modSh_otp ..).trans ?_ | simp only [mk_otp] | dsimp only | split | intro _)

theorem State.recDrain_otp (s : State) (x : Shep) : (State.recDrain s x).otp = s.otp := by
  unfold State.recDrain
  repeat' (first | with_reducible rfl | with_reducible refine ite2_otp ?_ ?_ | with_reducible refine (State.modRec_otp ..).trans ?_ | with_reducible refine (State.draw_otp ..).trans ?_ | simp only [mk_otp] | dsimp only | dsimp only [State.draw] | split | intro _)

theorem State.recFrame_otp (s : State) (x : Shep) (type flags count mask : Nat) (recs : List Byte) : (State.recFrame s x type flags count mask recs).otp = s.otp := by
  unfold State.recFrame
  repeat' (first | with_reducible rfl | with_reducible refine ite2_otp ?_ ?_ | with_reducible refine (State.pFlag_otp ..).trans ?_ | with_reducible refine (State.pCount_otp ..).trans ?_ | with_reducible refine (State.modRec_otp ..).trans ?_ | simp only [mk_otp] | dsimp only | split | intro _)

theorem State.fitFeed_otp (s : State) (x : Shep) (chans : List Nat) : (State.fitFeed s x chans).otp = s.otp := by
  unfold State.fitFeed
  repeat' (first | with_reducible rfl | with_reducible refine ite2_otp ?_ ?_ | with_reducible refine (foldl_otp _ _ _ ?_).trans ?_ | with_reducible refine (State.fitExclude_otp ..).trans ?_ | with_reducible refine (State.fitRecord_otp ..).trans ?_ | simp only [mk_otp] | dsimp only | split | intro _)

theorem State.recLoop_otp (s : State) (x : Shep) (w : TickWork) : (State.recLoop s x w).otp = s.otp := by
  unfold State.recLoop
  repeat' (first | with_reducible rfl | with_reducible refine ite2_otp ?_ ?_ | with_reducible refine (foldl_otp _ _ _ ?_).trans ?_ | with_reducible refine (State.recFrame_otp ..).trans ?_ | with_reducible refine (State.fitFeed_otp ..).trans ?_ | simp only [mk_otp] | dsimp only | split | intro _)

theorem doLoopEvaluation_otp (x : Shep) (cap : Nat) (s : State) : (doLoopEvaluation x cap s).otp = s.otp := by
  unfold doLoopEvaluation
  repeat' (first | with_reducible rfl | with_reducible refine ite2_otp ?_ ?_ | with_reducible refine (State.sumPower_otp ..).trans ?_ | with_reducible refine (evalLoops_otp ..).trans ?_ | with_reducible refine (State.recLoop_otp ..).trans ?_ | simp only [mk_otp] | dsimp only | split | intro _)

theorem State.powerFrame_otp (x : Shep) (s : State) : (State.powerFrame x s).otp = s.otp := by
  unfold State.powerFrame
  repeat' (first | with_reducible rfl | with_reducible refine ite2_otp ?_ ?_ | with_reducible refine (foldl_otp _ _ _ ?_).trans ?_ | with_reducible refine (State.fitExclude_otp ..).trans ?_ | with_reducible refine (State.recFrame_otp ..).trans ?_ | simp only [mk_otp] | dsimp only | split | intro _)

theorem doCrosstalkPassStart_otp (x : Shep) (s : State) : (doCrosstalkPassStart x s).otp = s.otp := by
  exact doPassStart_otp _ _ _ fun s => State.powerFrame_otp ..

theorem State.recTrigger_otp (s : State) (post : Nat) : (State.recTrigger s post).otp = s.otp := by
  unfold State.recTrigger
  repeat' (first | with_reducible rfl | with_reducible refine ite2_otp ?_ ?_ | with_reducible refine (both_otp _ _ ?_).trans ?_ | with_reducible refine (State.modRec_otp ..).trans ?_ | simp only [mk_otp] | dsimp only | split | intro _)

theorem State.recEvent_otp (s : State) (f : Fld) : (State.recEvent s f).otp = s.otp := by
  unfold State.recEvent
  repeat' (first | with_reducible rfl | with_reducible refine ite2_otp ?_ ?_ | with_reducible refine (State.recTrigger_otp ..).trans ?_ | simp only [mk_otp] | dsimp only | split | intro _)

theorem doRecorderPostEnd_otp (x : Shep) (s : State) : (doRecorderPostEnd x s).otp = s.otp := by
  unfold doRecorderPostEnd
  repeat' (first | with_reducible rfl | with_reducible refine ite2_otp ?_ ?_ | with_reducible refine (State.modRec_otp ..).trans ?_ | simp only [mk_otp] | dsimp only | split | intro _)

theorem startRecConfig_otp (d : Desc) (s : State) : (startRecConfig d s).otp = s.otp := by
  unfold startRecConfig
  repeat' (first | with_reducible rfl | with_reducible refine ite2_otp ?_ ?_ | with_reducible refine (State.complete_otp ..).trans ?_ | with_reducible refine (State.completeHif_otp ..).trans ?_ | with_reducible refine (State.addJob_otp ..).trans ?_ | simp only [mk_otp] | dsimp only | split | intro _)

theorem State.applyRecConfig_otp (s : State) (bs : List Byte) : (State.applyRecConfig s bs).otp = s.otp := by
  unfold State.applyRecConfig
  repeat' (first | with_reducible rfl | with_reducible refine ite2_otp ?_ ?_ | with_reducible refine (both_otp _ _ ?_).trans ?_ | with_reducible refine (State.pPut_otp ..).trans ?_ | with_reducible refine (State.modRec_otp ..).trans ?_ | with_reducible refine (State.recFrame_otp ..).trans ?_ | with_reducible refine (State.draw_otp ..).trans ?_ | simp only [mk_otp] | dsimp only | dsimp only [State.draw] | split | intro _)

theorem doRecorderConfigEffect_otp (s : State) : (doRecorderConfigEffect s).otp = s.otp := by
  unfold doRecorderConfigEffect
  repeat' (first | with_reducible rfl | with_reducible refine ite2_otp ?_ ?_ | with_reducible refine (State.complete_otp ..).trans ?_ | with_reducible refine (State.endJob_otp ..).trans ?_ | with_reducible refine (State.applyRecConfig_otp ..).trans ?_ | simp only [mk_otp] | dsimp only | split | intro _)

theorem startRecFreeze_otp (d : Desc) (s : State) : (startRecFreeze d s).otp = s.otp := by
  unfold startRecFreeze
  repeat' (first | with_reducible rfl | with_reducible refine ite2_otp ?_ ?_ | with_reducible refine (State.complete_otp ..).trans ?_ | with_reducible refine (State.recTrigger_otp ..).trans ?_ | simp only [mk_otp] | dsimp only | split | intro _)

theorem startRecResume_otp (d : Desc) (s : State) : (startRecResume d s).otp = s.otp := by
  unfold startRecResume
  repeat' (first | with_reducible rfl | with_reducible refine ite2_otp ?_ ?_ | with_reducible refine (both_otp _ _ ?_).trans ?_ | with_reducible refine (State.complete_otp ..).trans ?_ | with_reducible refine (State.modRec_otp ..).trans ?_ | simp only [mk_otp] | dsimp only | split | intro _)

theorem startRecStop_otp (d : Desc) (s : State) : (startRecStop d s).otp = s.otp := by
  unfold startRecStop
  repeat' (first | with_reducible rfl | with_reducible refine ite2_otp ?_ ?_ | with_reducible refine (both_otp _ _ ?_).trans ?_ | with_reducible refine (State.complete_otp ..).trans ?_ | with_reducible refine (State.modRec_otp ..).trans ?_ | simp only [mk_otp] | dsimp only | split | intro _)

theorem startRecControl_otp (d : Desc) (s : State) : (startRecControl d s).otp = s.otp := by
  unfold startRecControl
  repeat' (first | with_reducible rfl | with_reducible refine ite2_otp ?_ ?_ | with_reducible refine (State.complete_otp ..).trans ?_ | with_reducible refine (State.completeHif_otp ..).trans ?_ | with_reducible refine (startRecFreeze_otp ..).trans ?_ | with_reducible refine (startRecResume_otp ..).trans ?_ | with_reducible refine (startRecStop_otp ..).trans ?_ | simp only [mk_otp] | dsimp only | split | intro _)

theorem State.writeOwn_otp (s : State) (addr : Shep → Nat) (bytes : Shep → List Byte) : (State.writeOwn s addr bytes).otp = s.otp := by
  unfold State.writeOwn
  repeat' (first | with_reducible rfl | with_reducible refine ite2_otp ?_ ?_ | with_reducible refine (both_otp _ _ ?_).trans ?_ | with_reducible refine (State.send_otp ..).trans ?_ | simp only [mk_otp] | dsimp only | split | intro _)

theorem startRecRead_otp (d : Desc) (s : State) : (startRecRead d s).otp = s.otp := by
  unfold startRecRead
  repeat' (first | with_reducible rfl | with_reducible refine ite2_otp ?_ ?_ | with_reducible refine (State.complete_otp ..).trans ?_ | with_reducible refine (State.completeHif_otp ..).trans ?_ | with_reducible refine (State.writeOwn_otp ..).trans ?_ | simp only [mk_otp] | dsimp only | split | intro _)

theorem State.writeLayout_otp (s : State) (off : Nat) (v : Word) : (State.writeLayout s off v).otp = s.otp := by
  unfold State.writeLayout
  repeat' (first | with_reducible rfl | with_reducible refine ite2_otp ?_ ?_ | with_reducible refine (both_otp _ _ ?_).trans ?_ | with_reducible refine (State.sPut_otp ..).trans ?_ | with_reducible refine (State.pFlag_otp ..).trans ?_ | with_reducible refine (State.modRec_otp ..).trans ?_ | with_reducible refine (idle_otp ..).trans ?_ | with_reducible refine (State.draw_otp ..).trans ?_ | simp only [mk_otp] | dsimp only | dsimp only [State.draw] | split | intro _)

theorem State.showMap_otp (s : State) : (State.showMap s).otp = s.otp := by
  unfold State.showMap
  repeat' (first | with_reducible rfl | with_reducible refine ite2_otp ?_ ?_ | with_reducible refine (foldl_otp _ _ _ ?_).trans ?_ | with_reducible refine (State.sPut_otp ..).trans ?_ | simp only [mk_otp] | dsimp only | split | intro _)

theorem State.mapEnd_otp (s : State) (d : Desc) (code index : Nat) (result : List Byte) : (State.mapEnd s d code index result).otp = s.otp := by
  unfold State.mapEnd
  repeat' (first | with_reducible rfl | with_reducible refine ite2_otp ?_ ?_ | with_reducible refine (State.sPut_otp ..).trans ?_ | with_reducible refine (State.complete_otp ..).trans ?_ | with_reducible refine (State.droverNext_otp ..).trans ?_ | simp only [mk_otp] | dsimp only | split | intro _)

theorem startMap_otp (d : Desc) (s : State) : (startMap d s).otp = s.otp := by
  unfold startMap
  repeat' (first | with_reducible rfl | with_reducible refine ite2_otp ?_ ?_ | with_reducible refine (State.sPut_otp ..).trans ?_ | with_reducible refine (State.addJob_otp ..).trans ?_ | with_reducible refine (State.mapEnd_otp ..).trans ?_ | simp only [mk_otp] | dsimp only | split | intro _)

theorem doMapValidationDone_otp (s : State) : (doMapValidationDone s).otp = s.otp := by
  unfold doMapValidationDone
  repeat' (first | with_reducible rfl | with_reducible refine ite2_otp ?_ ?_ | with_reducible refine (State.sPut_otp ..).trans ?_ | with_reducible refine (State.endJob_otp ..).trans ?_ | with_reducible refine (State.setJob_otp ..).trans ?_ | with_reducible refine (State.mapEnd_otp ..).trans ?_ | simp only [mk_otp] | dsimp only | split | intro _)

theorem State.mapClear_otp (s : State) (dom : Nat → Bool) : (State.mapClear s dom).otp = s.otp := by
  unfold State.mapClear
  repeat' (first | with_reducible rfl | with_reducible refine ite2_otp ?_ ?_ | with_reducible refine (State.cancelSchedules_otp ..).trans ?_ | simp only [mk_otp] | dsimp only | split | intro _)

theorem State.mapNumbers_otp (s : State) : (State.mapNumbers s).otp = s.otp := by
  unfold State.mapNumbers
  repeat' (first | with_reducible rfl | with_reducible refine ite2_otp ?_ ?_ | with_reducible refine (foldl_otp _ _ _ ?_).trans ?_ | with_reducible refine (State.modPdk_otp ..).trans ?_ | simp only [mk_otp] | dsimp only | split | intro _)

theorem State.mapChan_otp (s : State) (e : Elem) : (State.mapChan s e).otp = s.otp := by
  unfold State.mapChan
  repeat' (first | with_reducible rfl | with_reducible refine ite2_otp ?_ ?_ | with_reducible refine (both_otp _ _ ?_).trans ?_ | with_reducible refine (State.sPut_otp ..).trans ?_ | with_reducible refine (State.modDyn_otp ..).trans ?_ | with_reducible refine (State.seedLoop_otp ..).trans ?_ | simp only [mk_otp] | dsimp only | split | intro _)

theorem State.mapLoss_otp (s : State) (dom : Nat → Bool) (cells : List CellRec) (doms : List DomRec) : (State.mapLoss s dom cells doms).otp = s.otp := by
  unfold State.mapLoss
  repeat' (first | with_reducible rfl | with_reducible refine ite2_otp ?_ ?_ | with_reducible refine (foldl_otp _ _ _ ?_).trans ?_ | with_reducible refine (both_otp _ _ ?_).trans ?_ | with_reducible refine (State.dropRegs_otp ..).trans ?_ | with_reducible refine (State.sWr_otp ..).trans ?_ | simp only [mk_otp] | dsimp only | split | intro _)

theorem State.mapDrive_otp (s : State) (e : Elem) : (State.mapDrive s e).otp = s.otp := by
  unfold State.mapDrive
  repeat' (first | with_reducible rfl | with_reducible refine ite2_otp ?_ ?_ | with_reducible refine (State.writeDrvCtrl_otp ..).trans ?_ | with_reducible refine (idle_otp ..).trans ?_ | simp only [mk_otp] | dsimp only | split | intro _)

theorem State.driveBoundary_otp (s : State) : (State.driveBoundary s).otp = s.otp := by
  unfold State.driveBoundary
  repeat' (first | with_reducible rfl | with_reducible refine ite2_otp ?_ ?_ | with_reducible refine (foldl_otp _ _ _ ?_).trans ?_ | with_reducible refine (State.mapDrive_otp ..).trans ?_ | simp only [mk_otp] | dsimp only | split | intro _)

theorem State.mapUnmapped_otp (s : State) (was : List Nat) : (State.mapUnmapped s was).otp = s.otp := by
  unfold State.mapUnmapped
  repeat' (first | with_reducible rfl | with_reducible refine ite2_otp ?_ ?_ | with_reducible refine (foldl_otp _ _ _ ?_).trans ?_ | with_reducible refine (State.dPut_otp ..).trans ?_ | with_reducible refine (State.modChan_otp ..).trans ?_ | with_reducible refine (idle_otp ..).trans ?_ | simp only [mk_otp] | dsimp only | split | intro _)

theorem State.installMap_otp (s : State) (d : Desc) (m : FabricMap) : (State.installMap s d m).otp = s.otp := by
  unfold State.installMap
  repeat' (first | with_reducible rfl | with_reducible refine ite2_otp ?_ ?_ | with_reducible refine (foldl_otp _ _ _ ?_).trans ?_ | with_reducible refine (State.event_otp ..).trans ?_ | with_reducible refine (State.settleAll_otp ..).trans ?_ | with_reducible refine (State.evalCollisions_otp ..).trans ?_ | with_reducible refine (State.assignCodes_otp ..).trans ?_ | with_reducible refine (State.resetComp_otp ..).trans ?_ | with_reducible refine (State.resetCompDom_otp ..).trans ?_ | with_reducible refine (State.showMap_otp ..).trans ?_ | with_reducible refine (State.mapEnd_otp ..).trans ?_ | with_reducible refine (State.mapClear_otp ..).trans ?_ | with_reducible refine (State.mapNumbers_otp ..).trans ?_ | with_reducible refine (State.mapChan_otp ..).trans ?_ | with_reducible refine (State.mapLoss_otp ..).trans ?_ | with_reducible refine (State.mapDrive_otp ..).trans ?_ | with_reducible refine (State.mapUnmapped_otp ..).trans ?_ | simp only [mk_otp] | dsimp only | split | intro _)

theorem doMapTakesEffect_otp (s : State) : (doMapTakesEffect s).otp = s.otp := by
  unfold doMapTakesEffect
  repeat' (first | with_reducible rfl | with_reducible refine ite2_otp ?_ ?_ | with_reducible refine (State.endJob_otp ..).trans ?_ | with_reducible refine (State.mapEnd_otp ..).trans ?_ | with_reducible refine (State.installMap_otp ..).trans ?_ | simp only [mk_otp] | dsimp only | split | intro _)

theorem State.mapLost_otp (s : State) : (State.mapLost s).otp = s.otp := by
  unfold State.mapLost
  repeat' (first | with_reducible rfl | with_reducible refine ite2_otp ?_ ?_ | with_reducible refine (State.event_otp ..).trans ?_ | with_reducible refine (State.showMap_otp ..).trans ?_ | with_reducible refine (State.mapUnmapped_otp ..).trans ?_ | simp only [mk_otp] | dsimp only | split | intro _)

theorem State.foldUnit_otp (s : State) (x : Shep) (u : FoldUnit) : (State.foldUnit s x u).otp = s.otp := by
  unfold State.foldUnit
  repeat' (first | with_reducible rfl | with_reducible refine ite2_otp ?_ ?_ | with_reducible refine (both_otp _ _ ?_).trans ?_ | with_reducible refine (State.modSh_otp ..).trans ?_ | with_reducible refine (State.pCount_otp ..).trans ?_ | with_reducible refine (State.event_otp ..).trans ?_ | with_reducible refine (State.completeHif_otp ..).trans ?_ | with_reducible refine (State.modRec_otp ..).trans ?_ | simp only [mk_otp] | dsimp only | split | intro _)

theorem doFoldEccError_otp (x : Shep) (ue : Bool) (u : FoldUnit) (s : State) : (doFoldEccError x ue u s).otp = s.otp := by
  unfold doFoldEccError
  repeat' (first | with_reducible rfl | with_reducible refine ite2_otp ?_ ?_ | with_reducible refine (State.pFlag_otp ..).trans ?_ | with_reducible refine (State.pCount_otp ..).trans ?_ | with_reducible refine (State.alarm_otp ..).trans ?_ | with_reducible refine (State.foldUnit_otp ..).trans ?_ | simp only [mk_otp] | dsimp only | split | intro _)

theorem State.bankLatch_otp (s : State) (x : Shep) (bank word : Nat) : (State.bankLatch s x bank word).otp = s.otp := by
  unfold State.bankLatch
  repeat' (first | with_reducible rfl | with_reducible refine ite2_otp ?_ ?_ | with_reducible refine (State.pPut_otp ..).trans ?_ | with_reducible refine (State.pFlag_otp ..).trans ?_ | with_reducible refine (State.pCount_otp ..).trans ?_ | simp only [mk_otp] | dsimp only | split | intro _)

theorem State.bankMend_otp (s : State) (x : Shep) (bank : Nat) (off : Option Nat) : (State.bankMend s x bank off).otp = s.otp := by
  unfold State.bankMend
  repeat' (first | with_reducible rfl | with_reducible refine ite2_otp ?_ ?_ | with_reducible refine (State.wr_otp ..).trans ?_ | with_reducible refine (State.report_otp ..).trans ?_ | simp only [mk_otp] | dsimp only | split | intro _)

theorem doBankEccError_otp (x : Shep) (double : Bool) (bank word : Nat) (off : Option Nat) (s : State) : (doBankEccError x double bank word off s).otp = s.otp := by
  unfold doBankEccError
  repeat' (first | with_reducible rfl | with_reducible refine ite2_otp ?_ ?_ | with_reducible refine (State.bankMend_otp ..).trans ?_ | with_reducible refine (State.bankLatch_otp ..).trans ?_ | with_reducible refine (State.pCount_otp ..).trans ?_ | simp only [mk_otp] | dsimp only | split | intro _)

theorem State.bankCycle_otp (s : State) (c : BankCycle) : (State.bankCycle s c).otp = s.otp := by
  unfold State.bankCycle
  repeat' (first | with_reducible rfl | with_reducible refine ite2_otp ?_ ?_ | with_reducible refine (State.modSh_otp ..).trans ?_ | with_reducible refine (State.pFlag_otp ..).trans ?_ | simp only [mk_otp] | dsimp only | split | intro _)

theorem State.bankTick_otp (s : State) (cs : List BankCycle) : (State.bankTick s cs).otp = s.otp := by
  unfold State.bankTick
  repeat' (first | with_reducible rfl | with_reducible refine ite2_otp ?_ ?_ | with_reducible refine (foldl_otp _ _ _ ?_).trans ?_ | with_reducible refine (both_otp _ _ ?_).trans ?_ | with_reducible refine (State.modSh_otp ..).trans ?_ | with_reducible refine (State.bankCycle_otp ..).trans ?_ | simp only [mk_otp] | dsimp only | split | intro _)

theorem State.wipeRange_otp (s : State) (lo hi : Nat) : (State.wipeRange s lo hi).otp = s.otp := by
  unfold State.wipeRange
  repeat' (first | with_reducible rfl | with_reducible refine ite2_otp ?_ ?_ | with_reducible refine (both_otp _ _ ?_).trans ?_ | with_reducible refine (State.dropRegs_otp ..).trans ?_ | simp only [mk_otp] | dsimp only | split | intro _)

theorem State.loseContent_otp (s : State) (k : Nat) : (State.loseContent s k).otp = s.otp := by
  unfold State.loseContent
  repeat' (first | with_reducible rfl | with_reducible refine ite2_otp ?_ ?_ | with_reducible refine (foldl_otp _ _ _ ?_).trans ?_ | with_reducible refine (both_otp _ _ ?_).trans ?_ | with_reducible refine (State.modSh_otp ..).trans ?_ | with_reducible refine (State.seedLoop_otp ..).trans ?_ | with_reducible refine (State.mapLost_otp ..).trans ?_ | with_reducible refine (State.wipeRange_otp ..).trans ?_ | simp only [mk_otp] | dsimp only | split | intro _)

theorem State.loseBanks_otp (s : State) (lost : Nat → Bool) : (State.loseBanks s lost).otp = s.otp := by
  unfold State.loseBanks
  repeat' (first | with_reducible rfl | with_reducible refine ite2_otp ?_ ?_ | with_reducible refine (foldl_otp _ _ _ ?_).trans ?_ | with_reducible refine (both_otp _ _ ?_).trans ?_ | with_reducible refine (State.modSh_otp ..).trans ?_ | with_reducible refine (State.loseContent_otp ..).trans ?_ | simp only [mk_otp] | dsimp only | split | intro _)

theorem startMarch_otp (d : Desc) (s : State) : (startMarch d s).otp = s.otp := by
  unfold startMarch
  repeat' (first | with_reducible rfl | with_reducible refine ite2_otp ?_ ?_ | with_reducible refine (both_otp _ _ ?_).trans ?_ | with_reducible refine (State.pFlag_otp ..).trans ?_ | with_reducible refine (State.complete_otp ..).trans ?_ | with_reducible refine (State.completeHif_otp ..).trans ?_ | with_reducible refine (State.addJob_otp ..).trans ?_ | simp only [mk_otp] | dsimp only | split | intro _)

theorem State.marchResult_otp (s : State) (x : Shep) (fs : List MarchFail) : (State.marchResult s x fs).otp = s.otp := by
  unfold State.marchResult
  repeat' (first | with_reducible rfl | with_reducible refine ite2_otp ?_ ?_ | with_reducible refine (State.pPut_otp ..).trans ?_ | with_reducible refine (State.pFlag_otp ..).trans ?_ | with_reducible refine (State.pCount_otp ..).trans ?_ | with_reducible refine (State.alarm_otp ..).trans ?_ | simp only [mk_otp] | dsimp only | split | intro _)

theorem doMarchDone_otp (a b : List MarchFail) (s : State) : (doMarchDone a b s).otp = s.otp := by
  unfold doMarchDone
  repeat' (first | with_reducible rfl | with_reducible refine ite2_otp ?_ ?_ | with_reducible refine (both_otp _ _ ?_).trans ?_ | with_reducible refine (State.complete_otp ..).trans ?_ | with_reducible refine (State.endJob_otp ..).trans ?_ | with_reducible refine (State.writeOwn_otp ..).trans ?_ | with_reducible refine (State.loseBanks_otp ..).trans ?_ | with_reducible refine (State.marchResult_otp ..).trans ?_ | simp only [mk_otp] | dsimp only | split | intro _)

theorem State.refuse_otp (s : State) (x : Shep) (m t : Nat) (write : Bool) (addr : Nat) : (State.refuse s x m t write addr).otp = s.otp := by
  unfold State.refuse
  repeat' (first | with_reducible rfl | with_reducible refine ite2_otp ?_ ?_ | with_reducible refine (State.wr_otp ..).trans ?_ | with_reducible refine (State.pPut_otp ..).trans ?_ | with_reducible refine (State.pCount_otp ..).trans ?_ | with_reducible refine (State.noticeLocal_otp ..).trans ?_ | simp only [mk_otp] | dsimp only | split | intro _)

theorem doMatrixRefused_otp (x : Shep) (m t : Nat) (write : Bool) (addr beats : Nat) (s : State) : (doMatrixRefused x m t write addr beats s).otp = s.otp := by
  unfold doMatrixRefused
  repeat' (first | with_reducible rfl | with_reducible refine ite2_otp ?_ ?_ | with_reducible refine (State.refuse_otp ..).trans ?_ | simp only [mk_otp] | dsimp only | split | intro _)

theorem State.modTxns_otp (s : State) (x : Shep) (f : List MtxTxn → List MtxTxn) : (State.modTxns s x f).otp = s.otp := by
  unfold State.modTxns
  repeat' (first | with_reducible rfl | with_reducible refine ite2_otp ?_ ?_ | with_reducible refine (State.modSh_otp ..).trans ?_ | simp only [mk_otp] | dsimp only | split | intro _)

theorem State.issue_otp (s : State) (x : Shep) (t : MtxTxn) : (State.issue s x t).otp = s.otp := by
  unfold State.issue
  repeat' (first | with_reducible rfl | with_reducible refine ite2_otp ?_ ?_ | with_reducible refine (State.refuse_otp ..).trans ?_ | with_reducible refine (State.modTxns_otp ..).trans ?_ | simp only [mk_otp] | dsimp only | split | intro _)

theorem State.deliverBeat_otp (s : State) (x : Shep) (t : MtxTxn) (beat : Nat × BitVec 256) : (State.deliverBeat s x t beat).otp = s.otp := by
  unfold State.deliverBeat
  repeat' (first | with_reducible rfl | with_reducible refine ite2_otp ?_ ?_ | with_reducible refine (foldl_otp _ _ _ ?_).trans ?_ | with_reducible refine (foldl_otp_fst _ _ _ ?_).trans ?_ | with_reducible refine (foldl_otp_snd _ _ _ ?_).trans ?_ | with_reducible refine (State.modSh_otp ..).trans ?_ | with_reducible refine (State.beat_otp ..).trans ?_ | simp only [mk_otp] | dsimp only | split | intro _)

theorem State.passBeat_otp (s : State) (x : Shep) (m id : Nat) : (State.passBeat s x m id).otp = s.otp := by
  unfold State.passBeat
  repeat' (first | with_reducible rfl | with_reducible refine ite2_otp ?_ ?_ | with_reducible refine (State.drop_otp ..).trans ?_ | with_reducible refine (State.modTxns_otp ..).trans ?_ | with_reducible refine (State.deliverBeat_otp ..).trans ?_ | simp only [mk_otp] | dsimp only | split | intro _)

theorem State.busEvent_otp (s : State) (e : BusEvent) : (State.busEvent s e).otp = s.otp := by
  unfold State.busEvent
  repeat' (first | with_reducible rfl | with_reducible refine ite2_otp ?_ ?_ | with_reducible refine (State.modTxns_otp ..).trans ?_ | with_reducible refine (State.issue_otp ..).trans ?_ | with_reducible refine (State.passBeat_otp ..).trans ?_ | with_reducible refine (State.beat_otp ..).trans ?_ | simp only [mk_otp] | dsimp only | split | intro _)

theorem State.mastersReset_otp (s : State) (x : Shep) (ms : List Nat) : (State.mastersReset s x ms).otp = s.otp := by
  unfold State.mastersReset
  repeat' (first | with_reducible rfl | with_reducible refine ite2_otp ?_ ?_ | with_reducible refine (State.modTxns_otp ..).trans ?_ | simp only [mk_otp] | dsimp only | split | intro _)

theorem State.retire_otp (s : State) (x : Shep) : (State.retire s x).otp = s.otp := by
  unfold State.retire
  repeat' (first | with_reducible rfl | with_reducible refine ite2_otp ?_ ?_ | with_reducible refine (State.pCount_otp ..).trans ?_ | with_reducible refine (State.modTxns_otp ..).trans ?_ | simp only [mk_otp] | dsimp only | split | intro _)

theorem State.busTick_otp (s : State) (es : List BusEvent) : (State.busTick s es).otp = s.otp := by
  unfold State.busTick
  repeat' (first | with_reducible rfl | with_reducible refine ite2_otp ?_ ?_ | with_reducible refine (foldl_otp _ _ _ ?_).trans ?_ | with_reducible refine (both_otp _ _ ?_).trans ?_ | with_reducible refine (State.busEvent_otp ..).trans ?_ | with_reducible refine (State.retire_otp ..).trans ?_ | simp only [mk_otp] | dsimp only | split | intro _)

theorem State.modeEvent_otp (s : State) (old : Mode) (cause : Nat) : (State.modeEvent s old cause).otp = s.otp := by
  unfold State.modeEvent
  repeat' (first | with_reducible rfl | with_reducible refine ite2_otp ?_ ?_ | with_reducible refine (State.event_otp ..).trans ?_ | with_reducible refine (State.cause_otp ..).trans ?_ | simp only [mk_otp] | dsimp only | split | intro _)

theorem State.seedPark_otp (s : State) (c : Nat) : (State.seedPark s c).otp = s.otp := by
  unfold State.seedPark
  repeat' (first | with_reducible rfl | with_reducible refine ite2_otp ?_ ?_ | with_reducible refine (State.seedLoop_otp ..).trans ?_ | simp only [mk_otp] | dsimp only | split | intro _)

theorem State.releaseDomains_otp (s : State) (mask : Nat) : (State.releaseDomains s mask).otp = s.otp := by
  unfold State.releaseDomains
  repeat' (first | with_reducible rfl | with_reducible refine ite2_otp ?_ ?_ | with_reducible refine (foldl_otp _ _ _ ?_).trans ?_ | with_reducible refine (State.sPut_otp ..).trans ?_ | with_reducible refine (State.rotSelect_otp ..).trans ?_ | with_reducible refine (State.seedPark_otp ..).trans ?_ | simp only [mk_otp] | dsimp only | split | intro _)

theorem State.setMode_otp (s : State) (m : Mode) (oos : OutOfService) (cause : Nat) : (State.setMode s m oos cause).otp = s.otp := by
  unfold State.setMode
  repeat' (first | with_reducible rfl | with_reducible refine ite2_otp ?_ ?_ | with_reducible refine (State.settleAll_otp ..).trans ?_ | with_reducible refine (State.modeEvent_otp ..).trans ?_ | with_reducible refine (State.cause_otp ..).trans ?_ | simp only [mk_otp] | dsimp only | split | intro _)

theorem State.enterParked_otp (s : State) (cause : Nat) : (State.enterParked s cause).otp = s.otp := by
  unfold State.enterParked
  repeat' (first | with_reducible rfl | with_reducible refine ite2_otp ?_ ?_ | with_reducible refine (State.resume_otp ..).trans ?_ | with_reducible refine (State.cancelSchedules_otp ..).trans ?_ | with_reducible refine (State.releaseDomains_otp ..).trans ?_ | with_reducible refine (State.setMode_otp ..).trans ?_ | with_reducible refine (State.cause_otp ..).trans ?_ | simp only [mk_otp] | dsimp only | split | intro _)

theorem State.enterService_otp (s : State) (noSeed : Bool) (cause : Nat) : (State.enterService s noSeed cause).otp = s.otp := by
  unfold State.enterService
  repeat' (first | with_reducible rfl | with_reducible refine ite2_otp ?_ ?_ | with_reducible refine (foldl_otp _ _ _ ?_).trans ?_ | with_reducible refine (State.rotSelect_otp ..).trans ?_ | with_reducible refine (State.seedPark_otp ..).trans ?_ | with_reducible refine (State.setMode_otp ..).trans ?_ | with_reducible refine (State.cause_otp ..).trans ?_ | simp only [mk_otp] | dsimp only | split | intro _)

theorem State.enterMaintenance_otp (s : State) (oos : OutOfService) (cause : Nat) : (State.enterMaintenance s oos cause).otp = s.otp := by
  unfold State.enterMaintenance
  repeat' (first | with_reducible rfl | with_reducible refine ite2_otp ?_ ?_ | with_reducible refine (foldl_otp _ _ _ ?_).trans ?_ | with_reducible refine (State.domainOut_otp ..).trans ?_ | with_reducible refine (State.setMode_otp ..).trans ?_ | with_reducible refine (State.cause_otp ..).trans ?_ | simp only [mk_otp] | dsimp only | split | intro _)

theorem State.wakePdks_otp (s : State) (ps : List Nat) : (State.wakePdks s ps).otp = s.otp := by
  unfold State.wakePdks
  repeat' (first | with_reducible rfl | with_reducible refine ite2_otp ?_ ?_ | simp only [mk_otp] | dsimp only | split | intro _)

theorem State.sweepStrobe_otp (s : State) : (State.sweepStrobe s).otp = s.otp := by
  unfold State.sweepStrobe
  repeat' (first | with_reducible rfl | with_reducible refine ite2_otp ?_ ?_ | with_reducible refine (foldl_otp _ _ _ ?_).trans ?_ | with_reducible refine (State.modChan_otp ..).trans ?_ | with_reducible refine (State.takeForced_otp ..).trans ?_ | simp only [mk_otp] | dsimp only | split | intro _)

theorem State.stageTables_otp (s : State) (c : Nat) (r : SrvRec) (hysOk rip : Bool) : (State.stageTables s c r hysOk rip).otp = s.otp := by
  unfold State.stageTables
  repeat' (first | with_reducible rfl | with_reducible refine ite2_otp ?_ ?_ | with_reducible refine (foldl_otp _ _ _ ?_).trans ?_ | with_reducible refine (State.sWr_otp ..).trans ?_ | with_reducible refine (State.writeStageCtrl_otp ..).trans ?_ | simp only [mk_otp] | dsimp only | split | intro _)

theorem State.applyRec_otp (s : State) (e : Elem) (r : SrvRec) : (State.applyRec s e r).otp = s.otp := by
  unfold State.applyRec
  repeat' (first | simp only [mk_otp] | with_reducible rfl | with_reducible refine ite2_otp ?_ ?_ | with_reducible refine (State.sPut_otp ..).trans ?_ | with_reducible refine (State.stageTables_otp ..).trans ?_ | simp only [mk_otp] | dsimp only | split | intro _)

theorem State.modSurvey_otp (s : State) (f : Survey → Survey) : (State.modSurvey s f).otp = s.otp := by
  unfold State.modSurvey
  repeat' (first | with_reducible rfl | with_reducible refine ite2_otp ?_ ?_ | simp only [mk_otp] | dsimp only | split | intro _)

theorem State.surveyEvent_otp (s : State) : (State.surveyEvent s).otp = s.otp := by
  unfold State.surveyEvent
  repeat' (first | with_reducible rfl | with_reducible refine ite2_otp ?_ ?_ | with_reducible refine (State.event_otp ..).trans ?_ | simp only [mk_otp] | dsimp only | split | intro _)

theorem State.darkOutside_otp (s : State) (v : Survey) (e : Elem) : (State.darkOutside s v e).otp = s.otp := by
  unfold State.darkOutside
  repeat' (first | with_reducible rfl | with_reducible refine ite2_otp ?_ ?_ | with_reducible refine (State.sPut_otp ..).trans ?_ | with_reducible refine (State.applyRec_otp ..).trans ?_ | simp only [mk_otp] | dsimp only | split | intro _)

theorem State.finishEl_otp (s : State) (c status : Nat) : (State.finishEl s c status).otp = s.otp := by
  unfold State.finishEl
  split
  · rfl
  · split
    · rfl
    · split
      · rfl
      · extract_lets kept r0 r1 r2 r3 s1 s2 s3 s4 n s5
        have h1 : s1.otp = s.otp := by
          cases hk : kept with
          | none => simp only [s1, hk]; exact ite2_otp (State.applyRec_otp ..) rfl
          | some k => simp only [s1, hk]; exact ite2_otp rfl (State.applyRec_otp ..)
        have h2 : s2.otp = s1.otp := (State.sPut_otp ..).trans (State.sPut_otp ..)
        have h3 : s3.otp = s2.otp :=
          ite2_otp (both_otp _ _ fun x s => State.pFlag_otp ..) (ite2_otp (both_otp _ _ fun x s => State.pFlag_otp ..) rfl)
        have h4 : s4.otp = s3.otp := State.modSurvey_otp ..
        have h5 : s5.otp = s4.otp := both_otp _ _ fun x s => State.pPut_otp ..
        exact ite2_otp (by rw [State.surveyEvent_otp, h5, h4, h3, h2, h1]) (by rw [h5, h4, h3, h2, h1])

theorem State.darkCell_otp (s : State) (e : Elem) : (State.darkCell s e).otp = s.otp := by
  unfold State.darkCell
  repeat' (first | with_reducible rfl | with_reducible refine ite2_otp ?_ ?_ | with_reducible refine (foldl_otp _ _ _ ?_).trans ?_ | with_reducible refine (State.darkOutside_otp ..).trans ?_ | with_reducible refine (State.finishEl_otp ..).trans ?_ | simp only [mk_otp] | dsimp only | split | intro _)

theorem State.surveyPhase_otp (s : State) (p : Nat) : (State.surveyPhase s p).otp = s.otp := by
  unfold State.surveyPhase
  repeat' (first | with_reducible rfl | with_reducible refine ite2_otp ?_ ?_ | with_reducible refine (both_otp _ _ ?_).trans ?_ | with_reducible refine (State.pPut_otp ..).trans ?_ | with_reducible refine (State.modSurvey_otp ..).trans ?_ | with_reducible refine (State.surveyEvent_otp ..).trans ?_ | simp only [mk_otp] | dsimp only | split | intro _)

theorem State.restoreRanges_otp (s : State) (v : Survey) : (State.restoreRanges s v).otp = s.otp := by
  unfold State.restoreRanges
  repeat' (first | with_reducible rfl | with_reducible refine ite2_otp ?_ ?_ | with_reducible refine (foldl_otp _ _ _ ?_).trans ?_ | with_reducible refine (State.writeSnsCtrl_otp ..).trans ?_ | simp only [mk_otp] | dsimp only | split | intro _)

theorem State.surveyCode_otp (s : State) (d : Desc) (code : Nat) (result : List Byte) : (State.surveyCode s d code result).otp = s.otp := by
  unfold State.surveyCode
  repeat' (first | with_reducible rfl | with_reducible refine ite2_otp ?_ ?_ | with_reducible refine (both_otp _ _ ?_).trans ?_ | with_reducible refine (State.pPut_otp ..).trans ?_ | with_reducible refine (State.complete_otp ..).trans ?_ | simp only [mk_otp] | dsimp only | split | intro _)

theorem State.surveyEnd_otp (s : State) : (State.surveyEnd s).otp = s.otp := by
  unfold State.surveyEnd
  repeat' (first | with_reducible rfl | with_reducible refine ite2_otp ?_ ?_ | with_reducible refine (both_otp _ _ ?_).trans ?_ | with_reducible refine (State.pPut_otp ..).trans ?_ | with_reducible refine (State.settleAll_otp ..).trans ?_ | with_reducible refine (State.enterParked_otp ..).trans ?_ | with_reducible refine (State.sweepStrobe_otp ..).trans ?_ | with_reducible refine (State.surveyPhase_otp ..).trans ?_ | with_reducible refine (State.restoreRanges_otp ..).trans ?_ | with_reducible refine (State.surveyCode_otp ..).trans ?_ | simp only [mk_otp] | dsimp only | split | intro _)

theorem nextBatch_otp (a0_ : Nat) (s_ : State) : (nextBatch a0_ s_).otp = s_.otp := by
  induction a0_ generalizing s_ with
  | zero => rfl
  | succ n ih =>
    unfold nextBatch
    repeat' (first | with_reducible rfl | with_reducible refine ite2_otp ?_ ?_ | with_reducible refine (ih _).trans ?_ | with_reducible refine (State.sweepStrobe_otp ..).trans ?_ | with_reducible refine (State.modSurvey_otp ..).trans ?_ | with_reducible refine (State.surveyEnd_otp ..).trans ?_ | with_reducible refine (State.pass_otp ..).trans ?_ | simp only [mk_otp] | dsimp only | split | intro _)

theorem State.surveyElements_otp (s : State) : (State.surveyElements s).otp = s.otp := by
  unfold State.surveyElements
  repeat' (first | with_reducible rfl | with_reducible refine ite2_otp ?_ ?_ | with_reducible refine (foldl_otp _ _ _ ?_).trans ?_ | with_reducible refine (State.modSurvey_otp ..).trans ?_ | with_reducible refine (State.finishEl_otp ..).trans ?_ | with_reducible refine (State.surveyPhase_otp ..).trans ?_ | with_reducible refine (nextBatch_otp ..).trans ?_ | with_reducible refine (State.pass_otp ..).trans ?_ | simp only [mk_otp] | dsimp only | split | intro _)

theorem State.toBandgap_otp (s : State) (p st : Nat) : (State.toBandgap s p st).otp = s.otp := by
  unfold State.toBandgap
  repeat' (first | with_reducible rfl | with_reducible refine ite2_otp ?_ ?_ | with_reducible refine (both_otp _ _ ?_).trans ?_ | with_reducible refine (State.dPut_otp ..).trans ?_ | with_reducible refine (State.pFlag_otp ..).trans ?_ | with_reducible refine (State.report_otp ..).trans ?_ | simp only [mk_otp] | dsimp only | split | intro _)

theorem State.calRef_otp (s : State) (p : Nat) : (State.calRef s p).otp = s.otp := by
  unfold State.calRef
  repeat' (first | with_reducible rfl | with_reducible refine ite2_otp ?_ ?_ | with_reducible refine (State.dPut_otp ..).trans ?_ | with_reducible refine (State.toBandgap_otp ..).trans ?_ | simp only [mk_otp] | dsimp only | split | intro _)

theorem State.surveyBegin_otp (s : State) : (State.surveyBegin s).otp = s.otp := by
  unfold State.surveyBegin
  repeat' (first | with_reducible rfl | with_reducible refine ite2_otp ?_ ?_ | with_reducible refine (foldl_otp _ _ _ ?_).trans ?_ | with_reducible refine (both_otp _ _ ?_).trans ?_ | with_reducible refine (State.pPut_otp ..).trans ?_ | with_reducible refine (State.setMode_otp ..).trans ?_ | with_reducible refine (State.modSurvey_otp ..).trans ?_ | with_reducible refine (State.surveyPhase_otp ..).trans ?_ | with_reducible refine (State.surveyElements_otp ..).trans ?_ | with_reducible refine (State.calRef_otp ..).trans ?_ | simp only [mk_otp] | dsimp only | split | intro _)

theorem startSurvey_otp (d : Desc) (s : State) : (startSurvey d s).otp = s.otp := by
  unfold startSurvey
  repeat' (first | with_reducible rfl | with_reducible refine ite2_otp ?_ ?_ | with_reducible refine (State.completeHif_otp ..).trans ?_ | with_reducible refine (State.drop_otp ..).trans ?_ | with_reducible refine (State.wakePdks_otp ..).trans ?_ | with_reducible refine (State.surveyCode_otp ..).trans ?_ | with_reducible refine (State.surveyBegin_otp ..).trans ?_ | simp only [mk_otp] | dsimp only | split | intro _)

theorem State.startupCal_otp (s : State) : (State.startupCal s).otp = s.otp := by
  unfold State.startupCal
  repeat' (first | with_reducible rfl | with_reducible refine ite2_otp ?_ ?_ | with_reducible refine (State.surveyBegin_otp ..).trans ?_ | simp only [mk_otp] | dsimp only | split | intro _)

theorem State.surveyStop_otp (s : State) : (State.surveyStop s).otp = s.otp := by
  unfold State.surveyStop
  repeat' (first | with_reducible rfl | with_reducible refine ite2_otp ?_ ?_ | with_reducible refine (foldl_otp _ _ _ ?_).trans ?_ | with_reducible refine (State.modSurvey_otp ..).trans ?_ | with_reducible refine (State.finishEl_otp ..).trans ?_ | with_reducible refine (State.surveyEnd_otp ..).trans ?_ | simp only [mk_otp] | dsimp only | split | intro _)

theorem startSurveyAbort_otp (d : Desc) (s : State) : (startSurveyAbort d s).otp = s.otp := by
  unfold startSurveyAbort
  repeat' (first | with_reducible rfl | with_reducible refine ite2_otp ?_ ?_ | with_reducible refine (State.complete_otp ..).trans ?_ | with_reducible refine (State.addJob_otp ..).trans ?_ | with_reducible refine (State.modSurvey_otp ..).trans ?_ | simp only [mk_otp] | dsimp only | split | intro _)

theorem State.calPhase_otp (s : State) : (State.calPhase s).otp = s.otp := by
  unfold State.calPhase
  repeat' (first | with_reducible rfl | with_reducible refine ite2_otp ?_ ?_ | with_reducible refine (State.surveyPhase_otp ..).trans ?_ | simp only [mk_otp] | dsimp only | split | intro _)

theorem State.calStep_otp (s : State) : (State.calStep s).otp = s.otp := by
  unfold State.calStep
  split
  · split
    · show (ite ((s.draw 1).1 = 1) (s.draw 1).2.calPhase (s.draw 1).2).otp = s.otp
      exact ite2_otp ((State.calPhase_otp _).trans (State.draw_otp s 1)) (State.draw_otp s 1)
    · rfl
  · rfl

theorem State.surveyBoundary_otp (s : State) : (State.surveyBoundary s).otp = s.otp := by
  unfold State.surveyBoundary
  repeat' (first | with_reducible rfl | with_reducible refine ite2_otp ?_ ?_ | with_reducible refine (State.complete_otp ..).trans ?_ | with_reducible refine (State.endJob_otp ..).trans ?_ | with_reducible refine (State.modSurvey_otp ..).trans ?_ | with_reducible refine (State.surveyBegin_otp ..).trans ?_ | with_reducible refine (State.surveyStop_otp ..).trans ?_ | with_reducible refine (State.calStep_otp ..).trans ?_ | simp only [mk_otp] | dsimp only | split | intro _)

theorem startSurveyExport_otp (d : Desc) (s : State) : (startSurveyExport d s).otp = s.otp := by
  unfold startSurveyExport
  repeat' (first | with_reducible rfl | with_reducible refine ite2_otp ?_ ?_ | with_reducible refine (State.complete_otp ..).trans ?_ | with_reducible refine (State.completeHif_otp ..).trans ?_ | with_reducible refine (State.writeOut_otp ..).trans ?_ | simp only [mk_otp] | dsimp only | split | intro _)

theorem State.surveySample_otp (s : State) (t : Nat) : (State.surveySample s t).otp = s.otp := by
  unfold State.surveySample
  repeat' (first | with_reducible rfl | with_reducible refine ite2_otp ?_ ?_ | with_reducible refine (foldl_otp _ _ _ ?_).trans ?_ | with_reducible refine (State.modSurvey_otp ..).trans ?_ | with_reducible refine (State.cleared_otp ..).trans ?_ | simp only [mk_otp] | dsimp only | split | intro _)

theorem State.lowerRange_otp (s : State) (m : Nat) : (State.lowerRange s m).otp = s.otp := by
  unfold State.lowerRange
  repeat' (first | with_reducible rfl | with_reducible refine ite2_otp ?_ ?_ | with_reducible refine (State.writeSnsCtrl_otp ..).trans ?_ | simp only [mk_otp] | dsimp only | split | intro _)

theorem State.surveyOver_otp (s : State) (v : Survey) (b : Batch) (e : SvEl) : (State.surveyOver s v b e).otp = s.otp := by
  unfold State.surveyOver
  repeat' (first | with_reducible rfl | with_reducible refine ite2_otp ?_ ?_ | with_reducible refine (foldl_otp _ _ _ ?_).trans ?_ | with_reducible refine (State.modSurvey_otp ..).trans ?_ | with_reducible refine (State.finishEl_otp ..).trans ?_ | with_reducible refine (State.lowerRange_otp ..).trans ?_ | simp only [mk_otp] | dsimp only | split | intro _)

theorem State.lightInt_otp (s : State) (r : Rat) : (State.lightInt s r).2.otp = s.otp := by
  unfold State.lightInt
  repeat' (first | with_reducible rfl | with_reducible refine ite2_otp ?_ ?_ | with_reducible refine (State.draw_otp ..).trans ?_ | simp only [mk_otp] | dsimp only | dsimp only [State.draw] | split | intro _)

theorem State.sweepAgain_otp (s : State) (e : Elem) : (State.sweepAgain s e).otp = s.otp := by
  unfold State.sweepAgain
  repeat' (first | with_reducible rfl | with_reducible refine ite2_otp ?_ ?_ | with_reducible refine (State.modSurvey_otp ..).trans ?_ | simp only [mk_otp] | dsimp only | split | intro _)

theorem State.judgeEl_otp (s : State) (b : Batch) (c : Nat) : (State.judgeEl s b c).otp = s.otp := by
  unfold State.judgeEl
  repeat' (first | with_reducible rfl | with_reducible refine ite2_otp ?_ ?_ | with_reducible refine (State.modSurvey_otp ..).trans ?_ | with_reducible refine (State.finishEl_otp ..).trans ?_ | with_reducible refine (State.darkCell_otp ..).trans ?_ | with_reducible refine (State.lightInt_otp ..).trans ?_ | with_reducible refine (State.sweepAgain_otp ..).trans ?_ | with_reducible refine (State.pass_otp ..).trans ?_ | simp only [mk_otp] | dsimp only | split | intro _)

theorem doSurveyPointDone_otp (s : State) : (doSurveyPointDone s).otp = s.otp := by
  unfold doSurveyPointDone
  repeat' (first | with_reducible rfl | with_reducible refine ite2_otp ?_ ?_ | with_reducible refine (foldl_otp _ _ _ ?_).trans ?_ | with_reducible refine (State.sweepStrobe_otp ..).trans ?_ | with_reducible refine (State.modSurvey_otp ..).trans ?_ | with_reducible refine (nextBatch_otp ..).trans ?_ | with_reducible refine (State.surveyOver_otp ..).trans ?_ | with_reducible refine (State.judgeEl_otp ..).trans ?_ | simp only [mk_otp] | dsimp only | split | intro _)

theorem State.surveyRestart_otp (s : State) (p : Nat) : (State.surveyRestart s p).otp = s.otp := by
  unfold State.surveyRestart
  repeat' (first | with_reducible rfl | with_reducible refine ite2_otp ?_ ?_ | with_reducible refine (State.modSurvey_otp ..).trans ?_ | simp only [mk_otp] | dsimp only | split | intro _)

theorem State.pdkCal_otp (s : State) (cals : List PdkCal) (p : Nat) : (State.pdkCal s cals p).otp = s.otp := by
  unfold State.pdkCal
  repeat' (first | with_reducible rfl | with_reducible refine ite2_otp ?_ ?_ | with_reducible refine (foldl_otp _ _ _ ?_).trans ?_ | with_reducible refine (both_otp _ _ ?_).trans ?_ | with_reducible refine (State.dPut_otp ..).trans ?_ | with_reducible refine (State.sPut_otp ..).trans ?_ | with_reducible refine (State.pFlag_otp ..).trans ?_ | with_reducible refine (State.notice_otp ..).trans ?_ | simp only [mk_otp] | dsimp only | split | intro _)

theorem doConverterCalDone_otp (cals : List PdkCal) (darks : List (Nat × Nat)) (s : State) : (doConverterCalDone cals darks s).otp = s.otp := by
  unfold doConverterCalDone
  repeat' (first | with_reducible rfl | with_reducible refine ite2_otp ?_ ?_ | with_reducible refine (foldl_otp _ _ _ ?_).trans ?_ | with_reducible refine (foldl_otp_fst _ _ _ ?_).trans ?_ | with_reducible refine (foldl_otp_snd _ _ _ ?_).trans ?_ | with_reducible refine (State.dPut_otp ..).trans ?_ | with_reducible refine (State.enablePdk_otp ..).trans ?_ | with_reducible refine (State.modSurvey_otp ..).trans ?_ | with_reducible refine (State.surveyEnd_otp ..).trans ?_ | with_reducible refine (State.surveyElements_otp ..).trans ?_ | with_reducible refine (State.calPhase_otp ..).trans ?_ | with_reducible refine (State.pdkCal_otp ..).trans ?_ | simp only [mk_otp] | dsimp only | split | intro _)

theorem doRefvFault_otp (p refv : Nat) (s : State) : (doRefvFault p refv s).otp = s.otp := by
  unfold doRefvFault
  repeat' (first | with_reducible rfl | with_reducible refine ite2_otp ?_ ?_ | with_reducible refine (State.toBandgap_otp ..).trans ?_ | with_reducible refine (State.surveyRestart_otp ..).trans ?_ | simp only [mk_otp] | dsimp only | split | intro _)

theorem State.writeSrvCfg_otp (s : State) (off : Nat) (v : Word) : (State.writeSrvCfg s off v).otp = s.otp := by
  unfold State.writeSrvCfg
  repeat' (first | with_reducible rfl | with_reducible refine ite2_otp ?_ ?_ | with_reducible refine (both_otp _ _ ?_).trans ?_ | with_reducible refine (State.sWr_otp ..).trans ?_ | with_reducible refine (State.pFlag_otp ..).trans ?_ | simp only [mk_otp] | dsimp only | split | intro _)

theorem doTimNowRead_otp (path : Nat) (s : State) : (doTimNowRead path s).otp = s.otp := by
  unfold doTimNowRead
  repeat' (first | with_reducible rfl | with_reducible refine ite2_otp ?_ ?_ | simp only [mk_otp] | dsimp only | split | intro _)

theorem State.timeEvent_otp (s : State) (sub before after : Nat) (ofs pd : Int) : (State.timeEvent s sub before after ofs pd).otp = s.otp := by
  unfold State.timeEvent
  repeat' (first | with_reducible rfl | with_reducible refine ite2_otp ?_ ?_ | with_reducible refine (State.event_otp ..).trans ?_ | simp only [mk_otp] | dsimp only | split | intro _)

theorem doTimeWrap_otp (s : State) : (doTimeWrap s).otp = s.otp := by
  unfold doTimeWrap
  repeat' (first | with_reducible rfl | with_reducible refine ite2_otp ?_ ?_ | with_reducible refine (State.timeEvent_otp ..).trans ?_ | simp only [mk_otp] | dsimp only | split | intro _)

theorem State.setPps_otp (s : State) : (State.setPps s).otp = s.otp := by
  unfold State.setPps
  repeat' (first | with_reducible rfl | with_reducible refine ite2_otp ?_ ?_ | with_reducible refine (State.sWr_otp ..).trans ?_ | simp only [mk_otp] | dsimp only | split | intro _)

theorem State.setIncr_otp (s : State) (v : Nat) : (State.setIncr s v).otp = s.otp := by
  unfold State.setIncr
  repeat' (first | with_reducible rfl | with_reducible refine ite2_otp ?_ ?_ | with_reducible refine (State.wr_otp ..).trans ?_ | with_reducible refine (State.refireAll_otp ..).trans ?_ | simp only [mk_otp] | dsimp only | split | intro _)

theorem State.stepTo_otp (s : State) (tb : Nat) (ofs : Int) : (State.stepTo s tb ofs).otp = s.otp := by
  unfold State.stepTo
  repeat' (first | with_reducible rfl | with_reducible refine ite2_otp ?_ ?_ | with_reducible refine (both_otp _ _ ?_).trans ?_ | with_reducible refine (State.pFlag_otp ..).trans ?_ | with_reducible refine (State.timeEvent_otp ..).trans ?_ | with_reducible refine (State.setPps_otp ..).trans ?_ | simp only [mk_otp] | dsimp only | split | intro _)

theorem State.modServo_otp (s : State) (x : Shep) (f : ServoSt → ServoSt) : (State.modServo s x f).otp = s.otp := by
  unfold State.modServo
  repeat' (first | with_reducible rfl | with_reducible refine ite2_otp ?_ ?_ | with_reducible refine (State.modSh_otp ..).trans ?_ | simp only [mk_otp] | dsimp only | split | intro _)

theorem State.setServo_otp (s : State) (x : Shep) (code : Nat) : (State.setServo s x code).otp = s.otp := by
  unfold State.setServo
  repeat' (first | with_reducible rfl | with_reducible refine ite2_otp ?_ ?_ | with_reducible refine (State.pPut_otp ..).trans ?_ | with_reducible refine (State.timeEvent_otp ..).trans ?_ | simp only [mk_otp] | dsimp only | split | intro _)

theorem State.servoIncr_otp (s : State) (x : Shep) (v : Nat) : (State.servoIncr s x v).otp = s.otp := by
  unfold State.servoIncr
  repeat' (first | with_reducible rfl | with_reducible refine ite2_otp ?_ ?_ | with_reducible refine (State.setIncr_otp ..).trans ?_ | with_reducible refine (State.modServo_otp ..).trans ?_ | simp only [mk_otp] | dsimp only | split | intro _)

theorem State.steer_otp (s : State) (x : Shep) (o : Int) : (State.steer s x o).otp = s.otp := by
  unfold State.steer
  repeat' (first | with_reducible rfl | with_reducible refine ite2_otp ?_ ?_ | with_reducible refine (State.setPps_otp ..).trans ?_ | with_reducible refine (State.modServo_otp ..).trans ?_ | with_reducible refine (State.setServo_otp ..).trans ?_ | with_reducible refine (State.servoIncr_otp ..).trans ?_ | simp only [mk_otp] | dsimp only | split | intro _)

theorem State.servoStep_otp (s : State) (x : Shep) (o : Int) : (State.servoStep s x o).otp = s.otp := by
  unfold State.servoStep
  repeat' (first | with_reducible rfl | with_reducible refine ite2_otp ?_ ?_ | with_reducible refine (State.stepTo_otp ..).trans ?_ | with_reducible refine (State.modServo_otp ..).trans ?_ | with_reducible refine (State.setServo_otp ..).trans ?_ | simp only [mk_otp] | dsimp only | split | intro _)

theorem State.judgeSample_otp (s : State) (x : Shep) (o : Int) : (State.judgeSample s x o).otp = s.otp := by
  unfold State.judgeSample
  repeat' (first | with_reducible rfl | with_reducible refine ite2_otp ?_ ?_ | with_reducible refine (State.modServo_otp ..).trans ?_ | with_reducible refine (State.setServo_otp ..).trans ?_ | with_reducible refine (State.steer_otp ..).trans ?_ | with_reducible refine (State.servoStep_otp ..).trans ?_ | simp only [mk_otp] | dsimp only | split | intro _)

theorem servoSample_otp (x : Shep) (pd : Nat) (o : Int) (s : State) : (servoSample x pd o s).otp = s.otp := by
  unfold servoSample
  repeat' (first | with_reducible rfl | with_reducible refine ite2_otp ?_ ?_ | with_reducible refine (State.pFlag_otp ..).trans ?_ | with_reducible refine (State.timeEvent_otp ..).trans ?_ | with_reducible refine (State.modServo_otp ..).trans ?_ | with_reducible refine (State.setServo_otp ..).trans ?_ | with_reducible refine (State.servoIncr_otp ..).trans ?_ | with_reducible refine (State.judgeSample_otp ..).trans ?_ | simp only [mk_otp] | dsimp only | split | intro _)

theorem doAsymHoldEnd_otp (x : Shep) (s : State) : (doAsymHoldEnd x s).otp = s.otp := by
  unfold doAsymHoldEnd
  repeat' (first | with_reducible rfl | with_reducible refine ite2_otp ?_ ?_ | with_reducible refine (State.modServo_otp ..).trans ?_ | simp only [mk_otp] | dsimp only | split | intro _)

theorem doHoldover_otp (x : Shep) (s : State) : (doHoldover x s).otp = s.otp := by
  unfold doHoldover
  repeat' (first | with_reducible rfl | with_reducible refine ite2_otp ?_ ?_ | with_reducible refine (State.modServo_otp ..).trans ?_ | with_reducible refine (State.setServo_otp ..).trans ?_ | with_reducible refine (State.servoIncr_otp ..).trans ?_ | simp only [mk_otp] | dsimp only | split | intro _)

theorem State.timBad_otp (s : State) (f : Fld) : (State.timBad s f).otp = s.otp := by
  unfold State.timBad
  repeat' (first | with_reducible rfl | with_reducible refine ite2_otp ?_ ?_ | with_reducible refine (both_otp _ _ ?_).trans ?_ | with_reducible refine (State.pFlag_otp ..).trans ?_ | simp only [mk_otp] | dsimp only | split | intro _)

theorem State.writeIncr_otp (s : State) (v : Word) : (State.writeIncr s v).otp = s.otp := by
  unfold State.writeIncr
  repeat' (first | with_reducible rfl | with_reducible refine ite2_otp ?_ ?_ | with_reducible refine (State.setIncr_otp ..).trans ?_ | with_reducible refine (State.timBad_otp ..).trans ?_ | simp only [mk_otp] | dsimp only | split | intro _)

theorem State.writeServoCfg_otp (s : State) (v : Word) : (State.writeServoCfg s v).otp = s.otp := by
  unfold State.writeServoCfg
  repeat' (first | with_reducible rfl | with_reducible refine ite2_otp ?_ ?_ | with_reducible refine (both_otp _ _ ?_).trans ?_ | with_reducible refine (State.sWr_otp ..).trans ?_ | with_reducible refine (State.modServo_otp ..).trans ?_ | with_reducible refine (State.setServo_otp ..).trans ?_ | with_reducible refine (State.servoIncr_otp ..).trans ?_ | with_reducible refine (State.timBad_otp ..).trans ?_ | simp only [mk_otp] | dsimp only | split | intro _)

theorem State.writeStepThr_otp (s : State) (v : Word) : (State.writeStepThr s v).otp = s.otp := by
  unfold State.writeStepThr
  repeat' (first | with_reducible rfl | with_reducible refine ite2_otp ?_ ?_ | with_reducible refine (State.sWr_otp ..).trans ?_ | with_reducible refine (State.timBad_otp ..).trans ?_ | simp only [mk_otp] | dsimp only | split | intro _)

theorem State.writePpsCfg_otp (s : State) (v : Word) : (State.writePpsCfg s v).otp = s.otp := by
  unfold State.writePpsCfg
  repeat' (first | with_reducible rfl | with_reducible refine ite2_otp ?_ ?_ | with_reducible refine (State.sWr_otp ..).trans ?_ | with_reducible refine (State.timBad_otp ..).trans ?_ | simp only [mk_otp] | dsimp only | split | intro _)

theorem doPpsOut_otp (s : State) : (doPpsOut s).otp = s.otp := by
  unfold doPpsOut
  repeat' (first | simp only [mk_otp] | with_reducible rfl | with_reducible refine ite2_otp ?_ ?_ | with_reducible refine (State.sWr_otp ..).trans ?_ | with_reducible refine (State.send_otp ..).trans ?_ | simp only [mk_otp] | dsimp only | split | intro _)

theorem State.modPtp_otp (s : State) (f : PtpSt → PtpSt) : (State.modPtp s f).otp = s.otp := by
  unfold State.modPtp
  repeat' (first | with_reducible rfl | with_reducible refine ite2_otp ?_ ?_ | simp only [mk_otp] | dsimp only | split | intro _)

theorem State.setTime_otp (s : State) (ns : Nat) : (State.setTime s ns).otp = s.otp := by
  unfold State.setTime
  repeat' (first | with_reducible rfl | with_reducible refine ite2_otp ?_ ?_ | with_reducible refine (both_otp _ _ ?_).trans ?_ | with_reducible refine (State.stepTo_otp ..).trans ?_ | with_reducible refine (State.modServo_otp ..).trans ?_ | with_reducible refine (State.setServo_otp ..).trans ?_ | simp only [mk_otp] | dsimp only | split | intro _)

theorem State.feed_otp (s : State) (src pd : Nat) (o : Int) : (State.feed s src pd o).otp = s.otp := by
  unfold State.feed
  repeat' (first | with_reducible rfl | with_reducible refine ite2_otp ?_ ?_ | with_reducible refine (both_otp _ _ ?_).trans ?_ | with_reducible refine (servoSample_otp ..).trans ?_ | with_reducible refine (State.setTime_otp ..).trans ?_ | simp only [mk_otp] | dsimp only | split | intro _)

theorem doPpsIn_otp (s : State) : (doPpsIn s).otp = s.otp := by
  unfold doPpsIn
  repeat' (first | with_reducible rfl | with_reducible refine ite2_otp ?_ ?_ | with_reducible refine (State.wr_otp ..).trans ?_ | with_reducible refine (State.feed_otp ..).trans ?_ | simp only [mk_otp] | dsimp only | split | intro _)

theorem State.wholeNs_otp (s : State) (t : Int) : (State.wholeNs s t).2.otp = s.otp := by
  unfold State.wholeNs
  repeat' (first | with_reducible rfl | with_reducible refine ite2_otp ?_ ?_ | with_reducible refine (State.draw_otp ..).trans ?_ | simp only [mk_otp] | dsimp only | split | intro _)

theorem State.announced_otp (s : State) : (State.announced s).2.otp = s.otp := by
  unfold State.announced
  repeat' (first | with_reducible rfl | with_reducible refine ite2_otp ?_ ?_ | with_reducible refine (State.draw_otp ..).trans ?_ | simp only [mk_otp] | dsimp only | dsimp only [State.draw] | split | intro _)

theorem State.sendPtp_otp (s : State) (i kind : Nat) (body : List Byte) : (State.sendPtp s i kind body).otp = s.otp := by
  unfold State.sendPtp
  repeat' (first | with_reducible rfl | with_reducible refine ite2_otp ?_ ?_ | simp only [mk_otp] | dsimp only | split | intro _)

theorem State.queuePtp_otp (s : State) (i kind : Nat) : (State.queuePtp s i kind).otp = s.otp := by
  unfold State.queuePtp
  repeat' (first | with_reducible rfl | with_reducible refine ite2_otp ?_ ?_ | with_reducible refine (State.modPtp_otp ..).trans ?_ | with_reducible refine (State.announced_otp ..).trans ?_ | with_reducible refine (State.sendPtp_otp ..).trans ?_ | simp only [mk_otp] | dsimp only | split | intro _)

theorem State.answerDelay_otp (s : State) (i : Nat) (src : List Byte) (seq corr : Nat) (t4 : Int) : (State.answerDelay s i src seq corr t4).otp = s.otp := by
  unfold State.answerDelay
  repeat' (first | with_reducible rfl | with_reducible refine ite2_otp ?_ ?_ | with_reducible refine (State.sendPtp_otp ..).trans ?_ | simp only [mk_otp] | dsimp only | split | intro _)

theorem State.answerPdelay_otp (s : State) (i : Nat) (src : List Byte) (seq corr : Nat) : (State.answerPdelay s i src seq corr).otp = s.otp := by
  unfold State.answerPdelay
  repeat' (first | with_reducible rfl | with_reducible refine ite2_otp ?_ ?_ | with_reducible refine (State.sendPtp_otp ..).trans ?_ | simp only [mk_otp] | dsimp only | split | intro _)

theorem doPtpMessage_otp (port : Nat) (m : PtpMsg) (s : State) : (doPtpMessage port m s).otp = s.otp := by
  unfold doPtpMessage
  repeat' (first | with_reducible rfl | with_reducible refine ite2_otp ?_ ?_ | with_reducible refine (State.sCount_otp ..).trans ?_ | with_reducible refine (State.modPtp_otp ..).trans ?_ | with_reducible refine (State.feed_otp ..).trans ?_ | with_reducible refine (State.wholeNs_otp ..).trans ?_ | with_reducible refine (State.announced_otp ..).trans ?_ | with_reducible refine (State.answerDelay_otp ..).trans ?_ | with_reducible refine (State.answerPdelay_otp ..).trans ?_ | simp only [mk_otp] | dsimp only | split | intro _)

theorem doPtpPortMove_otp (s : State) : (doPtpPortMove s).otp = s.otp := by
  unfold doPtpPortMove
  repeat' (first | with_reducible rfl | with_reducible refine ite2_otp ?_ ?_ | with_reducible refine (State.modPtp_otp ..).trans ?_ | with_reducible refine (State.announced_otp ..).trans ?_ | simp only [mk_otp] | dsimp only | split | intro _)

theorem State.applyPtp_otp (s : State) (j : Job) : (State.applyPtp s j).otp = s.otp := by
  unfold State.applyPtp
  repeat' (first | with_reducible rfl | with_reducible refine ite2_otp ?_ ?_ | with_reducible refine (State.completeHif_otp ..).trans ?_ | with_reducible refine (State.endJob_otp ..).trans ?_ | with_reducible refine (State.modPtp_otp ..).trans ?_ | simp only [mk_otp] | dsimp only | split | intro _)

theorem doPtpTimer_otp (kind : Nat) (s : State) : (doPtpTimer kind s).otp = s.otp := by
  unfold doPtpTimer
  repeat' (first | with_reducible rfl | with_reducible refine ite2_otp ?_ ?_ | with_reducible refine (foldl_otp _ _ _ ?_).trans ?_ | with_reducible refine (State.modPtp_otp ..).trans ?_ | with_reducible refine (State.queuePtp_otp ..).trans ?_ | with_reducible refine (State.applyPtp_otp ..).trans ?_ | simp only [mk_otp] | dsimp only | split | intro _)

theorem startTimeRead_otp (d : Desc) (s : State) : (startTimeRead d s).otp = s.otp := by
  unfold startTimeRead
  repeat' (first | with_reducible rfl | with_reducible refine ite2_otp ?_ ?_ | with_reducible refine (State.completeHif_otp ..).trans ?_ | with_reducible refine (State.writeOut_otp ..).trans ?_ | simp only [mk_otp] | dsimp only | split | intro _)

theorem startTimeSet_otp (d : Desc) (s : State) : (startTimeSet d s).otp = s.otp := by
  unfold startTimeSet
  repeat' (first | with_reducible rfl | with_reducible refine ite2_otp ?_ ?_ | with_reducible refine (State.completeHif_otp ..).trans ?_ | with_reducible refine (State.setTime_otp ..).trans ?_ | simp only [mk_otp] | dsimp only | split | intro _)

theorem startPtpConfig_otp (d : Desc) (s : State) : (startPtpConfig d s).otp = s.otp := by
  unfold startPtpConfig
  repeat' (first | with_reducible rfl | with_reducible refine ite2_otp ?_ ?_ | with_reducible refine (State.completeHif_otp ..).trans ?_ | with_reducible refine (State.addJob_otp ..).trans ?_ | simp only [mk_otp] | dsimp only | split | intro _)

theorem startPortMeasure_otp (d : Desc) (s : State) : (startPortMeasure d s).otp = s.otp := by
  unfold startPortMeasure
  repeat' (first | with_reducible rfl | with_reducible refine ite2_otp ?_ ?_ | with_reducible refine (State.completeHif_otp ..).trans ?_ | with_reducible refine (State.addJob_otp ..).trans ?_ | simp only [mk_otp] | dsimp only | split | intro _)

theorem doPortMeasureDone_otp (rtt : Nat) (s : State) : (doPortMeasureDone rtt s).otp = s.otp := by
  unfold doPortMeasureDone
  repeat' (first | with_reducible rfl | with_reducible refine ite2_otp ?_ ?_ | with_reducible refine (State.complete_otp ..).trans ?_ | with_reducible refine (State.endJob_otp ..).trans ?_ | simp only [mk_otp] | dsimp only | split | intro _)

theorem startTime_otp (d : Desc) (s : State) : (startTime d s).otp = s.otp := by
  unfold startTime
  repeat' (first | with_reducible rfl | with_reducible refine ite2_otp ?_ ?_ | with_reducible refine (State.completeHif_otp ..).trans ?_ | with_reducible refine (startTimeRead_otp ..).trans ?_ | with_reducible refine (startTimeSet_otp ..).trans ?_ | with_reducible refine (startPtpConfig_otp ..).trans ?_ | with_reducible refine (startPortMeasure_otp ..).trans ?_ | simp only [mk_otp] | dsimp only | split | intro _)

theorem State.timeTlm_otp (s : State) : (State.timeTlm s).2.otp = s.otp := by
  unfold State.timeTlm
  repeat' (first | with_reducible rfl | with_reducible refine ite2_otp ?_ ?_ | with_reducible refine (both_otp _ _ ?_).trans ?_ | with_reducible refine (State.modServo_otp ..).trans ?_ | simp only [mk_otp] | dsimp only | split | intro _)

end Sys2Proof.Machine
end

