-- ==== Sys2Proof/Laws/Fuses3.lean ====
section
/-! SUPPORT. The fuses are left by every operation of the machine, from redundancy to the tick boundary, but for the resets of the device and the commands
that burn them. Each lemma says it of one function. -/

set_option maxRecDepth 4000
set_option linter.unreachableTactic false
set_option linter.unusedTactic false
set_option linter.unusedSimpArgs false

namespace Sys2Proof.Machine

theorem State.setRole_otp (s : State) (x : Shep) (r : Role) : (State.setRole s x r).otp = s.otp := by
  unfold State.setRole
  repeat' (first | with_reducible rfl | with_reducible refine ite2_otp ?_ ?_ | with_reducible refine (State.modSh_otp ..).trans ?_ | simp only [mk_otp] | dsimp only | split | intro _)

theorem State.shpFlag_otp (s : State) (f : Fld) : (State.shpFlag s f).otp = s.otp := by
  unfold State.shpFlag
  repeat' (first | with_reducible rfl | with_reducible refine ite2_otp ?_ ?_ | with_reducible refine (both_otp _ _ ?_).trans ?_ | with_reducible refine (State.pFlag_otp ..).trans ?_ | simp only [mk_otp] | dsimp only | split | intro _)

theorem State.badCtrl_otp (s : State) (x : Shep) : (State.badCtrl s x).otp = s.otp := by
  unfold State.badCtrl
  repeat' (first | with_reducible rfl | with_reducible refine ite2_otp ?_ ?_ | with_reducible refine (State.pFlag_otp ..).trans ?_ | simp only [mk_otp] | dsimp only | split | intro _)

theorem State.enterRole_otp (s : State) (x : Shep) (r : Role) : (State.enterRole s x r).otp = s.otp := by
  unfold State.enterRole
  repeat' (first | with_reducible rfl | with_reducible refine ite2_otp ?_ ?_ | with_reducible refine (State.modSh_otp ..).trans ?_ | with_reducible refine (State.eventLocal_otp ..).trans ?_ | with_reducible refine (State.setRole_otp ..).trans ?_ | simp only [mk_otp] | dsimp only | split | intro _)

theorem State.checkOrphan_otp (s : State) : (State.checkOrphan s).otp = s.otp := by
  unfold State.checkOrphan
  repeat' (first | with_reducible rfl | with_reducible refine ite2_otp ?_ ?_ | with_reducible refine (State.settleAll_otp ..).trans ?_ | simp only [mk_otp] | dsimp only | split | intro _)

theorem State.fence_otp (s : State) (x : Shep) : (State.fence s x).otp = s.otp := by
  unfold State.fence
  repeat' (first | with_reducible rfl | with_reducible refine ite2_otp ?_ ?_ | with_reducible refine (State.modSh_otp ..).trans ?_ | with_reducible refine (State.setRole_otp ..).trans ?_ | simp only [mk_otp] | dsimp only | split | intro _)

theorem State.takeLag_otp (s : State) (x : Shep) : (State.takeLag s x).otp = s.otp := by
  unfold State.takeLag
  repeat' (first | with_reducible rfl | with_reducible refine ite2_otp ?_ ?_ | with_reducible refine (foldl_otp _ _ _ ?_).trans ?_ | with_reducible refine (State.wr_otp ..).trans ?_ | with_reducible refine (State.modSh_otp ..).trans ?_ | simp only [mk_otp] | dsimp only | split | intro _)

theorem State.loadTb1_otp (s : State) : (State.loadTb1 s).otp = s.otp := by
  unfold State.loadTb1
  repeat' (first | with_reducible rfl | with_reducible refine ite2_otp ?_ ?_ | with_reducible refine (State.setIncr_otp ..).trans ?_ | with_reducible refine (State.stepTo_otp ..).trans ?_ | simp only [mk_otp] | dsimp only | split | intro _)

theorem State.grant_otp (s : State) (x : Shep) (cause : Nat) : (State.grant s x cause).otp = s.otp := by
  unfold State.grant
  repeat' (first | with_reducible rfl | with_reducible refine ite2_otp ?_ ?_ | with_reducible refine (both_otp _ _ ?_).trans ?_ | with_reducible refine (State.pPut_otp ..).trans ?_ | with_reducible refine (State.modSh_otp ..).trans ?_ | with_reducible refine (State.pFlag_otp ..).trans ?_ | with_reducible refine (State.dCount_otp ..).trans ?_ | with_reducible refine (State.flushCpl_otp ..).trans ?_ | with_reducible refine (State.flushEvt_otp ..).trans ?_ | with_reducible refine (State.event_otp ..).trans ?_ | with_reducible refine (State.releaseReports_otp ..).trans ?_ | with_reducible refine (State.recEvent_otp ..).trans ?_ | with_reducible refine (State.setRole_otp ..).trans ?_ | with_reducible refine (State.takeLag_otp ..).trans ?_ | with_reducible refine (State.loadTb1_otp ..).trans ?_ | with_reducible refine (State.cause_otp ..).trans ?_ | simp only [mk_otp] | dsimp only | split | intro _)

theorem State.endBoot_otp (s : State) : (State.endBoot s).otp = s.otp := by
  unfold State.endBoot
  repeat' (first | with_reducible rfl | with_reducible refine ite2_otp ?_ ?_ | with_reducible refine (State.setMode_otp ..).trans ?_ | with_reducible refine (State.startupCal_otp ..).trans ?_ | simp only [mk_otp] | dsimp only | split | intro _)

theorem State.grantClaim_otp (s : State) (x : Shep) : (State.grantClaim s x).otp = s.otp := by
  unfold State.grantClaim
  repeat' (first | with_reducible rfl | with_reducible refine ite2_otp ?_ ?_ | with_reducible refine (State.pFlag_otp ..).trans ?_ | with_reducible refine (State.alarm_otp ..).trans ?_ | with_reducible refine (State.grant_otp ..).trans ?_ | with_reducible refine (State.endBoot_otp ..).trans ?_ | simp only [mk_otp] | dsimp only | split | intro _)

theorem State.claimBoundary_otp (s : State) : (State.claimBoundary s).otp = s.otp := by
  unfold State.claimBoundary
  repeat' (first | with_reducible rfl | with_reducible refine ite2_otp ?_ ?_ | with_reducible refine (State.grantClaim_otp ..).trans ?_ | simp only [mk_otp] | dsimp only | split | intro _)

theorem doClaimExpiry_otp (s : State) : (doClaimExpiry s).otp = s.otp := by
  unfold doClaimExpiry
  repeat' (first | with_reducible rfl | with_reducible refine ite2_otp ?_ ?_ | with_reducible refine (State.grantClaim_otp ..).trans ?_ | simp only [mk_otp] | dsimp only | split | intro _)

theorem State.claim_otp (s : State) (x : Shep) : (State.claim s x).otp = s.otp := by
  unfold State.claim
  repeat' (first | with_reducible rfl | with_reducible refine ite2_otp ?_ ?_ | simp only [mk_otp] | dsimp only | split | intro _)

theorem State.copyBits_otp (s : State) (src dst : Shep) (e : Nat × Word) : (State.copyBits s src dst e).otp = s.otp := by
  unfold State.copyBits
  repeat' (first | with_reducible rfl | with_reducible refine ite2_otp ?_ ?_ | with_reducible refine (State.wr_otp ..).trans ?_ | simp only [mk_otp] | dsimp only | split | intro _)

theorem State.copyChan_otp (s : State) (src dst : Shep) (c : Nat) : (State.copyChan s src dst c).otp = s.otp := by
  unfold State.copyChan
  repeat' (first | with_reducible rfl | with_reducible refine ite2_otp ?_ ?_ | with_reducible refine (foldl_otp _ _ _ ?_).trans ?_ | with_reducible refine (State.modSh_otp ..).trans ?_ | with_reducible refine (State.modDyn_otp ..).trans ?_ | with_reducible refine (State.copyBits_otp ..).trans ?_ | simp only [mk_otp] | dsimp only | split | intro _)

theorem State.copySlot_otp (s : State) (src dst : Shep) (k : Nat) : (State.copySlot s src dst k).otp = s.otp := by
  unfold State.copySlot
  repeat' (first | with_reducible rfl | with_reducible refine ite2_otp ?_ ?_ | with_reducible refine (foldl_otp _ _ _ ?_).trans ?_ | with_reducible refine (State.modSh_otp ..).trans ?_ | with_reducible refine (State.copyBits_otp ..).trans ?_ | simp only [mk_otp] | dsimp only | split | intro _)

theorem State.copyBlocks_otp (s : State) (src dst : Shep) (bs : List Nat) : (State.copyBlocks s src dst bs).otp = s.otp := by
  unfold State.copyBlocks
  repeat' (first | with_reducible rfl | with_reducible refine ite2_otp ?_ ?_ | with_reducible refine (foldl_otp _ _ _ ?_).trans ?_ | with_reducible refine (State.copyChan_otp ..).trans ?_ | with_reducible refine (State.copySlot_otp ..).trans ?_ | simp only [mk_otp] | dsimp only | split | intro _)

theorem State.copyControl_otp (s : State) (src dst : Shep) : (State.copyControl s src dst).otp = s.otp := by
  unfold State.copyControl
  repeat' (first | with_reducible rfl | with_reducible refine ite2_otp ?_ ?_ | with_reducible refine (foldl_otp _ _ _ ?_).trans ?_ | with_reducible refine (State.wr_otp ..).trans ?_ | with_reducible refine (State.modSh_otp ..).trans ?_ | with_reducible refine (State.resume_otp ..).trans ?_ | simp only [mk_otp] | dsimp only | split | intro _)

theorem doCopySend_otp (s : State) : (doCopySend s).otp = s.otp := by
  unfold doCopySend
  repeat' (first | with_reducible rfl | with_reducible refine ite2_otp ?_ ?_ | simp only [mk_otp] | dsimp only | split | intro _)

theorem doCopyReceive_otp (ok : Bool) (s : State) : (doCopyReceive ok s).otp = s.otp := by
  unfold doCopyReceive
  repeat' (first | with_reducible rfl | with_reducible refine ite2_otp ?_ ?_ | simp only [mk_otp] | dsimp only | split | intro _)

theorem State.repairPending_otp (s : State) (b : Bool) : (State.repairPending s b).otp = s.otp := by
  unfold State.repairPending
  repeat' (first | with_reducible rfl | with_reducible refine ite2_otp ?_ ?_ | with_reducible refine (both_otp _ _ ?_).trans ?_ | with_reducible refine (State.pPut_otp ..).trans ?_ | simp only [mk_otp] | dsimp only | split | intro _)

theorem State.copyBoundary_otp (s : State) (t : Nat) : (State.copyBoundary s t).otp = s.otp := by
  unfold State.copyBoundary
  repeat' (first | simp only [mk_otp] | with_reducible rfl | with_reducible refine ite2_otp ?_ ?_ | with_reducible refine (both_otp _ _ ?_).trans ?_ | with_reducible refine (State.pPut_otp ..).trans ?_ | with_reducible refine (State.modSh_otp ..).trans ?_ | with_reducible refine (State.pFlag_otp ..).trans ?_ | with_reducible refine (State.pCount_otp ..).trans ?_ | with_reducible refine (State.takeLag_otp ..).trans ?_ | with_reducible refine (State.copyBlocks_otp ..).trans ?_ | with_reducible refine (State.copyControl_otp ..).trans ?_ | with_reducible refine (State.repairPending_otp ..).trans ?_ | simp only [mk_otp] | dsimp only | split | intro _)

theorem doCopyMissLimit_otp (s : State) : (doCopyMissLimit s).otp = s.otp := by
  unfold doCopyMissLimit
  repeat' (first | with_reducible rfl | with_reducible refine ite2_otp ?_ ?_ | with_reducible refine (State.modSh_otp ..).trans ?_ | with_reducible refine (State.alarm_otp ..).trans ?_ | with_reducible refine (State.shpFlag_otp ..).trans ?_ | with_reducible refine (State.enterRole_otp ..).trans ?_ | with_reducible refine (State.repairPending_otp ..).trans ?_ | simp only [mk_otp] | dsimp only | split | intro _)

theorem State.deferShared_otp (s was : State) (x : Shep) : (State.deferShared s was x).otp = s.otp := by
  unfold State.deferShared
  repeat' (first | with_reducible rfl | with_reducible refine ite2_otp ?_ ?_ | with_reducible refine (foldl_otp _ _ _ ?_).trans ?_ | with_reducible refine (State.wr_otp ..).trans ?_ | with_reducible refine (State.modSh_otp ..).trans ?_ | simp only [mk_otp] | dsimp only | split | intro _)

theorem State.divBoundary_otp (s : State) : (State.divBoundary s).otp = s.otp := by
  unfold State.divBoundary
  repeat' (first | simp only [mk_otp] | with_reducible rfl | with_reducible refine ite2_otp ?_ ?_ | with_reducible refine (both_otp _ _ ?_).trans ?_ | with_reducible refine (State.pCount_otp ..).trans ?_ | with_reducible refine (State.alarm_otp ..).trans ?_ | with_reducible refine (State.shpFlag_otp ..).trans ?_ | simp only [mk_otp] | dsimp only | split | intro _)

theorem doDivergenceLimit_otp (s : State) : (doDivergenceLimit s).otp = s.otp := by
  unfold doDivergenceLimit
  repeat' (first | with_reducible rfl | with_reducible refine ite2_otp ?_ ?_ | with_reducible refine (State.fence_otp ..).trans ?_ | simp only [mk_otp] | dsimp only | split | intro _)

theorem State.beat_otp (s : State) (x : Shep) (b : Bool) : (State.beat s x b).2.otp = s.otp := by
  unfold State.beat
  repeat' (first | with_reducible rfl | with_reducible refine ite2_otp ?_ ?_ | with_reducible refine (State.wr_otp ..).trans ?_ | with_reducible refine (State.modSh_otp ..).trans ?_ | simp only [mk_otp] | dsimp only | split | intro _)

theorem State.heartbeats_otp (s : State) (beatA beatB : Bool) : (State.heartbeats s beatA beatB).otp = s.otp := by
  unfold State.heartbeats
  repeat' (first | with_reducible rfl | with_reducible refine ite2_otp ?_ ?_ | with_reducible refine (State.modSh_otp ..).trans ?_ | with_reducible refine (State.claim_otp ..).trans ?_ | with_reducible refine (State.beat_otp ..).trans ?_ | simp only [mk_otp] | dsimp only | split | intro _)

theorem doShepherdLost_otp (x : Shep) (s : State) : (doShepherdLost x s).otp = s.otp := by
  unfold doShepherdLost
  repeat' (first | with_reducible rfl | with_reducible refine ite2_otp ?_ ?_ | with_reducible refine (State.alarm_otp ..).trans ?_ | with_reducible refine (State.checkOrphan_otp ..).trans ?_ | with_reducible refine (State.fence_otp ..).trans ?_ | with_reducible refine (State.grant_otp ..).trans ?_ | simp only [mk_otp] | dsimp only | split | intro _)

theorem State.resyncStage_otp (s : State) (stage left : Nat) : (State.resyncStage s stage left).otp = s.otp := by
  unfold State.resyncStage
  repeat' (first | with_reducible rfl | with_reducible refine ite2_otp ?_ ?_ | with_reducible refine (both_otp _ _ ?_).trans ?_ | with_reducible refine (State.pPut_otp ..).trans ?_ | simp only [mk_otp] | dsimp only | split | intro _)

theorem State.startSync_otp (s : State) (x : Shep) : (State.startSync s x).otp = s.otp := by
  unfold State.startSync
  repeat' (first | with_reducible rfl | with_reducible refine ite2_otp ?_ ?_ | with_reducible refine (State.shpFlag_otp ..).trans ?_ | with_reducible refine (State.enterRole_otp ..).trans ?_ | with_reducible refine (State.resyncStage_otp ..).trans ?_ | simp only [mk_otp] | dsimp only | split | intro _)

theorem State.rejoin_otp (s : State) (x : Shep) : (State.rejoin s x).otp = s.otp := by
  unfold State.rejoin
  repeat' (first | with_reducible rfl | with_reducible refine ite2_otp ?_ ?_ | with_reducible refine (State.enterRole_otp ..).trans ?_ | with_reducible refine (State.startSync_otp ..).trans ?_ | simp only [mk_otp] | dsimp only | split | intro _)

theorem State.copyBanks_otp (s : State) (src dst : Shep) : (State.copyBanks s src dst).otp = s.otp := by
  unfold State.copyBanks
  repeat' (first | with_reducible rfl | with_reducible refine ite2_otp ?_ ?_ | with_reducible refine (foldl_otp _ _ _ ?_).trans ?_ | with_reducible refine (State.wr_otp ..).trans ?_ | with_reducible refine (State.dropRegs_otp ..).trans ?_ | with_reducible refine (State.modSh_otp ..).trans ?_ | simp only [mk_otp] | dsimp only | split | intro _)

theorem State.syncBoundary_otp (s : State) : (State.syncBoundary s).otp = s.otp := by
  unfold State.syncBoundary
  repeat' (first | with_reducible rfl | with_reducible refine ite2_otp ?_ ?_ | with_reducible refine (foldl_otp _ _ _ ?_).trans ?_ | with_reducible refine (both_otp _ _ ?_).trans ?_ | with_reducible refine (State.pPut_otp ..).trans ?_ | simp only [mk_otp] | dsimp only | split | intro _)

theorem doResyncBank_otp (s : State) : (doResyncBank s).otp = s.otp := by
  unfold doResyncBank
  repeat' (first | with_reducible rfl | with_reducible refine ite2_otp ?_ ?_ | with_reducible refine (State.resyncStage_otp ..).trans ?_ | with_reducible refine (State.copyBanks_otp ..).trans ?_ | simp only [mk_otp] | dsimp only | split | intro _)

theorem doResyncLibrary_otp (s : State) : (doResyncLibrary s).otp = s.otp := by
  unfold doResyncLibrary
  repeat' (first | with_reducible rfl | with_reducible refine ite2_otp ?_ ?_ | with_reducible refine (State.copyControl_otp ..).trans ?_ | with_reducible refine (State.resyncStage_otp ..).trans ?_ | with_reducible refine (State.copyBanks_otp ..).trans ?_ | simp only [mk_otp] | dsimp only | split | intro _)

theorem State.resyncEnd_otp (s : State) (code : Nat) : (State.resyncEnd s code).otp = s.otp := by
  unfold State.resyncEnd
  repeat' (first | with_reducible rfl | with_reducible refine ite2_otp ?_ ?_ | with_reducible refine (State.completeHif_otp ..).trans ?_ | with_reducible refine (State.endJob_otp ..).trans ?_ | simp only [mk_otp] | dsimp only | split | intro _)

theorem State.becomeStandby_otp (s : State) (x : Shep) : (State.becomeStandby s x).otp = s.otp := by
  unfold State.becomeStandby
  repeat' (first | with_reducible rfl | with_reducible refine ite2_otp ?_ ?_ | with_reducible refine (foldl_otp _ _ _ ?_).trans ?_ | with_reducible refine (State.pPut_otp ..).trans ?_ | with_reducible refine (State.modSh_otp ..).trans ?_ | with_reducible refine (State.setRole_otp ..).trans ?_ | simp only [mk_otp] | dsimp only | split | intro _)

theorem doResyncState_otp (s : State) : (doResyncState s).otp = s.otp := by
  unfold doResyncState
  repeat' (first | with_reducible rfl | with_reducible refine ite2_otp ?_ ?_ | with_reducible refine (State.resyncStage_otp ..).trans ?_ | with_reducible refine (State.resyncEnd_otp ..).trans ?_ | with_reducible refine (State.becomeStandby_otp ..).trans ?_ | simp only [mk_otp] | dsimp only | split | intro _)

theorem State.syncFail_otp (s : State) : (State.syncFail s).otp = s.otp := by
  unfold State.syncFail
  repeat' (first | with_reducible rfl | with_reducible refine ite2_otp ?_ ?_ | with_reducible refine (State.shpFlag_otp ..).trans ?_ | with_reducible refine (State.enterRole_otp ..).trans ?_ | with_reducible refine (State.resyncStage_otp ..).trans ?_ | with_reducible refine (State.resyncEnd_otp ..).trans ?_ | simp only [mk_otp] | dsimp only | split | intro _)

theorem doResyncTimeout_otp (s : State) : (doResyncTimeout s).otp = s.otp := by
  unfold doResyncTimeout
  repeat' (first | with_reducible rfl | with_reducible refine ite2_otp ?_ ?_ | with_reducible refine (State.syncFail_otp ..).trans ?_ | simp only [mk_otp] | dsimp only | split | intro _)

theorem State.joinBoundary_otp (s : State) : (State.joinBoundary s).otp = s.otp := by
  unfold State.joinBoundary
  repeat' (first | with_reducible rfl | with_reducible refine ite2_otp ?_ ?_ | with_reducible refine (State.rejoin_otp ..).trans ?_ | with_reducible refine (State.becomeStandby_otp ..).trans ?_ | simp only [mk_otp] | dsimp only | split | intro _)

theorem State.bootDone_otp (s : State) (x : Shep) : (State.bootDone s x).otp = s.otp := by
  unfold State.bootDone
  repeat' (first | with_reducible rfl | with_reducible refine ite2_otp ?_ ?_ | with_reducible refine (State.modSh_otp ..).trans ?_ | with_reducible refine (State.claim_otp ..).trans ?_ | with_reducible refine (State.rejoin_otp ..).trans ?_ | simp only [mk_otp] | dsimp only | split | intro _)

theorem State.handoverWrite_otp (s : State) (x : Shep) : (State.handoverWrite s x).otp = s.otp := by
  unfold State.handoverWrite
  repeat' (first | with_reducible rfl | with_reducible refine ite2_otp ?_ ?_ | with_reducible refine (State.badCtrl_otp ..).trans ?_ | simp only [mk_otp] | dsimp only | split | intro _)

theorem State.clearCounts_otp (s : State) (x : Shep) : (State.clearCounts s x).otp = s.otp := by
  unfold State.clearCounts
  repeat' (first | with_reducible rfl | with_reducible refine ite2_otp ?_ ?_ | with_reducible refine (foldl_otp _ _ _ ?_).trans ?_ | with_reducible refine (State.wr_otp ..).trans ?_ | with_reducible refine (State.pPut_otp ..).trans ?_ | simp only [mk_otp] | dsimp only | split | intro _)

theorem State.writeShpCtrl_otp (s : State) (x : Shep) (v : Word) : (State.writeShpCtrl s x v).otp = s.otp := by
  unfold State.writeShpCtrl
  repeat' (first | with_reducible rfl | with_reducible refine ite2_otp ?_ ?_ | with_reducible refine (State.clearCounts_otp ..).trans ?_ | with_reducible refine (foldl_otp _ _ _ ?_).trans ?_ | with_reducible refine (State.wr_otp ..).trans ?_ | with_reducible refine (State.pPut_otp ..).trans ?_ | with_reducible refine (State.badCtrl_otp ..).trans ?_ | with_reducible refine (State.fence_otp ..).trans ?_ | with_reducible refine (State.repairPending_otp ..).trans ?_ | with_reducible refine (State.resyncStage_otp ..).trans ?_ | with_reducible refine (State.startSync_otp ..).trans ?_ | with_reducible refine (State.handoverWrite_otp ..).trans ?_ | simp only [mk_otp] | dsimp only | split | intro _)

theorem State.writeShpCfg_otp (s : State) (x : Shep) (v : Word) : (State.writeShpCfg s x v).otp = s.otp := by
  unfold State.writeShpCfg
  repeat' (first | with_reducible rfl | with_reducible refine ite2_otp ?_ ?_ | with_reducible refine (State.wr_otp ..).trans ?_ | with_reducible refine (State.badCtrl_otp ..).trans ?_ | simp only [mk_otp] | dsimp only | split | intro _)

theorem State.writeHostDiv_otp (s : State) (x : Shep) (v : Word) : (State.writeHostDiv s x v).otp = s.otp := by
  unfold State.writeHostDiv
  repeat' (first | simp only [mk_otp] | with_reducible rfl | with_reducible refine ite2_otp ?_ ?_ | with_reducible refine (State.pCount_otp ..).trans ?_ | simp only [mk_otp] | dsimp only | split | intro _)

theorem doHandoverGrant_otp (s : State) : (doHandoverGrant s).otp = s.otp := by
  unfold doHandoverGrant
  repeat' (first | with_reducible rfl | with_reducible refine ite2_otp ?_ ?_ | with_reducible refine (State.complete_otp ..).trans ?_ | with_reducible refine (State.endJob_otp ..).trans ?_ | with_reducible refine (State.setRole_otp ..).trans ?_ | with_reducible refine (State.grant_otp ..).trans ?_ | simp only [mk_otp] | dsimp only | split | intro _)

theorem startHandover_otp (d : Desc) (s : State) : (startHandover d s).otp = s.otp := by
  unfold startHandover
  repeat' (first | with_reducible rfl | with_reducible refine ite2_otp ?_ ?_ | with_reducible refine (State.completeHif_otp ..).trans ?_ | with_reducible refine (State.addJob_otp ..).trans ?_ | simp only [mk_otp] | dsimp only | split | intro _)

theorem State.handoverBoundary_otp (s : State) : (State.handoverBoundary s).otp = s.otp := by
  unfold State.handoverBoundary
  repeat' (first | with_reducible rfl | with_reducible refine ite2_otp ?_ ?_ | with_reducible refine (State.completeHif_otp ..).trans ?_ | with_reducible refine (State.endJob_otp ..).trans ?_ | with_reducible refine (State.setJob_otp ..).trans ?_ | with_reducible refine (State.handoverWrite_otp ..).trans ?_ | simp only [mk_otp] | dsimp only | split | intro _)

theorem startResync_otp (d : Desc) (s : State) : (startResync d s).otp = s.otp := by
  unfold startResync
  repeat' (first | with_reducible rfl | with_reducible refine ite2_otp ?_ ?_ | with_reducible refine (State.completeHif_otp ..).trans ?_ | with_reducible refine (State.addJob_otp ..).trans ?_ | with_reducible refine (State.startSync_otp ..).trans ?_ | simp only [mk_otp] | dsimp only | split | intro _)

theorem State.abortJob_otp (s : State) (j : Job) : (State.abortJob s j).otp = s.otp := by
  unfold State.abortJob
  repeat' (first | with_reducible rfl | with_reducible refine ite2_otp ?_ ?_ | with_reducible refine (both_otp _ _ ?_).trans ?_ | with_reducible refine (State.pPut_otp ..).trans ?_ | with_reducible refine (State.sPut_otp ..).trans ?_ | with_reducible refine (State.completeHif_otp ..).trans ?_ | with_reducible refine (State.endJob_otp ..).trans ?_ | with_reducible refine (State.modSlot_otp ..).trans ?_ | with_reducible refine (State.unreserve_otp ..).trans ?_ | with_reducible refine (State.modSurvey_otp ..).trans ?_ | simp only [mk_otp] | dsimp only | split | intro _)

theorem State.abortJobs_otp (s : State) (spare : Nat → Bool) : (State.abortJobs s spare).otp = s.otp := by
  unfold State.abortJobs
  repeat' (first | with_reducible rfl | with_reducible refine ite2_otp ?_ ?_ | with_reducible refine (foldl_otp _ _ _ ?_).trans ?_ | with_reducible refine (State.abortJob_otp ..).trans ?_ | simp only [mk_otp] | dsimp only | split | intro _)

theorem State.clearReserved_otp (s : State) : (State.clearReserved s).otp = s.otp := by
  unfold State.clearReserved
  repeat' (first | with_reducible rfl | with_reducible refine ite2_otp ?_ ?_ | simp only [mk_otp] | dsimp only | split | intro _)

theorem State.surveyAborted_otp (s : State) : (State.surveyAborted s).otp = s.otp := by
  unfold State.surveyAborted
  repeat' (first | with_reducible rfl | with_reducible refine ite2_otp ?_ ?_ | with_reducible refine (State.completeHif_otp ..).trans ?_ | with_reducible refine (State.modSurvey_otp ..).trans ?_ | with_reducible refine (State.surveyStop_otp ..).trans ?_ | simp only [mk_otp] | dsimp only | split | intro _)

theorem State.enterSafe_otp (s : State) : (State.enterSafe s).otp = s.otp := by
  unfold State.enterSafe
  repeat' (first | with_reducible rfl | with_reducible refine ite2_otp ?_ ?_ | with_reducible refine (State.sFlag_otp ..).trans ?_ | with_reducible refine (State.droverNext_otp ..).trans ?_ | with_reducible refine (State.cancelSchedules_otp ..).trans ?_ | with_reducible refine (State.recEvent_otp ..).trans ?_ | with_reducible refine (State.setMode_otp ..).trans ?_ | with_reducible refine (State.abortJobs_otp ..).trans ?_ | with_reducible refine (State.surveyAborted_otp ..).trans ?_ | simp only [mk_otp] | dsimp only | split | intro _)

theorem State.wakeAll_otp (s : State) (cause : Nat) : (State.wakeAll s cause).otp = s.otp := by
  unfold State.wakeAll
  repeat' (first | with_reducible rfl | with_reducible refine ite2_otp ?_ ?_ | with_reducible refine (State.dFlag_otp ..).trans ?_ | with_reducible refine (State.wakePdks_otp ..).trans ?_ | with_reducible refine (State.cause_otp ..).trans ?_ | simp only [mk_otp] | dsimp only | split | intro _)

theorem doClearLow_otp (s : State) : (doClearLow s).otp = s.otp := by
  unfold doClearLow
  repeat' (first | with_reducible rfl | with_reducible refine ite2_otp ?_ ?_ | with_reducible refine (State.dFlag_otp ..).trans ?_ | with_reducible refine (State.settleAll_otp ..).trans ?_ | with_reducible refine (State.wakePdks_otp ..).trans ?_ | simp only [mk_otp] | dsimp only | split | intro _)

theorem State.reactSafe_otp (s : State) : (State.reactSafe s).otp = s.otp := by
  unfold State.reactSafe
  repeat' (first | with_reducible rfl | with_reducible refine ite2_otp ?_ ?_ | with_reducible refine (State.enterSafe_otp ..).trans ?_ | with_reducible refine (State.wakeAll_otp ..).trans ?_ | simp only [mk_otp] | dsimp only | split | intro _)

theorem State.endNap_otp (s : State) : (State.endNap s).otp = s.otp := by
  unfold State.endNap
  repeat' (first | with_reducible rfl | with_reducible refine ite2_otp ?_ ?_ | with_reducible refine (foldl_otp _ _ _ ?_).trans ?_ | with_reducible refine (State.modPdk_otp ..).trans ?_ | with_reducible refine (State.enablePdk_otp ..).trans ?_ | simp only [mk_otp] | dsimp only | split | intro _)

theorem State.endWakeJobs_otp (s : State) : (State.endWakeJobs s).otp = s.otp := by
  unfold State.endWakeJobs
  repeat' (first | with_reducible rfl | with_reducible refine ite2_otp ?_ ?_ | with_reducible refine (foldl_otp _ _ _ ?_).trans ?_ | with_reducible refine (State.completeHif_otp ..).trans ?_ | with_reducible refine (State.endJob_otp ..).trans ?_ | simp only [mk_otp] | dsimp only | split | intro _)

theorem State.pdkReady_otp (s : State) (p : Nat) (b : Bool) : (State.pdkReady s p b).otp = s.otp := by
  unfold State.pdkReady
  repeat' (first | with_reducible rfl | with_reducible refine ite2_otp ?_ ?_ | with_reducible refine (State.dPut_otp ..).trans ?_ | simp only [mk_otp] | dsimp only | split | intro _)

theorem State.padRestored_otp (s : State) (p : Nat) : (State.padRestored s p).otp = s.otp := by
  unfold State.padRestored
  repeat' (first | with_reducible rfl | with_reducible refine ite2_otp ?_ ?_ | with_reducible refine (foldl_otp _ _ _ ?_).trans ?_ | with_reducible refine (State.modPdk_otp ..).trans ?_ | with_reducible refine (State.enablePdk_otp ..).trans ?_ | with_reducible refine (State.checkDiverge_otp ..).trans ?_ | with_reducible refine (State.pdkReady_otp ..).trans ?_ | simp only [mk_otp] | dsimp only | split | intro _)

theorem State.leaveDeep_otp (s : State) : (State.leaveDeep s).otp = s.otp := by
  unfold State.leaveDeep
  repeat' (first | with_reducible rfl | with_reducible refine ite2_otp ?_ ?_ | with_reducible refine (foldl_otp _ _ _ ?_).trans ?_ | with_reducible refine (State.settleAll_otp ..).trans ?_ | with_reducible refine (State.loseBanks_otp ..).trans ?_ | with_reducible refine (State.padRestored_otp ..).trans ?_ | simp only [mk_otp] | dsimp only | split | intro _)

theorem State.rejoinBooted_otp (s : State) : (State.rejoinBooted s).otp = s.otp := by
  unfold State.rejoinBooted
  repeat' (first | with_reducible rfl | with_reducible refine ite2_otp ?_ ?_ | with_reducible refine (foldl_otp _ _ _ ?_).trans ?_ | with_reducible refine (State.modSh_otp ..).trans ?_ | with_reducible refine (State.claim_otp ..).trans ?_ | with_reducible refine (State.rejoin_otp ..).trans ?_ | simp only [mk_otp] | dsimp only | split | intro _)

theorem doLowPowerExit_otp (s : State) : (doLowPowerExit s).otp = s.otp := by
  unfold doLowPowerExit
  repeat' (first | with_reducible rfl | with_reducible refine ite2_otp ?_ ?_ | with_reducible refine (State.modeEvent_otp ..).trans ?_ | with_reducible refine (State.enterSafe_otp ..).trans ?_ | with_reducible refine (State.endNap_otp ..).trans ?_ | with_reducible refine (State.endWakeJobs_otp ..).trans ?_ | with_reducible refine (State.leaveDeep_otp ..).trans ?_ | with_reducible refine (State.rejoinBooted_otp ..).trans ?_ | with_reducible refine (State.cause_otp ..).trans ?_ | simp only [mk_otp] | dsimp only | split | intro _)

theorem doWakeN_otp (s : State) : (doWakeN s).otp = s.otp := by
  unfold doWakeN
  repeat' (first | with_reducible rfl | with_reducible refine ite2_otp ?_ ?_ | with_reducible refine (State.wakeAll_otp ..).trans ?_ | simp only [mk_otp] | dsimp only | split | intro _)

theorem State.writeWake_otp (s : State) (v : Word) : (State.writeWake s v).otp = s.otp := by
  unfold State.writeWake
  repeat' (first | with_reducible rfl | with_reducible refine ite2_otp ?_ ?_ | with_reducible refine (State.dPut_otp ..).trans ?_ | with_reducible refine (State.wakeAll_otp ..).trans ?_ | simp only [mk_otp] | dsimp only | split | intro _)

theorem startModeParked_otp (d : Desc) (s : State) : (startModeParked d s).otp = s.otp := by
  unfold startModeParked
  repeat' (first | with_reducible rfl | with_reducible refine ite2_otp ?_ ?_ | with_reducible refine (State.completeHif_otp ..).trans ?_ | with_reducible refine (State.enterParked_otp ..).trans ?_ | simp only [mk_otp] | dsimp only | split | intro _)

theorem startModeService_otp (d : Desc) (s : State) : (startModeService d s).otp = s.otp := by
  unfold startModeService
  repeat' (first | with_reducible rfl | with_reducible refine ite2_otp ?_ ?_ | with_reducible refine (State.completeHif_otp ..).trans ?_ | with_reducible refine (State.enterService_otp ..).trans ?_ | simp only [mk_otp] | dsimp only | split | intro _)

theorem startModeMaintenance_otp (d : Desc) (s : State) : (startModeMaintenance d s).otp = s.otp := by
  unfold startModeMaintenance
  repeat' (first | with_reducible rfl | with_reducible refine ite2_otp ?_ ?_ | with_reducible refine (State.completeHif_otp ..).trans ?_ | with_reducible refine (State.enterMaintenance_otp ..).trans ?_ | simp only [mk_otp] | dsimp only | split | intro _)

theorem startMode_otp (d : Desc) (s : State) : (startMode d s).otp = s.otp := by
  unfold startMode
  repeat' (first | with_reducible rfl | with_reducible refine ite2_otp ?_ ?_ | with_reducible refine (State.completeHif_otp ..).trans ?_ | with_reducible refine (startModeParked_otp ..).trans ?_ | with_reducible refine (startModeService_otp ..).trans ?_ | with_reducible refine (startModeMaintenance_otp ..).trans ?_ | simp only [mk_otp] | dsimp only | split | intro _)

theorem startNapEnter_otp (d : Desc) (s : State) : (startNapEnter d s).otp = s.otp := by
  unfold startNapEnter
  repeat' (first | with_reducible rfl | with_reducible refine ite2_otp ?_ ?_ | with_reducible refine (foldl_otp _ _ _ ?_).trans ?_ | with_reducible refine (State.modPdk_otp ..).trans ?_ | with_reducible refine (State.completeHif_otp ..).trans ?_ | with_reducible refine (State.modeEvent_otp ..).trans ?_ | simp only [mk_otp] | dsimp only | split | intro _)

theorem startNapExit_otp (d : Desc) (s : State) : (startNapExit d s).otp = s.otp := by
  unfold startNapExit
  repeat' (first | with_reducible rfl | with_reducible refine ite2_otp ?_ ?_ | with_reducible refine (State.dFlag_otp ..).trans ?_ | with_reducible refine (State.completeHif_otp ..).trans ?_ | with_reducible refine (State.addJob_otp ..).trans ?_ | with_reducible refine (State.wakePdks_otp ..).trans ?_ | simp only [mk_otp] | dsimp only | split | intro _)

theorem startQuiesce_otp (d : Desc) (s : State) : (startQuiesce d s).otp = s.otp := by
  unfold startQuiesce
  repeat' (first | with_reducible rfl | with_reducible refine ite2_otp ?_ ?_ | with_reducible refine (State.stopPasses_otp ..).trans ?_ | with_reducible refine (State.completeHif_otp ..).trans ?_ | with_reducible refine (State.modeEvent_otp ..).trans ?_ | simp only [mk_otp] | dsimp only | split | intro _)

theorem State.padLost_otp (s : State) (p : Nat) (mode : PdkMode) : (State.padLost s p mode).otp = s.otp := by
  unfold State.padLost
  repeat' (first | with_reducible rfl | with_reducible refine ite2_otp ?_ ?_ | with_reducible refine (State.modPdk_otp ..).trans ?_ | with_reducible refine (State.shadowsLost_otp ..).trans ?_ | simp only [mk_otp] | dsimp only | split | intro _)

theorem startDeep_otp (d : Desc) (s : State) : (startDeep d s).otp = s.otp := by
  unfold startDeep
  repeat' (first | with_reducible rfl | with_reducible refine ite2_otp ?_ ?_ | with_reducible refine (foldl_otp _ _ _ ?_).trans ?_ | with_reducible refine (State.stopPasses_otp ..).trans ?_ | with_reducible refine (State.completeHif_otp ..).trans ?_ | with_reducible refine (State.modeEvent_otp ..).trans ?_ | with_reducible refine (State.padLost_otp ..).trans ?_ | simp only [mk_otp] | dsimp only | split | intro _)

theorem startWake_otp (d : Desc) (s : State) : (startWake d s).otp = s.otp := by
  unfold startWake
  repeat' (first | with_reducible rfl | with_reducible refine ite2_otp ?_ ?_ | with_reducible refine (State.completeHif_otp ..).trans ?_ | with_reducible refine (State.addJob_otp ..).trans ?_ | with_reducible refine (State.wakeAll_otp ..).trans ?_ | simp only [mk_otp] | dsimp only | split | intro _)

theorem startPaddockReset_otp (d : Desc) (s : State) : (startPaddockReset d s).otp = s.otp := by
  unfold startPaddockReset
  repeat' (first | with_reducible rfl | with_reducible refine ite2_otp ?_ ?_ | with_reducible refine (State.completeHif_otp ..).trans ?_ | with_reducible refine (State.addJob_otp ..).trans ?_ | with_reducible refine (State.padReset_otp ..).trans ?_ | simp only [mk_otp] | dsimp only | split | intro _)

theorem startShepherdReset_otp (d : Desc) (s : State) : (startShepherdReset d s).otp = s.otp := by
  unfold startShepherdReset
  repeat' (first | with_reducible rfl | with_reducible refine ite2_otp ?_ ?_ | with_reducible refine (State.completeHif_otp ..).trans ?_ | with_reducible refine (State.addJob_otp ..).trans ?_ | with_reducible refine (State.shpReset_otp ..).trans ?_ | simp only [mk_otp] | dsimp only | split | intro _)

theorem State.softReset_otp (s : State) (x : Shep) : (State.softReset s x).otp = s.otp := by
  unfold State.softReset
  repeat' (first | with_reducible rfl | with_reducible refine ite2_otp ?_ ?_ | with_reducible refine (State.pFlag_otp ..).trans ?_ | with_reducible refine (State.mastersReset_otp ..).trans ?_ | with_reducible refine (State.abortJobs_otp ..).trans ?_ | with_reducible refine (State.clearReserved_otp ..).trans ?_ | with_reducible refine (State.surveyAborted_otp ..).trans ?_ | simp only [mk_otp] | dsimp only | split | intro _)

theorem startSoftReset_otp (d : Desc) (s : State) : (startSoftReset d s).otp = s.otp := by
  unfold startSoftReset
  repeat' (first | with_reducible rfl | with_reducible refine ite2_otp ?_ ?_ | with_reducible refine (State.completeHif_otp ..).trans ?_ | with_reducible refine (State.softReset_otp ..).trans ?_ | simp only [mk_otp] | dsimp only | split | intro _)

theorem startPower_otp (d : Desc) (s : State) : (startPower d s).otp = s.otp := by
  unfold startPower
  repeat' (first | with_reducible rfl | with_reducible refine ite2_otp ?_ ?_ | with_reducible refine (State.completeHif_otp ..).trans ?_ | with_reducible refine (startNapEnter_otp ..).trans ?_ | with_reducible refine (startNapExit_otp ..).trans ?_ | with_reducible refine (startQuiesce_otp ..).trans ?_ | with_reducible refine (startDeep_otp ..).trans ?_ | with_reducible refine (startWake_otp ..).trans ?_ | with_reducible refine (startPaddockReset_otp ..).trans ?_ | with_reducible refine (startShepherdReset_otp ..).trans ?_ | with_reducible refine (startSoftReset_otp ..).trans ?_ | simp only [mk_otp] | dsimp only | split | intro _)

theorem State.applied_otp (s : State) (c : Nat) : (State.applied s c).otp = s.otp := by
  unfold State.applied
  repeat' (first | with_reducible rfl | with_reducible refine ite2_otp ?_ ?_ | simp only [mk_otp] | dsimp only | split | intro _)

theorem State.reactPark_otp (s : State) (r : Report) : (State.reactPark s r).otp = s.otp := by
  unfold State.reactPark
  repeat' (first | with_reducible rfl | with_reducible refine ite2_otp ?_ ?_ | with_reducible refine (foldl_otp _ _ _ ?_).trans ?_ | with_reducible refine (State.sPut_otp ..).trans ?_ | with_reducible refine (State.sFlag_otp ..).trans ?_ | with_reducible refine (State.settleAll_otp ..).trans ?_ | with_reducible refine (State.domainOut_otp ..).trans ?_ | with_reducible refine (State.applied_otp ..).trans ?_ | simp only [mk_otp] | dsimp only | split | intro _)

theorem State.reactClear_otp (s : State) (r : Report) : (State.reactClear s r).otp = s.otp := by
  unfold State.reactClear
  repeat' (first | with_reducible rfl | with_reducible refine ite2_otp ?_ ?_ | with_reducible refine (foldl_otp _ _ _ ?_).trans ?_ | with_reducible refine (State.sWr_otp ..).trans ?_ | with_reducible refine (State.settleAll_otp ..).trans ?_ | with_reducible refine (State.applied_otp ..).trans ?_ | simp only [mk_otp] | dsimp only | split | intro _)

theorem State.react_otp (s : State) (r : Report) : (State.react s r).otp = s.otp := by
  unfold State.react
  repeat' (first | with_reducible rfl | with_reducible refine ite2_otp ?_ ?_ | with_reducible refine (State.reactSafe_otp ..).trans ?_ | with_reducible refine (State.applied_otp ..).trans ?_ | with_reducible refine (State.reactPark_otp ..).trans ?_ | with_reducible refine (State.reactClear_otp ..).trans ?_ | simp only [mk_otp] | dsimp only | split | intro _)

theorem doFaultReaction_otp (s : State) : (doFaultReaction s).otp = s.otp := by
  unfold doFaultReaction
  repeat' (first | with_reducible rfl | with_reducible refine ite2_otp ?_ ?_ | with_reducible refine (foldl_otp _ _ _ ?_).trans ?_ | with_reducible refine (foldl_otp_fst _ _ _ ?_).trans ?_ | with_reducible refine (foldl_otp_snd _ _ _ ?_).trans ?_ | with_reducible refine (State.react_otp ..).trans ?_ | simp only [mk_otp] | dsimp only | split | intro _)

theorem State.releaseFlocks_otp (s : State) (w mask : Nat) : (State.releaseFlocks s w mask).otp = s.otp := by
  unfold State.releaseFlocks
  repeat' (first | with_reducible rfl | with_reducible refine ite2_otp ?_ ?_ | with_reducible refine (foldl_otp _ _ _ ?_).trans ?_ | with_reducible refine (State.sWr_otp ..).trans ?_ | with_reducible refine (State.resume_otp ..).trans ?_ | simp only [mk_otp] | dsimp only | split | intro _)

theorem State.releaseFree_otp (s : State) : (State.releaseFree s).otp = s.otp := by
  unfold State.releaseFree
  repeat' (first | with_reducible rfl | with_reducible refine ite2_otp ?_ ?_ | with_reducible refine (foldl_otp _ _ _ ?_).trans ?_ | with_reducible refine (State.sPut_otp ..).trans ?_ | with_reducible refine (State.seedPark_otp ..).trans ?_ | simp only [mk_otp] | dsimp only | split | intro _)

theorem State.almBad_otp (s : State) : (State.almBad s).otp = s.otp := by
  unfold State.almBad
  repeat' (first | with_reducible rfl | with_reducible refine ite2_otp ?_ ?_ | with_reducible refine (State.sFlag_otp ..).trans ?_ | simp only [mk_otp] | dsimp only | split | intro _)

theorem State.writeAlmCfg_otp (s : State) (v : Word) : (State.writeAlmCfg s v).otp = s.otp := by
  unfold State.writeAlmCfg
  repeat' (first | with_reducible rfl | with_reducible refine ite2_otp ?_ ?_ | with_reducible refine (State.sWr_otp ..).trans ?_ | with_reducible refine (State.almBad_otp ..).trans ?_ | simp only [mk_otp] | dsimp only | split | intro _)

theorem State.writeAlmClass_otp (s : State) (a : Nat) (v : Word) : (State.writeAlmClass s a v).otp = s.otp := by
  unfold State.writeAlmClass
  repeat' (first | with_reducible rfl | with_reducible refine ite2_otp ?_ ?_ | with_reducible refine (State.sWr_otp ..).trans ?_ | simp only [mk_otp] | dsimp only | split | intro _)

theorem State.writeAlmStatus_otp (s : State) (v : Word) : (State.writeAlmStatus s v).otp = s.otp := by
  unfold State.writeAlmStatus
  repeat' (first | with_reducible rfl | with_reducible refine ite2_otp ?_ ?_ | with_reducible refine (State.sWr_otp ..).trans ?_ | simp only [mk_otp] | dsimp only | split | intro _)

theorem State.writeAlmParked_otp (s : State) (v : Word) : (State.writeAlmParked s v).otp = s.otp := by
  unfold State.writeAlmParked
  repeat' (first | with_reducible rfl | with_reducible refine ite2_otp ?_ ?_ | with_reducible refine (State.releaseDomains_otp ..).trans ?_ | with_reducible refine (State.releaseFree_otp ..).trans ?_ | simp only [mk_otp] | dsimp only | split | intro _)

theorem State.writeInject_otp (s : State) (v : Word) : (State.writeInject s v).otp = s.otp := by
  unfold State.writeInject
  repeat' (first | with_reducible rfl | with_reducible refine ite2_otp ?_ ?_ | with_reducible refine (State.alarm_otp ..).trans ?_ | simp only [mk_otp] | dsimp only | split | intro _)

theorem startMusterRead_otp (d : Desc) (s : State) : (startMusterRead d s).otp = s.otp := by
  unfold startMusterRead
  repeat' (first | with_reducible rfl | with_reducible refine ite2_otp ?_ ?_ | with_reducible refine (State.completeHif_otp ..).trans ?_ | with_reducible refine (State.writeOut_otp ..).trans ?_ | simp only [mk_otp] | dsimp only | split | intro _)

theorem startAlarmConfig_otp (d : Desc) (s : State) : (startAlarmConfig d s).otp = s.otp := by
  unfold startAlarmConfig
  repeat' (first | with_reducible rfl | with_reducible refine ite2_otp ?_ ?_ | with_reducible refine (State.completeHif_otp ..).trans ?_ | with_reducible refine (State.addJob_otp ..).trans ?_ | simp only [mk_otp] | dsimp only | split | intro _)

theorem State.applyAlarmConfig_otp (s : State) (d : Desc) : (State.applyAlarmConfig s d).otp = s.otp := by
  unfold State.applyAlarmConfig
  repeat' (first | with_reducible rfl | with_reducible refine ite2_otp ?_ ?_ | with_reducible refine (foldl_otp _ _ _ ?_).trans ?_ | with_reducible refine (State.sPut_otp ..).trans ?_ | with_reducible refine (State.sWr_otp ..).trans ?_ | simp only [mk_otp] | dsimp only | split | intro _)

theorem startAlarmRelease_otp (d : Desc) (s : State) : (startAlarmRelease d s).otp = s.otp := by
  unfold startAlarmRelease
  repeat' (first | with_reducible rfl | with_reducible refine ite2_otp ?_ ?_ | with_reducible refine (State.completeHif_otp ..).trans ?_ | with_reducible refine (State.addJob_otp ..).trans ?_ | simp only [mk_otp] | dsimp only | split | intro _)

theorem State.applyAlarmRelease_otp (s : State) (d : Desc) : (State.applyAlarmRelease s d).otp = s.otp := by
  unfold State.applyAlarmRelease
  repeat' (first | with_reducible rfl | with_reducible refine ite2_otp ?_ ?_ | with_reducible refine (State.releaseDomains_otp ..).trans ?_ | with_reducible refine (State.releaseFlocks_otp ..).trans ?_ | with_reducible refine (State.releaseFree_otp ..).trans ?_ | simp only [mk_otp] | dsimp only | split | intro _)

theorem startAlarmCfg_otp (d : Desc) (s : State) : (startAlarmCfg d s).otp = s.otp := by
  unfold startAlarmCfg
  repeat' (first | with_reducible rfl | with_reducible refine ite2_otp ?_ ?_ | with_reducible refine (State.completeHif_otp ..).trans ?_ | with_reducible refine (startAlarmConfig_otp ..).trans ?_ | with_reducible refine (startAlarmRelease_otp ..).trans ?_ | simp only [mk_otp] | dsimp only | split | intro _)

theorem State.newNonce_otp (s : State) : (State.newNonce s).otp = s.otp := by
  unfold State.newNonce
  repeat' (first | with_reducible rfl | with_reducible refine ite2_otp ?_ ?_ | with_reducible refine (foldl_otp _ _ _ ?_).trans ?_ | with_reducible refine (foldl_otp_fst _ _ _ ?_).trans ?_ | with_reducible refine (foldl_otp_snd _ _ _ ?_).trans ?_ | with_reducible refine (State.wr_otp ..).trans ?_ | with_reducible refine (State.draw_otp ..).trans ?_ | simp only [mk_otp] | dsimp only | split | intro _)

theorem State.setLevel_otp (s : State) (l : Nat) : (State.setLevel s l).otp = s.otp := by
  unfold State.setLevel
  repeat' (first | with_reducible rfl | with_reducible refine ite2_otp ?_ ?_ | with_reducible refine (State.dPut_otp ..).trans ?_ | simp only [mk_otp] | dsimp only | split | intro _)

theorem State.resetLevel_otp (s : State) : (State.resetLevel s).otp = s.otp := by
  unfold State.resetLevel
  repeat' (first | with_reducible rfl | with_reducible refine ite2_otp ?_ ?_ | with_reducible refine (State.setLevel_otp ..).trans ?_ | simp only [mk_otp] | dsimp only | split | intro _)

theorem State.present_otp (s : State) (t : List Byte) (allowed : Bool) : (State.present s t allowed).2.otp = s.otp := by
  unfold State.present
  repeat' (first | with_reducible rfl | with_reducible refine ite2_otp ?_ ?_ | with_reducible refine (State.dPut_otp ..).trans ?_ | with_reducible refine (State.dFlag_otp ..).trans ?_ | with_reducible refine (State.dCount_otp ..).trans ?_ | with_reducible refine (State.notice_otp ..).trans ?_ | with_reducible refine (State.newNonce_otp ..).trans ?_ | simp only [mk_otp] | dsimp only | split | intro _)

theorem State.lcs_otp (s : State) (d : Desc) (code : Nat) : (State.lcs s d code).otp = s.otp := by
  unfold State.lcs
  repeat' (first | with_reducible rfl | with_reducible refine ite2_otp ?_ ?_ | with_reducible refine (State.complete_otp ..).trans ?_ | simp only [mk_otp] | dsimp only | split | intro _)

theorem startDebugToken_otp (d : Desc) (s : State) : (startDebugToken d s).otp = s.otp := by
  unfold startDebugToken
  repeat' (first | with_reducible rfl | with_reducible refine ite2_otp ?_ ?_ | with_reducible refine (State.setLevel_otp ..).trans ?_ | with_reducible refine (State.present_otp ..).trans ?_ | with_reducible refine (State.lcs_otp ..).trans ?_ | simp only [mk_otp] | dsimp only | split | intro _)

theorem doCoreHalt_otp (x : Shep) (s : State) : (doCoreHalt x s).otp = s.otp := by
  unfold doCoreHalt
  repeat' (first | with_reducible rfl | with_reducible refine ite2_otp ?_ ?_ | with_reducible refine (State.modSh_otp ..).trans ?_ | with_reducible refine (State.dFlag_otp ..).trans ?_ | simp only [mk_otp] | dsimp only | split | intro _)

theorem State.writeDbg_otp (s : State) (v : Word) : (State.writeDbg s v).otp = s.otp := by
  unfold State.writeDbg
  repeat' (first | with_reducible rfl | with_reducible refine ite2_otp ?_ ?_ | with_reducible refine (State.setLevel_otp ..).trans ?_ | simp only [mk_otp] | dsimp only | split | intro _)

theorem State.setLock_otp (s : State) : (State.setLock s).otp = s.otp := by
  unfold State.setLock
  repeat' (first | with_reducible rfl | with_reducible refine ite2_otp ?_ ?_ | with_reducible refine (State.dPut_otp ..).trans ?_ | simp only [mk_otp] | dsimp only | split | intro _)

theorem startSetupLock_otp (d : Desc) (s : State) : (startSetupLock d s).otp = s.otp := by
  unfold startSetupLock
  repeat' (first | with_reducible rfl | with_reducible refine ite2_otp ?_ ?_ | with_reducible refine (State.completeHif_otp ..).trans ?_ | with_reducible refine (State.addJob_otp ..).trans ?_ | simp only [mk_otp] | dsimp only | split | intro _)

theorem State.holdIdentity_otp (s : State) (x : Shep) : (State.holdIdentity s x).otp = s.otp := by
  unfold State.holdIdentity
  repeat' (first | with_reducible rfl | with_reducible refine ite2_otp ?_ ?_ | with_reducible refine (State.modSh_otp ..).trans ?_ | simp only [mk_otp] | dsimp only | split | intro _)

theorem State.doeEvent_otp (s : State) (e : DoeEvent) : (State.doeEvent s e).otp = s.otp := by
  unfold State.doeEvent
  repeat' (first | with_reducible rfl | with_reducible refine ite2_otp ?_ ?_ | with_reducible refine (State.modSh_otp ..).trans ?_ | with_reducible refine (State.send_otp ..).trans ?_ | with_reducible refine (State.draw_otp ..).trans ?_ | simp only [mk_otp] | dsimp only | dsimp only [State.draw] | split | intro _)

theorem State.doeTick_otp (s : State) (es : List DoeEvent) : (State.doeTick s es).otp = s.otp := by
  unfold State.doeTick
  repeat' (first | with_reducible rfl | with_reducible refine ite2_otp ?_ ?_ | with_reducible refine (foldl_otp _ _ _ ?_).trans ?_ | with_reducible refine (State.doeEvent_otp ..).trans ?_ | simp only [mk_otp] | dsimp only | split | intro _)

theorem State.runImage_otp (s : State) (x : Shep) (slot : Option Nat) (img : List Byte) : (State.runImage s x slot img).otp = s.otp := by
  unfold State.runImage
  repeat' (first | with_reducible rfl | with_reducible refine ite2_otp ?_ ?_ | with_reducible refine (State.wr_otp ..).trans ?_ | with_reducible refine (State.pPut_otp ..).trans ?_ | with_reducible refine (State.modSh_otp ..).trans ?_ | simp only [mk_otp] | dsimp only | split | intro _)

theorem State.bootImage_otp (s : State) (x : Shep) (storeErr : Bool) : (State.bootImage s x storeErr).2.otp = s.otp := by
  unfold State.bootImage
  repeat' (first | with_reducible rfl | with_reducible refine ite2_otp ?_ ?_ | with_reducible refine (State.pPut_otp ..).trans ?_ | with_reducible refine (State.runImage_otp ..).trans ?_ | simp only [mk_otp] | dsimp only | split | intro _)

theorem State.badLoad_otp (s : State) (x : Shep) : (State.badLoad s x).otp = s.otp := by
  unfold State.badLoad
  repeat' (first | with_reducible rfl | with_reducible refine ite2_otp ?_ ?_ | with_reducible refine (State.pFlag_otp ..).trans ?_ | simp only [mk_otp] | dsimp only | split | intro _)

theorem State.writeLoadCtrl_otp (s : State) (x : Shep) (v : Word) : (State.writeLoadCtrl s x v).otp = s.otp := by
  unfold State.writeLoadCtrl
  repeat' (first | with_reducible rfl | with_reducible refine ite2_otp ?_ ?_ | with_reducible refine (State.pPut_otp ..).trans ?_ | with_reducible refine (State.badLoad_otp ..).trans ?_ | simp only [mk_otp] | dsimp only | split | intro _)

theorem State.writeLoadPage_otp (s : State) (x : Shep) (v : Word) : (State.writeLoadPage s x v).otp = s.otp := by
  unfold State.writeLoadPage
  repeat' (first | with_reducible rfl | with_reducible refine ite2_otp ?_ ?_ | with_reducible refine (State.pPut_otp ..).trans ?_ | with_reducible refine (State.badLoad_otp ..).trans ?_ | simp only [mk_otp] | dsimp only | split | intro _)

theorem State.writeLoadWin_otp (s : State) (x : Shep) (o : Nat) (v : Word) : (State.writeLoadWin s x o v).otp = s.otp := by
  unfold State.writeLoadWin
  repeat' (first | with_reducible rfl | with_reducible refine ite2_otp ?_ ?_ | with_reducible refine (State.modSh_otp ..).trans ?_ | with_reducible refine (State.pFlag_otp ..).trans ?_ | with_reducible refine (State.badLoad_otp ..).trans ?_ | simp only [mk_otp] | dsimp only | split | intro _)

theorem doLoadCheck_otp (x : Shep) (s : State) : (doLoadCheck x s).otp = s.otp := by
  unfold doLoadCheck
  repeat' (first | with_reducible rfl | with_reducible refine ite2_otp ?_ ?_ | with_reducible refine (State.pPut_otp ..).trans ?_ | with_reducible refine (State.modSh_otp ..).trans ?_ | simp only [mk_otp] | dsimp only | split | intro _)

theorem startFwWrite_otp (d : Desc) (s : State) : (startFwWrite d s).otp = s.otp := by
  unfold startFwWrite
  repeat' (first | with_reducible rfl | with_reducible refine ite2_otp ?_ ?_ | with_reducible refine (State.addJob_otp ..).trans ?_ | with_reducible refine (State.lcs_otp ..).trans ?_ | with_reducible refine (State.fwWrite_otp ..).trans ?_ | simp only [mk_otp] | dsimp only | split | intro _)

theorem doFwStoreDone_otp (ok : Bool) (s : State) : (doFwStoreDone ok s).otp = s.otp := by
  unfold doFwStoreDone
  repeat' (first | with_reducible rfl | with_reducible refine ite2_otp ?_ ?_ | with_reducible refine (State.endJob_otp ..).trans ?_ | with_reducible refine (State.lcs_otp ..).trans ?_ | with_reducible refine (State.fwWrite_otp ..).trans ?_ | simp only [mk_otp] | dsimp only | split | intro _)

theorem State.fwInfo_otp (s : State) : (State.fwInfo s).2.otp = s.otp := by
  unfold State.fwInfo
  repeat' (first | with_reducible rfl | with_reducible refine ite2_otp ?_ ?_ | with_reducible refine (State.drop_otp ..).trans ?_ | with_reducible refine (State.draw_otp ..).trans ?_ | simp only [mk_otp] | dsimp only | split | intro _)

theorem startFwInfo_otp (d : Desc) (s : State) : (startFwInfo d s).otp = s.otp := by
  unfold startFwInfo
  repeat' (first | with_reducible rfl | with_reducible refine ite2_otp ?_ ?_ | with_reducible refine (State.writeOut_otp ..).trans ?_ | with_reducible refine (State.lcs_otp ..).trans ?_ | with_reducible refine (State.fwInfo_otp ..).trans ?_ | simp only [mk_otp] | dsimp only | split | intro _)

theorem startFwSelect_otp (d : Desc) (ok : Bool) (s : State) : (startFwSelect d ok s).otp = s.otp := by
  unfold startFwSelect
  repeat' (first | with_reducible rfl | with_reducible refine ite2_otp ?_ ?_ | with_reducible refine (State.lcs_otp ..).trans ?_ | simp only [mk_otp] | dsimp only | split | intro _)

theorem State.setKeys_otp (s : State) (f : KeyStore → KeyStore) : (State.setKeys s f).otp = s.otp := by
  unfold State.setKeys
  repeat' (first | with_reducible rfl | with_reducible refine ite2_otp ?_ ?_ | simp only [mk_otp] | dsimp only | split | intro _)

theorem startControlKey_otp (d : Desc) (ok : Bool) (s : State) : (startControlKey d ok s).otp = s.otp := by
  unfold startControlKey
  repeat' (first | with_reducible rfl | with_reducible refine ite2_otp ?_ ?_ | with_reducible refine (State.lcs_otp ..).trans ?_ | with_reducible refine (State.setKeys_otp ..).trans ?_ | simp only [mk_otp] | dsimp only | split | intro _)

theorem startOwnerDebugKey_otp (d : Desc) (ok : Bool) (s : State) : (startOwnerDebugKey d ok s).otp = s.otp := by
  unfold startOwnerDebugKey
  repeat' (first | with_reducible rfl | with_reducible refine ite2_otp ?_ ?_ | with_reducible refine (State.drop_otp ..).trans ?_ | with_reducible refine (State.lcs_otp ..).trans ?_ | with_reducible refine (State.setKeys_otp ..).trans ?_ | simp only [mk_otp] | dsimp only | split | intro _)

theorem startKeyErase_otp (d : Desc) (ok : Bool) (s : State) : (startKeyErase d ok s).otp = s.otp := by
  unfold startKeyErase
  repeat' (first | with_reducible rfl | with_reducible refine ite2_otp ?_ ?_ | with_reducible refine (State.lcs_otp ..).trans ?_ | with_reducible refine (State.setKeys_otp ..).trans ?_ | with_reducible refine (State.draw_otp ..).trans ?_ | simp only [mk_otp] | dsimp only | split | intro _)

theorem startRecorderKeep_otp (d : Desc) (ok : Bool) (s : State) : (startRecorderKeep d ok s).otp = s.otp := by
  unfold startRecorderKeep
  repeat' (first | with_reducible rfl | with_reducible refine ite2_otp ?_ ?_ | with_reducible refine (State.dPut_otp ..).trans ?_ | with_reducible refine (State.lcs_otp ..).trans ?_ | with_reducible refine (State.setKeys_otp ..).trans ?_ | simp only [mk_otp] | dsimp only | split | intro _)

theorem startKeyProvision_otp (d : Desc) (ok : Bool) (s : State) : (startKeyProvision d ok s).otp = s.otp := by
  unfold startKeyProvision
  repeat' (first | with_reducible rfl | with_reducible refine ite2_otp ?_ ?_ | with_reducible refine (State.lcs_otp ..).trans ?_ | with_reducible refine (startControlKey_otp ..).trans ?_ | with_reducible refine (startOwnerDebugKey_otp ..).trans ?_ | with_reducible refine (startKeyErase_otp ..).trans ?_ | with_reducible refine (startRecorderKeep_otp ..).trans ?_ | simp only [mk_otp] | dsimp only | split | intro _)

theorem State.cause_otp (s : State) (f : Fld) : (State.cause s f).otp = s.otp := by
  unfold State.cause
  repeat' (first | with_reducible rfl | with_reducible refine ite2_otp ?_ ?_ | with_reducible refine (both_otp _ _ ?_).trans ?_ | with_reducible refine (State.pFlag_otp ..).trans ?_ | simp only [mk_otp] | dsimp only | split | intro _)

theorem doResetEnd_otp (straps : Nat) (s : State) : (doResetEnd straps s).otp = s.otp := by
  unfold doResetEnd
  repeat' (first | with_reducible rfl | with_reducible refine ite2_otp ?_ ?_ | with_reducible refine (State.wr_otp ..).trans ?_ | with_reducible refine (State.newNonce_otp ..).trans ?_ | with_reducible refine (State.resetLevel_otp ..).trans ?_ | simp only [mk_otp] | dsimp only | split | intro _)

theorem State.wipeControl_otp (s : State) (x : Shep) : (State.wipeControl s x).otp = s.otp := by
  unfold State.wipeControl
  repeat' (first | with_reducible rfl | with_reducible refine ite2_otp ?_ ?_ | with_reducible refine (State.dropRegs_otp ..).trans ?_ | with_reducible refine (State.surveyStop_otp ..).trans ?_ | simp only [mk_otp] | dsimp only | split | intro _)

theorem State.wipeShep_otp (s : State) (x : Shep) (f : Fld) (keep : Bool) : (State.wipeShep s x f keep).otp = s.otp := by
  unfold State.wipeShep
  repeat' (first | with_reducible rfl | with_reducible refine ite2_otp ?_ ?_ | with_reducible refine (State.dropRegs_otp ..).trans ?_ | with_reducible refine (State.dPut_otp ..).trans ?_ | with_reducible refine (State.modSh_otp ..).trans ?_ | with_reducible refine (State.pFlag_otp ..).trans ?_ | with_reducible refine (State.newKeys_otp ..).trans ?_ | with_reducible refine (State.syncFail_otp ..).trans ?_ | simp only [mk_otp] | dsimp only | split | intro _)

theorem State.shepReset_otp (s : State) (x : Shep) (f : Fld) (keep : Bool) : (State.shepReset s x f keep).otp = s.otp := by
  unfold State.shepReset
  repeat' (first | with_reducible rfl | with_reducible refine ite2_otp ?_ ?_ | with_reducible refine (State.setRole_otp ..).trans ?_ | with_reducible refine (State.checkOrphan_otp ..).trans ?_ | with_reducible refine (State.wipeControl_otp ..).trans ?_ | with_reducible refine (State.wipeShep_otp ..).trans ?_ | simp only [mk_otp] | dsimp only | split | intro _)

theorem doPerst_otp (x : Shep) (s : State) : (doPerst x s).otp = s.otp := by
  unfold doPerst
  repeat' (first | with_reducible rfl | with_reducible refine ite2_otp ?_ ?_ | with_reducible refine (State.modSh_otp ..).trans ?_ | with_reducible refine (State.shepReset_otp ..).trans ?_ | simp only [mk_otp] | dsimp only | split | intro _)

theorem doPerstRelease_otp (x : Shep) (s : State) : (doPerstRelease x s).otp = s.otp := by
  unfold doPerstRelease
  repeat' (first | with_reducible rfl | with_reducible refine ite2_otp ?_ ?_ | with_reducible refine (State.modSh_otp ..).trans ?_ | simp only [mk_otp] | dsimp only | split | intro _)

theorem doHotReset_otp (x : Shep) (s : State) : (doHotReset x s).otp = s.otp := by
  unfold doHotReset
  repeat' (first | with_reducible rfl | with_reducible refine ite2_otp ?_ ?_ | with_reducible refine (State.shepReset_otp ..).trans ?_ | simp only [mk_otp] | dsimp only | split | intro _)

theorem doFlr_otp (x : Shep) (s : State) : (doFlr x s).otp = s.otp := by
  unfold doFlr
  repeat' (first | with_reducible rfl | with_reducible refine ite2_otp ?_ ?_ | with_reducible refine (State.shepReset_otp ..).trans ?_ | simp only [mk_otp] | dsimp only | split | intro _)

theorem doWatchdog_otp (x : Shep) (s : State) : (doWatchdog x s).otp = s.otp := by
  unfold doWatchdog
  repeat' (first | with_reducible rfl | with_reducible refine ite2_otp ?_ ?_ | with_reducible refine (State.shepReset_otp ..).trans ?_ | simp only [mk_otp] | dsimp only | split | intro _)

theorem State.shpReset_otp (s : State) (x : Shep) : (State.shpReset s x).otp = s.otp := by
  unfold State.shpReset
  repeat' (first | with_reducible rfl | with_reducible refine ite2_otp ?_ ?_ | with_reducible refine (State.shepReset_otp ..).trans ?_ | simp only [mk_otp] | dsimp only | split | intro _)

theorem State.padReset_otp (s : State) (p : Nat) : (State.padReset s p).otp = s.otp := by
  unfold State.padReset
  repeat' (first | with_reducible rfl | with_reducible refine ite2_otp ?_ ?_ | with_reducible refine (State.pdkReady_otp ..).trans ?_ | with_reducible refine (State.padLost_otp ..).trans ?_ | simp only [mk_otp] | dsimp only | split | intro _)

theorem doPadRelease_otp (p : Nat) (s : State) : (doPadRelease p s).otp = s.otp := by
  unfold doPadRelease
  repeat' (first | with_reducible rfl | with_reducible refine ite2_otp ?_ ?_ | with_reducible refine (State.modPdk_otp ..).trans ?_ | simp only [mk_otp] | dsimp only | split | intro _)

theorem doPadReload_otp (p : Nat) (s : State) : (doPadReload p s).otp = s.otp := by
  unfold doPadReload
  repeat' (first | with_reducible rfl | with_reducible refine ite2_otp ?_ ?_ | with_reducible refine (State.padRestored_otp ..).trans ?_ | simp only [mk_otp] | dsimp only | split | intro _)

theorem State.railFlag_otp (s : State) (f : Fld) : (State.railFlag s f).otp = s.otp := by
  unfold State.railFlag
  repeat' (first | with_reducible rfl | with_reducible refine ite2_otp ?_ ?_ | with_reducible refine (State.dFlag_otp ..).trans ?_ | simp only [mk_otp] | dsimp only | split | intro _)

theorem doRailRestored_otp (r : Rail) (s : State) : (doRailRestored r s).otp = s.otp := by
  unfold doRailRestored
  repeat' (first | with_reducible rfl | with_reducible refine ite2_otp ?_ ?_ | with_reducible refine (State.modSh_otp ..).trans ?_ | with_reducible refine (State.modPdk_otp ..).trans ?_ | with_reducible refine (State.enablePdk_otp ..).trans ?_ | simp only [mk_otp] | dsimp only | split | intro _)

theorem State.rstBad_otp (s : State) (x : Shep) : (State.rstBad s x).otp = s.otp := by
  unfold State.rstBad
  repeat' (first | with_reducible rfl | with_reducible refine ite2_otp ?_ ?_ | with_reducible refine (State.pFlag_otp ..).trans ?_ | simp only [mk_otp] | dsimp only | split | intro _)

theorem State.writeRstShp_otp (s : State) (x : Shep) (v : Word) : (State.writeRstShp s x v).otp = s.otp := by
  unfold State.writeRstShp
  repeat' (first | with_reducible rfl | with_reducible refine ite2_otp ?_ ?_ | with_reducible refine (State.dPut_otp ..).trans ?_ | with_reducible refine (State.shpReset_otp ..).trans ?_ | with_reducible refine (State.rstBad_otp ..).trans ?_ | simp only [mk_otp] | dsimp only | split | intro _)

theorem State.writeRstSoft_otp (s : State) (x : Shep) (v : Word) : (State.writeRstSoft s x v).otp = s.otp := by
  unfold State.writeRstSoft
  repeat' (first | with_reducible rfl | with_reducible refine ite2_otp ?_ ?_ | with_reducible refine (State.dPut_otp ..).trans ?_ | with_reducible refine (State.softReset_otp ..).trans ?_ | with_reducible refine (State.rstBad_otp ..).trans ?_ | simp only [mk_otp] | dsimp only | split | intro _)

theorem State.writeRstPdk_otp (s : State) (x : Shep) (v : Word) : (State.writeRstPdk s x v).otp = s.otp := by
  unfold State.writeRstPdk
  repeat' (first | with_reducible rfl | with_reducible refine ite2_otp ?_ ?_ | with_reducible refine (State.dPut_otp ..).trans ?_ | with_reducible refine (State.padReset_otp ..).trans ?_ | with_reducible refine (State.rstBad_otp ..).trans ?_ | simp only [mk_otp] | dsimp only | split | intro _)

theorem State.writeRstCtrl_otp (s : State) (x : Shep) (v : Word) : (State.writeRstCtrl s x v).otp = s.otp := by
  unfold State.writeRstCtrl
  repeat' (first | with_reducible rfl | with_reducible refine ite2_otp ?_ ?_ | with_reducible refine (State.dPut_otp ..).trans ?_ | with_reducible refine (State.rstBad_otp ..).trans ?_ | with_reducible refine (State.writeRstShp_otp ..).trans ?_ | with_reducible refine (State.writeRstSoft_otp ..).trans ?_ | with_reducible refine (State.writeRstPdk_otp ..).trans ?_ | simp only [mk_otp] | dsimp only | split | intro _)

theorem State.writeWdg_otp (s : State) (x : Shep) (v : Word) : (State.writeWdg s x v).otp = s.otp := by
  unfold State.writeWdg
  repeat' (first | with_reducible rfl | with_reducible refine ite2_otp ?_ ?_ | with_reducible refine (State.pPut_otp ..).trans ?_ | with_reducible refine (State.rstBad_otp ..).trans ?_ | simp only [mk_otp] | dsimp only | split | intro _)

theorem State.padResetBoundary_otp (s : State) : (State.padResetBoundary s).otp = s.otp := by
  unfold State.padResetBoundary
  repeat' (first | with_reducible rfl | with_reducible refine ite2_otp ?_ ?_ | with_reducible refine (State.dPut_otp ..).trans ?_ | with_reducible refine (State.completeHif_otp ..).trans ?_ | with_reducible refine (State.endJob_otp ..).trans ?_ | with_reducible refine (State.setJob_otp ..).trans ?_ | with_reducible refine (State.padReset_otp ..).trans ?_ | simp only [mk_otp] | dsimp only | split | intro _)

theorem State.shpResetBoundary_otp (s : State) : (State.shpResetBoundary s).otp = s.otp := by
  unfold State.shpResetBoundary
  repeat' (first | with_reducible rfl | with_reducible refine ite2_otp ?_ ?_ | with_reducible refine (State.completeHif_otp ..).trans ?_ | with_reducible refine (State.endJob_otp ..).trans ?_ | with_reducible refine (State.setJob_otp ..).trans ?_ | with_reducible refine (State.handoverWrite_otp ..).trans ?_ | with_reducible refine (State.shpReset_otp ..).trans ?_ | simp only [mk_otp] | dsimp only | split | intro _)

theorem State.capMismatch_otp (s : State) : (State.capMismatch s).otp = s.otp := by
  unfold State.capMismatch
  repeat' (first | with_reducible rfl | with_reducible refine ite2_otp ?_ ?_ | with_reducible refine (both_otp _ _ ?_).trans ?_ | with_reducible refine (State.pPut_otp ..).trans ?_ | simp only [mk_otp] | dsimp only | split | intro _)

theorem State.loadKeys_otp (s : State) (readable : Bool) : (State.loadKeys s readable).otp = s.otp := by
  unfold State.loadKeys
  repeat' (first | with_reducible rfl | with_reducible refine ite2_otp ?_ ?_ | with_reducible refine (State.dPut_otp ..).trans ?_ | simp only [mk_otp] | dsimp only | split | intro _)

theorem State.bankRepairs_otp (s : State) (x : Shep) (march : Bool) (b : BootInfo) : (State.bankRepairs s x march b).otp = s.otp := by
  unfold State.bankRepairs
  repeat' (first | with_reducible rfl | with_reducible refine ite2_otp ?_ ?_ | with_reducible refine (State.wr_otp ..).trans ?_ | simp only [mk_otp] | dsimp only | split | intro _)

theorem State.bootSteps_otp (s : State) (x : Shep) (b : BootInfo) : (State.bootSteps s x b).otp = s.otp := by
  unfold State.bootSteps
  repeat' (first | with_reducible rfl | with_reducible refine ite2_otp ?_ ?_ | with_reducible refine (State.pPut_otp ..).trans ?_ | with_reducible refine (State.modSh_otp ..).trans ?_ | with_reducible refine (State.pFlag_otp ..).trans ?_ | with_reducible refine (State.bootDone_otp ..).trans ?_ | with_reducible refine (State.holdIdentity_otp ..).trans ?_ | with_reducible refine (State.bootImage_otp ..).trans ?_ | with_reducible refine (State.capMismatch_otp ..).trans ?_ | with_reducible refine (State.loadKeys_otp ..).trans ?_ | simp only [mk_otp] | dsimp only | split | intro _)

theorem doBootComplete_otp (x : Shep) (b : BootInfo) (s : State) : (doBootComplete x b s).otp = s.otp := by
  unfold doBootComplete
  repeat' (first | with_reducible rfl | with_reducible refine ite2_otp ?_ ?_ | with_reducible refine (State.modSh_otp ..).trans ?_ | with_reducible refine (State.pFlag_otp ..).trans ?_ | with_reducible refine (State.bankRepairs_otp ..).trans ?_ | with_reducible refine (State.bootSteps_otp ..).trans ?_ | simp only [mk_otp] | dsimp only | split | intro _)

theorem State.stopRing_otp (s : State) (x : Shep) (r cause index : Nat) : (State.stopRing s x r cause index).otp = s.otp := by
  unfold State.stopRing
  repeat' (first | with_reducible rfl | with_reducible refine ite2_otp ?_ ?_ | with_reducible refine (State.modSh_otp ..).trans ?_ | with_reducible refine (State.pFlag_otp ..).trans ?_ | with_reducible refine (State.ringEvent_otp ..).trans ?_ | with_reducible refine (State.cause_otp ..).trans ?_ | simp only [mk_otp] | dsimp only | split | intro _)

theorem State.takeProd_otp (s : State) (x : Shep) (line : List Byte) (r : Nat) : (State.takeProd s x line r).otp = s.otp := by
  unfold State.takeProd
  repeat' (first | with_reducible rfl | with_reducible refine ite2_otp ?_ ?_ | with_reducible refine (State.modSh_otp ..).trans ?_ | with_reducible refine (State.stopRing_otp ..).trans ?_ | simp only [mk_otp] | dsimp only | split | intro _)

theorem State.takeCons_otp (s : State) (x : Shep) (line : List Byte) (k : Nat) : (State.takeCons s x line k).otp = s.otp := by
  unfold State.takeCons
  repeat' (first | with_reducible rfl | with_reducible refine ite2_otp ?_ ?_ | with_reducible refine (State.pFlag_otp ..).trans ?_ | with_reducible refine (State.modRing_otp ..).trans ?_ | simp only [mk_otp] | dsimp only | split | intro _)

theorem doDoorbell_otp (x : Shep) (line : List Byte) (s : State) : (doDoorbell x line s).otp = s.otp := by
  unfold doDoorbell
  repeat' (first | with_reducible rfl | with_reducible refine ite2_otp ?_ ?_ | with_reducible refine (foldl_otp _ _ _ ?_).trans ?_ | with_reducible refine (State.modSh_otp ..).trans ?_ | with_reducible refine (State.takeProd_otp ..).trans ?_ | with_reducible refine (State.takeCons_otp ..).trans ?_ | simp only [mk_otp] | dsimp only | split | intro _)

theorem State.compareDesc_otp (s : State) (x : Shep) (own act : Desc) : (State.compareDesc s x own act).otp = s.otp := by
  unfold State.compareDesc
  repeat' (first | with_reducible rfl | with_reducible refine ite2_otp ?_ ?_ | with_reducible refine (State.pFlag_otp ..).trans ?_ | with_reducible refine (State.ringEvent_otp ..).trans ?_ | simp only [mk_otp] | dsimp only | split | intro _)

theorem State.intoFold_otp (s : State) (x : Shep) (d : Desc) : (State.intoFold s x d).otp = s.otp := by
  unfold State.intoFold
  repeat' (first | with_reducible rfl | with_reducible refine ite2_otp ?_ ?_ | with_reducible refine (State.modSh_otp ..).trans ?_ | with_reducible refine (State.compareDesc_otp ..).trans ?_ | simp only [mk_otp] | dsimp only | split | intro _)

theorem doFetch_otp (x : Shep) (r : Nat) (ds : List (List Byte × Option (List Byte))) (s : State) : (doFetch x r ds s).otp = s.otp := by
  unfold doFetch
  repeat' (first | with_reducible rfl | with_reducible refine ite2_otp ?_ ?_ | with_reducible refine (foldl_otp _ _ _ ?_).trans ?_ | with_reducible refine (foldl_otp_fst _ _ _ ?_).trans ?_ | with_reducible refine (foldl_otp_snd _ _ _ ?_).trans ?_ | with_reducible refine (State.pPut_otp ..).trans ?_ | with_reducible refine (State.intoFold_otp ..).trans ?_ | simp only [mk_otp] | dsimp only | split | intro _)

theorem State.takeDesc_otp (s : State) (d : Desc) : (State.takeDesc s d).otp = s.otp := by
  unfold State.takeDesc
  repeat' (first | with_reducible rfl | with_reducible refine ite2_otp ?_ ?_ | with_reducible refine (both_otp _ _ ?_).trans ?_ | with_reducible refine (State.modSh_otp ..).trans ?_ | with_reducible refine (State.compareDesc_otp ..).trans ?_ | simp only [mk_otp] | dsimp only | split | intro _)

theorem State.unread_otp (s : State) (x : Shep) (r : Nat) : (State.unread s x r).otp = s.otp := by
  unfold State.unread
  repeat' (first | with_reducible rfl | with_reducible refine ite2_otp ?_ ?_ | with_reducible refine (State.pushCpl_otp ..).trans ?_ | simp only [mk_otp] | dsimp only | split | intro _)

theorem doHostReadError_otp (x : Shep) (w : HostRead) (s : State) : (doHostReadError x w s).otp = s.otp := by
  unfold doHostReadError
  repeat' (first | with_reducible rfl | with_reducible refine ite2_otp ?_ ?_ | with_reducible refine (State.modSh_otp ..).trans ?_ | with_reducible refine (State.pFlag_otp ..).trans ?_ | with_reducible refine (State.ringEvent_otp ..).trans ?_ | with_reducible refine (State.stopRing_otp ..).trans ?_ | with_reducible refine (State.unread_otp ..).trans ?_ | simp only [mk_otp] | dsimp only | split | intro _)

theorem State.irqSend_otp (s : State) (x : Shep) (v : Nat) : (State.irqSend s x v).otp = s.otp := by
  unfold State.irqSend
  repeat' (first | with_reducible rfl | with_reducible refine ite2_otp ?_ ?_ | with_reducible refine (State.modSh_otp ..).trans ?_ | with_reducible refine (State.send_otp ..).trans ?_ | simp only [mk_otp] | dsimp only | split | intro _)

theorem State.irq_otp (s : State) (x : Shep) (v : Nat) : (State.irq s x v).otp = s.otp := by
  unfold State.irq
  repeat' (first | with_reducible rfl | with_reducible refine ite2_otp ?_ ?_ | with_reducible refine (State.modSh_otp ..).trans ?_ | with_reducible refine (State.irqSend_otp ..).trans ?_ | simp only [mk_otp] | dsimp only | split | intro _)

theorem doStatusLine_otp (x : Shep) (s : State) : (doStatusLine x s).otp = s.otp := by
  unfold doStatusLine
  repeat' (first | with_reducible rfl | with_reducible refine ite2_otp ?_ ?_ | with_reducible refine (foldl_otp _ _ _ ?_).trans ?_ | with_reducible refine (State.modSh_otp ..).trans ?_ | with_reducible refine (State.send_otp ..).trans ?_ | with_reducible refine (State.irq_otp ..).trans ?_ | simp only [mk_otp] | dsimp only | split | intro _)

theorem doHoldoffEnd_otp (x : Shep) (v : Nat) (s : State) : (doHoldoffEnd x v s).otp = s.otp := by
  unfold doHoldoffEnd
  repeat' (first | with_reducible rfl | with_reducible refine ite2_otp ?_ ?_ | with_reducible refine (State.irqSend_otp ..).trans ?_ | simp only [mk_otp] | dsimp only | split | intro _)

theorem doFlushCpl_otp (x : Shep) (s : State) : (doFlushCpl x s).otp = s.otp := by
  unfold doFlushCpl
  repeat' (first | with_reducible rfl | with_reducible refine ite2_otp ?_ ?_ | with_reducible refine (State.flushCpl_otp ..).trans ?_ | simp only [mk_otp] | dsimp only | split | intro _)

theorem doFlushEvt_otp (x : Shep) (s : State) : (doFlushEvt x s).otp = s.otp := by
  unfold doFlushEvt
  repeat' (first | with_reducible rfl | with_reducible refine ite2_otp ?_ ?_ | with_reducible refine (State.flushEvt_otp ..).trans ?_ | simp only [mk_otp] | dsimp only | split | intro _)

theorem State.hifBad_otp (s : State) (x : Shep) : (State.hifBad s x).otp = s.otp := by
  unfold State.hifBad
  repeat' (first | with_reducible rfl | with_reducible refine ite2_otp ?_ ?_ | with_reducible refine (State.pFlag_otp ..).trans ?_ | simp only [mk_otp] | dsimp only | split | intro _)

theorem State.writeCmdCfg_otp (s : State) (x : Shep) (r : Nat) (v : Word) : (State.writeCmdCfg s x r v).otp = s.otp := by
  unfold State.writeCmdCfg
  repeat' (first | with_reducible rfl | with_reducible refine ite2_otp ?_ ?_ | with_reducible refine (both_otp _ _ ?_).trans ?_ | with_reducible refine (State.pPut_otp ..).trans ?_ | with_reducible refine (State.modSh_otp ..).trans ?_ | with_reducible refine (State.sPut_otp ..).trans ?_ | with_reducible refine (State.hifBad_otp ..).trans ?_ | simp only [mk_otp] | dsimp only | split | intro _)

theorem State.writeCmdBase_otp (s : State) (x : Shep) (r off : Nat) (v : Word) : (State.writeCmdBase s x r off v).otp = s.otp := by
  unfold State.writeCmdBase
  repeat' (first | with_reducible rfl | with_reducible refine ite2_otp ?_ ?_ | with_reducible refine (State.sWr_otp ..).trans ?_ | with_reducible refine (State.hifBad_otp ..).trans ?_ | simp only [mk_otp] | dsimp only | split | intro _)

theorem State.writeRingCfg_otp (s : State) (x : Shep) (k : Nat) (v : Word) : (State.writeRingCfg s x k v).otp = s.otp := by
  unfold State.writeRingCfg
  repeat' (first | with_reducible rfl | with_reducible refine ite2_otp ?_ ?_ | with_reducible refine (State.pPut_otp ..).trans ?_ | with_reducible refine (State.modRing_otp ..).trans ?_ | with_reducible refine (State.hifBad_otp ..).trans ?_ | simp only [mk_otp] | dsimp only | split | intro _)

theorem State.writePoll_otp (s : State) (x : Shep) (v : Word) : (State.writePoll s x v).otp = s.otp := by
  unfold State.writePoll
  repeat' (first | with_reducible rfl | with_reducible refine ite2_otp ?_ ?_ | with_reducible refine (State.sPut_otp ..).trans ?_ | with_reducible refine (State.hifBad_otp ..).trans ?_ | simp only [mk_otp] | dsimp only | split | intro _)

theorem State.writeTlmCfg_otp (s : State) (x : Shep) (v : Word) : (State.writeTlmCfg s x v).otp = s.otp := by
  unfold State.writeTlmCfg
  repeat' (first | with_reducible rfl | with_reducible refine ite2_otp ?_ ?_ | with_reducible refine (State.pPut_otp ..).trans ?_ | with_reducible refine (State.hifBad_otp ..).trans ?_ | simp only [mk_otp] | dsimp only | split | intro _)

theorem startTelemetryCfg_otp (d : Desc) (s : State) : (startTelemetryCfg d s).otp = s.otp := by
  unfold startTelemetryCfg
  repeat' (first | with_reducible rfl | with_reducible refine ite2_otp ?_ ?_ | with_reducible refine (both_otp _ _ ?_).trans ?_ | with_reducible refine (State.pPut_otp ..).trans ?_ | with_reducible refine (State.completeHif_otp ..).trans ?_ | simp only [mk_otp] | dsimp only | split | intro _)

theorem State.modPort_otp (s : State) (i : Nat) (f : PortSt → PortSt) : (State.modPort s i f).otp = s.otp := by
  unfold State.modPort
  repeat' (first | with_reducible rfl | with_reducible refine ite2_otp ?_ ?_ | simp only [mk_otp] | dsimp only | split | intro _)

theorem State.modQueue_otp (s : State) (i q : Nat) (f : QueueSt → QueueSt) : (State.modQueue s i q f).otp = s.otp := by
  unfold State.modQueue
  repeat' (first | with_reducible rfl | with_reducible refine ite2_otp ?_ ?_ | simp only [mk_otp] | dsimp only | split | intro _)

theorem State.settleBucket_otp (s : State) (i q : Nat) (f : State → State) (h : ∀ s, (f s).otp = s.otp) : (s.settleBucket i q f).otp = s.otp :=
  (State.modQueue_otp ..).trans (h s)

theorem State.ethBad_otp (s : State) : (State.ethBad s).otp = s.otp := by
  unfold State.ethBad
  repeat' (first | with_reducible rfl | with_reducible refine ite2_otp ?_ ?_ | with_reducible refine (State.dFlag_otp ..).trans ?_ | simp only [mk_otp] | dsimp only | split | intro _)

theorem dropHeads_otp (i q : Nat) (a0_ : Nat) (s_ : State) : (dropHeads i q a0_ s_).otp = s_.otp := by
  induction a0_ generalizing s_ with
  | zero => rfl
  | succ n ih =>
    unfold dropHeads
    repeat' (first | with_reducible rfl | with_reducible refine ite2_otp ?_ ?_ | with_reducible refine (ih _).trans ?_ | with_reducible refine (State.dCount_otp ..).trans ?_ | with_reducible refine (State.drop_otp ..).trans ?_ | with_reducible refine (State.modQueue_otp ..).trans ?_ | simp only [mk_otp] | dsimp only | split | intro _)

theorem State.judgeHeads_otp (s : State) (i q : Nat) : (State.judgeHeads s i q).otp = s.otp := by
  unfold State.judgeHeads
  repeat' (first | with_reducible rfl | with_reducible refine ite2_otp ?_ ?_ | with_reducible refine (dropHeads_otp ..).trans ?_ | simp only [mk_otp] | dsimp only | split | intro _)

theorem State.enqueue_otp (s : State) (i : Nat) (f : QFrame) : (State.enqueue s i f).2.otp = s.otp := by
  unfold State.enqueue
  repeat' (first | with_reducible rfl | with_reducible refine ite2_otp ?_ ?_ | with_reducible refine (State.dCount_otp ..).trans ?_ | with_reducible refine (State.drop_otp ..).trans ?_ | with_reducible refine (State.modQueue_otp ..).trans ?_ | with_reducible refine (State.judgeHeads_otp ..).trans ?_ | simp only [mk_otp] | dsimp only | split | intro _)

theorem State.stamp_otp (s : State) (tb : Nat) (corr : Int) : (State.stamp s tb corr).2.otp = s.otp := by
  unfold State.stamp
  repeat' (first | with_reducible rfl | with_reducible refine ite2_otp ?_ ?_ | with_reducible refine (State.draw_otp ..).trans ?_ | simp only [mk_otp] | dsimp only | split | intro _)

theorem State.pass_otp (s : State) (i : Nat) (f : QFrame) : (State.pass s i f).2.otp = s.otp := by
  unfold State.pass
  repeat' (first | with_reducible rfl | with_reducible refine ite2_otp ?_ ?_ | with_reducible refine (State.drop_otp ..).trans ?_ | with_reducible refine (State.stamp_otp ..).trans ?_ | simp only [mk_otp] | dsimp only | split | intro _)

theorem State.transmit_otp (s : State) (i q : Nat) (f : QFrame) : (State.transmit s i q f).otp = s.otp := by
  unfold State.transmit
  repeat' (first | with_reducible rfl | with_reducible refine ite2_otp ?_ ?_ | with_reducible refine (State.send_otp ..).trans ?_ | with_reducible refine (State.drop_otp ..).trans ?_ | with_reducible refine (State.modPort_otp ..).trans ?_ | with_reducible refine (State.modQueue_otp ..).trans ?_ | with_reducible refine (State.judgeHeads_otp ..).trans ?_ | with_reducible refine (State.pass_otp ..).trans ?_ | simp only [mk_otp] | dsimp only | split | intro _)

theorem doTransmit_otp (i : Nat) (late : Bool) (s : State) : (doTransmit i late s).otp = s.otp := by
  unfold doTransmit
  repeat' (first | with_reducible rfl | with_reducible refine ite2_otp ?_ ?_ | with_reducible refine (State.dCount_otp ..).trans ?_ | with_reducible refine (State.transmit_otp ..).trans ?_ | simp only [mk_otp] | dsimp only | split | intro _)

theorem State.gateStat_otp (s : State) (i : Nat) : (State.gateStat s i).otp = s.otp := by
  unfold State.gateStat
  repeat' (first | with_reducible rfl | with_reducible refine ite2_otp ?_ ?_ | with_reducible refine (State.dPut_otp ..).trans ?_ | simp only [mk_otp] | dsimp only | split | intro _)

theorem doGateEntry_otp (i : Nat) (s : State) : (doGateEntry i s).otp = s.otp := by
  unfold doGateEntry
  repeat' (first | with_reducible rfl | with_reducible refine ite2_otp ?_ ?_ | with_reducible refine (State.gateStat_otp ..).trans ?_ | simp only [mk_otp] | dsimp only | split | intro _)

theorem doGateTakeover_otp (i : Nat) (s : State) : (doGateTakeover i s).otp = s.otp := by
  unfold doGateTakeover
  repeat' (first | with_reducible rfl | with_reducible refine ite2_otp ?_ ?_ | with_reducible refine (foldl_otp _ _ _ ?_).trans ?_ | with_reducible refine (State.modPort_otp ..).trans ?_ | with_reducible refine (State.judgeHeads_otp ..).trans ?_ | with_reducible refine (State.gateStat_otp ..).trans ?_ | simp only [mk_otp] | dsimp only | split | intro _)

theorem startGateList_otp (d : Desc) (s : State) : (startGateList d s).otp = s.otp := by
  unfold startGateList
  repeat' (first | with_reducible rfl | with_reducible refine ite2_otp ?_ ?_ | with_reducible refine (foldl_otp _ _ _ ?_).trans ?_ | with_reducible refine (State.complete_otp ..).trans ?_ | with_reducible refine (State.completeHif_otp ..).trans ?_ | with_reducible refine (State.drop_otp ..).trans ?_ | with_reducible refine (State.modPort_otp ..).trans ?_ | with_reducible refine (State.gateStat_otp ..).trans ?_ | simp only [mk_otp] | dsimp only | split | intro _)

theorem startPolicer_otp (d : Desc) (s : State) : (startPolicer d s).otp = s.otp := by
  unfold startPolicer
  repeat' (first | with_reducible rfl | with_reducible refine ite2_otp ?_ ?_ | with_reducible refine (foldl_otp _ _ _ ?_).trans ?_ | with_reducible refine (State.complete_otp ..).trans ?_ | with_reducible refine (State.completeHif_otp ..).trans ?_ | with_reducible refine (State.drop_otp ..).trans ?_ | simp only [mk_otp] | dsimp only | split | intro _)

theorem State.police_otp (s : State) (i : Nat) (f : EthFrame) (len : Nat) : (State.police s i f len).2.otp = s.otp := by
  unfold State.police
  repeat' (first | with_reducible rfl | with_reducible refine ite2_otp ?_ ?_ | with_reducible refine (State.dCount_otp ..).trans ?_ | simp only [mk_otp] | dsimp only | split | intro _)

theorem State.ratio_otp (s : State) (n d : Nat) : (State.ratio s n d).2.otp = s.otp := by
  unfold State.ratio
  repeat' (first | with_reducible rfl | with_reducible refine ite2_otp ?_ ?_ | with_reducible refine (State.draw_otp ..).trans ?_ | simp only [mk_otp] | dsimp only | split | intro _)

theorem State.sampleQueue_otp (s : State) (i q : Nat) : (State.sampleQueue s i q).otp = s.otp := by
  unfold State.sampleQueue
  repeat' (first | with_reducible rfl | with_reducible refine ite2_otp ?_ ?_ | with_reducible refine (State.wr_otp ..).trans ?_ | with_reducible refine (State.dPut_otp ..).trans ?_ | with_reducible refine (State.modQueue_otp ..).trans ?_ | with_reducible refine (State.ratio_otp ..).trans ?_ | simp only [mk_otp] | dsimp only | split | intro _)

theorem State.sampleQueues_otp (s : State) : (State.sampleQueues s).otp = s.otp := by
  unfold State.sampleQueues
  repeat' (first | with_reducible rfl | with_reducible refine ite2_otp ?_ ?_ | with_reducible refine (foldl_otp _ _ _ ?_).trans ?_ | with_reducible refine (State.sampleQueue_otp ..).trans ?_ | simp only [mk_otp] | dsimp only | split | intro _)

theorem State.queueTlm_otp (s : State) (i q n : Nat) : (State.queueTlm s i q n).2.otp = s.otp := by
  unfold State.queueTlm
  repeat' (first | with_reducible rfl | with_reducible refine ite2_otp ?_ ?_ | with_reducible refine (State.drop_otp ..).trans ?_ | with_reducible refine (State.ratio_otp ..).trans ?_ | simp only [mk_otp] | dsimp only | split | intro _)

theorem State.queueFresh_otp (s : State) : (State.queueFresh s).otp = s.otp := by
  unfold State.queueFresh
  repeat' (first | with_reducible rfl | with_reducible refine ite2_otp ?_ ?_ | with_reducible refine (foldl_otp _ _ _ ?_).trans ?_ | with_reducible refine (State.drop_otp ..).trans ?_ | with_reducible refine (State.modQueue_otp ..).trans ?_ | simp only [mk_otp] | dsimp only | split | intro _)

theorem State.portCorr_otp (s : State) (i : Nat) : (State.portCorr s i).otp = s.otp := by
  unfold State.portCorr
  repeat' (first | with_reducible rfl | with_reducible refine ite2_otp ?_ ?_ | with_reducible refine (State.wr_otp ..).trans ?_ | with_reducible refine (State.ratio_otp ..).trans ?_ | simp only [mk_otp] | dsimp only | split | intro _)

theorem State.writePortCfg_otp (s : State) (i : Nat) (v : Word) : (State.writePortCfg s i v).otp = s.otp := by
  unfold State.writePortCfg
  repeat' (first | with_reducible rfl | with_reducible refine ite2_otp ?_ ?_ | with_reducible refine (State.wr_otp ..).trans ?_ | with_reducible refine (State.dPut_otp ..).trans ?_ | with_reducible refine (State.ethBad_otp ..).trans ?_ | with_reducible refine (State.portCorr_otp ..).trans ?_ | simp only [mk_otp] | dsimp only | split | intro _)

theorem doLinkChange_otp (i : Nat) (up : Bool) (s : State) : (doLinkChange i up s).otp = s.otp := by
  unfold doLinkChange
  repeat' (first | with_reducible rfl | with_reducible refine ite2_otp ?_ ?_ | with_reducible refine (State.dPut_otp ..).trans ?_ | simp only [mk_otp] | dsimp only | split | intro _)

theorem State.writePairCfg_otp (s : State) (j : Nat) (v : Word) : (State.writePairCfg s j v).otp = s.otp := by
  unfold State.writePairCfg
  repeat' (first | with_reducible rfl | with_reducible refine ite2_otp ?_ ?_ | with_reducible refine (State.dPut_otp ..).trans ?_ | with_reducible refine (State.ethBad_otp ..).trans ?_ | simp only [mk_otp] | dsimp only | split | intro _)

theorem State.writeCtlCfg_otp (s : State) (v : Word) : (State.writeCtlCfg s v).otp = s.otp := by
  unfold State.writeCtlCfg
  repeat' (first | with_reducible rfl | with_reducible refine ite2_otp ?_ ?_ | with_reducible refine (State.dPut_otp ..).trans ?_ | with_reducible refine (State.ethBad_otp ..).trans ?_ | simp only [mk_otp] | dsimp only | split | intro _)

theorem State.writeShape_otp (s : State) (i q : Nat) (v : Word) : (State.writeShape s i q v).otp = s.otp := by
  unfold State.writeShape
  split
  · exact State.ethBad_otp ..
  · exact State.settleBucket_otp _ _ _ _ fun s => State.wr_otp ..

theorem State.writeQSize_otp (s : State) (i q : Nat) (v : Word) : (State.writeQSize s i q v).otp = s.otp := by
  unfold State.writeQSize
  dsimp only
  split
  · exact State.ethBad_otp ..
  · exact State.settleBucket_otp _ _ _ _ fun s => State.wr_otp ..

theorem State.modPair_otp (s : State) (j : Nat) (f : PairSt → PairSt) : (State.modPair s j f).otp = s.otp := by
  unfold State.modPair
  repeat' (first | with_reducible rfl | with_reducible refine ite2_otp ?_ ?_ | simp only [mk_otp] | dsimp only | split | intro _)

theorem State.queueTx_otp (s : State) (j : Nat) (f : EthFrame) (ptp : Option (Nat × Nat)) (tlm : Nat) : (State.queueTx s j f ptp tlm).otp = s.otp := by
  unfold State.queueTx
  repeat' (first | with_reducible rfl | with_reducible refine ite2_otp ?_ ?_ | simp only [mk_otp] | dsimp only | split | intro _)

theorem State.reply_otp (s : State) (r : Nat × Desc × List Byte) : (State.reply s r).otp = s.otp := by
  unfold State.reply
  repeat' (first | with_reducible rfl | with_reducible refine ite2_otp ?_ ?_ | with_reducible refine (State.queueTx_otp ..).trans ?_ | with_reducible refine (State.draw_otp ..).trans ?_ | simp only [mk_otp] | dsimp only | split | intro _)

theorem State.formReplies_otp (s : State) : (State.formReplies s).otp = s.otp := by
  unfold State.formReplies
  repeat' (first | with_reducible rfl | with_reducible refine ite2_otp ?_ ?_ | with_reducible refine (foldl_otp _ _ _ ?_).trans ?_ | with_reducible refine (State.reply_otp ..).trans ?_ | simp only [mk_otp] | dsimp only | split | intro _)

theorem State.hubSend_otp (s : State) (t : TxFrame) : (State.hubSend s t).2.otp = s.otp := by
  unfold State.hubSend
  repeat' (first | with_reducible rfl | with_reducible refine ite2_otp ?_ ?_ | with_reducible refine (foldl_otp _ _ _ ?_).trans ?_ | with_reducible refine (foldl_otp_fst _ _ _ ?_).trans ?_ | with_reducible refine (foldl_otp_snd _ _ _ ?_).trans ?_ | with_reducible refine (State.enqueue_otp ..).trans ?_ | with_reducible refine (State.modPair_otp ..).trans ?_ | simp only [mk_otp] | dsimp only | split | intro _)

theorem State.forgetTx_otp (s : State) : (State.forgetTx s).otp = s.otp := by
  unfold State.forgetTx
  repeat' (first | with_reducible rfl | with_reducible refine ite2_otp ?_ ?_ | simp only [mk_otp] | dsimp only | split | intro _)

theorem doOffer_otp (x : Shep) (differs : Bool) (s : State) : (doOffer x differs s).otp = s.otp := by
  unfold doOffer
  repeat' (first | simp only [mk_otp] | with_reducible rfl | with_reducible refine ite2_otp ?_ ?_ | with_reducible refine (State.modSh_otp ..).trans ?_ | with_reducible refine (State.dCount_otp ..).trans ?_ | with_reducible refine (State.hubDrop_otp ..).trans ?_ | with_reducible refine (State.formReplies_otp ..).trans ?_ | with_reducible refine (State.hubSend_otp ..).trans ?_ | with_reducible refine (State.forgetTx_otp ..).trans ?_ | simp only [mk_otp] | dsimp only | split | intro _)

theorem doSupervision_otp (j : Nat) (s : State) : (doSupervision j s).otp = s.otp := by
  unfold doSupervision
  repeat' (first | with_reducible rfl | with_reducible refine ite2_otp ?_ ?_ | with_reducible refine (State.modPair_otp ..).trans ?_ | with_reducible refine (State.queueTx_otp ..).trans ?_ | simp only [mk_otp] | dsimp only | split | intro _)

theorem doForget_otp (j : Nat) (s : State) : (doForget j s).otp = s.otp := by
  unfold doForget
  repeat' (first | with_reducible rfl | with_reducible refine ite2_otp ?_ ?_ | with_reducible refine (State.modPair_otp ..).trans ?_ | simp only [mk_otp] | dsimp only | split | intro _)

theorem State.seeNode_otp (s : State) (j : Nat) (src : Nat) : (State.seeNode s j src).otp = s.otp := by
  unfold State.seeNode
  repeat' (first | with_reducible rfl | with_reducible refine ite2_otp ?_ ?_ | with_reducible refine (State.dFlag_otp ..).trans ?_ | with_reducible refine (State.modPair_otp ..).trans ?_ | simp only [mk_otp] | dsimp only | split | intro _)

theorem State.duplicate_otp (s : State) (j src seq : Nat) : (State.duplicate s j src seq).2.otp = s.otp := by
  unfold State.duplicate
  repeat' (first | with_reducible rfl | with_reducible refine ite2_otp ?_ ?_ | with_reducible refine (State.dFlag_otp ..).trans ?_ | with_reducible refine (State.modPair_otp ..).trans ?_ | simp only [mk_otp] | dsimp only | split | intro _)

theorem State.deliver_otp (s : State) (i : Nat) (f : EthFrame) : (State.deliver s i f).otp = s.otp := by
  unfold State.deliver
  repeat' (first | with_reducible rfl | with_reducible refine ite2_otp ?_ ?_ | with_reducible refine (State.dCount_otp ..).trans ?_ | with_reducible refine (State.drop_otp ..).trans ?_ | with_reducible refine (State.seeNode_otp ..).trans ?_ | simp only [mk_otp] | dsimp only | split | intro _)

theorem State.forward_otp (s : State) (i : Nat) (f : EthFrame) : (State.forward s i f).otp = s.otp := by
  unfold State.forward
  repeat' (first | with_reducible rfl | with_reducible refine ite2_otp ?_ ?_ | with_reducible refine (State.event_otp ..).trans ?_ | with_reducible refine (State.enqueue_otp ..).trans ?_ | simp only [mk_otp] | dsimp only | split | intro _)

theorem doFrameReceive_otp (i : Nat) (f : EthFrame) (fcs : Bool) (s : State) : (doFrameReceive i f fcs s).otp = s.otp := by
  unfold doFrameReceive
  repeat' (first | with_reducible rfl | with_reducible refine ite2_otp ?_ ?_ | with_reducible refine (State.dCount_otp ..).trans ?_ | with_reducible refine (State.modPort_otp ..).trans ?_ | with_reducible refine (State.police_otp ..).trans ?_ | with_reducible refine (State.seeNode_otp ..).trans ?_ | with_reducible refine (State.duplicate_otp ..).trans ?_ | with_reducible refine (State.deliver_otp ..).trans ?_ | with_reducible refine (State.forward_otp ..).trans ?_ | simp only [mk_otp] | dsimp only | split | intro _)

theorem doControlFrame_otp (s : State) : (doControlFrame s).otp = s.otp := by
  unfold doControlFrame
  repeat' (first | with_reducible rfl | with_reducible refine ite2_otp ?_ ?_ | with_reducible refine (both_otp _ _ ?_).trans ?_ | with_reducible refine (State.modSh_otp ..).trans ?_ | with_reducible refine (State.dCount_otp ..).trans ?_ | with_reducible refine (State.drop_otp ..).trans ?_ | simp only [mk_otp] | dsimp only | split | intro _)

theorem State.tlmTick_otp (s : State) (temp : Int) : (State.tlmTick s temp).otp = s.otp := by
  unfold State.tlmTick
  repeat' (first | with_reducible rfl | with_reducible refine ite2_otp ?_ ?_ | simp only [mk_otp] | dsimp only | split | intro _)

theorem State.putTlm_otp (s : State) (src : Nat) (payload : List Byte) : (State.putTlm s src payload).otp = s.otp := by
  unfold State.putTlm
  repeat' (first | with_reducible rfl | with_reducible refine ite2_otp ?_ ?_ | with_reducible refine (both_otp _ _ ?_).trans ?_ | with_reducible refine (State.pCount_otp ..).trans ?_ | with_reducible refine (State.putRec_otp ..).trans ?_ | simp only [mk_otp] | dsimp only | split | intro _)

theorem State.powerTlm_otp (s : State) (power headroom : Nat) : (State.powerTlm s power headroom).2.otp = s.otp := by
  unfold State.powerTlm
  repeat' (first | with_reducible rfl | with_reducible refine ite2_otp ?_ ?_ | with_reducible refine (foldl_otp _ _ _ ?_).trans ?_ | with_reducible refine (foldl_otp_fst _ _ _ ?_).trans ?_ | with_reducible refine (foldl_otp_snd _ _ _ ?_).trans ?_ | with_reducible refine (State.ratio_otp ..).trans ?_ | simp only [mk_otp] | dsimp only | split | intro _)

theorem doTelemetry_otp (power headroom : Nat) (s : State) : (doTelemetry power headroom s).otp = s.otp := by
  unfold doTelemetry
  repeat' (first | with_reducible rfl | with_reducible refine ite2_otp ?_ ?_ | with_reducible refine (foldl_otp _ _ _ ?_).trans ?_ | with_reducible refine (State.timeTlm_otp ..).trans ?_ | with_reducible refine (State.queueTlm_otp ..).trans ?_ | with_reducible refine (State.queueFresh_otp ..).trans ?_ | with_reducible refine (State.putTlm_otp ..).trans ?_ | with_reducible refine (State.powerTlm_otp ..).trans ?_ | simp only [mk_otp] | dsimp only | split | intro _)

theorem doTelemetryFrame_otp (s : State) : (doTelemetryFrame s).otp = s.otp := by
  unfold doTelemetryFrame
  repeat' (first | with_reducible rfl | with_reducible refine ite2_otp ?_ ?_ | with_reducible refine (State.dCount_otp ..).trans ?_ | with_reducible refine (State.drop_otp ..).trans ?_ | with_reducible refine (State.queueTx_otp ..).trans ?_ | simp only [mk_otp] | dsimp only | split | intro _)

theorem doDroopTrip_otp (x : Shep) (mask : Nat) (s : State) : (doDroopTrip x mask s).otp = s.otp := by
  unfold doDroopTrip
  repeat' (first | with_reducible rfl | with_reducible refine ite2_otp ?_ ?_ | with_reducible refine (State.wr_otp ..).trans ?_ | with_reducible refine (State.modSh_otp ..).trans ?_ | with_reducible refine (State.pCount_otp ..).trans ?_ | simp only [mk_otp] | dsimp only | split | intro _)

theorem doStretchEnd_otp (x : Shep) (periods : Nat) (s : State) : (doStretchEnd x periods s).otp = s.otp := by
  unfold doStretchEnd
  repeat' (first | with_reducible rfl | with_reducible refine ite2_otp ?_ ?_ | with_reducible refine (State.modSh_otp ..).trans ?_ | with_reducible refine (State.pCount_otp ..).trans ?_ | simp only [mk_otp] | dsimp only | split | intro _)

theorem State.writeDroopCfg_otp (s : State) (x : Shep) (v : Word) : (State.writeDroopCfg s x v).otp = s.otp := by
  unfold State.writeDroopCfg
  repeat' (first | with_reducible rfl | with_reducible refine ite2_otp ?_ ?_ | with_reducible refine (State.pPut_otp ..).trans ?_ | simp only [mk_otp] | dsimp only | split | intro _)

theorem State.xingFlow_otp (s : State) (p e : Nat) : (State.xingFlow s p e).otp = s.otp := by
  unfold State.xingFlow
  repeat' (first | with_reducible rfl | with_reducible refine ite2_otp ?_ ?_ | with_reducible refine (State.report_otp ..).trans ?_ | with_reducible refine (State.strobePdk_otp ..).trans ?_ | with_reducible refine (State.strobeCommit_otp ..).trans ?_ | simp only [mk_otp] | dsimp only | split | intro _)

theorem State.xingOpen_otp (s : State) (p : Nat) : (State.xingOpen s p).otp = s.otp := by
  unfold State.xingOpen
  repeat' (first | with_reducible rfl | with_reducible refine ite2_otp ?_ ?_ | with_reducible refine (foldl_otp _ _ _ ?_).trans ?_ | with_reducible refine (State.pdkErr_otp ..).trans ?_ | with_reducible refine (State.xingFlow_otp ..).trans ?_ | simp only [mk_otp] | dsimp only | split | intro _)

theorem State.writeFence_otp (s : State) (x : Shep) (v : Word) : (State.writeFence s x v).otp = s.otp := by
  unfold State.writeFence
  repeat' (first | with_reducible rfl | with_reducible refine ite2_otp ?_ ?_ | with_reducible refine (foldl_otp _ _ _ ?_).trans ?_ | with_reducible refine (State.wr_otp ..).trans ?_ | with_reducible refine (State.setIncr_otp ..).trans ?_ | with_reducible refine (State.xingOpen_otp ..).trans ?_ | simp only [mk_otp] | dsimp only | split | intro _)

theorem State.readOne_otp (s : State) (path : Nat) (x : Shep) (off : Nat) : (State.readOne s path x off).1.otp = s.otp := by
  unfold State.readOne
  repeat' (first | with_reducible rfl | with_reducible refine ite2_otp ?_ ?_ | with_reducible refine (doTimNowRead_otp ..).trans ?_ | simp only [mk_otp] | dsimp only | split | intro _)

theorem State.readWords_otp (path : Nat) (x : Shep) (a0_ : Nat) (a1_ : Nat) (s_ : State) : (State.readWords path x a0_ a1_ s_).1.otp = s_.otp := by
  induction a0_ generalizing a1_ s_ with
  | zero => rfl
  | succ n ih => exact (ih _ _).trans (State.readOne_otp ..)

theorem State.readRequest_otp (s : State) (path : Nat) (x : Shep) (addr len : Nat) : (State.readRequest s path x addr len).1.otp = s.otp := by
  unfold State.readRequest
  repeat' (first | with_reducible rfl | with_reducible refine ite2_otp ?_ ?_ | with_reducible refine (State.pFlag_otp ..).trans ?_ | with_reducible refine (State.drop_otp ..).trans ?_ | with_reducible refine (State.readWords_otp ..).trans ?_ | simp only [mk_otp] | dsimp only | split | intro _)

theorem State.jtagRead_otp (s : State) (x : Shep) (addr len : Nat) : (State.jtagRead s x addr len).otp = s.otp := by
  unfold State.jtagRead
  repeat' (first | with_reducible rfl | with_reducible refine ite2_otp ?_ ?_ | with_reducible refine (State.send_otp ..).trans ?_ | with_reducible refine (State.readRequest_otp ..).trans ?_ | simp only [mk_otp] | dsimp only | split | intro _)

theorem State.jtagFrames_otp (s : State) (x : Shep) (len : Nat) : (State.jtagFrames s x len).otp = s.otp := by
  unfold State.jtagFrames
  repeat' (first | with_reducible rfl | with_reducible refine ite2_otp ?_ ?_ | with_reducible refine (State.send_otp ..).trans ?_ | simp only [mk_otp] | dsimp only | split | intro _)

theorem State.readPath_otp (s : State) (path addr len : Nat) : (State.readPath s path addr len).otp = s.otp := by
  unfold State.readPath
  repeat' (first | with_reducible rfl | with_reducible refine ite2_otp ?_ ?_ | with_reducible refine (State.send_otp ..).trans ?_ | with_reducible refine (doTimNowRead_otp ..).trans ?_ | with_reducible refine (State.readRequest_otp ..).trans ?_ | with_reducible refine (State.jtagRead_otp ..).trans ?_ | with_reducible refine (State.jtagFrames_otp ..).trans ?_ | simp only [mk_otp] | dsimp only | split | intro _)

theorem State.storeReg_otp (s : State) (x : Shep) (r : RegRow) (off : Nat) (v : Word) : (State.storeReg s x r off v).otp = s.otp := by
  unfold State.storeReg
  repeat' (first | with_reducible rfl | with_reducible refine ite2_otp ?_ ?_ | with_reducible refine (State.wr_otp ..).trans ?_ | simp only [mk_otp] | dsimp only | split | intro _)

theorem State.writeClrMask_otp (s : State) (w : Nat) (v : Word) : (State.writeClrMask s w v).otp = s.otp := by
  unfold State.writeClrMask
  repeat' (first | with_reducible rfl | with_reducible refine ite2_otp ?_ ?_ | with_reducible refine (State.wr_otp ..).trans ?_ | with_reducible refine (State.settleAll_otp ..).trans ?_ | with_reducible refine (State.resume_otp ..).trans ?_ | simp only [mk_otp] | dsimp only | split | intro _)

theorem State.tlmCleared_otp (s : State) (f : State → State) (h : ∀ s, (f s).otp = s.otp) : (s.tlmCleared f).otp = s.otp := by
  unfold State.tlmCleared; simp only [mk_otp, h]

theorem State.writeLinkErr_otp (s : State) (x : Shep) (p : Nat) (v : Word) : (State.writeLinkErr s x p v).otp = s.otp := by
  unfold State.writeLinkErr
  repeat' (first | with_reducible rfl | with_reducible refine ite2_otp ?_ ?_ | with_reducible refine (State.pPut_otp ..).trans ?_ | simp only [mk_otp] | dsimp only | split | intro _)

theorem State.writeLoopStatus_otp (s : State) (x : Shep) (r : RegRow) (v : Word) : (State.writeLoopStatus s x r v).otp = s.otp := by
  unfold State.writeLoopStatus
  dsimp only
  split
  · exact (State.tlmCleared_otp _ _ fun s => (State.wr_otp ..).trans (State.wr_otp ..)).trans (State.wr_otp ..)
  · exact State.wr_otp ..

theorem State.writeTable_otp (s : State) (sel : Word) (x : Shep) (w : Nat) (v : Word) : (State.writeTable s sel x w v).otp = s.otp := by
  unfold State.writeTable
  repeat' (first | with_reducible rfl | with_reducible refine ite2_otp ?_ ?_ | with_reducible refine (State.pFlag_otp ..).trans ?_ | with_reducible refine (State.queueCoef_otp ..).trans ?_ | with_reducible refine (State.cmpWord_otp ..).trans ?_ | with_reducible refine (State.present_otp ..).trans ?_ | simp only [mk_otp] | dsimp only | split | intro _)

theorem State.writeSample_otp (s : State) (x : Shep) (v : Word) : (State.writeSample s x v).otp = s.otp := by
  unfold State.writeSample
  repeat' (first | with_reducible rfl | with_reducible refine ite2_otp ?_ ?_ | with_reducible refine (servoSample_otp ..).trans ?_ | simp only [mk_otp] | dsimp only | split | intro _)

theorem State.writeTec_otp (s : State) (t : Nat) (v : Word) : (State.writeTec s t v).otp = s.otp := by
  unfold State.writeTec
  repeat' (first | with_reducible rfl | with_reducible refine ite2_otp ?_ ?_ | with_reducible refine (State.wr_otp ..).trans ?_ | with_reducible refine (State.dPut_otp ..).trans ?_ | with_reducible refine (State.send_otp ..).trans ?_ | with_reducible refine (State.draw_otp ..).trans ?_ | simp only [mk_otp] | dsimp only | dsimp only [State.draw] | split | intro _)

theorem State.writeSys_otp (s : State) (x : Shep) (r : RegRow) (i off : Nat) (v : Word) : ∀ t, State.writeSys s x r i off v = some t → t.otp = s.otp := by
  unfold State.writeSys
  repeat' (first | with_reducible rfl | with_reducible refine ite_some_otp ?_ ?_ | exact none_otp _ | with_reducible refine ite2_otp ?_ ?_ | with_reducible refine (State.wr_otp ..).trans ?_ | with_reducible refine (State.writeIncr_otp ..).trans ?_ | with_reducible refine (State.writeServoCfg_otp ..).trans ?_ | with_reducible refine (State.writeStepThr_otp ..).trans ?_ | with_reducible refine (State.writePpsCfg_otp ..).trans ?_ | with_reducible refine (State.writeWake_otp ..).trans ?_ | with_reducible refine (State.setLock_otp ..).trans ?_ | with_reducible refine (State.writeLoadCtrl_otp ..).trans ?_ | with_reducible refine (State.writeLoadPage_otp ..).trans ?_ | with_reducible refine (State.writeRstCtrl_otp ..).trans ?_ | with_reducible refine (State.writeWdg_otp ..).trans ?_ | with_reducible refine (State.writeCmdCfg_otp ..).trans ?_ | with_reducible refine (State.writeCmdBase_otp ..).trans ?_ | with_reducible refine (State.writeRingCfg_otp ..).trans ?_ | with_reducible refine (State.writePoll_otp ..).trans ?_ | with_reducible refine (State.writeTlmCfg_otp ..).trans ?_ | with_reducible refine (State.writeDroopCfg_otp ..).trans ?_ | with_reducible refine (State.writeFence_otp ..).trans ?_ | with_reducible refine (State.writeSample_otp ..).trans ?_ | with_reducible refine (State.writeTec_otp ..).trans ?_ | simp only [mk_otp] | dsimp only)

theorem State.writeEth_otp (s : State) (r : RegRow) (i off : Nat) (v : Word) : ∀ t, State.writeEth s r i off v = some t → t.otp = s.otp := by
  unfold State.writeEth
  repeat' (first | with_reducible rfl | with_reducible refine ite_some_otp ?_ ?_ | exact none_otp _ | with_reducible refine ite2_otp ?_ ?_ | with_reducible refine (State.writePortCfg_otp ..).trans ?_ | with_reducible refine (State.writePairCfg_otp ..).trans ?_ | with_reducible refine (State.writeCtlCfg_otp ..).trans ?_ | with_reducible refine (State.writeShape_otp ..).trans ?_ | with_reducible refine (State.writeQSize_otp ..).trans ?_ | simp only [mk_otp] | dsimp only)

theorem State.writeAnalog_otp (s : State) (x : Shep) (r : RegRow) (i off : Nat) (v : Word) : ∀ t, State.writeAnalog s x r i off v = some t → t.otp = s.otp := by
  unfold State.writeAnalog
  repeat' (first | with_reducible rfl | with_reducible refine ite_some_otp ?_ ?_ | exact none_otp _ | with_reducible refine ite2_otp ?_ ?_ | with_reducible refine (State.settleAll_otp ..).trans ?_ | with_reducible refine (State.writeDrvCtrl_otp ..).trans ?_ | with_reducible refine (State.softStrobe_otp ..).trans ?_ | with_reducible refine (State.writeFlockCfg_otp ..).trans ?_ | with_reducible refine (State.writeSnsCtrl_otp ..).trans ?_ | with_reducible refine (State.writeDither_otp ..).trans ?_ | with_reducible refine (State.storeReg_otp ..).trans ?_ | with_reducible refine (State.writeClrMask_otp ..).trans ?_ | with_reducible refine (State.writeLinkErr_otp ..).trans ?_ | simp only [mk_otp] | dsimp only)

theorem State.writeControl_otp (s : State) (x : Shep) (r : RegRow) (i off : Nat) (v : Word) : ∀ t, State.writeControl s x r i off v = some t → t.otp = s.otp := by
  unfold State.writeControl
  repeat' (first | with_reducible rfl | with_reducible refine ite_some_otp ?_ ?_ | exact none_otp _ | with_reducible refine ite2_otp ?_ ?_ | with_reducible refine (State.writeWinSel_otp ..).trans ?_ | with_reducible refine (State.writeRipCfg_otp ..).trans ?_ | with_reducible refine (State.writeCmpCtrl_otp ..).trans ?_ | with_reducible refine (State.writeCmpPeriod_otp ..).trans ?_ | with_reducible refine (State.writeStageCtrl_otp ..).trans ?_ | with_reducible refine (State.writeFitCtrl_otp ..).trans ?_ | with_reducible refine (State.writeFitBudget_otp ..).trans ?_ | with_reducible refine (State.writeLoopCtrl_otp ..).trans ?_ | with_reducible refine (State.writeLoopSp_otp ..).trans ?_ | with_reducible refine (State.writeLoopMon_otp ..).trans ?_ | with_reducible refine (State.writeCmpSlot_otp ..).trans ?_ | with_reducible refine (State.writeLoopStatus_otp ..).trans ?_ | simp only [mk_otp] | dsimp only)

theorem State.writeFabric_otp (s : State) (x : Shep) (r : RegRow) (i off : Nat) (v : Word) : ∀ t, State.writeFabric s x r i off v = some t → t.otp = s.otp := by
  unfold State.writeFabric
  repeat' (first | with_reducible rfl | with_reducible refine ite_some_otp ?_ ?_ | exact none_otp _ | with_reducible refine ite2_otp ?_ ?_ | with_reducible refine (State.sWr_otp ..).trans ?_ | with_reducible refine (State.writeArm_otp ..).trans ?_ | with_reducible refine (State.writeMargin_otp ..).trans ?_ | with_reducible refine (State.writeLayout_otp ..).trans ?_ | with_reducible refine (State.writeSrvCfg_otp ..).trans ?_ | with_reducible refine (State.writeShpCtrl_otp ..).trans ?_ | with_reducible refine (State.writeShpCfg_otp ..).trans ?_ | with_reducible refine (State.writeHostDiv_otp ..).trans ?_ | with_reducible refine (State.releaseFlocks_otp ..).trans ?_ | with_reducible refine (State.writeAlmCfg_otp ..).trans ?_ | with_reducible refine (State.writeAlmClass_otp ..).trans ?_ | with_reducible refine (State.writeAlmStatus_otp ..).trans ?_ | with_reducible refine (State.writeAlmParked_otp ..).trans ?_ | with_reducible refine (State.writeInject_otp ..).trans ?_ | simp only [mk_otp] | dsimp only)

theorem State.writeOwnRule_otp (s : State) (x : Shep) (r : RegRow) (i off : Nat) (v : Word) : ∀ t, State.writeOwnRule s x r i off v = some t → t.otp = s.otp := by
  intro t h
  unfold State.writeOwnRule at h
  rcases ha : s.writeSys x r i off v with _ | a
  · rcases hb : s.writeEth r i off v with _ | b
    · rcases hc : s.writeAnalog x r i off v with _ | c
      · rcases hd : s.writeControl x r i off v with _ | e
        · simp only [ha, hb, hc, hd, Option.none_or] at h; exact State.writeFabric_otp _ _ _ _ _ _ t h
        · simp only [ha, hb, hc, hd, Option.none_or, Option.some_or, Option.some.injEq] at h
          subst h; exact State.writeControl_otp _ _ _ _ _ _ _ hd
      · simp only [ha, hb, hc, Option.none_or, Option.some_or, Option.some.injEq] at h
        subst h; exact State.writeAnalog_otp _ _ _ _ _ _ _ hc
    · simp only [ha, hb, Option.none_or, Option.some_or, Option.some.injEq] at h
      subst h; exact State.writeEth_otp _ _ _ _ _ _ hb
  · simp only [ha, Option.some_or, Option.some.injEq] at h
    subst h; exact State.writeSys_otp _ _ _ _ _ _ _ ha

theorem State.applyReg_otp (s : State) (x : Shep) (off : Nat) (v : Word) (sel : Word) : (State.applyReg s x off v sel).otp = s.otp := by
  unfold State.applyReg
  split
  · exact State.writeTable_otp ..
  · split
    · exact State.writeLoadWin_otp ..
    · split
      · rfl
      · rename_i r i h
        split
        · rfl
        · dsimp only
          rcases hw : s.writeOwnRule x r i off (lockWord r s.locked (s.rawWord x r off) v) with _ | t
          · exact State.storeReg_otp ..
          · exact State.writeOwnRule_otp _ _ _ _ _ _ t hw

theorem State.queueWrite_otp (s : State) (x : Shep) (off : Nat) (v : Word) (due : Nat) : (State.queueWrite s x off v due).otp = s.otp := by
  unfold State.queueWrite
  repeat' (first | with_reducible rfl | with_reducible refine ite2_otp ?_ ?_ | simp only [mk_otp] | dsimp only | split | intro _)

theorem State.arrive_otp (s : State) (x : Shep) (off : Nat) (v : Word) : (State.arrive s x off v).otp = s.otp := by
  unfold State.arrive
  repeat' (first | with_reducible rfl | with_reducible refine ite2_otp ?_ ?_ | with_reducible refine (State.pFlag_otp ..).trans ?_ | with_reducible refine (State.badCtrl_otp ..).trans ?_ | with_reducible refine (State.writeDbg_otp ..).trans ?_ | with_reducible refine (State.queueWrite_otp ..).trans ?_ | simp only [mk_otp] | dsimp only | split | intro _)

theorem State.arriveWords_otp (x : Shep) (a0_ : Nat) (a1_ : List Word) (s_ : State) : (State.arriveWords x a0_ a1_ s_).otp = s_.otp := by
  induction a1_ generalizing a0_ s_ with
  | nil => rfl
  | cons v r ih => exact (ih _ _).trans (State.arrive_otp ..)

theorem State.writeRequest_otp (s : State) (x : Shep) (addr : Nat) (bs : List Byte) : (State.writeRequest s x addr bs).otp = s.otp := by
  unfold State.writeRequest
  repeat' (first | with_reducible rfl | with_reducible refine ite2_otp ?_ ?_ | with_reducible refine (State.pFlag_otp ..).trans ?_ | with_reducible refine (State.arriveWords_otp ..).trans ?_ | simp only [mk_otp] | dsimp only | split | intro _)

theorem State.applyDue_otp (s : State) : (State.applyDue s).otp = s.otp := by
  unfold State.applyDue
  repeat' (first | with_reducible rfl | with_reducible refine ite2_otp ?_ ?_ | with_reducible refine (foldl_otp _ _ _ ?_).trans ?_ | with_reducible refine (State.applyReg_otp ..).trans ?_ | simp only [mk_otp] | dsimp only | split | intro _)

theorem doSmbus_otp (cmd power : Nat) (s : State) : (doSmbus cmd power s).otp = s.otp := by
  unfold doSmbus
  repeat' (first | with_reducible rfl | with_reducible refine ite2_otp ?_ ?_ | with_reducible refine (State.send_otp ..).trans ?_ | simp only [mk_otp] | dsimp only | split | intro _)

theorem State.tecFault_otp (s : State) (t : Nat) (f : Fld) : (State.tecFault s t f).otp = s.otp := by
  unfold State.tecFault
  repeat' (first | with_reducible rfl | with_reducible refine ite2_otp ?_ ?_ | with_reducible refine (State.dPut_otp ..).trans ?_ | with_reducible refine (State.dFlag_otp ..).trans ?_ | with_reducible refine (State.send_otp ..).trans ?_ | with_reducible refine (State.notice_otp ..).trans ?_ | simp only [mk_otp] | dsimp only | split | intro _)

theorem State.tecUpdate_otp (s : State) (t meas : Nat) : (State.tecUpdate s t meas).otp = s.otp := by
  unfold State.tecUpdate
  repeat' (first | with_reducible rfl | with_reducible refine ite2_otp ?_ ?_ | with_reducible refine (State.dPut_otp ..).trans ?_ | with_reducible refine (State.send_otp ..).trans ?_ | simp only [mk_otp] | dsimp only | split | intro _)

theorem doTecUpdate_otp (t meas : Nat) (s : State) : (doTecUpdate t meas s).otp = s.otp := by
  unfold doTecUpdate
  repeat' (first | with_reducible rfl | with_reducible refine ite2_otp ?_ ?_ | with_reducible refine (State.dPut_otp ..).trans ?_ | with_reducible refine (State.tecFault_otp ..).trans ?_ | with_reducible refine (State.tecUpdate_otp ..).trans ?_ | simp only [mk_otp] | dsimp only | split | intro _)

theorem State.startList_otp (s : State) (d : Desc) (k : JobKind) (fail : Option Nat) (nums : List Nat) : (State.startList s d k fail nums).otp = s.otp := by
  unfold State.startList
  repeat' (first | with_reducible rfl | with_reducible refine ite2_otp ?_ ?_ | with_reducible refine (State.completeHif_otp ..).trans ?_ | with_reducible refine (State.addJob_otp ..).trans ?_ | simp only [mk_otp] | dsimp only | split | intro _)

theorem State.endList_otp (s : State) (j : Job) (n : Nat) : (State.endList s j n).otp = s.otp := by
  unfold State.endList
  repeat' (first | with_reducible rfl | with_reducible refine ite2_otp ?_ ?_ | with_reducible refine (State.complete_otp ..).trans ?_ | with_reducible refine (State.endJob_otp ..).trans ?_ | simp only [mk_otp] | dsimp only | split | intro _)

theorem State.nextPhase_otp (s : State) (j : Job) (k : Nat) : (State.nextPhase s j k).otp = s.otp := by
  unfold State.nextPhase
  repeat' (first | with_reducible rfl | with_reducible refine ite2_otp ?_ ?_ | with_reducible refine (State.setJob_otp ..).trans ?_ | simp only [mk_otp] | dsimp only | split | intro _)

theorem State.putHold_otp (s : State) (b : Bool) (c : Nat) : (State.putHold s b c).otp = s.otp := by
  unfold State.putHold
  repeat' (first | with_reducible rfl | with_reducible refine ite2_otp ?_ ?_ | with_reducible refine (State.writeLoopCtrl_otp ..).trans ?_ | simp only [mk_otp] | dsimp only | split | intro _)

theorem State.holdAll_otp (s : State) (cs : List Nat) : (State.holdAll s cs).otp = s.otp := by
  unfold State.holdAll
  repeat' (first | with_reducible rfl | with_reducible refine ite2_otp ?_ ?_ | with_reducible refine (foldl_otp _ _ _ ?_).trans ?_ | with_reducible refine (State.putHold_otp ..).trans ?_ | simp only [mk_otp] | dsimp only | split | intro _)

theorem State.freeAll_otp (s : State) (cs before : List Nat) : (State.freeAll s cs before).otp = s.otp := by
  unfold State.freeAll
  repeat' (first | with_reducible rfl | with_reducible refine ite2_otp ?_ ?_ | with_reducible refine (foldl_otp _ _ _ ?_).trans ?_ | with_reducible refine (State.putHold_otp ..).trans ?_ | simp only [mk_otp] | dsimp only | split | intro _)

theorem State.seedInt_otp (s : State) (c p : Nat) : (State.seedInt s c p).otp = s.otp := by
  unfold State.seedInt
  repeat' (first | with_reducible rfl | with_reducible refine ite2_otp ?_ ?_ | with_reducible refine (both_otp _ _ ?_).trans ?_ | with_reducible refine (State.wr_otp ..).trans ?_ | simp only [mk_otp] | dsimp only | split | intro _)

theorem State.fwWrite_otp (s : State) (off : Nat) (v : Word) : (State.fwWrite s off v).otp = s.otp := by
  unfold State.fwWrite
  repeat' (first | with_reducible rfl | with_reducible refine ite2_otp ?_ ?_ | with_reducible refine (foldl_otp _ _ _ ?_).trans ?_ | with_reducible refine (State.queueWrite_otp ..).trans ?_ | simp only [mk_otp] | dsimp only | split | intro _)

theorem startSetup_otp (d : Desc) (s : State) : (startSetup d s).otp = s.otp := by
  unfold startSetup
  repeat' (first | with_reducible rfl | with_reducible refine ite2_otp ?_ ?_ | with_reducible refine (foldl_otp _ _ _ ?_).trans ?_ | with_reducible refine (State.completeHif_otp ..).trans ?_ | with_reducible refine (State.addJob_otp ..).trans ?_ | with_reducible refine (State.fwWrite_otp ..).trans ?_ | simp only [mk_otp] | dsimp only | split | intro _)

theorem startSetSpan_otp (d : Desc) (s : State) : (startSetSpan d s).otp = s.otp := by
  unfold startSetSpan
  repeat' (first | with_reducible rfl | with_reducible refine ite2_otp ?_ ?_ | with_reducible refine (State.startList_otp ..).trans ?_ | simp only [mk_otp] | dsimp only | split | intro _)

theorem State.writeSpanRec_otp (s : State) (r : List Byte) : (State.writeSpanRec s r).otp = s.otp := by
  unfold State.writeSpanRec
  repeat' (first | with_reducible rfl | with_reducible refine ite2_otp ?_ ?_ | with_reducible refine (State.writeDrvCtrl_otp ..).trans ?_ | simp only [mk_otp] | dsimp only | split | intro _)

theorem State.spanOutcome_otp (s : State) (c : Nat) : (State.spanOutcome s c).otp = s.otp := by
  unfold State.spanOutcome
  repeat' (first | with_reducible rfl | with_reducible refine ite2_otp ?_ ?_ | with_reducible refine (State.notice_otp ..).trans ?_ | simp only [mk_otp] | dsimp only | split | intro _)

theorem State.stepSetSpan_otp (s : State) (j : Job) : (State.stepSetSpan s j).otp = s.otp := by
  unfold State.stepSetSpan
  repeat' (first | with_reducible rfl | with_reducible refine ite2_otp ?_ ?_ | with_reducible refine (foldl_otp _ _ _ ?_).trans ?_ | with_reducible refine (State.complete_otp ..).trans ?_ | with_reducible refine (State.endJob_otp ..).trans ?_ | with_reducible refine (State.nextPhase_otp ..).trans ?_ | with_reducible refine (State.holdAll_otp ..).trans ?_ | with_reducible refine (State.freeAll_otp ..).trans ?_ | with_reducible refine (State.seedInt_otp ..).trans ?_ | with_reducible refine (State.writeSpanRec_otp ..).trans ?_ | with_reducible refine (State.spanOutcome_otp ..).trans ?_ | simp only [mk_otp] | dsimp only | split | intro _)

theorem startParkList_otp (d : Desc) (s : State) : (startParkList d s).otp = s.otp := by
  unfold startParkList
  repeat' (first | with_reducible rfl | with_reducible refine ite2_otp ?_ ?_ | with_reducible refine (State.startList_otp ..).trans ?_ | simp only [mk_otp] | dsimp only | split | intro _)

theorem State.parkOne_otp (s : State) (release : Bool) (c : Nat) : (State.parkOne s release c).otp = s.otp := by
  unfold State.parkOne
  repeat' (first | with_reducible rfl | with_reducible refine ite2_otp ?_ ?_ | with_reducible refine (State.writeDrvCtrl_otp ..).trans ?_ | with_reducible refine (State.seedLoop_otp ..).trans ?_ | simp only [mk_otp] | dsimp only | split | intro _)

theorem State.stepPark_otp (s : State) (j : Job) : (State.stepPark s j).otp = s.otp := by
  unfold State.stepPark
  repeat' (first | with_reducible rfl | with_reducible refine ite2_otp ?_ ?_ | with_reducible refine (foldl_otp _ _ _ ?_).trans ?_ | with_reducible refine (State.endList_otp ..).trans ?_ | with_reducible refine (State.parkOne_otp ..).trans ?_ | simp only [mk_otp] | dsimp only | split | intro _)

theorem startSetSense_otp (d : Desc) (s : State) : (startSetSense d s).otp = s.otp := by
  unfold startSetSense
  repeat' (first | with_reducible rfl | with_reducible refine ite2_otp ?_ ?_ | with_reducible refine (State.startList_otp ..).trans ?_ | simp only [mk_otp] | dsimp only | split | intro _)

theorem State.stepSetSense_otp (s : State) (j : Job) : (State.stepSetSense s j).otp = s.otp := by
  unfold State.stepSetSense
  repeat' (first | with_reducible rfl | with_reducible refine ite2_otp ?_ ?_ | with_reducible refine (foldl_otp _ _ _ ?_).trans ?_ | with_reducible refine (State.writeSnsCtrl_otp ..).trans ?_ | with_reducible refine (State.complete_otp ..).trans ?_ | with_reducible refine (State.endJob_otp ..).trans ?_ | with_reducible refine (State.setJob_otp ..).trans ?_ | simp only [mk_otp] | dsimp only | split | intro _)

theorem startSetLoop_otp (d : Desc) (s : State) : (startSetLoop d s).otp = s.otp := by
  unfold startSetLoop
  repeat' (first | with_reducible rfl | with_reducible refine ite2_otp ?_ ?_ | with_reducible refine (State.startList_otp ..).trans ?_ | simp only [mk_otp] | dsimp only | split | intro _)

theorem State.writeLoopImage_otp (s : State) (r : List Byte) : (State.writeLoopImage s r).otp = s.otp := by
  unfold State.writeLoopImage
  repeat' (first | with_reducible rfl | with_reducible refine ite2_otp ?_ ?_ | with_reducible refine (State.sWr_otp ..).trans ?_ | with_reducible refine (State.writeDither_otp ..).trans ?_ | with_reducible refine (State.writeLoopCtrl_otp ..).trans ?_ | with_reducible refine (State.writeLoopMon_otp ..).trans ?_ | with_reducible refine (State.seedInt_otp ..).trans ?_ | simp only [mk_otp] | dsimp only | split | intro _)

theorem State.stepSetLoop_otp (s : State) (j : Job) : (State.stepSetLoop s j).otp = s.otp := by
  unfold State.stepSetLoop
  repeat' (first | with_reducible rfl | with_reducible refine ite2_otp ?_ ?_ | with_reducible refine (foldl_otp _ _ _ ?_).trans ?_ | with_reducible refine (State.endList_otp ..).trans ?_ | with_reducible refine (State.nextPhase_otp ..).trans ?_ | with_reducible refine (State.holdAll_otp ..).trans ?_ | with_reducible refine (State.freeAll_otp ..).trans ?_ | with_reducible refine (State.writeLoopImage_otp ..).trans ?_ | simp only [mk_otp] | dsimp only | split | intro _)

theorem startArmComp_otp (d : Desc) (s : State) : (startArmComp d s).otp = s.otp := by
  unfold startArmComp
  repeat' (first | with_reducible rfl | with_reducible refine ite2_otp ?_ ?_ | with_reducible refine (State.startList_otp ..).trans ?_ | simp only [mk_otp] | dsimp only | split | intro _)

theorem State.moveSlots_otp (s : State) (c b n : Nat) : (State.moveSlots s c b n).otp = s.otp := by
  unfold State.moveSlots
  repeat' (first | with_reducible rfl | with_reducible refine ite2_otp ?_ ?_ | with_reducible refine (foldl_otp _ _ _ ?_).trans ?_ | with_reducible refine (both_otp _ _ ?_).trans ?_ | with_reducible refine (State.modSh_otp ..).trans ?_ | with_reducible refine (State.sWr_otp ..).trans ?_ | with_reducible refine (State.writeLoopCtrl_otp ..).trans ?_ | simp only [mk_otp] | dsimp only | split | intro _)

theorem State.writeCmpImage_otp (s : State) (r : List Byte) : (State.writeCmpImage s r).otp = s.otp := by
  unfold State.writeCmpImage
  repeat' (first | with_reducible rfl | with_reducible refine ite2_otp ?_ ?_ | with_reducible refine (State.sWr_otp ..).trans ?_ | with_reducible refine (State.writeCmpSlot_otp ..).trans ?_ | simp only [mk_otp] | dsimp only | split | intro _)

theorem State.stepArmComp_otp (s : State) (j : Job) : (State.stepArmComp s j).otp = s.otp := by
  unfold State.stepArmComp
  repeat' (first | with_reducible rfl | with_reducible refine ite2_otp ?_ ?_ | with_reducible refine (foldl_otp _ _ _ ?_).trans ?_ | with_reducible refine (State.completeHif_otp ..).trans ?_ | with_reducible refine (State.endJob_otp ..).trans ?_ | with_reducible refine (State.endList_otp ..).trans ?_ | with_reducible refine (State.nextPhase_otp ..).trans ?_ | with_reducible refine (State.holdAll_otp ..).trans ?_ | with_reducible refine (State.freeAll_otp ..).trans ?_ | with_reducible refine (State.moveSlots_otp ..).trans ?_ | with_reducible refine (State.writeCmpImage_otp ..).trans ?_ | simp only [mk_otp] | dsimp only | split | intro _)

theorem startDisarmComp_otp (d : Desc) (s : State) : (startDisarmComp d s).otp = s.otp := by
  unfold startDisarmComp
  repeat' (first | with_reducible rfl | with_reducible refine ite2_otp ?_ ?_ | with_reducible refine (State.startList_otp ..).trans ?_ | simp only [mk_otp] | dsimp only | split | intro _)

theorem State.disarmOne_otp (s : State) (r : List Byte) : (State.disarmOne s r).otp = s.otp := by
  unfold State.disarmOne
  repeat' (first | with_reducible rfl | with_reducible refine ite2_otp ?_ ?_ | with_reducible refine (foldl_otp _ _ _ ?_).trans ?_ | with_reducible refine (State.writeCmpSlot_otp ..).trans ?_ | simp only [mk_otp] | dsimp only | split | intro _)

theorem State.stepDisarm_otp (s : State) (j : Job) : (State.stepDisarm s j).otp = s.otp := by
  unfold State.stepDisarm
  repeat' (first | with_reducible rfl | with_reducible refine ite2_otp ?_ ?_ | with_reducible refine (foldl_otp _ _ _ ?_).trans ?_ | with_reducible refine (State.endList_otp ..).trans ?_ | with_reducible refine (State.nextPhase_otp ..).trans ?_ | with_reducible refine (State.holdAll_otp ..).trans ?_ | with_reducible refine (State.freeAll_otp ..).trans ?_ | with_reducible refine (State.disarmOne_otp ..).trans ?_ | simp only [mk_otp] | dsimp only | split | intro _)

theorem startHoldList_otp (d : Desc) (s : State) : (startHoldList d s).otp = s.otp := by
  unfold startHoldList
  repeat' (first | with_reducible rfl | with_reducible refine ite2_otp ?_ ?_ | with_reducible refine (State.startList_otp ..).trans ?_ | simp only [mk_otp] | dsimp only | split | intro _)

theorem State.stepHold_otp (s : State) (j : Job) : (State.stepHold s j).otp = s.otp := by
  unfold State.stepHold
  repeat' (first | with_reducible rfl | with_reducible refine ite2_otp ?_ ?_ | with_reducible refine (foldl_otp _ _ _ ?_).trans ?_ | with_reducible refine (State.endList_otp ..).trans ?_ | with_reducible refine (State.putHold_otp ..).trans ?_ | simp only [mk_otp] | dsimp only | split | intro _)

theorem startSeedList_otp (d : Desc) (s : State) : (startSeedList d s).otp = s.otp := by
  unfold startSeedList
  repeat' (first | with_reducible rfl | with_reducible refine ite2_otp ?_ ?_ | with_reducible refine (State.seedLoop_otp ..).trans ?_ | with_reducible refine (State.startList_otp ..).trans ?_ | simp only [mk_otp] | dsimp only | split | intro _)

theorem State.writeSeed_otp (s : State) (r : List Byte) : (State.writeSeed s r).otp = s.otp := by
  unfold State.writeSeed
  repeat' (first | with_reducible rfl | with_reducible refine ite2_otp ?_ ?_ | with_reducible refine (State.seedInt_otp ..).trans ?_ | simp only [mk_otp] | dsimp only | split | intro _)

theorem State.stepSeed_otp (s : State) (j : Job) : (State.stepSeed s j).otp = s.otp := by
  unfold State.stepSeed
  repeat' (first | with_reducible rfl | with_reducible refine ite2_otp ?_ ?_ | with_reducible refine (foldl_otp _ _ _ ?_).trans ?_ | with_reducible refine (State.endList_otp ..).trans ?_ | with_reducible refine (State.nextPhase_otp ..).trans ?_ | with_reducible refine (State.holdAll_otp ..).trans ?_ | with_reducible refine (State.freeAll_otp ..).trans ?_ | with_reducible refine (State.writeSeed_otp ..).trans ?_ | simp only [mk_otp] | dsimp only | split | intro _)

theorem startSetComp_otp (d : Desc) (s : State) : (startSetComp d s).otp = s.otp := by
  unfold startSetComp
  repeat' (first | with_reducible rfl | with_reducible refine ite2_otp ?_ ?_ | with_reducible refine (State.startList_otp ..).trans ?_ | simp only [mk_otp] | dsimp only | split | intro _)

theorem State.applyCompRec_otp (s : State) (r : List Byte) : (State.applyCompRec s r).otp = s.otp := by
  unfold State.applyCompRec
  repeat' (first | with_reducible rfl | with_reducible refine ite2_otp ?_ ?_ | with_reducible refine (foldl_otp _ _ _ ?_).trans ?_ | with_reducible refine (State.sWr_otp ..).trans ?_ | with_reducible refine (State.writeStageCtrl_otp ..).trans ?_ | simp only [mk_otp] | dsimp only | split | intro _)

theorem State.stepSetComp_otp (s : State) (j : Job) : (State.stepSetComp s j).otp = s.otp := by
  unfold State.stepSetComp
  repeat' (first | with_reducible rfl | with_reducible refine ite2_otp ?_ ?_ | with_reducible refine (foldl_otp _ _ _ ?_).trans ?_ | with_reducible refine (State.endList_otp ..).trans ?_ | with_reducible refine (State.applyCompRec_otp ..).trans ?_ | simp only [mk_otp] | dsimp only | split | intro _)

theorem startSetXtalk_otp (d : Desc) (s : State) : (startSetXtalk d s).otp = s.otp := by
  unfold startSetXtalk
  repeat' (first | with_reducible rfl | with_reducible refine ite2_otp ?_ ?_ | with_reducible refine (State.startList_otp ..).trans ?_ | simp only [mk_otp] | dsimp only | split | intro _)

theorem State.queuePairs_otp (a0_ : Nat) (a1_ : List Nat) (s_ : State) : (State.queuePairs a0_ a1_ s_).1.otp = s_.otp := by
  fun_induction State.queuePairs a0_ a1_ s_ with
  | case1 => rename_i ih; exact ih.trans (State.queueCoef_otp ..)
  | case2 => rfl

theorem State.stepXtalk_otp (s : State) (j : Job) (n : Nat) : (State.stepXtalk s j n).otp = s.otp := by
  unfold State.stepXtalk
  repeat' (first | with_reducible rfl | with_reducible refine ite2_otp ?_ ?_ | with_reducible refine (State.complete_otp ..).trans ?_ | with_reducible refine (State.endJob_otp ..).trans ?_ | with_reducible refine (State.setJob_otp ..).trans ?_ | with_reducible refine (State.queuePairs_otp ..).trans ?_ | simp only [mk_otp] | dsimp only | split | intro _)

theorem startSetFit_otp (d : Desc) (s : State) : (startSetFit d s).otp = s.otp := by
  unfold startSetFit
  repeat' (first | with_reducible rfl | with_reducible refine ite2_otp ?_ ?_ | with_reducible refine (State.startList_otp ..).trans ?_ | simp only [mk_otp] | dsimp only | split | intro _)

theorem State.stepSetFit_otp (s : State) (j : Job) : (State.stepSetFit s j).otp = s.otp := by
  unfold State.stepSetFit
  repeat' (first | with_reducible rfl | with_reducible refine ite2_otp ?_ ?_ | with_reducible refine (foldl_otp _ _ _ ?_).trans ?_ | with_reducible refine (State.sWr_otp ..).trans ?_ | with_reducible refine (State.writeCmpCtrl_otp ..).trans ?_ | with_reducible refine (State.writeFitCtrl_otp ..).trans ?_ | with_reducible refine (State.writeFitBudget_otp ..).trans ?_ | with_reducible refine (State.endList_otp ..).trans ?_ | simp only [mk_otp] | dsimp only | split | intro _)

theorem startRevertFit_otp (d : Desc) (s : State) : (startRevertFit d s).otp = s.otp := by
  unfold startRevertFit
  repeat' (first | with_reducible rfl | with_reducible refine ite2_otp ?_ ?_ | with_reducible refine (State.completeHif_otp ..).trans ?_ | with_reducible refine (State.addJob_otp ..).trans ?_ | simp only [mk_otp] | dsimp only | split | intro _)

theorem State.stepRevert_otp (s : State) (j : Job) : (State.stepRevert s j).otp = s.otp := by
  unfold State.stepRevert
  repeat' (first | with_reducible rfl | with_reducible refine ite2_otp ?_ ?_ | with_reducible refine (State.complete_otp ..).trans ?_ | with_reducible refine (State.endJob_otp ..).trans ?_ | with_reducible refine (State.setJob_otp ..).trans ?_ | with_reducible refine (State.queuePairs_otp ..).trans ?_ | simp only [mk_otp] | dsimp only | split | intro _)

theorem startFitLogRead_otp (d : Desc) (s : State) : (startFitLogRead d s).otp = s.otp := by
  unfold startFitLogRead
  repeat' (first | with_reducible rfl | with_reducible refine ite2_otp ?_ ?_ | with_reducible refine (State.complete_otp ..).trans ?_ | with_reducible refine (State.completeHif_otp ..).trans ?_ | with_reducible refine (State.writeOut_otp ..).trans ?_ | simp only [mk_otp] | dsimp only | split | intro _)

theorem startFitLogFree_otp (d : Desc) (s : State) : (startFitLogFree d s).otp = s.otp := by
  unfold startFitLogFree
  repeat' (first | with_reducible rfl | with_reducible refine ite2_otp ?_ ?_ | with_reducible refine (State.modFit_otp ..).trans ?_ | with_reducible refine (State.completeHif_otp ..).trans ?_ | with_reducible refine (State.drop_otp ..).trans ?_ | simp only [mk_otp] | dsimp only | split | intro _)

theorem State.stepList_otp (s : State) (j : Job) : (State.stepList s j).otp = s.otp := by
  unfold State.stepList
  repeat' (first | with_reducible rfl | with_reducible refine ite2_otp ?_ ?_ | with_reducible refine (State.seedLoop_otp ..).trans ?_ | with_reducible refine (State.completeHif_otp ..).trans ?_ | with_reducible refine (State.endJob_otp ..).trans ?_ | with_reducible refine (State.applyAlarmConfig_otp ..).trans ?_ | with_reducible refine (State.applyAlarmRelease_otp ..).trans ?_ | with_reducible refine (State.endList_otp ..).trans ?_ | with_reducible refine (State.stepSetSpan_otp ..).trans ?_ | with_reducible refine (State.stepPark_otp ..).trans ?_ | with_reducible refine (State.stepSetSense_otp ..).trans ?_ | with_reducible refine (State.stepSetLoop_otp ..).trans ?_ | with_reducible refine (State.stepArmComp_otp ..).trans ?_ | with_reducible refine (State.stepDisarm_otp ..).trans ?_ | with_reducible refine (State.stepHold_otp ..).trans ?_ | with_reducible refine (State.stepSeed_otp ..).trans ?_ | with_reducible refine (State.stepSetComp_otp ..).trans ?_ | with_reducible refine (State.stepXtalk_otp ..).trans ?_ | with_reducible refine (State.stepSetFit_otp ..).trans ?_ | with_reducible refine (State.stepRevert_otp ..).trans ?_ | simp only [mk_otp] | dsimp only | split | intro _)

theorem State.stepLists_otp (s : State) : (State.stepLists s).otp = s.otp := by
  unfold State.stepLists
  repeat' (first | with_reducible rfl | with_reducible refine ite2_otp ?_ ?_ | with_reducible refine (foldl_otp _ _ _ ?_).trans ?_ | with_reducible refine (State.stepList_otp ..).trans ?_ | simp only [mk_otp] | dsimp only | split | intro _)

theorem startNop_otp (d : Desc) (s : State) : (startNop d s).otp = s.otp := by
  unfold startNop
  repeat' (first | with_reducible rfl | with_reducible refine ite2_otp ?_ ?_ | with_reducible refine (State.completeHif_otp ..).trans ?_ | simp only [mk_otp] | dsimp only | split | intro _)

theorem State.claimDesc_otp (s : State) (d : Desc) : (State.claimDesc s d).otp = s.otp := by
  unfold State.claimDesc
  repeat' (first | with_reducible rfl | with_reducible refine ite2_otp ?_ ?_ | with_reducible refine (State.takeDesc_otp ..).trans ?_ | simp only [mk_otp] | dsimp only | split | intro _)

theorem State.takeInput_otp (s : State) (i : TickInput) : (State.takeInput s i).otp = s.otp := by
  unfold State.takeInput
  repeat' (first | with_reducible rfl | with_reducible refine ite2_otp ?_ ?_ | with_reducible refine (foldl_otp _ _ _ ?_).trans ?_ | with_reducible refine (foldl_otp_fst _ _ _ ?_).trans ?_ | with_reducible refine (foldl_otp_snd _ _ _ ?_).trans ?_ | with_reducible refine (State.dPut_otp ..).trans ?_ | with_reducible refine (State.bankTick_otp ..).trans ?_ | with_reducible refine (State.busTick_otp ..).trans ?_ | with_reducible refine (State.doeTick_otp ..).trans ?_ | simp only [mk_otp] | dsimp only | split | intro _)

theorem State.endTick_otp (s : State) (i : TickInput) (t : Nat) : (State.endTick s i t).otp = s.otp := by
  unfold State.endTick
  repeat' (first | with_reducible rfl | with_reducible refine ite2_otp ?_ ?_ | with_reducible refine (both_otp _ _ ?_).trans ?_ | with_reducible refine (State.junctionTick_otp ..).trans ?_ | with_reducible refine (State.formFrames_otp ..).trans ?_ | with_reducible refine (State.ditherEnd_otp ..).trans ?_ | with_reducible refine (State.formPower_otp ..).trans ?_ | with_reducible refine (State.buildSome_otp ..).trans ?_ | with_reducible refine (State.frameMissing_otp ..).trans ?_ | with_reducible refine (State.recDrain_otp ..).trans ?_ | with_reducible refine (State.recEvent_otp ..).trans ?_ | with_reducible refine (State.surveySample_otp ..).trans ?_ | with_reducible refine (State.copyBoundary_otp ..).trans ?_ | with_reducible refine (State.divBoundary_otp ..).trans ?_ | with_reducible refine (State.heartbeats_otp ..).trans ?_ | with_reducible refine (State.syncBoundary_otp ..).trans ?_ | with_reducible refine (State.tlmTick_otp ..).trans ?_ | with_reducible refine (State.takeInput_otp ..).trans ?_ | simp only [mk_otp] | dsimp only | split | intro _)

theorem State.flowOpen_otp (s : State) : (State.flowOpen s).otp = s.otp := by
  unfold State.flowOpen
  repeat' (first | with_reducible rfl | with_reducible refine ite2_otp ?_ ?_ | with_reducible refine (foldl_otp _ _ _ ?_).trans ?_ | with_reducible refine (State.xingOpen_otp ..).trans ?_ | simp only [mk_otp] | dsimp only | split | intro _)

theorem State.lockBoundary_otp (s : State) : (State.lockBoundary s).otp = s.otp := by
  unfold State.lockBoundary
  repeat' (first | with_reducible rfl | with_reducible refine ite2_otp ?_ ?_ | with_reducible refine (State.completeHif_otp ..).trans ?_ | with_reducible refine (State.endJob_otp ..).trans ?_ | with_reducible refine (State.setLock_otp ..).trans ?_ | simp only [mk_otp] | dsimp only | split | intro _)

theorem State.drainIdle_otp (s : State) : (State.drainIdle s).otp = s.otp := by
  unfold State.drainIdle
  repeat' (first | with_reducible rfl | with_reducible refine ite2_otp ?_ ?_ | with_reducible refine (both_otp _ _ ?_).trans ?_ | with_reducible refine (State.drain_otp ..).trans ?_ | simp only [mk_otp] | dsimp only | split | intro _)

theorem State.stepJobs_otp (s : State) : (State.stepJobs s).otp = s.otp := by
  unfold State.stepJobs
  repeat' (first | with_reducible rfl | with_reducible refine ite2_otp ?_ ?_ | with_reducible refine (State.driveBoundary_otp ..).trans ?_ | with_reducible refine (State.surveyBoundary_otp ..).trans ?_ | with_reducible refine (State.handoverBoundary_otp ..).trans ?_ | with_reducible refine (State.padResetBoundary_otp ..).trans ?_ | with_reducible refine (State.shpResetBoundary_otp ..).trans ?_ | with_reducible refine (State.stepLists_otp ..).trans ?_ | with_reducible refine (State.flowOpen_otp ..).trans ?_ | with_reducible refine (State.lockBoundary_otp ..).trans ?_ | with_reducible refine (State.drainIdle_otp ..).trans ?_ | simp only [mk_otp] | dsimp only | split | intro _)

theorem State.beginTick_otp (s : State) : (State.beginTick s).otp = s.otp := by
  unfold State.beginTick
  repeat' (first | with_reducible rfl | with_reducible refine ite2_otp ?_ ?_ | with_reducible refine (State.musterBoundary_otp ..).trans ?_ | with_reducible refine (State.tickStrobe_otp ..).trans ?_ | with_reducible refine (State.ditherFlags_otp ..).trans ?_ | with_reducible refine (State.collisionBoundary_otp ..).trans ?_ | with_reducible refine (State.capTick_otp ..).trans ?_ | with_reducible refine (State.sweepStrobe_otp ..).trans ?_ | with_reducible refine (State.sampleQueues_otp ..).trans ?_ | simp only [mk_otp] | dsimp only | split | intro _)

theorem State.standbyTakes_otp (s was : State) : (State.standbyTakes s was).otp = s.otp := by
  unfold State.standbyTakes
  repeat' (first | with_reducible rfl | with_reducible refine ite2_otp ?_ ?_ | with_reducible refine (State.deferShared_otp ..).trans ?_ | simp only [mk_otp] | dsimp only | split | intro _)

theorem idle_otp (s : State) : (idle s).otp = s.otp := by
  unfold idle
  repeat' (first | with_reducible rfl | with_reducible refine ite2_otp ?_ ?_ | with_reducible refine (State.toEdge_otp ..).trans ?_ | simp only [mk_otp] | dsimp only | split | intro _)

theorem State.hostWrite_otp (s : State) (x : Shep) (ok : Bool) (off : Nat) (v : Word) : (State.hostWrite s x ok off v).otp = s.otp := by
  unfold State.hostWrite
  repeat' (first | with_reducible rfl | with_reducible refine ite2_otp ?_ ?_ | with_reducible refine (State.arrive_otp ..).trans ?_ | simp only [mk_otp] | dsimp only | split | intro _)

theorem State.relock_otp (s : State) (via : Option Shep) : (State.relock s via).otp = s.otp := by
  unfold State.relock
  repeat' (first | with_reducible rfl | with_reducible refine ite2_otp ?_ ?_ | with_reducible refine (State.writeDbg_otp ..).trans ?_ | with_reducible refine (State.arrive_otp ..).trans ?_ | simp only [mk_otp] | dsimp only | split | intro _)

theorem State.writePath_otp (s : State) (x : Shep) (addr : Nat) (bs : List Byte) (jtag : Bool) : (State.writePath s x addr bs jtag).otp = s.otp := by
  unfold State.writePath
  repeat' (first | with_reducible rfl | with_reducible refine ite2_otp ?_ ?_ | with_reducible refine (State.writeRequest_otp ..).trans ?_ | simp only [mk_otp] | dsimp only | split | intro _)

theorem State.sampleRow_otp (s : State) (x : Shep) (pd : Nat) (ofs : Int) : (State.sampleRow s x pd ofs).otp = s.otp := by
  unfold State.sampleRow
  repeat' (first | with_reducible rfl | with_reducible refine ite2_otp ?_ ?_ | with_reducible refine (servoSample_otp ..).trans ?_ | simp only [mk_otp] | dsimp only | split | intro _)

end Sys2Proof.Machine
end

