-- ==== Sys2Proof/Laws/Burns.lean ====
section
/-! SUPPORT. What the commands that burn fuses and the resets of the device do to the fuses: a burned fuse is never undone. -/

namespace Sys2Proof.Machine

/-- Fuses g follow fuses f with nothing undone: the life-cycle state stays until a reset, the minimum SVN does not fall, and a change that is due
was due before or is a transition from the present state. -/
def Burns (f g : Fuses) : Prop :=
  g.life = f.life ∧ f.svnMin ≤ g.svnMin ∧ ∀ p, g.due = some p → f.due = some p ∨ transition f.life p.2 ≠ none

theorem Burns.refl (f : Fuses) : Burns f f := ⟨rfl, Nat.le_refl _, fun _ h => Or.inl h⟩

theorem Burns.of_eq {f g : Fuses} (h : g = f) : Burns f g := h ▸ Burns.refl f

theorem Burns.trans {f g k : Fuses} (a : Burns f g) (b : Burns g k) : Burns f k := by
  obtain ⟨a1, a2, a3⟩ := a
  obtain ⟨b1, b2, b3⟩ := b
  refine ⟨b1.trans a1, Nat.le_trans a2 b2, fun p h => ?_⟩
  rcases b3 p h with h | h
  · exact a3 p h
  · right; rwa [a1] at h

/-- A burned transition is one of R494's table. -/
theorem State.burnLife_burns (s : State) (target : Nat) (h : transition s.otp.life target ≠ none) : Burns s.otp (s.burnLife target).otp :=
  ⟨rfl, Nat.le_refl _, fun p e => Or.inr (by cases e; exact h)⟩

theorem State.lcs_burns (s t : State) (d : Desc) (c : Nat) (h : Burns s.otp t.otp) : Burns s.otp (t.lcs d c).otp := by
  rw [State.lcs_otp]; exact h

theorem startLifecycle_burns (d : Desc) (b : Bool) (s : State) : Burns s.otp (startLifecycle d b s).otp := by
  have e : s.fuses = s.otp := rfl
  unfold startLifecycle
  dsimp only
  rw [e]
  split
  · exact s.lcs_burns _ _ _ (.refl _)
  · rename_i signer ht
    have hne : transition s.otp.life (d.in1 32) ≠ none := by rw [ht]; exact Option.some_ne_none _
    split
    · exact s.lcs_burns _ _ _ (.refl _)
    · split
      · split
        · exact s.lcs_burns _ _ _ (.refl _)
        · generalize hp : s.present d.pay (decide (leAt d.pay 1 1 = 0x10 + d.in1 32 ∧ leAt d.pay 2 1 = signer)) = r
          have hr : r.2.otp = s.otp := by rw [← hp]; exact State.present_otp ..
          split
          · exact s.lcs_burns _ _ _ (.of_eq hr)
          · split
            · refine s.lcs_burns _ _ _ ((Burns.of_eq hr).trans (State.burnLife_burns _ _ ?_)); rw [hr]; exact hne
            · exact s.lcs_burns _ _ _ (.of_eq hr)
      · split
        · exact s.lcs_burns _ _ _ (.refl _)
        · split
          · exact s.lcs_burns _ _ _ (State.burnLife_burns _ _ hne)
          · exact s.lcs_burns _ _ _ (.refl _)

theorem doJtagToken_burns (t : List Byte) (b : Bool) (s : State) : Burns s.otp (doJtagToken t b s).otp := by
  have e : s.fuses = s.otp := rfl
  unfold doJtagToken
  dsimp only
  rw [e]
  split
  · exact .refl _
  · split
    · split
      · rename_i signer ht
        have hne : transition s.otp.life (leAt t 1 1 - 0x10) ≠ none := by rw [ht]; exact Option.some_ne_none _
        split
        · split
          · refine (Burns.of_eq (State.newNonce_otp s)).trans (State.burnLife_burns _ _ ?_); rw [State.newNonce_otp]; exact hne
          · exact .of_eq (State.newNonce_otp s)
        · generalize hp : s.present t (decide (s.mode = .boot ∨ s.mode = .parked) && decide (s.lp = .none) && decide (s.otp.due = none) &&
            decide (leAt t 2 1 = signer)) = r
          have hr : r.2.otp = s.otp := by rw [← hp]; exact State.present_otp ..
          split
          · refine (Burns.of_eq hr).trans (State.burnLife_burns _ _ ?_); rw [hr]; exact hne
          · exact .of_eq hr
      · exact .of_eq (State.present_otp ..)
    · generalize hp : s.present t (levelAllowed s.otp.life (leAt t 1 1) (leAt t 2 1)) = r
      have hr : r.2.otp = s.otp := by rw [← hp]; exact State.present_otp ..
      split
      · exact .of_eq ((State.setLevel_otp ..).trans hr)
      · exact .of_eq hr

theorem startFwRaise_burns (d : Desc) (b : Bool) (s : State) : Burns s.otp (startFwRaise d b s).otp := by
  unfold startFwRaise
  dsimp only
  split
  · exact s.lcs_burns _ _ _ (.refl _)
  · split
    · exact s.lcs_burns _ _ _ (.refl _)
    · exact s.lcs_burns _ _ _ ⟨rfl, Nat.le_max_left _ _, fun _ h => Or.inl h⟩

theorem startFwUpdate_burns (d : Desc) (b : Bool) (s : State) : Burns s.otp (startFwUpdate d b s).otp := by
  unfold startFwUpdate
  split
  · exact .of_eq (startFwWrite_otp ..)
  · exact .of_eq (startFwInfo_otp ..)
  · exact .of_eq (startFwSelect_otp ..)
  · exact startFwRaise_burns ..
  · exact .of_eq (State.completeHif_otp ..)

/-! ### Resets of the device: a burned transition comes into force -/

theorem State.cleared_otp (s : State) : s.cleared.otp = s.otp.now := rfl

theorem doPor_otp (s : State) : (doPor s).otp = s.otp.now := by
  unfold doPor
  dsimp only
  with_reducible refine (both_otp _ _ ?_).trans ?_
  · intro x t; exact State.wr_otp ..
  · with_reducible refine (both_otp _ _ ?_).trans ?_
    · intro x t; exact (State.newKeys_otp ..).trans (State.modSh_otp ..)
    · exact State.cleared_otp s

theorem State.resetDevice_otp (s : State) (f : Fld) (keep lol : Bool) : (s.resetDevice f keep lol).otp = s.otp.now := by
  unfold State.resetDevice
  dsimp only
  with_reducible refine (State.cause_otp ..).trans ?_
  with_reducible refine (State.dPut_otp ..).trans ?_
  with_reducible refine (both_otp _ _ ?_).trans ?_
  · intro x t; exact (State.wr_otp ..).trans (State.wr_otp ..)
  with_reducible refine (State.wr_otp ..).trans ?_
  with_reducible refine (both_otp _ _ ?_).trans ?_
  · intro x t; exact State.newKeys_otp ..
  with_reducible refine (State.modSh_otp ..).trans ?_
  with_reducible refine (State.modSh_otp ..).trans ?_
  simp only [mk_otp]
  exact State.cleared_otp s

theorem doResetN_otp (s : State) : (doResetN s).otp = s.otp.now := s.resetDevice_otp ..

theorem doLossOfLock_otp (s : State) : (doLossOfLock s).otp = s.otp.now := s.resetDevice_otp ..

theorem doLifecycleReset_otp (s : State) : (doLifecycleReset s).otp = s.otp ∨ (doLifecycleReset s).otp = s.otp.now := by
  unfold doLifecycleReset
  split
  · exact .inl rfl
  · split
    · exact .inl rfl
    · right
      simp only [mk_otp]
      with_reducible refine (State.wr_otp ..).trans ?_
      exact s.resetDevice_otp ..

theorem doRailLow_aon_otp (s : State) : (doRailLow .aon s).otp = s.otp.now := doPor_otp s

theorem doRailLow_otp (r : Rail) (s : State) (h : r ≠ .aon) : (doRailLow r s).otp = s.otp := by
  unfold doRailLow
  dsimp only
  split
  · exact absurd rfl h
  · with_reducible refine (State.railFlag_otp ..).trans ?_
    with_reducible refine (State.modSh_otp ..).trans ?_
    exact State.shpReset_otp ..
  · with_reducible refine (State.railFlag_otp ..).trans ?_
    with_reducible refine (State.modSh_otp ..).trans ?_
    exact State.shpReset_otp ..
  · with_reducible refine (State.railFlag_otp ..).trans ?_
    with_reducible refine (both_otp _ _ ?_).trans ?_
    · intro x t; exact (State.modSh_otp ..).trans (State.newKeys_otp ..)
    with_reducible refine (State.modSh_otp ..).trans ?_
    with_reducible refine (State.shpReset_otp ..).trans ?_
    with_reducible refine (State.modSh_otp ..).trans ?_
    exact State.shpReset_otp ..
  · split
    · rfl
    · with_reducible refine (State.dPut_otp ..).trans ?_
      with_reducible refine (State.modPdk_otp ..).trans ?_
      exact State.padReset_otp ..
  · exact doVdrLow_otp ..
  · exact doVhtr_otp ..
  · exact (State.railFlag_otp ..).trans (foldl_otp _ _ _ fun s i => State.dPut_otp ..)

/-! ### Descriptors and the tick boundary -/

theorem State.startWith_burns (s : State) (d : Desc) (f : Desc → State → State) (h : ∀ s, Burns s.otp (f d s).otp) :
    Burns s.otp (s.startWith d f).otp := by
  unfold State.startWith
  split
  · exact .refl _
  · split
    · exact .of_eq (State.completeHif_otp ..)
    · exact h s

theorem State.startRow_burns (s : State) (d : Desc) (b : Bool) (f : Desc → State → State) (h : ∀ s, Burns s.otp (f d s).otp) :
    Burns s.otp (s.startRow d b f).otp := by
  unfold State.startRow
  split
  · exact (Burns.of_eq (State.claimDesc_otp s d)).trans (State.startWith_burns _ d f h)
  · exact .refl _

theorem State.withLuck_burns (s : State) (f : Bool → State → State) (h : ∀ b s, Burns s.otp (f b s).otp) : Burns s.otp (s.withLuck f).otp := by
  unfold State.withLuck
  exact (Burns.of_eq (s.draw_otp 1)).trans (h _ _)

theorem runDesc_burns (d : Desc) (s : State) : Burns s.otp (runDesc d s).otp := by
  unfold runDesc
  split
  all_goals first
    | with_reducible exact .of_eq (startNop_otp ..)
    | with_reducible exact .of_eq (startSetup_otp ..)
    | with_reducible exact .of_eq (startSetupLock_otp ..)
    | with_reducible exact .of_eq (startMode_otp ..)
    | with_reducible exact .of_eq (startPower_otp ..)
    | with_reducible exact .of_eq (startMap_otp ..)
    | with_reducible exact .of_eq (startSetSpan_otp ..)
    | with_reducible exact .of_eq (startParkList_otp ..)
    | with_reducible exact .of_eq (startSetSense_otp ..)
    | with_reducible exact .of_eq (startSetLoop_otp ..)
    | with_reducible exact .of_eq (startArmComp_otp ..)
    | with_reducible exact .of_eq (startDisarmComp_otp ..)
    | with_reducible exact .of_eq (startHoldList_otp ..)
    | with_reducible exact .of_eq (startSeedList_otp ..)
    | with_reducible exact .of_eq (startSetComp_otp ..)
    | with_reducible exact .of_eq (startSetXtalk_otp ..)
    | with_reducible exact .of_eq (startSetFit_otp ..)
    | with_reducible exact .of_eq (startRevertFit_otp ..)
    | with_reducible exact .of_eq (startFitLogRead_otp ..)
    | with_reducible exact .of_eq (startFitLogFree_otp ..)
    | with_reducible exact .of_eq (startTurnout_otp ..)
    | with_reducible exact .of_eq (startTurnoutList_otp ..)
    | with_reducible exact .of_eq (startTurnoutCancel_otp ..)
    | with_reducible exact .of_eq (startRotationList_otp ..)
    | with_reducible exact .of_eq (startRotationStop_otp ..)
    | with_reducible exact .of_eq (startSurvey_otp ..)
    | with_reducible exact .of_eq (startSurveyAbort_otp ..)
    | with_reducible exact .of_eq (startSurveyExport_otp ..)
    | with_reducible exact .of_eq (startHandover_otp ..)
    | with_reducible exact .of_eq (startResync_otp ..)
    | with_reducible exact .of_eq (startRecConfig_otp ..)
    | with_reducible exact .of_eq (startRecControl_otp ..)
    | with_reducible exact .of_eq (startRecRead_otp ..)
    | with_reducible exact .of_eq (startMarch_otp ..)
    | with_reducible exact .of_eq (startMusterRead_otp ..)
    | with_reducible exact .of_eq (startAlarmCfg_otp ..)
    | with_reducible exact .of_eq (startTime_otp ..)
    | with_reducible exact .of_eq (startGateList_otp ..)
    | with_reducible exact .of_eq (startPolicer_otp ..)
    | with_reducible exact .of_eq (startDebugToken_otp ..)
    | with_reducible exact .of_eq (startTelemetryCfg_otp ..)
    | exact s.withLuck_burns _ fun b s => startLifecycle_burns d b s
    | exact (Burns.of_eq (s.draw_otp 1)).trans (.of_eq (startKeyProvision_otp ..))
    | exact s.withLuck_burns _ fun b s => startFwUpdate_burns d b s
    | skip
  · split
    · exact .of_eq (startPlan_otp ..)
    · exact .of_eq (State.completeHif_otp ..)

theorem State.startReady_burns (n : Nat) (s : State) : Burns s.otp (State.startReady n s).otp := by
  induction n generalizing s with
  | zero => exact .refl _
  | succ n ih =>
    unfold State.startReady
    split
    · exact .refl _
    · split
      · exact .refl _
      · dsimp only
        refine Burns.trans ?_ (ih _)
        refine Burns.trans (.of_eq ?_) (State.startWith_burns _ _ _ (runDesc_burns _))
        with_reducible refine (both_otp _ _ ?_).trans ?_
        · intro x t; exact State.modSh_otp ..
        · exact State.takeDesc_otp ..

theorem doTickBoundary_burns (i : TickInput) (s : State) : Burns s.otp (doTickBoundary i s).otp := by
  unfold doTickBoundary
  split
  · exact .refl _
  · dsimp only
    refine Burns.trans (Burns.trans (.of_eq ?_) (State.startReady_burns _ _))
      (.of_eq ((State.beginTick_otp ..).trans (State.standbyTakes_otp ..)))
    with_reducible refine (State.joinBoundary_otp ..).trans ?_
    with_reducible refine (State.claimBoundary_otp ..).trans ?_
    with_reducible refine (State.stepJobs_otp ..).trans ?_
    with_reducible refine (State.applyDue_otp ..).trans ?_
    with_reducible refine (State.endTick_otp ..).trans ?_
    exact (State.toEdge_otp ..).trans (State.fireStrays_otp ..)

end Sys2Proof.Machine
end

