-- ==== Sys2Proof/Laws/Bytes.lean ====
section
/-! SUPPORT. Bytes of records (R3): a number written as bytes is read back, in a record that begins with it and behind a field. -/

namespace Sys2Proof

@[simp] theorem length_leBytes (n v : Nat) : (leBytes n v).length = n := by
  induction n generalizing v with
  | zero => rfl
  | succ n ih => rw [leBytes, List.length_cons, ih]

@[simp] theorem length_zeros (n : Nat) : (zeros n).length = n := List.length_replicate

/-- The number that a number's bytes spell. -/
theorem leNat_leBytes (n v : Nat) : leNat (leBytes n v) = v % 256 ^ n := by
  induction n generalizing v with
  | zero => rw [leBytes, leNat, Nat.pow_zero, Nat.mod_one]
  | succ n ih =>
    have e : 256 ^ (n + 1) = 256 * 256 ^ n := by rw [Nat.pow_succ, Nat.mul_comm]
    rw [leBytes, leNat, ih, BitVec.toNat_ofNat, e, Nat.mod_mul]

/-- A field at the front of a record. -/
theorem leAt_append (n v : Nat) (r : List Byte) (h : v < 256 ^ n) : leAt (leBytes n v ++ r) 0 n = v := by
  have e : (leBytes n v ++ r).take n = leBytes n v := List.take_left' (length_leBytes n v)
  rw [leAt, List.drop_zero, e, leNat_leBytes, Nat.mod_eq_of_lt h]

/-- A field behind the bytes of another. -/
theorem leAt_skip (p r : List Byte) (i j n : Nat) (h : p.length + j = i) : leAt (p ++ r) i n = leAt r j n := by
  have e : (p ++ r).drop (p.length + j) = r.drop j := by simp
  rw [leAt, leAt, ← h, e]

/-- Bytes spell a number below 256 to the power of their count. -/
theorem leNat_lt (bs : List Byte) : leNat bs < 256 ^ bs.length := by
  induction bs with
  | nil => exact Nat.one_pos
  | cons b bs ih =>
    have hb : b.toNat < 256 := b.isLt
    rw [leNat, List.length_cons, Nat.pow_succ]
    omega

/-- The bytes of the number that bytes spell are those bytes. -/
theorem leBytes_leNat (bs : List Byte) : leBytes bs.length (leNat bs) = bs := by
  induction bs with
  | nil => rfl
  | cons b bs ih =>
    have hb : b.toNat < 256 := b.isLt
    have h1 : BitVec.ofNat 8 (b.toNat + 256 * leNat bs) = b := by
      apply BitVec.eq_of_toNat_eq
      rw [BitVec.toNat_ofNat]
      omega
    have h2 : (b.toNat + 256 * leNat bs) / 256 = leNat bs := by omega
    rw [List.length_cons, leBytes, leNat, h1, h2, ih]

/-- The bytes of a field's number are the field's bytes. -/
theorem leBytes_leAt (bs : List Byte) (i n : Nat) (h : i + n ≤ bs.length) : leBytes n (leAt bs i n) = (bs.drop i).take n := by
  have e : ((bs.drop i).take n).length = n := by rw [List.length_take, List.length_drop]; omega
  have k := leBytes_leNat ((bs.drop i).take n)
  rwa [e] at k

/-- A field's number fits its bytes. -/
theorem leAt_lt (bs : List Byte) (i n : Nat) : leAt bs i n < 256 ^ n := by
  refine Nat.lt_of_lt_of_le (leNat_lt _) (Nat.pow_le_pow_right (by decide) ?_)
  rw [List.length_take]; omega

end Sys2Proof
end

