-- ==== Sys2Proof/Laws/Tells.lean ====
section
/-! SUPPORT. What the block tells the host (completions, events, notices) and the flags it sets change the register words, the hold, the log and the rings of the
shepherds, the sequence numbers and what is sent, and nothing else. `quiet` blanks exactly those parts; a state and the state after a report are equal under it, and each
field that it keeps follows from that: `State.jobs_of_quiet (s.complete_quiet ..)`. The lemmas for the fields are about variables, and a proof cites them: the
kernel is slow, or fails with deep recursion, where it has to compare one field of two large states itself. -/

namespace Sys2Proof.Machine

/-- A shepherd's state without its hold, its event log and the rings of its records. -/
def ShepSt.quiet (h : ShepSt) : ShepSt := { h with heldCpl := [], evtLog := [], evtLost := 0, rings := [], irqWait := [] }

/-- The state without the register words and what goes to the host. -/
def State.quiet (s : State) : State :=
  { s with regs := [], out := [], cplSeq := 0, evtSeq := 0, netSeq := 0, replies := [], shA := s.shA.quiet, shB := s.shB.quiet }

theorem both_quiet (f : Shep → State → State) (s : State) (h : ∀ x s, (f x s).quiet = s.quiet) : (both f s).quiet = s.quiet := by
  unfold both; rw [h, h]

theorem State.wr_quiet (s : State) (b o : Nat) (w : Word) : (s.wr b o w).quiet = s.quiet := rfl
theorem State.sWr_quiet (s : State) (o : Nat) (w : Word) : (s.sWr o w).quiet = s.quiet := rfl
theorem State.dPut_quiet (s : State) (o : Nat) (f : Fld) (v : Nat) : (s.dPut o f v).quiet = s.quiet := rfl
theorem State.pPut_quiet (s : State) (x : Shep) (o : Nat) (f : Fld) (v : Nat) : (s.pPut x o f v).quiet = s.quiet := rfl
theorem State.sPut_quiet (s : State) (o : Nat) (f : Fld) (v : Nat) : (s.sPut o f v).quiet = s.quiet := by
  unfold State.sPut; rw [State.pPut_quiet, State.pPut_quiet]
theorem State.dFlag_quiet (s : State) (o : Nat) (f : Fld) : (s.dFlag o f).quiet = s.quiet := rfl
theorem State.pFlag_quiet (s : State) (x : Shep) (o : Nat) (f : Fld) : (s.pFlag x o f).quiet = s.quiet := rfl
theorem State.sFlag_quiet (s : State) (o : Nat) (f : Fld) : (s.sFlag o f).quiet = s.quiet := s.sPut_quiet ..
theorem State.dCount_quiet (s : State) (o : Nat) (f : Fld) (k : Nat) : (s.dCount o f k).quiet = s.quiet := rfl
theorem State.pCount_quiet (s : State) (x : Shep) (o : Nat) (f : Fld) (k : Nat) : (s.pCount x o f k).quiet = s.quiet := rfl
theorem State.sCount_quiet (s : State) (o : Nat) (f : Fld) (k : Nat) : (s.sCount o f k).quiet = s.quiet := by
  unfold State.sCount; rw [State.pCount_quiet, State.pCount_quiet]
theorem State.send_quiet (s : State) (o : Out) : (s.send o).quiet = s.quiet := rfl

theorem State.modSh_quiet (s : State) (x : Shep) (f : ShepSt → ShepSt) (h : ∀ k, (f k).quiet = k.quiet) : (s.modSh x f).quiet = s.quiet := by
  unfold State.modSh State.quiet
  cases x
  · dsimp only; rw [h]
  · dsimp only; rw [h]

theorem State.putRec_quiet (s : State) (x : Shep) (k : Nat) (mk : Nat → Nat → Out) : (s.putRec x k mk).quiet = s.quiet := by
  unfold State.putRec State.irqMark State.modRing
  refine (State.modSh_quiet _ _ _ (by intro _; rfl)).trans ?_
  refine (State.modSh_quiet _ _ _ (by intro _; rfl)).trans ?_
  exact State.send_quiet ..

theorem flushCplN_quiet (x : Shep) (n : Nat) (s : State) : (flushCplN x n s).quiet = s.quiet := by
  induction n generalizing s with
  | zero => rfl
  | succ n ih =>
    unfold flushCplN
    split
    · rfl
    · split
      · refine (ih _).trans ?_
        refine (State.modSh_quiet _ _ _ (by intro _; rfl)).trans ?_
        exact State.putRec_quiet ..
      · rfl

theorem State.flushCpl_quiet (s : State) (x : Shep) : (s.flushCpl x).quiet = s.quiet := by
  unfold State.flushCpl
  split
  · exact flushCplN_quiet ..
  · rfl

theorem State.pushCpl_quiet (s : State) (x : Shep) (body : List Byte) : (s.pushCpl x body).quiet = s.quiet := by
  unfold State.pushCpl
  split
  · split
    · exact s.pCount_quiet ..
    · rw [State.flushCpl_quiet, State.modSh_quiet _ _ _ (by intro _; rfl)]
  · rfl

theorem flushEvtN_quiet (x : Shep) (n : Nat) (s : State) : (flushEvtN x n s).quiet = s.quiet := by
  induction n generalizing s with
  | zero => rfl
  | succ n ih =>
    unfold flushEvtN
    split
    · split
      · refine (ih _).trans ?_
        refine (State.modSh_quiet _ _ _ (by intro _; rfl)).trans ?_
        exact State.putRec_quiet ..
      · split
        · rfl
        · refine (ih _).trans ?_
          refine (State.modSh_quiet _ _ _ (by intro _; rfl)).trans ?_
          exact State.putRec_quiet ..
    · rfl

theorem flushRoleN_quiet (x : Shep) (n : Nat) (s : State) : (flushRoleN x n s).quiet = s.quiet := by
  induction n generalizing s with
  | zero => rfl
  | succ n ih =>
    unfold flushRoleN
    split
    · rfl
    · split
      · refine (ih _).trans ?_
        refine (State.modSh_quiet _ _ _ (by intro _; rfl)).trans ?_
        exact State.putRec_quiet ..
      · rfl

theorem State.flushEvt_quiet (s : State) (x : Shep) : (s.flushEvt x).quiet = s.quiet := by
  unfold State.flushEvt
  dsimp only
  split
  · exact flushEvtN_quiet ..
  · split
    · exact flushRoleN_quiet ..
    · rfl

theorem State.logEvt_quiet (s : State) (x : Shep) (k : Nat) (body : List Byte) : (s.logEvt x k body).quiet = s.quiet := by
  unfold State.logEvt
  split
  · refine (State.modSh_quiet _ _ _ (by intro _; rfl)).trans ?_
    exact State.pCount_quiet ..
  · rw [State.flushEvt_quiet, State.modSh_quiet _ _ _ (by intro _; rfl)]

theorem State.event_quiet (s : State) (k : Nat) (p : List Byte) : (s.event k p).quiet = s.quiet := by
  unfold State.event
  dsimp only
  have a : ∀ (t : State) (b : Bool) (x : Shep) (body : List Byte), (if b then t.logEvt x 0 body else t).quiet = t.quiet := by
    intro t b x body
    split
    · exact t.logEvt_quiet ..
    · rfl
  rw [a, a]
  rfl

theorem State.eventLocal_quiet (s : State) (x : Shep) (k : Nat) (p : List Byte) : (s.eventLocal x k p).quiet = s.quiet := s.logEvt_quiet ..
theorem State.noticeLocal_quiet (s : State) (x : Shep) (o b n : Nat) : (s.noticeLocal x o b n).quiet = s.quiet := by
  unfold State.noticeLocal
  split
  · exact s.eventLocal_quiet ..
  · rfl
theorem State.modeEvent_quiet (s : State) (m : Mode) (k : Nat) : (s.modeEvent m k).quiet = s.quiet := s.event_quiet ..
theorem State.timeEvent_quiet (s : State) (k b a : Nat) (o p : Int) : (s.timeEvent k b a o p).quiet = s.quiet := s.event_quiet ..

theorem State.notice_quiet (s : State) (o b n : Nat) (more : List Nat) : (s.notice o b n more).quiet = s.quiet := by
  unfold State.notice
  generalize chunks16 _ _ = l
  induction l generalizing s with
  | nil => rfl
  | cons c l ih => rw [List.foldl_cons, ih, State.event_quiet]

theorem State.complete_quiet (s : State) (d : Desc) (space code : Nat) (r : List Byte) : (s.complete d space code r).quiet = s.quiet := by
  unfold State.complete
  split
  · rfl
  · dsimp only
    rw [State.pushCpl_quiet, State.pushCpl_quiet]
    rfl

theorem State.completeHif_quiet (s : State) (d : Desc) (code : Nat) : (s.completeHif d code).quiet = s.quiet := s.complete_quiet ..
theorem State.lcs_quiet (s : State) (d : Desc) (code : Nat) : (s.lcs d code).quiet = s.quiet := s.complete_quiet ..

theorem State.writeOut_quiet (s : State) (a : Nat) (b : List Byte) : (s.writeOut a b).quiet = s.quiet := by
  unfold State.writeOut
  dsimp only
  split <;> split <;> rfl

/-- A state that is equal to another one under `quiet` has its roles, and what else `quiet` keeps of a shepherd. -/
theorem State.role_of_quiet {s t : State} (h : t.quiet = s.quiet) (x : Shep) : t.role x = s.role x := by
  cases x
  · exact congrArg (fun s => s.shA.role) h
  · exact congrArg (fun s => s.shB.role) h

theorem State.halted_of_quiet {s t : State} (h : t.quiet = s.quiet) (x : Shep) : (t.sh x).halted = (s.sh x).halted := by
  cases x
  · exact congrArg (fun s => s.shA.halted) h
  · exact congrArg (fun s => s.shB.halted) h

/-! ### The fields that `quiet` keeps -/

section
variable {s t : State} (h : t.quiet = s.quiet)
include h

theorem State.pending_of_quiet : t.pending = s.pending := by have e := congrArg State.pending h; exact e
theorem State.part_of_quiet : t.part = s.part := by have e := congrArg State.part h; exact e
theorem State.grade_of_quiet : t.grade = s.grade := by have e := congrArg State.grade h; exact e
theorem State.mode_of_quiet : t.mode = s.mode := by have e := congrArg State.mode h; exact e
theorem State.lp_of_quiet : t.lp = s.lp := by have e := congrArg State.lp h; exact e
theorem State.oos_of_quiet : t.oos = s.oos := by have e := congrArg State.oos h; exact e
theorem State.orphan_of_quiet : t.orphan = s.orphan := by have e := congrArg State.orphan h; exact e
theorem State.edge_of_quiet : t.edge = s.edge := by have e := congrArg State.edge h; exact e
theorem State.tb0_of_quiet : t.tb0 = s.tb0 := by have e := congrArg State.tb0 h; exact e
theorem State.tb1_of_quiet : t.tb1 = s.tb1 := by have e := congrArg State.tb1 h; exact e
theorem State.tb2_of_quiet : t.tb2 = s.tb2 := by have e := congrArg State.tb2 h; exact e
theorem State.tb3_of_quiet : t.tb3 = s.tb3 := by have e := congrArg State.tb3 h; exact e
theorem State.wrapSeen_of_quiet : t.wrapSeen = s.wrapSeen := by have e := congrArg State.wrapSeen h; exact e
theorem State.latches_of_quiet : t.latches = s.latches := by have e := congrArg State.latches h; exact e
theorem State.ppsHigh_of_quiet : t.ppsHigh = s.ppsHigh := by have e := congrArg State.ppsHigh h; exact e
theorem State.ptp_of_quiet : t.ptp = s.ptp := by have e := congrArg State.ptp h; exact e
theorem State.fresh_of_quiet : t.fresh = s.fresh := by have e := congrArg State.fresh h; exact e
theorem State.writes_of_quiet : t.writes = s.writes := by have e := congrArg State.writes h; exact e
theorem State.map_of_quiet : t.map = s.map := by have e := congrArg State.map h; exact e
theorem State.pdks_of_quiet : t.pdks = s.pdks := by have e := congrArg State.pdks h; exact e
theorem State.chans_of_quiet : t.chans = s.chans := by have e := congrArg State.chans h; exact e
theorem State.senses_of_quiet : t.senses = s.senses := by have e := congrArg State.senses h; exact e
theorem State.raws_of_quiet : t.raws = s.raws := by have e := congrArg State.raws h; exact e
theorem State.amps_of_quiet : t.amps = s.amps := by have e := congrArg State.amps h; exact e
theorem State.pdkCounts_of_quiet : t.pdkCounts = s.pdkCounts := by have e := congrArg State.pdkCounts h; exact e
theorem State.recv_of_quiet : t.recv = s.recv := by have e := congrArg State.recv h; exact e
theorem State.colDue_of_quiet : t.colDue = s.colDue := by have e := congrArg State.colDue h; exact e
theorem State.pdkPwr_of_quiet : t.pdkPwr = s.pdkPwr := by have e := congrArg State.pdkPwr h; exact e
theorem State.vrefs_of_quiet : t.vrefs = s.vrefs := by have e := congrArg State.vrefs h; exact e
theorem State.driveLater_of_quiet : t.driveLater = s.driveLater := by have e := congrArg State.driveLater h; exact e
theorem State.clearLow_of_quiet : t.clearLow = s.clearLow := by have e := congrArg State.clearLow h; exact e
theorem State.clearHold_of_quiet : t.clearHold = s.clearHold := by have e := congrArg State.clearHold h; exact e
theorem State.muster_of_quiet : t.muster = s.muster := by have e := congrArg State.muster h; exact e
theorem State.tlmSeq_of_quiet : t.tlmSeq = s.tlmSeq := by have e := congrArg State.tlmSeq h; exact e
theorem State.jobs_of_quiet : t.jobs = s.jobs := by have e := congrArg State.jobs h; exact e
theorem State.netCount_of_quiet : t.netCount = s.netCount := by have e := congrArg State.netCount h; exact e
theorem State.netFrom_of_quiet : t.netFrom = s.netFrom := by have e := congrArg State.netFrom h; exact e
theorem State.slots_of_quiet : t.slots = s.slots := by have e := congrArg State.slots h; exact e
theorem State.library_of_quiet : t.library = s.library := by have e := congrArg State.library h; exact e
theorem State.scratch_of_quiet : t.scratch = s.scratch := by have e := congrArg State.scratch h; exact e
theorem State.drover_of_quiet : t.drover = s.drover := by have e := congrArg State.drover h; exact e
theorem State.posWr_of_quiet : t.posWr = s.posWr := by have e := congrArg State.posWr h; exact e
theorem State.commits_of_quiet : t.commits = s.commits := by have e := congrArg State.commits h; exact e
theorem State.rots_of_quiet : t.rots = s.rots := by have e := congrArg State.rots h; exact e
theorem State.stagings_of_quiet : t.stagings = s.stagings := by have e := congrArg State.stagings h; exact e
theorem State.domSeq_of_quiet : t.domSeq = s.domSeq := by have e := congrArg State.domSeq h; exact e
theorem State.ctlSeq_of_quiet : t.ctlSeq = s.ctlSeq := by have e := congrArg State.ctlSeq h; exact e
theorem State.stageSeq_of_quiet : t.stageSeq = s.stageSeq := by have e := congrArg State.stageSeq h; exact e
theorem State.stepped_of_quiet : t.stepped = s.stepped := by have e := congrArg State.stepped h; exact e
theorem State.links_of_quiet : t.links = s.links := by have e := congrArg State.links h; exact e
theorem State.grantTick_of_quiet : t.grantTick = s.grantTick := by have e := congrArg State.grantTick h; exact e
theorem State.divNow_of_quiet : t.divNow = s.divNow := by have e := congrArg State.divNow h; exact e
theorem State.divRun_of_quiet : t.divRun = s.divRun := by have e := congrArg State.divRun h; exact e
theorem State.claims_of_quiet : t.claims = s.claims := by have e := congrArg State.claims h; exact e
theorem State.initial_of_quiet : t.initial = s.initial := by have e := congrArg State.initial h; exact e
theorem State.lone_of_quiet : t.lone = s.lone := by have e := congrArg State.lone h; exact e
theorem State.handover_of_quiet : t.handover = s.handover := by have e := congrArg State.handover h; exact e
theorem State.joining_of_quiet : t.joining = s.joining := by have e := congrArg State.joining h; exact e
theorem State.bothLost_of_quiet : t.bothLost = s.bothLost := by have e := congrArg State.bothLost h; exact e
theorem State.copyRec_of_quiet : t.copyRec = s.copyRec := by have e := congrArg State.copyRec h; exact e
theorem State.sync_of_quiet : t.sync = s.sync := by have e := congrArg State.sync h; exact e
theorem State.survey_of_quiet : t.survey = s.survey := by have e := congrArg State.survey h; exact e
theorem State.results_of_quiet : t.results = s.results := by have e := congrArg State.results h; exact e
theorem State.waking_of_quiet : t.waking = s.waking := by have e := congrArg State.waking h; exact e
theorem State.lpExit_of_quiet : t.lpExit = s.lpExit := by have e := congrArg State.lpExit h; exact e
theorem State.safeDue_of_quiet : t.safeDue = s.safeDue := by have e := congrArg State.safeDue h; exact e
theorem State.seeded_of_quiet : t.seeded = s.seeded := by have e := congrArg State.seeded h; exact e
theorem State.clearFell_of_quiet : t.clearFell = s.clearFell := by have e := congrArg State.clearFell h; exact e
theorem State.badLib_of_quiet : t.badLib = s.badLib := by have e := congrArg State.badLib h; exact e
theorem State.epoch_of_quiet : t.epoch = s.epoch := by have e := congrArg State.epoch h; exact e
theorem State.fuses_of_quiet : t.fuses = s.fuses := by have e := congrArg State.fuses h; exact e
theorem State.store_of_quiet : t.store = s.store := by have e := congrArg State.store h; exact e
theorem State.keys_of_quiet : t.keys = s.keys := by have e := congrArg State.keys h; exact e
theorem State.keySeq_of_quiet : t.keySeq = s.keySeq := by have e := congrArg State.keySeq h; exact e
theorem State.safeSince_of_quiet : t.safeSince = s.safeSince := by have e := congrArg State.safeSince h; exact e
theorem State.parkedFree_of_quiet : t.parkedFree = s.parkedFree := by have e := congrArg State.parkedFree h; exact e
theorem State.strapsKept_of_quiet : t.strapsKept = s.strapsKept := by have e := congrArg State.strapsKept h; exact e
theorem State.early_of_quiet : t.early = s.early := by have e := congrArg State.early h; exact e
theorem State.tx_of_quiet : t.tx = s.tx := by have e := congrArg State.tx h; exact e
theorem State.txNum_of_quiet : t.txNum = s.txNum := by have e := congrArg State.txNum h; exact e
theorem State.rxCtl_of_quiet : t.rxCtl = s.rxCtl := by have e := congrArg State.rxCtl h; exact e
theorem State.ports_of_quiet : t.ports = s.ports := by have e := congrArg State.ports h; exact e
theorem State.queues_of_quiet : t.queues = s.queues := by have e := congrArg State.queues h; exact e
theorem State.pairs_of_quiet : t.pairs = s.pairs := by have e := congrArg State.pairs h; exact e
theorem State.streams_of_quiet : t.streams = s.streams := by have e := congrArg State.streams h; exact e
theorem State.tlm_of_quiet : t.tlm = s.tlm := by have e := congrArg State.tlm h; exact e
theorem State.tlmLast_of_quiet : t.tlmLast = s.tlmLast := by have e := congrArg State.tlmLast h; exact e
theorem State.tlmWait_of_quiet : t.tlmWait = s.tlmWait := by have e := congrArg State.tlmWait h; exact e
theorem State.tlmSince_of_quiet : t.tlmSince = s.tlmSince := by have e := congrArg State.tlmSince h; exact e
theorem State.xing_of_quiet : t.xing = s.xing := by have e := congrArg State.xing h; exact e
theorem State.xtDrains_of_quiet : t.xtDrains = s.xtDrains := by have e := congrArg State.xtDrains h; exact e
theorem State.tecs_of_quiet : t.tecs = s.tecs := by have e := congrArg State.tecs h; exact e

end

end Sys2Proof.Machine
end

