-- ==== Sys2Proof/Laws/MapKept.lean ====
section
/-! SUPPORT. A plan command leaves the map in force. Each lemma says of one function that the drover runs that the map is as before. -/

set_option maxRecDepth 4000
set_option linter.unreachableTactic false
set_option linter.unusedTactic false
set_option linter.unusedSimpArgs false

namespace Sys2Proof.Machine

/-- The map in force; a function of its own, so that a proof compares states and not the fields of states. -/
def State.inForce (s : State) : Option FabricMap := s.map

theorem mk_inForce (a : State) (v0 v1 v2 v3 v4 v5 v6 v7 v8 v9 v10 v11 v12 v13 v14 v15 v16 v17 v18 v20 v21 v22 v23 v24 v25 v26 v27 v28 v29 v30 v31 v32 v33 v34 v35 v36 v37 v38 v39 v40 v41 v42 v43 v44 v45 v46 v47 v48 v49 v50 v51 v52 v53 v54 v55 v56 v57 v58 v59 v60 v61 v62 v63 v64 v65 v66 v67 v68 v69 v70 v71 v72 v73 v74 v75 v76 v77 v78 v79 v80 v81 v82 v83 v84 v85 v86 v87 v88 v89 v90 v91 v92 v93 v94 v95 v96 v97 v98 v99) :
    (State.mk v0 v1 v2 v3 v4 v5 v6 v7 v8 v9 v10 v11 v12 v13 v14 v15 v16 v17 v18 a.map v20 v21 v22 v23 v24 v25 v26 v27 v28 v29 v30 v31 v32 v33 v34 v35 v36 v37 v38 v39 v40 v41 v42 v43 v44 v45 v46 v47 v48 v49 v50 v51 v52 v53 v54 v55 v56 v57 v58 v59 v60 v61 v62 v63 v64 v65 v66 v67 v68 v69 v70 v71 v72 v73 v74 v75 v76 v77 v78 v79 v80 v81 v82 v83 v84 v85 v86 v87 v88 v89 v90 v91 v92 v93 v94 v95 v96 v97 v98 v99).inForce = a.inForce := by unfold State.inForce; rfl

theorem ite2_inForce {c : Prop} [Decidable c] {a b : State} {x : Option FabricMap} (ha : a.inForce = x) (hb : b.inForce = x) : (if c then a else b).inForce = x := by
  split <;> assumption

theorem both_inForce (f : Shep → State → State) (s : State) (h : ∀ x s, (f x s).inForce = s.inForce) : (both f s).inForce = s.inForce := by
  unfold both; rw [h, h]

theorem State.wr_inForce (s : State) (bank off : Nat) (w : Word) : (State.wr s bank off w).inForce = s.inForce := by
  unfold State.wr
  repeat' (first | with_reducible rfl | with_reducible refine ite2_inForce ?_ ?_ | simp only [mk_inForce] | dsimp only | split | intro _)

theorem State.pPut_inForce (s : State) (x : Shep) (off : Nat) (f : Fld) (v : Nat) : (State.pPut s x off f v).inForce = s.inForce := by
  unfold State.pPut
  repeat' (first | with_reducible rfl | with_reducible refine ite2_inForce ?_ ?_ | with_reducible refine (State.wr_inForce ..).trans ?_ | simp only [mk_inForce] | dsimp only | split | intro _)

theorem State.modSh_inForce (s : State) (x : Shep) (f : ShepSt → ShepSt) : (State.modSh s x f).inForce = s.inForce := by
  unfold State.modSh
  repeat' (first | with_reducible rfl | with_reducible refine ite2_inForce ?_ ?_ | simp only [mk_inForce] | dsimp only | split | intro _)

theorem State.sPut_inForce (s : State) (off : Nat) (f : Fld) (v : Nat) : (State.sPut s off f v).inForce = s.inForce := by
  unfold State.sPut
  repeat' (first | with_reducible rfl | with_reducible refine ite2_inForce ?_ ?_ | with_reducible refine (State.pPut_inForce ..).trans ?_ | simp only [mk_inForce] | dsimp only | split | intro _)

theorem State.sFlag_inForce (s : State) (off : Nat) (f : Fld) : (State.sFlag s off f).inForce = s.inForce := by
  unfold State.sFlag
  repeat' (first | with_reducible rfl | with_reducible refine ite2_inForce ?_ ?_ | with_reducible refine (State.sPut_inForce ..).trans ?_ | simp only [mk_inForce] | dsimp only | split | intro _)

theorem State.pCount_inForce (s : State) (x : Shep) (off : Nat) (f : Fld) (k : Nat) : (State.pCount s x off f k).inForce = s.inForce := by
  unfold State.pCount
  repeat' (first | with_reducible rfl | with_reducible refine ite2_inForce ?_ ?_ | with_reducible refine (State.pPut_inForce ..).trans ?_ | simp only [mk_inForce] | dsimp only | split | intro _)

theorem State.send_inForce (s : State) (o : Out) : (State.send s o).inForce = s.inForce := by
  unfold State.send
  repeat' (first | with_reducible rfl | with_reducible refine ite2_inForce ?_ ?_ | simp only [mk_inForce] | dsimp only | split | intro _)

theorem State.modRing_inForce (s : State) (x : Shep) (k : Nat) (f : RingSt → RingSt) : (State.modRing s x k f).inForce = s.inForce := by
  unfold State.modRing
  repeat' (first | with_reducible rfl | with_reducible refine ite2_inForce ?_ ?_ | with_reducible refine (State.modSh_inForce ..).trans ?_ | simp only [mk_inForce] | dsimp only | split | intro _)

theorem State.irqMark_inForce (s : State) (x : Shep) (vec : Nat) : (State.irqMark s x vec).inForce = s.inForce := by
  unfold State.irqMark
  repeat' (first | with_reducible rfl | with_reducible refine ite2_inForce ?_ ?_ | with_reducible refine (State.modSh_inForce ..).trans ?_ | simp only [mk_inForce] | dsimp only | split | intro _)

theorem State.putRec_inForce (s : State) (x : Shep) (k : Nat) (mk : Nat → Nat → Out) : (State.putRec s x k mk).inForce = s.inForce := by
  unfold State.putRec
  repeat' (first | with_reducible rfl | with_reducible refine ite2_inForce ?_ ?_ | with_reducible refine (State.send_inForce ..).trans ?_ | with_reducible refine (State.modRing_inForce ..).trans ?_ | with_reducible refine (State.irqMark_inForce ..).trans ?_ | simp only [mk_inForce] | dsimp only | split | intro _)

theorem flushCplN_inForce (x : Shep) (a0_ : Nat) (s_ : State) : (flushCplN x a0_ s_).inForce = s_.inForce := by
  induction a0_ generalizing s_ with
  | zero => rfl
  | succ n ih =>
    unfold flushCplN
    repeat' (first | with_reducible rfl | with_reducible refine ite2_inForce ?_ ?_ | with_reducible refine (ih _).trans ?_ | with_reducible refine (State.modSh_inForce ..).trans ?_ | with_reducible refine (State.putRec_inForce ..).trans ?_ | simp only [mk_inForce] | dsimp only | split | intro _)

theorem State.flushCpl_inForce (s : State) (x : Shep) : (State.flushCpl s x).inForce = s.inForce := by
  unfold State.flushCpl
  repeat' (first | with_reducible rfl | with_reducible refine ite2_inForce ?_ ?_ | with_reducible refine (flushCplN_inForce ..).trans ?_ | simp only [mk_inForce] | dsimp only | split | intro _)

theorem State.pushCpl_inForce (s : State) (x : Shep) (body : List Byte) : (State.pushCpl s x body).inForce = s.inForce := by
  unfold State.pushCpl
  repeat' (first | with_reducible rfl | with_reducible refine ite2_inForce ?_ ?_ | with_reducible refine (State.modSh_inForce ..).trans ?_ | with_reducible refine (State.pCount_inForce ..).trans ?_ | with_reducible refine (State.flushCpl_inForce ..).trans ?_ | simp only [mk_inForce] | dsimp only | split | intro _)

theorem openWindow_inForce (s : State) (t : Nat) (rs : List Report) : (openWindow s t rs).inForce = s.inForce := by
  unfold openWindow
  repeat' (first | with_reducible rfl | with_reducible refine ite2_inForce ?_ ?_ | with_reducible refine (State.applied_inForce ..).trans ?_ | simp only [mk_inForce] | dsimp only | split | intro _)

theorem joinWindow_inForce (s : State) (r : Report) : (joinWindow s r).inForce = s.inForce := by
  unfold joinWindow
  repeat' (first | with_reducible rfl | with_reducible refine ite2_inForce ?_ ?_ | with_reducible refine (openWindow_inForce ..).trans ?_ | simp only [mk_inForce] | dsimp only | split | intro _)

theorem State.report_inForce (s : State) (r : Report) : (State.report s r).inForce = s.inForce := by
  unfold State.report
  repeat' (first | with_reducible rfl | with_reducible refine ite2_inForce ?_ ?_ | with_reducible refine (State.sFlag_inForce ..).trans ?_ | with_reducible refine (joinWindow_inForce ..).trans ?_ | simp only [mk_inForce] | dsimp only | split | intro _)

theorem State.complete_inForce (s : State) (d : Desc) (space code : Nat) (result : List Byte) : (State.complete s d space code result).inForce = s.inForce := by
  unfold State.complete
  repeat' (first | with_reducible rfl | with_reducible refine ite2_inForce ?_ ?_ | with_reducible refine (State.pushCpl_inForce ..).trans ?_ | simp only [mk_inForce] | dsimp only | split | intro _)

theorem State.writeOut_inForce (s : State) (addr : Nat) (bytes : List Byte) : (State.writeOut s addr bytes).inForce = s.inForce := by
  unfold State.writeOut
  repeat' (first | with_reducible rfl | with_reducible refine ite2_inForce ?_ ?_ | with_reducible refine (State.send_inForce ..).trans ?_ | simp only [mk_inForce] | dsimp only | split | intro _)

theorem State.setSlot_inForce (s : State) (i : Nat) (v : Slot) : (State.setSlot s i v).inForce = s.inForce := by
  unfold State.setSlot
  repeat' (first | with_reducible rfl | with_reducible refine ite2_inForce ?_ ?_ | simp only [mk_inForce] | dsimp only | split | intro _)

theorem State.modSlot_inForce (s : State) (i : Nat) (f : Slot → Slot) : (State.modSlot s i f).inForce = s.inForce := by
  unfold State.modSlot
  repeat' (first | with_reducible rfl | with_reducible refine ite2_inForce ?_ ?_ | with_reducible refine (State.setSlot_inForce ..).trans ?_ | simp only [mk_inForce] | dsimp only | split | intro _)

theorem State.libPut_inForce (s : State) (id : Nat) (p : Option Plan) : (State.libPut s id p).inForce = s.inForce := by
  unfold State.libPut
  repeat' (first | with_reducible rfl | with_reducible refine ite2_inForce ?_ ?_ | simp only [mk_inForce] | dsimp only | split | intro _)

theorem State.foldRecord_inForce (s : State) : (State.foldRecord s).inForce = s.inForce := by
  unfold State.foldRecord
  repeat' (first | with_reducible rfl | with_reducible refine ite2_inForce ?_ ?_ | with_reducible refine (both_inForce _ _ ?_).trans ?_ | with_reducible refine (State.modSh_inForce ..).trans ?_ | simp only [mk_inForce] | dsimp only | split | intro _)

theorem State.putRecord_inForce (s : State) (slot : Nat) (id : Option Nat) (p : Plan) : (State.putRecord s slot id p).inForce = s.inForce := by
  unfold State.putRecord
  repeat' (first | with_reducible rfl | with_reducible refine ite2_inForce ?_ ?_ | with_reducible refine (State.libPut_inForce ..).trans ?_ | with_reducible refine (State.foldRecord_inForce ..).trans ?_ | simp only [mk_inForce] | dsimp only | split | intro _)

theorem State.planEnd_inForce (s : State) (d : Desc) (code : Nat) (result : List Byte) : (State.planEnd s d code result).inForce = s.inForce := by
  unfold State.planEnd
  repeat' (first | simp only [mk_inForce] | with_reducible rfl | with_reducible refine ite2_inForce ?_ ?_ | with_reducible refine (both_inForce _ _ ?_).trans ?_ | with_reducible refine (State.pPut_inForce ..).trans ?_ | with_reducible refine (State.complete_inForce ..).trans ?_ | simp only [mk_inForce] | dsimp only | split | intro _)

theorem State.beginBuild_inForce (s : State) (d : Desc) (slot : Nat) (p : Plan) (result report : List Byte) : (State.beginBuild s d slot p result report).inForce = s.inForce := by
  unfold State.beginBuild
  repeat' (first | with_reducible rfl | with_reducible refine ite2_inForce ?_ ?_ | with_reducible refine (State.report_inForce ..).trans ?_ | simp only [mk_inForce] | dsimp only | split | intro _)

theorem State.writeReport_inForce (s : State) (d : Desc) (report : List Byte) : (State.writeReport s d report).inForce = s.inForce := by
  unfold State.writeReport
  repeat' (first | with_reducible rfl | with_reducible refine ite2_inForce ?_ ?_ | with_reducible refine (State.report_inForce ..).trans ?_ | with_reducible refine (State.writeOut_inForce ..).trans ?_ | simp only [mk_inForce] | dsimp only | split | intro _)

theorem State.endRequest_inForce (s : State) (d : Desc) (code : Nat) : (State.endRequest s d code).inForce = s.inForce := by
  unfold State.endRequest
  repeat' (first | with_reducible rfl | with_reducible refine ite2_inForce ?_ ?_ | with_reducible refine (State.planEnd_inForce ..).trans ?_ | with_reducible refine (State.writeReport_inForce ..).trans ?_ | simp only [mk_inForce] | dsimp only | split | intro _)

theorem State.reserve_inForce (s : State) (i : Nat) : (State.reserve s i).inForce = s.inForce := by
  unfold State.reserve
  repeat' (first | with_reducible rfl | with_reducible refine ite2_inForce ?_ ?_ | with_reducible refine (State.modSlot_inForce ..).trans ?_ | simp only [mk_inForce] | dsimp only | split | intro _)

theorem State.beginRequest_inForce (s : State) (d : Desc) : (State.beginRequest s d).inForce = s.inForce := by
  unfold State.beginRequest
  repeat' (first | with_reducible rfl | with_reducible refine ite2_inForce ?_ ?_ | with_reducible refine (State.beginBuild_inForce ..).trans ?_ | with_reducible refine (State.endRequest_inForce ..).trans ?_ | with_reducible refine (State.reserve_inForce ..).trans ?_ | simp only [mk_inForce] | dsimp only | split | intro _)

theorem State.beginOther_inForce (s : State) (d : Desc) : (State.beginOther s d).inForce = s.inForce := by
  unfold State.beginOther
  repeat' (first | with_reducible rfl | with_reducible refine ite2_inForce ?_ ?_ | with_reducible refine (State.writeOut_inForce ..).trans ?_ | with_reducible refine (State.setSlot_inForce ..).trans ?_ | with_reducible refine (State.modSlot_inForce ..).trans ?_ | with_reducible refine (State.libPut_inForce ..).trans ?_ | with_reducible refine (State.foldRecord_inForce ..).trans ?_ | with_reducible refine (State.putRecord_inForce ..).trans ?_ | with_reducible refine (State.planEnd_inForce ..).trans ?_ | with_reducible refine (State.beginBuild_inForce ..).trans ?_ | with_reducible refine (State.reserve_inForce ..).trans ?_ | simp only [mk_inForce] | dsimp only | split | intro _)

theorem droverN_inForce (a0_ : Nat) (s_ : State) : (droverN a0_ s_).inForce = s_.inForce := by
  induction a0_ generalizing s_ with
  | zero => rfl
  | succ n ih =>
    unfold droverN
    repeat' (first | with_reducible rfl | with_reducible refine ite2_inForce ?_ ?_ | with_reducible refine (ih _).trans ?_ | with_reducible refine (State.beginRequest_inForce ..).trans ?_ | with_reducible refine (State.beginOther_inForce ..).trans ?_ | simp only [mk_inForce] | dsimp only | split | intro _)

theorem State.droverNext_inForce (s : State) : (State.droverNext s).inForce = s.inForce := by
  unfold State.droverNext
  repeat' (first | with_reducible rfl | with_reducible refine ite2_inForce ?_ ?_ | with_reducible refine (droverN_inForce ..).trans ?_ | simp only [mk_inForce] | dsimp only | split | intro _)

theorem State.applied_inForce (s : State) (c : Nat) : (State.applied s c).inForce = s.inForce := by
  unfold State.applied
  repeat' (first | with_reducible rfl | with_reducible refine ite2_inForce ?_ ?_ | simp only [mk_inForce] | dsimp only | split | intro _)

/-- A map command that ends leaves the map in force, whatever plan command starts behind it (R218). -/
theorem State.mapEnd_map (s : State) (d : Desc) (code index : Nat) (r : List Byte) : (s.mapEnd d code index r).map = s.map := by
  have k : (s.mapEnd d code index r).inForce = s.inForce := by
    unfold State.mapEnd
    refine (State.droverNext_inForce ..).trans ?_
    refine (State.complete_inForce ..).trans ?_
    repeat' (first | with_reducible rfl | with_reducible refine ite2_inForce ?_ ?_ | with_reducible refine (State.sPut_inForce ..).trans ?_ | dsimp only)
  exact k

end Sys2Proof.Machine
end

