-- ==== Sys2Proof/Laws/Modes.lean ====
section
/-! SUPPORT. The operations that follow a change of the mode leave the mode and the part out of service. Each lemma says it of one function; those at the end
say in which mode an entry ends. -/

set_option maxRecDepth 4000
set_option linter.unreachableTactic false
set_option linter.unusedTactic false
set_option linter.unusedSimpArgs false

namespace Sys2Proof.Machine

/-- The mode and the part out of service; a function of its own, so that a proof compares states and not the fields of states. -/
def State.place (s : State) : Mode × OutOfService := (s.mode, s.oos)

theorem mk_place (a : State) (v0 v1 v2 v4 v6 v7 v8 v9 v10 v11 v12 v13 v14 v15 v16 v17 v18 v19 v20 v21 v22 v23 v24 v25 v26 v27 v28 v29 v30 v31 v32 v33 v34 v35 v36 v37 v38 v39 v40 v41 v42 v43 v44 v45 v46 v47 v48 v49 v50 v51 v52 v53 v54 v55 v56 v57 v58 v59 v60 v61 v62 v63 v64 v65 v66 v67 v68 v69 v70 v71 v72 v73 v74 v75 v76 v77 v78 v79 v80 v81 v82 v83 v84 v85 v86 v87 v88 v89 v90 v91 v92 v93 v94 v95 v96 v97 v98 v99) :
    (State.mk v0 v1 v2 a.mode v4 a.oos v6 v7 v8 v9 v10 v11 v12 v13 v14 v15 v16 v17 v18 v19 v20 v21 v22 v23 v24 v25 v26 v27 v28 v29 v30 v31 v32 v33 v34 v35 v36 v37 v38 v39 v40 v41 v42 v43 v44 v45 v46 v47 v48 v49 v50 v51 v52 v53 v54 v55 v56 v57 v58 v59 v60 v61 v62 v63 v64 v65 v66 v67 v68 v69 v70 v71 v72 v73 v74 v75 v76 v77 v78 v79 v80 v81 v82 v83 v84 v85 v86 v87 v88 v89 v90 v91 v92 v93 v94 v95 v96 v97 v98 v99).place = a.place := by unfold State.place; rfl
theorem State.place_of_quiet {s t : State} (h : t.quiet = s.quiet) : t.place = s.place := by
  unfold State.place; rw [State.mode_of_quiet h, State.oos_of_quiet h]
theorem ite2_place {c : Prop} [Decidable c] {a b : State} {x : Mode × OutOfService} (ha : a.place = x) (hb : b.place = x) : (if c then a else b).place = x := by
  split <;> assumption
/-- A fold keeps what each of its steps keeps. -/
theorem foldl_place {α : Type} (f : State → α → State) (l : List α) (s : State) (h : ∀ s a, (f s a).place = s.place) : (l.foldl f s).place = s.place := by
  induction l generalizing s with
  | nil => rfl
  | cons a l ih => rw [List.foldl_cons, ih, h]
theorem both_place (f : Shep → State → State) (s : State) (h : ∀ x s, (f x s).place = s.place) : (both f s).place = s.place := by
  unfold both; rw [h, h]

theorem State.wr_place (s : State) (bank off : Nat) (w : Word) : (State.wr s bank off w).place = s.place :=
  State.place_of_quiet (State.wr_quiet ..)

theorem State.dPut_place (s : State) (off : Nat) (f : Fld) (v : Nat) : (State.dPut s off f v).place = s.place :=
  State.place_of_quiet (State.dPut_quiet ..)

theorem State.pPut_place (s : State) (x : Shep) (off : Nat) (f : Fld) (v : Nat) : (State.pPut s x off f v).place = s.place :=
  State.place_of_quiet (State.pPut_quiet ..)

theorem State.modSh_place (s : State) (x : Shep) (f : ShepSt → ShepSt) : (s.modSh x f).place = s.place := by
  unfold State.modSh
  cases x <;> rfl

theorem State.sPut_place (s : State) (off : Nat) (f : Fld) (v : Nat) : (State.sPut s off f v).place = s.place :=
  State.place_of_quiet (State.sPut_quiet ..)

theorem State.pFlag_place (s : State) (x : Shep) (off : Nat) (f : Fld) : (State.pFlag s x off f).place = s.place :=
  State.place_of_quiet (State.pFlag_quiet ..)

theorem State.modChan_place (s : State) (c : Nat) (f : ChPdk → ChPdk) : (State.modChan s c f).place = s.place := by
  unfold State.modChan
  repeat' (first | with_reducible rfl | with_reducible refine ite2_place ?_ ?_ | simp only [mk_place] | dsimp only | split | intro _)

theorem State.event_place (s : State) (type : Nat) (payload : List Byte) : (State.event s type payload).place = s.place :=
  State.place_of_quiet (State.event_quiet ..)

theorem State.setDac_place (s : State) (c code : Nat) : (State.setDac s c code).place = s.place := by
  unfold State.setDac
  repeat' (first | with_reducible rfl | with_reducible refine ite2_place ?_ ?_ | with_reducible refine (State.dPut_place ..).trans ?_ | simp only [mk_place] | dsimp only | split | intro _)

theorem State.takeForced_place (s : State) (c : Nat) : (State.takeForced s c).place = s.place := by
  unfold State.takeForced
  repeat' (first | with_reducible rfl | with_reducible refine ite2_place ?_ ?_ | with_reducible refine (State.setDac_place ..).trans ?_ | simp only [mk_place] | dsimp only | split | intro _)

theorem State.settleAll_place (s : State) : (State.settleAll s).place = s.place := by
  unfold State.settleAll
  repeat' (first | with_reducible rfl | with_reducible refine ite2_place ?_ ?_ | with_reducible refine (foldl_place _ _ _ ?_).trans ?_ | with_reducible refine (State.takeForced_place ..).trans ?_ | simp only [mk_place] | dsimp only | split | intro _)

theorem State.resume_place (s : State) (fs : List Nat) : (State.resume s fs).place = s.place := by
  unfold State.resume
  repeat' (first | with_reducible rfl | with_reducible refine ite2_place ?_ ?_ | with_reducible refine (foldl_place _ _ _ ?_).trans ?_ | with_reducible refine (State.modChan_place ..).trans ?_ | with_reducible refine (State.takeForced_place ..).trans ?_ | simp only [mk_place] | dsimp only | split | intro _)

theorem State.seedLoop_place (s : State) (c p : Nat) : (State.seedLoop s c p).place = s.place := by
  unfold State.seedLoop
  repeat' (first | with_reducible rfl | with_reducible refine ite2_place ?_ ?_ | with_reducible refine (foldl_place _ _ _ ?_).trans ?_ | with_reducible refine (both_place _ _ ?_).trans ?_ | with_reducible refine (State.wr_place ..).trans ?_ | with_reducible refine (State.pPut_place ..).trans ?_ | with_reducible refine (State.modSh_place ..).trans ?_ | simp only [mk_place] | dsimp only | split | intro _)

theorem State.completeHif_place (s : State) (d : Desc) (code : Nat) : (State.completeHif s d code).place = s.place :=
  State.place_of_quiet (State.completeHif_quiet ..)

theorem State.sendCtl_place (s : State) (p : Nat) (f : CtlFrame) : (State.sendCtl s p f).place = s.place := by
  unfold State.sendCtl
  repeat' (first | with_reducible rfl | with_reducible refine ite2_place ?_ ?_ | with_reducible refine (both_place _ _ ?_).trans ?_ | simp only [mk_place] | dsimp only | split | intro _)

theorem State.setDomSeq_place (s : State) (d : Nat) (v : DomSeq) : (State.setDomSeq s d v).place = s.place := by
  unfold State.setDomSeq
  repeat' (first | with_reducible rfl | with_reducible refine ite2_place ?_ ?_ | simp only [mk_place] | dsimp only | split | intro _)

theorem State.sendCommit_place (s : State) (kind : CtlKind) (c : Commit) : (State.sendCommit s kind c).place = s.place := by
  unfold State.sendCommit
  repeat' (first | with_reducible rfl | with_reducible refine ite2_place ?_ ?_ | with_reducible refine (foldl_place _ _ _ ?_).trans ?_ | with_reducible refine (State.sendCtl_place ..).trans ?_ | simp only [mk_place] | dsimp only | split | intro _)

theorem State.refire_place (s : State) (d : Nat) : (State.refire s d).place = s.place := by
  unfold State.refire
  repeat' (first | with_reducible rfl | with_reducible refine ite2_place ?_ ?_ | with_reducible refine (foldl_place _ _ _ ?_).trans ?_ | with_reducible refine (State.sendCommit_place ..).trans ?_ | simp only [mk_place] | dsimp only | split | intro _)

theorem State.schedule_place (s : State) (c : Commit) : (State.schedule s c).place = s.place := by
  unfold State.schedule
  repeat' (first | with_reducible rfl | with_reducible refine ite2_place ?_ ?_ | with_reducible refine (State.refire_place ..).trans ?_ | simp only [mk_place] | dsimp only | split | intro _)

theorem State.wrapCount_place (s : State) (off k : Nat) : (State.wrapCount s off k).place = s.place := by
  unfold State.wrapCount
  repeat' (first | with_reducible rfl | with_reducible refine ite2_place ?_ ?_ | with_reducible refine (both_place _ _ ?_).trans ?_ | with_reducible refine (State.wr_place ..).trans ?_ | simp only [mk_place] | dsimp only | split | intro _)

theorem State.seqFlag_place (s : State) (f : Fld) : (State.seqFlag s f).place = s.place := by
  unfold State.seqFlag
  repeat' (first | with_reducible rfl | with_reducible refine ite2_place ?_ ?_ | with_reducible refine (both_place _ _ ?_).trans ?_ | with_reducible refine (State.pFlag_place ..).trans ?_ | simp only [mk_place] | dsimp only | split | intro _)

theorem State.countOutcome_place (s : State) (outcome : Nat) : (State.countOutcome s outcome).place = s.place := by
  unfold State.countOutcome
  repeat' (first | with_reducible rfl | with_reducible refine ite2_place ?_ ?_ | with_reducible refine (State.wrapCount_place ..).trans ?_ | with_reducible refine (State.seqFlag_place ..).trans ?_ | simp only [mk_place] | dsimp only | split | intro _)

theorem State.reportCommit_place (s : State) (dom slot outcome src instant time tag seq : Nat) : (State.reportCommit s dom slot outcome src instant time tag seq).place = s.place := by
  unfold State.reportCommit
  repeat' (first | with_reducible rfl | with_reducible refine ite2_place ?_ ?_ | with_reducible refine (State.sPut_place ..).trans ?_ | with_reducible refine (State.event_place ..).trans ?_ | with_reducible refine (State.countOutcome_place ..).trans ?_ | simp only [mk_place] | dsimp only | split | intro _)

theorem State.drop_place (s : State) (c : Commit) : (State.drop s c).place = s.place := by
  unfold State.drop
  repeat' (first | with_reducible rfl | with_reducible refine ite2_place ?_ ?_ | simp only [mk_place] | dsimp only | split | intro _)

theorem State.dispose_place (s : State) (c : Commit) (outcome : Nat) : (State.dispose s c outcome).place = s.place := by
  unfold State.dispose
  repeat' (first | with_reducible rfl | with_reducible refine ite2_place ?_ ?_ | with_reducible refine (State.sendCommit_place ..).trans ?_ | with_reducible refine (State.reportCommit_place ..).trans ?_ | with_reducible refine (State.drop_place ..).trans ?_ | simp only [mk_place] | dsimp only | split | intro _)

theorem State.setRot_place (s : State) (d : Nat) (r : Option Rot) : (State.setRot s d r).place = s.place := by
  unfold State.setRot
  repeat' (first | with_reducible rfl | with_reducible refine ite2_place ?_ ?_ | simp only [mk_place] | dsimp only | split | intro _)

theorem rotPick_place (d : Nat) (r : Rot) (a0_ : Nat) (a1_ : Nat) (s_ : State) : (rotPick d r a0_ a1_ s_).1.place = s_.place := by
  induction a0_ generalizing a1_ s_ with
  | zero => rfl
  | succ n ih =>
    unfold rotPick
    split
    · rfl
    · split
      · exact (ih _ _).trans (State.reportCommit_place ..)
      · rfl

theorem State.rotNext_place (s : State) (d : Nat) : (State.rotNext s d).place = s.place := by
  unfold State.rotNext
  split
  · rename_i r _ _
    have h := rotPick_place d r 8 r.off s
    split
    · rename_i e; rw [e] at h
      exact ((State.schedule_place ..).trans (State.setRot_place ..)).trans h
    · rename_i e; rw [e] at h
      exact h
  · rfl

theorem skipStarts_place (d : Nat) (r : Rot) (upTo : Int) (a0_ : Nat) (a1_ : Nat) (s_ : State) : (skipStarts d r upTo a0_ a1_ s_).place = s_.place := by
  induction a0_ generalizing a1_ s_ with
  | zero => rfl
  | succ n ih =>
    unfold skipStarts
    repeat' (first | with_reducible rfl | with_reducible refine ite2_place ?_ ?_ | with_reducible refine (ih _ _).trans ?_ | with_reducible refine (State.reportCommit_place ..).trans ?_ | simp only [mk_place] | dsimp only | split | intro _)

theorem omitStarts_place (d : Nat) (r : Rot) (a0_ : Nat) (a1_ : Nat) (s_ : State) : (omitStarts d r a0_ a1_ s_).1.place = s_.place := by
  induction a0_ generalizing a1_ s_ with
  | zero => rfl
  | succ n ih =>
    unfold omitStarts
    repeat' (first | with_reducible rfl | with_reducible refine ite2_place ?_ ?_ | with_reducible refine (ih _ _).trans ?_ | with_reducible refine (State.reportCommit_place ..).trans ?_ | simp only [mk_place] | dsimp only | split | intro _)

theorem State.rotSelect_go_place (s : State) (d : Nat) (r : Rot) (c : Option Commit) : (State.rotSelect.go d s r c).place = s.place := by
  unfold State.rotSelect.go
  repeat' (first | with_reducible rfl | with_reducible refine ite2_place ?_ ?_ | with_reducible refine (State.setDomSeq_place ..).trans ?_ | with_reducible refine (State.sendCommit_place ..).trans ?_ | with_reducible refine (State.drop_place ..).trans ?_ | with_reducible refine (State.setRot_place ..).trans ?_ | with_reducible refine (State.rotNext_place ..).trans ?_ | with_reducible refine (skipStarts_place ..).trans ?_ | with_reducible refine (omitStarts_place ..).trans ?_ | simp only [mk_place] | dsimp only | split | intro _)

theorem State.rotSelect_place (s : State) (d : Nat) : (State.rotSelect s d).place = s.place := by
  unfold State.rotSelect
  repeat' (first | with_reducible rfl | with_reducible refine ite2_place ?_ ?_ | with_reducible refine (State.rotSelect_go_place ..).trans ?_ | with_reducible refine (State.setDomSeq_place ..).trans ?_ | with_reducible refine (State.sendCommit_place ..).trans ?_ | with_reducible refine (State.drop_place ..).trans ?_ | with_reducible refine (State.setRot_place ..).trans ?_ | with_reducible refine (State.rotNext_place ..).trans ?_ | with_reducible refine (skipStarts_place ..).trans ?_ | with_reducible refine (omitStarts_place ..).trans ?_ | simp only [mk_place] | dsimp only | split | intro _)

theorem State.domainOut_place (s : State) (d : Nat) : (State.domainOut s d).place = s.place := by
  unfold State.domainOut
  repeat' (first | with_reducible rfl | with_reducible refine ite2_place ?_ ?_ | with_reducible refine (foldl_place _ _ _ ?_).trans ?_ | with_reducible refine (State.sendCommit_place ..).trans ?_ | with_reducible refine (State.dispose_place ..).trans ?_ | simp only [mk_place] | dsimp only | split | intro _)

theorem State.modeEvent_place (s : State) (old : Mode) (cause : Nat) : (State.modeEvent s old cause).place = s.place :=
  State.place_of_quiet (State.modeEvent_quiet ..)

theorem State.seedPark_place (s : State) (c : Nat) : (State.seedPark s c).place = s.place := by
  unfold State.seedPark
  repeat' (first | with_reducible rfl | with_reducible refine ite2_place ?_ ?_ | with_reducible refine (State.seedLoop_place ..).trans ?_ | simp only [mk_place] | dsimp only | split | intro _)

theorem State.releaseDomains_place (s : State) (mask : Nat) : (State.releaseDomains s mask).place = s.place := by
  unfold State.releaseDomains
  repeat' (first | with_reducible rfl | with_reducible refine ite2_place ?_ ?_ | with_reducible refine (foldl_place _ _ _ ?_).trans ?_ | with_reducible refine (State.sPut_place ..).trans ?_ | with_reducible refine (State.rotSelect_place ..).trans ?_ | with_reducible refine (State.seedPark_place ..).trans ?_ | simp only [mk_place] | dsimp only | split | intro _)

/-- The change itself: the new mode and part (R470, R472). -/
theorem State.setMode_place (s : State) (m : Mode) (oos : OutOfService) (cause : Nat) : (s.setMode m oos cause).place = (m, oos) := by
  unfold State.setMode
  dsimp only
  rw [State.modeEvent_place, State.settleAll_place]
  rfl

/-- Parking ends in PARKED with nothing out of service. -/
theorem State.enterParked_place (s : State) (cause : Nat) : (s.enterParked cause).place = (.parked, .none) := by
  unfold State.enterParked
  dsimp only
  split
  · rw [State.resume_place, State.releaseDomains_place, State.setMode_place]
  · rw [State.releaseDomains_place, State.setMode_place]

/-- Entering service ends in SERVICE with nothing out of service. -/
theorem State.enterService_place (s : State) (noSeed : Bool) (cause : Nat) : (s.enterService noSeed cause).place = (.service, .none) := by
  unfold State.enterService
  dsimp only
  rw [foldl_place _ _ _ (fun s d => s.rotSelect_place d)]
  split
  · exact State.setMode_place ..
  · rw [foldl_place _ _ _ (fun s c => s.seedPark_place c)]
    exact State.setMode_place ..

/-- Taking a part out ends in MAINTENANCE with that part out of service. -/
theorem State.enterMaintenance_place (s : State) (oos : OutOfService) (cause : Nat) : (s.enterMaintenance oos cause).place = (.maintenance, oos) := by
  unfold State.enterMaintenance
  dsimp only
  rw [foldl_place _ _ _ (fun s d => s.domainOut_place d), State.setMode_place]

end Sys2Proof.Machine
end

