-- ==== Sys2Proof/Laws/PerInstr.lean ====
section
/-! SUPPORT. Per command: the descriptor that a well-formed row carries fits the 64 bytes of its format (R336), one lemma for each row of the table. -/

namespace Sys2Proof

namespace Laws.WellFormed

/-- What is said of each command: when it is well-formed and carries a descriptor, the descriptor fits its format. -/
def Statement (i : Instr) : Prop := i.wellFormed = true → ∀ d, i.desc? = some d → d.fits = true

/-- A row without a descriptor. -/
theorem of_none {i : Instr} (h : i.desc? = none) : Statement i := fun _ d e => by rw [h] at e; cases e

/-- A row whose check begins with the fit of its descriptor. -/
theorem of_fits {i : Instr} {d : Desc} {b : Bool} (h : i.desc? = some d) (w : i.wellFormed = (d.fits && b)) : Statement i := fun k e g => by
  rw [h] at g
  rw [w] at k
  cases g
  exact (Bool.and_eq_true_iff.mp k).1

theorem por : Statement .por := of_none rfl
theorem resetNAssert : Statement .resetNAssert := of_none rfl
theorem pllLossOfLock : Statement .pllLossOfLock := of_none rfl
theorem resetEnd (straps : Nat) : Statement (.resetEnd straps) := of_none rfl
theorem perstAssert (x : Shep) : Statement (.perstAssert x) := of_none rfl
theorem pcieHotReset (x : Shep) : Statement (.pcieHotReset x) := of_none rfl
theorem functionLevelReset (x : Shep) : Statement (.functionLevelReset x) := of_none rfl
theorem watchdogExpiry (x : Shep) : Statement (.watchdogExpiry x) := of_none rfl
theorem railBelowThreshold (r : Rail) : Statement (.railBelowThreshold r) := of_none rfl
theorem railRestored (r : Rail) : Statement (.railRestored r) := of_none rfl
theorem vdrLow (p : Nat) : Statement (.vdrLow p) := of_none rfl
theorem vhtrOutOfRange (p : Nat) (high : Bool) : Statement (.vhtrOutOfRange p high) := of_none rfl
theorem paddockResetRelease (p : Nat) : Statement (.paddockResetRelease p) := of_none rfl
theorem paddockReloadDone (p : Nat) : Statement (.paddockReloadDone p) := of_none rfl
theorem bootComplete (x : Shep) (b : BootInfo) : Statement (.bootComplete x b) := of_none rfl
theorem claimWindowExpiry : Statement .claimWindowExpiry := of_none rfl
theorem converterCalibrationDone (cals : List PdkCal) (darks : List (Nat × Nat)) : Statement (.converterCalibrationDone cals darks) := of_none rfl
theorem refvWindowFault (p : Nat) (refv : Nat) : Statement (.refvWindowFault p refv) := of_none rfl
theorem droopTrip (x : Shep) (mask : Nat) : Statement (.droopTrip x mask) := of_none rfl
theorem stretchHoldEnd (x : Shep) (periods : Nat) : Statement (.stretchHoldEnd x periods) := of_none rfl
theorem clearNFall : Statement .clearNFall := of_none rfl
theorem clearNRise : Statement .clearNRise := of_none rfl
theorem flockRelease : Statement .flockRelease := of_none rfl
theorem flockStbEdge (pin : Nat) (falling : Bool) : Statement (.flockStbEdge pin falling) := of_none rfl
theorem wakeNFall : Statement .wakeNFall := of_none rfl
theorem lowPowerExitDone : Statement .lowPowerExitDone := of_none rfl
theorem ppsInEdge : Statement .ppsInEdge := of_none rfl
theorem tickBoundary (i : TickInput) : Statement (.tickBoundary i) := of_none rfl
theorem senseFrameReceive (x : Shep) (p : Nat) (noise : Noise) : Statement (.senseFrameReceive x p noise) := of_none rfl
theorem senseFrameDeadline (x : Shep) (p : Nat) : Statement (.senseFrameDeadline x p) := of_none rfl
theorem loopEvaluation (x : Shep) (cap : Nat) : Statement (.loopEvaluation x cap) := of_none rfl
theorem windowResult (x : Shep) (m : Nat) : Statement (.windowResult x m) := of_none rfl
theorem settlingEnd (c : Nat) : Statement (.settlingEnd c) := of_none rfl
theorem loopOverrun (x : Shep) : Statement (.loopOverrun x) := of_none rfl
theorem loopSat (c : Nat) : Statement (.loopSat c) := of_none rfl
theorem loopError (c : Nat) : Statement (.loopError c) := of_none rfl
theorem senseOver (m : Nat) : Statement (.senseOver m) := of_none rfl
theorem voidPeriodEnd (m : Nat) : Statement (.voidPeriodEnd m) := of_none rfl
theorem darkMeasureDone (m : Nat) (sum : Nat) : Statement (.darkMeasureDone m sum) := of_none rfl
theorem complianceSet (c : Nat) : Statement (.complianceSet c) := of_none rfl
theorem complianceClear (c : Nat) : Statement (.complianceClear c) := of_none rfl
theorem junctionHot : Statement .junctionHot := of_none rfl
theorem loopOutputFrameReceive (x : Shep) (p : Nat) (noise : Noise) : Statement (.loopOutputFrameReceive x p noise) := of_none rfl
theorem copyRecordSend : Statement .copyRecordSend := of_none rfl
theorem copyRecordReceive (ok : Bool) : Statement (.copyRecordReceive ok) := of_none rfl
theorem copyMissLimit : Statement .copyMissLimit := of_none rfl
theorem divergenceLimit : Statement .divergenceLimit := of_none rfl
theorem shepherdLost (x : Shep) : Statement (.shepherdLost x) := of_none rfl
theorem handoverGrant : Statement .handoverGrant := of_none rfl
theorem resyncBankDone : Statement .resyncBankDone := of_none rfl
theorem resyncLibraryDone : Statement .resyncLibraryDone := of_none rfl
theorem resyncStateDone : Statement .resyncStateDone := of_none rfl
theorem resyncTimeout : Statement .resyncTimeout := of_none rfl
theorem stageFrame (x : Shep) (p : Nat) (noise : Noise) : Statement (.stageFrame x p noise) := of_none rfl
theorem commitFrame (x : Shep) (p : Nat) (noise : Noise) : Statement (.commitFrame x p noise) := of_none rfl
theorem retimeFrame (x : Shep) (p : Nat) (noise : Noise) : Statement (.retimeFrame x p noise) := of_none rfl
theorem cancelFrame (x : Shep) (p : Nat) (noise : Noise) : Statement (.cancelFrame x p noise) := of_none rfl
theorem controlFrameGap (p : Nat) : Statement (.controlFrameGap p) := of_none rfl
theorem stagingStart : Statement .stagingStart := of_none rfl
theorem stagingComplete (dom : Nat) : Statement (.stagingComplete dom) := of_none rfl
theorem lateStage (dom : Nat) : Statement (.lateStage dom) := of_none rfl
theorem commitFire (dom : Nat) : Statement (.commitFire dom) := of_none rfl
theorem commitLoopSeed (dom : Nat) : Statement (.commitLoopSeed dom) := of_none rfl
theorem rotationTakeover (dom : Nat) : Statement (.rotationTakeover dom) := of_none rfl
theorem sequencerTimeStep : Statement .sequencerTimeStep := of_none rfl
theorem routeComplete (cycles : Nat) : Statement (.routeComplete cycles) := of_none rfl
theorem imageBuildDone : Statement .imageBuildDone := of_none rfl
theorem positionTrack : Statement .positionTrack := of_none rfl
theorem mapValidationDone : Statement .mapValidationDone := of_none rfl
theorem mapTakesEffect : Statement .mapTakesEffect := of_none rfl
theorem spanChangeSwitchOpen (c : Nat) : Statement (.spanChangeSwitchOpen c) := of_none rfl
theorem spanChangeSwitchClose (c : Nat) : Statement (.spanChangeSwitchClose c) := of_none rfl
theorem spanChangeEnd (c : Nat) : Statement (.spanChangeEnd c) := of_none rfl
theorem spanConfigEnd (c : Nat) : Statement (.spanConfigEnd c) := of_none rfl
theorem crosstalkPassStart (x : Shep) : Statement (.crosstalkPassStart x) := of_none rfl
theorem crosstalkPassDone (x : Shep) : Statement (.crosstalkPassDone x) := of_none rfl
theorem crosstalkTermsInForce (x : Shep) : Statement (.crosstalkTermsInForce x) := of_none rfl
theorem surveyPointDone : Statement .surveyPointDone := of_none rfl
theorem doorbellPoll (x : Shep) (line : List Byte) : Statement (.doorbellPoll x line) := of_none rfl
theorem descriptorFetchDone (x : Shep) (ring : Nat) (ds : List (List Byte × Option (List Byte))) : Statement (.descriptorFetchDone x ring ds) := of_none rfl
theorem hostReadError (x : Shep) (w : HostRead) : Statement (.hostReadError x w) := of_none rfl
theorem statusLineWrite (x : Shep) : Statement (.statusLineWrite x) := of_none rfl
theorem irqHoldoffEnd (x : Shep) (vec : Nat) : Statement (.irqHoldoffEnd x vec) := of_none rfl
theorem heldCompletionFlush (x : Shep) : Statement (.heldCompletionFlush x) := of_none rfl
theorem eventLogFlush (x : Shep) : Statement (.eventLogFlush x) := of_none rfl
theorem telemetryInterval (power : Nat) (headroom : Nat) : Statement (.telemetryInterval power headroom) := of_none rfl
theorem ethFrameReceive (port : Nat) (f : EthFrame) (fcs : Bool) : Statement (.ethFrameReceive port f fcs) := of_none rfl
theorem controlFrameReceive : Statement .controlFrameReceive := of_none rfl
theorem ethFrameOffer (x : Shep) (differs : Bool) : Statement (.ethFrameOffer x differs) := of_none rfl
theorem transmitSelection (port : Nat) (late : Bool) : Statement (.transmitSelection port late) := of_none rfl
theorem gateEntryStart (port : Nat) : Statement (.gateEntryStart port) := of_none rfl
theorem gateListTakeover (port : Nat) : Statement (.gateListTakeover port) := of_none rfl
theorem supervisionFrame (pair : Nat) : Statement (.supervisionFrame pair) := of_none rfl
theorem tableEntryForget (pair : Nat) : Statement (.tableEntryForget pair) := of_none rfl
theorem telemetryFrameSend : Statement .telemetryFrameSend := of_none rfl
theorem ptpMessageReceive (port : Nat) (m : PtpMsg) : Statement (.ptpMessageReceive port m) := of_none rfl
theorem ptpPortMove : Statement .ptpPortMove := of_none rfl
theorem servoSample (x : Shep) (pd : Nat) (ofs : Int) : Statement (.servoSample x pd ofs) := of_none rfl
theorem asymHoldEnd (x : Shep) : Statement (.asymHoldEnd x) := of_none rfl
theorem holdover (x : Shep) : Statement (.holdover x) := of_none rfl
theorem timeWrap : Statement .timeWrap := of_none rfl
theorem ppsOutPulse : Statement .ppsOutPulse := of_none rfl
theorem recorderConfigEffect : Statement .recorderConfigEffect := of_none rfl
theorem recorderPostEnd (x : Shep) : Statement (.recorderPostEnd x) := of_none rfl
theorem foldEccError (x : Shep) (ue : Bool) (u : FoldUnit) : Statement (.foldEccError x ue u) := of_none rfl
theorem bankEccError (x : Shep) (double : Bool) (bank : Nat) (word : Nat) (off : Option Nat) : Statement (.bankEccError x double bank word off) := of_none rfl
theorem matrixAccessRefused (x : Shep) (master : Nat) (target : Nat) (write : Bool) (addr : Nat) (beats : Nat) : Statement (.matrixAccessRefused x master target write addr beats) := of_none rfl
theorem musterWindowClose : Statement .musterWindowClose := of_none rfl
theorem faultReaction : Statement .faultReaction := of_none rfl
theorem lifecycleReset : Statement .lifecycleReset := of_none rfl
theorem jtagToken (t : List Byte) (burned : Bool) : Statement (.jtagToken t burned) := of_none rfl
theorem jtagCoreHalt (x : Shep) : Statement (.jtagCoreHalt x) := of_none rfl
theorem smbusRead (cmd : Nat) (power : Nat) : Statement (.smbusRead cmd power) := of_none rfl
theorem tecLoopUpdate (t : Nat) (meas : Nat) : Statement (.tecLoopUpdate t meas) := of_none rfl
theorem registerWrite (x : Shep) (addr : Nat) (bytes : List Byte) (jtag : Bool) : Statement (.registerWrite x addr bytes jtag) := of_none rfl
theorem timNowRead (path addr len : Nat) : Statement (.timNowRead path addr len) := of_none rfl
theorem drvChCtrlWrite (x : Shep) (c : Nat) (v : Word) : Statement (.drvChCtrlWrite x c v) := of_none rfl
theorem drvFlockStrobe (x : Shep) (w : Nat) (v : Word) : Statement (.drvFlockStrobe x w v) := of_none rfl
theorem snsChCtrlWrite (x : Shep) (m : Nat) (v : Word) : Statement (.snsChCtrlWrite x m v) := of_none rfl
theorem snsMeasure (x : Shep) (m : Nat) (v : Word) : Statement (.snsMeasure x m v) := of_none rfl
theorem snsLinkErrClear (x : Shep) (p : Nat) : Statement (.snsLinkErrClear x p) := of_none rfl
theorem loopCtrlWrite (x : Shep) (c : Nat) (v : Word) : Statement (.loopCtrlWrite x c v) := of_none rfl
theorem loopIntSeed (x : Shep) (c : Nat) (v : Word) : Statement (.loopIntSeed x c v) := of_none rfl
theorem loopClrCnt (x : Shep) (v : Word) : Statement (.loopClrCnt x v) := of_none rfl
theorem cmpWinSelWrite (x : Shep) (v : Word) : Statement (.cmpWinSelWrite x v) := of_none rfl
theorem xtCoefWrite (x : Shep) (w : Nat) (v : Word) : Statement (.xtCoefWrite x w v) := of_none rfl
theorem cmpStageApply (x : Shep) (v : Word) : Statement (.cmpStageApply x v) := of_none rfl
theorem cmpPeriodWrite (x : Shep) (v : Word) : Statement (.cmpPeriodWrite x v) := of_none rfl
theorem seqArmGo (x : Shep) (v : Word) : Statement (.seqArmGo x v) := of_none rfl
theorem seqArmCancel (x : Shep) (v : Word) : Statement (.seqArmCancel x v) := of_none rfl
theorem seqMarginWrite (x : Shep) (v : Word) : Statement (.seqMarginWrite x v) := of_none rfl
theorem shpHandover (x : Shep) (v : Word) : Statement (.shpHandover x v) := of_none rfl
theorem shpResyncPeer (x : Shep) (v : Word) : Statement (.shpResyncPeer x v) := of_none rfl
theorem shpDetachPeer (x : Shep) (v : Word) : Statement (.shpDetachPeer x v) := of_none rfl
theorem shpClrCnt (x : Shep) (v : Word) : Statement (.shpClrCnt x v) := of_none rfl
theorem shpHostDivReport (x : Shep) (v : Word) : Statement (.shpHostDivReport x v) := of_none rfl
theorem hifCmdEnable (x : Shep) (ring : Nat) (v : Word) : Statement (.hifCmdEnable x ring v) := of_none rfl
theorem hifRingEnable (x : Shep) (k : Nat) (v : Word) : Statement (.hifRingEnable x k v) := of_none rfl
theorem timIncrWrite (x : Shep) (v : Word) : Statement (.timIncrWrite x v) := of_none rfl
theorem almInjectWrite (x : Shep) (v : Word) : Statement (.almInjectWrite x v) := of_none rfl
theorem almReleaseWrite (x : Shep) (k : Option Nat) (v : Word) : Statement (.almReleaseWrite x k v) := of_none rfl
theorem pwrWakeWrite (x : Shep) (v : Word) : Statement (.pwrWakeWrite x v) := of_none rfl
theorem rstShpReset (x : Shep) (v : Word) : Statement (.rstShpReset x v) := of_none rfl
theorem rstSoftReset (x : Shep) (v : Word) : Statement (.rstSoftReset x v) := of_none rfl
theorem rstPdkReset (x : Shep) (v : Word) : Statement (.rstPdkReset x v) := of_none rfl
theorem lcsLockSet (x : Shep) : Statement (.lcsLockSet x) := of_none rfl
theorem lcsRelock (via : Option Shep) : Statement (.lcsRelock via) := of_none rfl
theorem glbLoadStart (x : Shep) (v : Word) : Statement (.glbLoadStart x v) := of_none rfl
theorem clkXingFenceWrite (x : Shep) (v : Word) : Statement (.clkXingFenceWrite x v) := of_none rfl
theorem fldLayoutWrite (x : Shep) (fitlog : Bool) (v : Word) : Statement (.fldLayoutWrite x fitlog v) := of_none rfl
theorem nop (d : Desc) : Statement (.nop d) := of_fits rfl rfl
theorem reservedOpcode (d : Desc) : Statement (.reservedOpcode d) := of_fits rfl rfl
theorem setup (d : Desc) : Statement (.setup d) := of_fits rfl rfl
theorem setupLock (d : Desc) : Statement (.setupLock d) := of_fits rfl rfl
theorem modeParked (d : Desc) : Statement (.modeParked d) := of_fits rfl rfl
theorem modeService (d : Desc) : Statement (.modeService d) := of_fits rfl rfl
theorem modeMaintenance (d : Desc) : Statement (.modeMaintenance d) := of_fits rfl rfl
theorem napEnter (d : Desc) : Statement (.napEnter d) := of_fits rfl rfl
theorem napExit (d : Desc) : Statement (.napExit d) := of_fits rfl rfl
theorem quiesce (d : Desc) : Statement (.quiesce d) := of_fits rfl rfl
theorem deep (d : Desc) : Statement (.deep d) := of_fits rfl rfl
theorem wake (d : Desc) : Statement (.wake d) := of_fits rfl rfl
theorem paddockReset (d : Desc) : Statement (.paddockReset d) := of_fits rfl rfl
theorem shepherdReset (d : Desc) : Statement (.shepherdReset d) := of_fits rfl rfl
theorem softReset (d : Desc) : Statement (.softReset d) := of_fits rfl rfl
theorem mapLoad (d : Desc) : Statement (.mapLoad d) := of_fits rfl rfl
theorem domainReload (d : Desc) : Statement (.domainReload d) := of_fits rfl rfl
theorem setSpan (d : Desc) : Statement (.setSpan d) := of_fits rfl rfl
theorem park (d : Desc) : Statement (.park d) := of_fits rfl rfl
theorem parkRelease (d : Desc) : Statement (.parkRelease d) := of_fits rfl rfl
theorem setSense (d : Desc) : Statement (.setSense d) := of_fits rfl rfl
theorem setLoop (d : Desc) : Statement (.setLoop d) := of_fits rfl rfl
theorem armComp (d : Desc) : Statement (.armComp d) := of_fits rfl rfl
theorem disarmComp (d : Desc) : Statement (.disarmComp d) := of_fits rfl rfl
theorem holdLoop (d : Desc) : Statement (.holdLoop d) := of_fits rfl rfl
theorem releaseLoop (d : Desc) : Statement (.releaseLoop d) := of_fits rfl rfl
theorem seedLoop (d : Desc) : Statement (.seedLoop d) := of_fits rfl rfl
theorem setComp (d : Desc) : Statement (.setComp d) := of_fits rfl rfl
theorem setXtalk (d : Desc) : Statement (.setXtalk d) := of_fits rfl rfl
theorem setFit (d : Desc) : Statement (.setFit d) := of_fits rfl rfl
theorem revertFit (d : Desc) : Statement (.revertFit d) := of_fits rfl rfl
theorem fitLogRead (d : Desc) : Statement (.fitLogRead d) := of_fits rfl rfl
theorem fitLogFree (d : Desc) : Statement (.fitLogFree d) := of_fits rfl rfl
theorem planRoute (d : Desc) : Statement (.planRoute d) := of_fits rfl rfl
theorem planCells (d : Desc) : Statement (.planCells d) := of_fits rfl rfl
theorem planDirect (d : Desc) : Statement (.planDirect d) := of_fits rfl rfl
theorem planFree (d : Desc) : Statement (.planFree d) := of_fits rfl rfl
theorem planRefresh (d : Desc) : Statement (.planRefresh d) := of_fits rfl rfl
theorem planStore (d : Desc) : Statement (.planStore d) := of_fits rfl rfl
theorem planLoad (d : Desc) : Statement (.planLoad d) := of_fits rfl rfl
theorem planImport (d : Desc) : Statement (.planImport d) := of_fits rfl rfl
theorem planExport (d : Desc) : Statement (.planExport d) := of_fits rfl rfl
theorem planDelete (d : Desc) : Statement (.planDelete d) := of_fits rfl rfl
theorem turnout (d : Desc) : Statement (.turnout d) := of_fits rfl rfl
theorem turnoutListAdd (d : Desc) : Statement (.turnoutListAdd d) := of_fits rfl rfl
theorem turnoutListReplace (d : Desc) : Statement (.turnoutListReplace d) := of_fits rfl rfl
theorem turnoutCancel (d : Desc) : Statement (.turnoutCancel d) := of_fits rfl rfl
theorem rotationList (d : Desc) : Statement (.rotationList d) := of_fits rfl rfl
theorem rotationStop (d : Desc) : Statement (.rotationStop d) := of_fits rfl rfl
theorem survey (d : Desc) : Statement (.survey d) := of_fits rfl rfl
theorem surveyAbort (d : Desc) : Statement (.surveyAbort d) := of_fits rfl rfl
theorem surveyExport (d : Desc) : Statement (.surveyExport d) := of_fits rfl rfl
theorem handover (d : Desc) : Statement (.handover d) := of_fits rfl rfl
theorem resync (d : Desc) : Statement (.resync d) := of_fits rfl rfl
theorem recConfig (d : Desc) : Statement (.recConfig d) := of_fits rfl rfl
theorem recFreeze (d : Desc) : Statement (.recFreeze d) := of_fits rfl rfl
theorem recResume (d : Desc) : Statement (.recResume d) := of_fits rfl rfl
theorem recStop (d : Desc) : Statement (.recStop d) := of_fits rfl rfl
theorem recRead (d : Desc) : Statement (.recRead d) := of_fits rfl rfl
theorem march (d : Desc) : Statement (.march d) := of_fits rfl rfl
theorem musterRead (d : Desc) : Statement (.musterRead d) := of_fits rfl rfl
theorem alarmConfig (d : Desc) : Statement (.alarmConfig d) := of_fits rfl rfl
theorem alarmRelease (d : Desc) : Statement (.alarmRelease d) := of_fits rfl rfl
theorem timeRead (d : Desc) : Statement (.timeRead d) := of_fits rfl rfl
theorem timeSet (d : Desc) : Statement (.timeSet d) := of_fits rfl rfl
theorem ptpConfig (d : Desc) : Statement (.ptpConfig d) := of_fits rfl rfl
theorem portMeasure (d : Desc) : Statement (.portMeasure d) := of_fits rfl rfl
theorem gateList (d : Desc) : Statement (.gateList d) := of_fits rfl rfl
theorem policer (d : Desc) : Statement (.policer d) := of_fits rfl rfl
theorem lifecycle (d : Desc) (burned : Bool) : Statement (.lifecycle d burned) := of_fits rfl rfl
theorem debugToken (d : Desc) : Statement (.debugToken d) := of_fits rfl rfl
theorem controlKeyProvision (d : Desc) (ok : Bool) : Statement (.controlKeyProvision d ok) := of_fits rfl rfl
theorem ownerDebugKey (d : Desc) (ok : Bool) : Statement (.ownerDebugKey d ok) := of_fits rfl rfl
theorem keyErase (d : Desc) (ok : Bool) : Statement (.keyErase d ok) := of_fits rfl rfl
theorem recorderKeep (d : Desc) (ok : Bool) : Statement (.recorderKeep d ok) := of_fits rfl rfl
theorem fwWrite (d : Desc) : Statement (.fwWrite d) := of_fits rfl rfl
theorem fwInfo (d : Desc) : Statement (.fwInfo d) := of_fits rfl rfl
theorem fwSelect (d : Desc) (ok : Bool) : Statement (.fwSelect d ok) := of_fits rfl rfl
theorem fwRaiseSvn (d : Desc) (burned : Bool) : Statement (.fwRaiseSvn d burned) := of_fits rfl rfl
theorem telemetryCfg (d : Desc) : Statement (.telemetryCfg d) := of_fits rfl rfl
theorem perstRelease (x : Shep) : Statement (.perstRelease x) := of_none rfl
theorem ethLinkChange (port : Nat) (up : Bool) : Statement (.ethLinkChange port up) := of_none rfl
theorem vparkOutOfRange (p : Nat) : Statement (.vparkOutOfRange p) := of_none rfl
theorem ptpMessageTimer (kind : Nat) : Statement (.ptpMessageTimer kind) := of_none rfl
theorem marchDone (a : List MarchFail) (b : List MarchFail) : Statement (.marchDone a b) := of_none rfl
theorem portMeasureDone (rtt : Nat) : Statement (.portMeasureDone rtt) := of_none rfl
theorem fwStoreWriteDone (ok : Bool) : Statement (.fwStoreWriteDone ok) := of_none rfl
theorem loadCheckDone (x : Shep) : Statement (.loadCheckDone x) := of_none rfl

end Laws.WellFormed

end Sys2Proof
end

