-- ==== Sys2Proof/Laws/Regs.lean ====
section
/-! SUPPORT. The register map: the row of an array's register, for every index, and what a write of one of the channel arrays does. -/

namespace Sys2Proof.Machine

/-- A row may cover an offset that another covers. -/
def RegRow.meets (r q : RegRow) : Bool :=
  decide (q.stride = 0 ∨ (q.base < r.base + r.stride * r.count ∧ r.base < q.base + q.stride * q.count ∧
    (q.stride = r.stride → q.base % r.stride = r.base % r.stride)))

theorem find?_of_imp {α : Type} {p q : α → Bool} {l : List α} {a : α} (h : ∀ b, p b = true → q b = true) (hq : l.find? q = some a) (ha : p a = true) :
    l.find? p = some a := by
  induction l with
  | nil => cases hq
  | cons b l ih =>
    rw [List.find?_cons] at hq ⊢
    by_cases hb : q b = true
    · rw [hb] at hq
      cases hq
      rw [ha]
    · have hp : p b = false := by
        by_cases k : p b = true
        · exact absurd (h b k) hb
        · simpa using k
      rw [hp]
      rw [Bool.not_eq_true] at hb
      rw [hb] at hq
      exact ih hq

/-- Register i of a row that is the first in the map to meet its own range is found as that row's. -/
theorem regFind_row {r : RegRow} {i : Nat} (hr : regTable.find? r.meets = some r) (hs : 0 < r.stride) (hi : i < r.count) :
    regFind (r.base + r.stride * i) = some (r, i) := by
  have e : (r.base + r.stride * i - r.base) = r.stride * i := by omega
  have hlt : r.stride * i < r.stride * r.count := Nat.mul_lt_mul_of_pos_left hi hs
  have k := find?_of_imp
    (p := fun q : RegRow => decide (q.base ≤ r.base + r.stride * i ∧ (r.base + r.stride * i - q.base) % q.stride = 0 ∧
      (r.base + r.stride * i - q.base) / q.stride < q.count)) (q := r.meets) (l := regTable) (a := r) ?_ hr ?_
  · unfold regFind
    rw [k, Option.map_some, e, Nat.mul_div_cancel_left i hs]
  · intro q hq
    rw [decide_eq_true_eq] at hq
    obtain ⟨h1, h2, h3⟩ := hq
    unfold RegRow.meets
    rw [decide_eq_true_eq]
    have hd : r.base + r.stride * i - q.base = q.stride * ((r.base + r.stride * i - q.base) / q.stride) := by
      have k := Nat.div_add_mod (r.base + r.stride * i - q.base) q.stride
      rw [h2, Nat.add_zero] at k
      exact k.symm
    generalize (r.base + r.stride * i - q.base) / q.stride = j at hd h3
    have hj : q.stride * j ≤ q.stride * (q.count - 1) := Nat.mul_le_mul_left _ (by omega)
    have hc : q.stride * q.count = q.stride * (q.count - 1) + q.stride := by
      rw [← Nat.mul_succ]
      congr 1
      omega
    by_cases hz : q.stride = 0
    · exact Or.inl hz
    refine Or.inr ⟨by omega, by omega, fun es => ?_⟩
    rw [es] at hd
    have hb : r.base + r.stride * i = q.base + r.stride * j := by omega
    have k := congrArg (· % r.stride) hb
    simpa using k.symm
  · rw [decide_eq_true_eq, e, Nat.mul_mod_right, Nat.mul_div_cancel_left i hs]
    exact ⟨by omega, rfl, hi⟩

/-- The rows of the arrays that hold a word for each channel, and that write rows name. -/
def drvRow : RegRow := ⟨0x100000, 32768, 8, .dev, .chan, 0x7, 0xFFFF0117, 0x0, 0x0, 0x0, 0x0⟩
def snsRow : RegRow := ⟨0x140000, 16384, 8, .dev, .sense, 0x8, 0xFFFFFF0F, 0x0, 0x0, 0x0, 0x80⟩
def loopRow : RegRow := ⟨0x800000, 32768, 64, .shared, .chan, 0x0, 0xFFFFFCE7, 0x0, 0x0, 0x0, 0x0⟩
def intRow : RegRow := ⟨0x800018, 32768, 64, .shared, .chan, 0x0, 0xFFFFFFFF, 0x0, 0x0, 0x0, 0x0⟩

theorem regFind_drv {c : Nat} (h : c < 32768) : regFind (DRV_CH_CTRL c) = some (drvRow, c) := regFind_row (r := drvRow) (by decide) (by decide) h
theorem regFind_sns {m : Nat} (h : m < 16384) : regFind (SNS_CH_CTRL m) = some (snsRow, m) := regFind_row (r := snsRow) (by decide) (by decide) h
theorem regFind_loop {c : Nat} (h : c < 32768) : regFind (LOOP_CTRL c) = some (loopRow, c) := regFind_row (r := loopRow) (by decide) (by decide) h
theorem regFind_int {c : Nat} (h : c < 32768) : regFind (LOOP_INT c) = some (intRow, c) := regFind_row (r := intRow) (by decide) (by decide) h

/-- Without SET-UP LOCK no register is locked out. -/
theorem lockedOut_unlocked {s : State} (r : RegRow) (hl : s.locked = false) : lockedOut r s.locked = false := by
  unfold lockedOut
  rw [hl]
  rfl

/-- A register with a rule of its own, without SET-UP LOCK: its rule gives the state. -/
theorem State.applyReg_own {s t : State} {x : Shep} {off : Nat} {v : Word} (sel : Word) {r : RegRow} {i : Nat} (hl : s.locked = false) (hr : regAt off = some (r, i))
    (h1 : tableWin off = false) (h2 : loadWin off = false) (hw : s.writeOwnRule x r i off v = some t) : s.applyReg x off v sel = t := by
  have e : lockWord r s.locked (s.rawWord x r off) v = v := by
    unfold lockWord
    rw [hl]
    rfl
  unfold State.applyReg
  rw [h1, h2, hr]
  simp only [lockedOut_unlocked _ hl, Bool.false_eq_true, if_false]
  rw [e, hw]
  rfl

/-- A register without a rule of its own, without SET-UP LOCK, is stored by its access types. -/
theorem State.applyReg_store {s : State} {x : Shep} {off : Nat} {v : Word} (sel : Word) {r : RegRow} {i : Nat} (hl : s.locked = false) (hr : regAt off = some (r, i))
    (h1 : tableWin off = false) (h2 : loadWin off = false) (hw : s.writeOwnRule x r i off v = none) : s.applyReg x off v sel = s.storeReg x r off v := by
  have e : lockWord r s.locked (s.rawWord x r off) v = v := by
    unfold lockWord
    rw [hl]
    rfl
  unfold State.applyReg
  rw [h1, h2, hr]
  simp only [lockedOut_unlocked _ hl, Bool.false_eq_true, if_false]
  rw [e, hw]
  rfl

theorem regAt_of {off : Nat} {r : RegRow} {i : Nat} (h : regFind off = some (r, i)) (hk : r.kind ≠ .pin) : regAt off = some (r, i) := by
  unfold regAt
  rw [h]
  exact if_neg fun e => hk e.1

theorem State.writeOwnRule_drv (s : State) (x : Shep) (c : Nat) (v : Word) : s.writeOwnRule x drvRow c (DRV_CH_CTRL c) v = some (s.writeDrvCtrl c v) := by
  simp (disch := (simp only [drvRow,
    ALM_CFG, ALM_CLASS, ALM_CLEARED, ALM_INJECT, ALM_PARKED, ALM_STATUS, CLK_DROOP_CFG, CLK_XING_FENCE, CMP_CFG, CMP_CH_CTRL, CMP_FIT_BUDGET,
    CMP_FIT_CTRL, CMP_RIP_CFG, CMP_STAGE_CTRL, CMP_WIN_SEL, DRO_POS, DRV_CH_CTRL, DRV_CLR_MASK, DRV_FLOCK_CFG, DRV_FLOCK_CLR_I, DRV_FLOCK_CLR_V,
    DRV_FLOCK_STROBE, DRV_PDK_STATUS, ETH_CTL_CFG, ETH_PAIR_CFG, ETH_PORT_CFG, ETH_Q_SHAPE, ETH_Q_SIZE, FLD_FITLOG_CFG, FLD_LIB_CFG, GLB_LOAD_CTRL,
    GLB_LOAD_PAGE, HIF_CMD_BASE_HI, HIF_CMD_BASE_LO, HIF_CMD_CFG, HIF_POLL, HIF_RING_CFG, HIF_TLM_CFG, LCS_LOCK, LOOP_CMP_CTRL, LOOP_CTRL, LOOP_MON,
    LOOP_STATUS, PDK_TEC_CFG, PWR_WAKE, RST_CTRL, RST_WDG, SEQ_ARM_CTRL, SEQ_CFG, SHP_CFG, SHP_CTRL, SHP_HOST_DIV, SNS_CH_CTRL, SNS_DITHER, SNS_LINK_ERR,
    SRV_CFG, SRV_CFG2, TIM_INCR, TIM_PPS_CFG, TIM_SAMPLE_OFS, TIM_SAMPLE_PD, TIM_SERVO_CFG, TIM_STEP_THR]; omega)) only
    [State.writeOwnRule, State.writeSys, State.writeEth, State.writeAnalog, State.writeControl, State.writeFabric, drvRow, if_neg,
    Option.none_or]
  rfl

theorem State.writeOwnRule_sns (s : State) (x : Shep) (c : Nat) (v : Word) : s.writeOwnRule x snsRow c (SNS_CH_CTRL c) v = some (s.writeSnsCtrl c v) := by
  simp (disch := (simp only [snsRow,
    ALM_CFG, ALM_CLASS, ALM_CLEARED, ALM_INJECT, ALM_PARKED, ALM_STATUS, CLK_DROOP_CFG, CLK_XING_FENCE, CMP_CFG, CMP_CH_CTRL, CMP_FIT_BUDGET,
    CMP_FIT_CTRL, CMP_RIP_CFG, CMP_STAGE_CTRL, CMP_WIN_SEL, DRO_POS, DRV_CH_CTRL, DRV_CLR_MASK, DRV_FLOCK_CFG, DRV_FLOCK_CLR_I, DRV_FLOCK_CLR_V,
    DRV_FLOCK_STROBE, DRV_PDK_STATUS, ETH_CTL_CFG, ETH_PAIR_CFG, ETH_PORT_CFG, ETH_Q_SHAPE, ETH_Q_SIZE, FLD_FITLOG_CFG, FLD_LIB_CFG, GLB_LOAD_CTRL,
    GLB_LOAD_PAGE, HIF_CMD_BASE_HI, HIF_CMD_BASE_LO, HIF_CMD_CFG, HIF_POLL, HIF_RING_CFG, HIF_TLM_CFG, LCS_LOCK, LOOP_CMP_CTRL, LOOP_CTRL, LOOP_MON,
    LOOP_STATUS, PDK_TEC_CFG, PWR_WAKE, RST_CTRL, RST_WDG, SEQ_ARM_CTRL, SEQ_CFG, SHP_CFG, SHP_CTRL, SHP_HOST_DIV, SNS_CH_CTRL, SNS_DITHER, SNS_LINK_ERR,
    SRV_CFG, SRV_CFG2, TIM_INCR, TIM_PPS_CFG, TIM_SAMPLE_OFS, TIM_SAMPLE_PD, TIM_SERVO_CFG, TIM_STEP_THR]; omega)) only
    [State.writeOwnRule, State.writeSys, State.writeEth, State.writeAnalog, State.writeControl, State.writeFabric, snsRow, if_neg,
    Option.none_or]
  rfl

theorem State.writeOwnRule_loop (s : State) (x : Shep) (c : Nat) (v : Word) : s.writeOwnRule x loopRow c (LOOP_CTRL c) v = some (s.writeLoopCtrl c v) := by
  simp (disch := (simp only [loopRow,
    ALM_CFG, ALM_CLASS, ALM_CLEARED, ALM_INJECT, ALM_PARKED, ALM_STATUS, CLK_DROOP_CFG, CLK_XING_FENCE, CMP_CFG, CMP_CH_CTRL, CMP_FIT_BUDGET,
    CMP_FIT_CTRL, CMP_RIP_CFG, CMP_STAGE_CTRL, CMP_WIN_SEL, DRO_POS, DRV_CH_CTRL, DRV_CLR_MASK, DRV_FLOCK_CFG, DRV_FLOCK_CLR_I, DRV_FLOCK_CLR_V,
    DRV_FLOCK_STROBE, DRV_PDK_STATUS, ETH_CTL_CFG, ETH_PAIR_CFG, ETH_PORT_CFG, ETH_Q_SHAPE, ETH_Q_SIZE, FLD_FITLOG_CFG, FLD_LIB_CFG, GLB_LOAD_CTRL,
    GLB_LOAD_PAGE, HIF_CMD_BASE_HI, HIF_CMD_BASE_LO, HIF_CMD_CFG, HIF_POLL, HIF_RING_CFG, HIF_TLM_CFG, LCS_LOCK, LOOP_CMP_CTRL, LOOP_CTRL, LOOP_MON,
    LOOP_STATUS, PDK_TEC_CFG, PWR_WAKE, RST_CTRL, RST_WDG, SEQ_ARM_CTRL, SEQ_CFG, SHP_CFG, SHP_CTRL, SHP_HOST_DIV, SNS_CH_CTRL, SNS_DITHER, SNS_LINK_ERR,
    SRV_CFG, SRV_CFG2, TIM_INCR, TIM_PPS_CFG, TIM_SAMPLE_OFS, TIM_SAMPLE_PD, TIM_SERVO_CFG, TIM_STEP_THR]; omega)) only
    [State.writeOwnRule, State.writeSys, State.writeEth, State.writeAnalog, State.writeControl, State.writeFabric, loopRow, if_neg,
    Option.none_or]
  rfl

theorem State.writeSys_int (s : State) (x : Shep) (c : Nat) (v : Word) : s.writeSys x intRow c (LOOP_INT c) v = none := by
  simp (disch := (simp only [intRow, LOOP_INT,
    CLK_DROOP_CFG, CLK_XING_FENCE, GLB_LOAD_CTRL, GLB_LOAD_PAGE, HIF_CMD_BASE_HI, HIF_CMD_BASE_LO, HIF_CMD_CFG, HIF_POLL, HIF_RING_CFG,
    HIF_TLM_CFG, LCS_LOCK, PDK_TEC_CFG, PWR_WAKE, RST_CTRL, RST_WDG, TIM_INCR, TIM_PPS_CFG, TIM_SAMPLE_OFS, TIM_SAMPLE_PD, TIM_SERVO_CFG,
    TIM_STEP_THR]; omega)) only [State.writeSys, intRow, if_neg]
  try rfl

theorem State.writeEth_int (s : State) (c : Nat) (v : Word) : s.writeEth intRow c (LOOP_INT c) v = none := by
  simp (disch := (simp only [intRow, LOOP_INT,
    ETH_CTL_CFG, ETH_PAIR_CFG, ETH_PORT_CFG, ETH_Q_SHAPE, ETH_Q_SIZE]; omega)) only [State.writeEth, intRow, if_neg]
  try rfl

theorem State.writeAnalog_int (s : State) (x : Shep) (c : Nat) (v : Word) : s.writeAnalog x intRow c (LOOP_INT c) v = none := by
  simp (disch := (simp only [intRow, LOOP_INT,
    DRV_CH_CTRL, DRV_CLR_MASK, DRV_FLOCK_CFG, DRV_FLOCK_CLR_I, DRV_FLOCK_CLR_V, DRV_FLOCK_STROBE, DRV_PDK_STATUS, SNS_CH_CTRL, SNS_DITHER,
    SNS_LINK_ERR]; omega)) only [State.writeAnalog, intRow]
  try rfl

theorem State.writeControl_int (s : State) (x : Shep) (c : Nat) (v : Word) : s.writeControl x intRow c (LOOP_INT c) v = none := by
  simp (disch := (simp only [intRow, LOOP_INT,
    CMP_CFG, CMP_CH_CTRL, CMP_FIT_BUDGET, CMP_FIT_CTRL, CMP_RIP_CFG, CMP_STAGE_CTRL, CMP_WIN_SEL, LOOP_CMP_CTRL, LOOP_CTRL, LOOP_MON,
    LOOP_STATUS]; omega)) only [State.writeControl, intRow, if_neg]
  try rfl

theorem State.writeFabric_int (s : State) (x : Shep) (c : Nat) (v : Word) : s.writeFabric x intRow c (LOOP_INT c) v = none := by
  simp (disch := (simp only [intRow, LOOP_INT,
    ALM_CFG, ALM_CLASS, ALM_CLEARED, ALM_INJECT, ALM_PARKED, ALM_STATUS, DRO_POS, FLD_FITLOG_CFG, FLD_LIB_CFG, SEQ_ARM_CTRL, SEQ_CFG,
    SHP_CFG, SHP_CTRL, SHP_HOST_DIV, SRV_CFG, SRV_CFG2]; omega)) only [State.writeFabric, intRow, if_neg]
  try rfl

theorem State.writeOwnRule_int (s : State) (x : Shep) (c : Nat) (v : Word) : s.writeOwnRule x intRow c (LOOP_INT c) v = none := by
  unfold State.writeOwnRule
  rw [State.writeSys_int, State.writeEth_int, State.writeAnalog_int, State.writeControl_int, State.writeFabric_int]
  rfl

end Sys2Proof.Machine
end

