-- ==== Sys2Proof/Laws/Tab.lean ====
section
/-! SUPPORT. Keyed tables: a read after a write, and the canonical form that every operation keeps. -/

namespace Sys2Proof.Machine

section
variable {α : Type} (t : Tab α) (d v : α) (k k' : Nat)

@[simp] theorem Tab.get_nil : Tab.get ([] : Tab α) d k = d := rfl

theorem Tab.get_del_self : Tab.get (Tab.del t k) d k = d := by
  induction t with
  | nil => rfl
  | cons e r ih =>
    by_cases h : e.1 = k
    · simpa [Tab.del, h] using ih
    · simpa [Tab.del, h, Tab.get] using ih

theorem Tab.get_del_ne (h : k' ≠ k) : Tab.get (Tab.del t k) d k' = Tab.get t d k' := by
  induction t with
  | nil => rfl
  | cons e r ih =>
    obtain ⟨a, b⟩ := e
    by_cases ha : a = k
    · subst ha
      simpa [Tab.del, Tab.get, Ne.symm h] using ih
    · have ih' : Tab.get (r.filter fun e => !decide (e.1 = k)) d k' = Tab.get r d k' := by simpa [Tab.del] using ih
      simp [Tab.del, ha, Tab.get, ih']

theorem Tab.get_ins_self (hk : ∀ e ∈ t, e.1 ≠ k) : Tab.get (Tab.ins t k v) d k = v := by
  induction t with
  | nil => simp [Tab.ins, Tab.get]
  | cons e r ih =>
    obtain ⟨a, b⟩ := e
    have ha : a ≠ k := hk (a, b) (by simp)
    have hr : ∀ e ∈ r, e.1 ≠ k := fun e he => hk e (by simp [he])
    simp only [Tab.ins]
    split
    · simp [Tab.get]
    · simp [Tab.get, ha, ih hr]

theorem Tab.get_ins_ne (h : k' ≠ k) : Tab.get (Tab.ins t k v) d k' = Tab.get t d k' := by
  induction t with
  | nil => simp [Tab.ins, Tab.get, Ne.symm h]
  | cons e r ih =>
    obtain ⟨a, b⟩ := e
    simp only [Tab.ins]
    split
    · simp [Tab.get, Ne.symm h]
    · simp [Tab.get, ih]

theorem Tab.mem_del {e : Nat × α} (h : e ∈ Tab.del t k) : e.1 ≠ k := by
  simpa using (List.mem_filter.mp h).2

variable [DecidableEq α]

/-- A key reads what was written to it. -/
@[simp] theorem Tab.get_set_self : Tab.get (Tab.set t d k v) d k = v := by
  unfold Tab.set
  split
  · rename_i h; rw [Tab.get_del_self, h]
  · exact Tab.get_ins_self _ _ _ _ fun e he => Tab.mem_del t k he

/-- Any other key reads what it read. -/
theorem Tab.get_set_ne (d' : α) (h : k' ≠ k) : Tab.get (Tab.set t d k v) d' k' = Tab.get t d' k' := by
  unfold Tab.set
  split
  · exact Tab.get_del_ne t d' k k' h
  · rw [Tab.get_ins_ne _ _ _ _ _ h, Tab.get_del_ne _ _ _ _ h]

/-- A table reads as a function of its keys with one of them replaced. -/
theorem Tab.get_set (d' : α) (h : k' = k → d' = d) :
    Tab.get (Tab.set t d k v) d' k' = if k' = k then v else Tab.get t d' k' := by
  by_cases hk : k' = k
  · subst hk; simp [h rfl]
  · simp [hk, Tab.get_set_ne]

end

/-! ### The canonical form -/

section
variable {α : Type} [DecidableEq α] (d : Nat → α)

/-- The first key of a table is above `b`. -/
def Tab.above (b : Nat) : Tab α → Prop
  | [] => True
  | e :: _ => b < e.1

theorem Tab.wf_cons (k : Nat) (v : α) (t : Tab α) : Tab.wf d ((k, v) :: t) = true ↔ v ≠ d k ∧ Tab.above k t ∧ Tab.wf d t = true := by
  cases t with
  | nil => simp [Tab.wf, Tab.above]
  | cons e r => obtain ⟨a, b⟩ := e; simp [Tab.wf, Tab.above, and_assoc, and_comm]

theorem Tab.above_filter (p : Nat × α → Bool) (t : Tab α) (b : Nat) (h : Tab.above b t) (w : Tab.wf d t = true) : Tab.above b (t.filter p) := by
  induction t generalizing b with
  | nil => trivial
  | cons e r ih =>
    obtain ⟨k, v⟩ := e
    obtain ⟨_, ha, hw⟩ := (Tab.wf_cons d k v r).mp w
    by_cases hp : p (k, v) = true
    · simp [List.filter, hp, Tab.above]; exact h
    · have hb : Tab.above b r := by
        cases r with
        | nil => trivial
        | cons e' r' => exact Nat.lt_trans h ha
      simpa [List.filter, hp] using ih b hb hw

/-- Dropping entries keeps the form. -/
theorem Tab.wf_filter (p : Nat × α → Bool) (t : Tab α) (w : Tab.wf d t = true) : Tab.wf d (t.filter p) = true := by
  induction t with
  | nil => rfl
  | cons e r ih =>
    obtain ⟨k, v⟩ := e
    obtain ⟨hv, ha, hw⟩ := (Tab.wf_cons d k v r).mp w
    by_cases hp : p (k, v) = true
    · simp only [List.filter, hp]
      exact (Tab.wf_cons d k v _).mpr ⟨hv, Tab.above_filter d p r k ha hw, ih hw⟩
    · simpa [List.filter, hp] using ih hw

theorem Tab.wf_del (t : Tab α) (k : Nat) (w : Tab.wf d t = true) : Tab.wf d (Tab.del t k) = true := Tab.wf_filter d _ t w

theorem Tab.wf_ins (t : Tab α) (k : Nat) (v : α) (hv : v ≠ d k) (hk : ∀ e ∈ t, e.1 ≠ k) (w : Tab.wf d t = true) :
    Tab.wf d (Tab.ins t k v) = true ∧ ∀ b, b < k → Tab.above b t → Tab.above b (Tab.ins t k v) := by
  induction t with
  | nil => exact ⟨by simp [Tab.ins, Tab.wf, hv], fun b h _ => h⟩
  | cons e r ih =>
    obtain ⟨a, c⟩ := e
    obtain ⟨hc, ha, hw⟩ := (Tab.wf_cons d a c r).mp w
    have hne : a ≠ k := hk (a, c) (by simp)
    obtain ⟨i1, i2⟩ := ih (fun e he => hk e (by simp [he])) hw
    simp only [Tab.ins]
    split
    · rename_i hlt
      exact ⟨(Tab.wf_cons d k v _).mpr ⟨hv, hlt, w⟩, fun b h _ => h⟩
    · rename_i hlt
      have hak : a < k := by omega
      exact ⟨(Tab.wf_cons d a c _).mpr ⟨hc, i2 a hak ha, i1⟩, fun b _ h => h⟩

/-- A write keeps the form. -/
theorem Tab.wf_set (t : Tab α) (k : Nat) (v : α) (w : Tab.wf d t = true) : Tab.wf d (Tab.set t (d k) k v) = true := by
  unfold Tab.set
  split
  · exact Tab.wf_del d t k w
  · rename_i hv
    exact (Tab.wf_ins d _ k v hv (fun e he => Tab.mem_del t k he) (Tab.wf_del d t k w)).1

end

end Sys2Proof.Machine
end

