-- ==== Sys2Proof/Laws/State.lean ====
section
/-! SUPPORT. What the base updates of the state change and leave: one lemma for each field and update; reading a register, a field of a word, a shepherd or a
paddock after a write. -/

namespace Sys2Proof.Machine

/-! ### wr -/

section
variable (s : State) (b o : Nat) (w : Word)
@[simp] theorem State.wr_pending : (s.wr b o w).pending = s.pending := rfl
@[simp] theorem State.wr_part : (s.wr b o w).part = s.part := rfl
@[simp] theorem State.wr_grade : (s.wr b o w).grade = s.grade := rfl
@[simp] theorem State.wr_mode : (s.wr b o w).mode = s.mode := rfl
@[simp] theorem State.wr_lp : (s.wr b o w).lp = s.lp := rfl
@[simp] theorem State.wr_oos : (s.wr b o w).oos = s.oos := rfl
@[simp] theorem State.wr_orphan : (s.wr b o w).orphan = s.orphan := rfl
@[simp] theorem State.wr_edge : (s.wr b o w).edge = s.edge := rfl
@[simp] theorem State.wr_tb0 : (s.wr b o w).tb0 = s.tb0 := rfl
@[simp] theorem State.wr_tb1 : (s.wr b o w).tb1 = s.tb1 := rfl
@[simp] theorem State.wr_tb2 : (s.wr b o w).tb2 = s.tb2 := rfl
@[simp] theorem State.wr_tb3 : (s.wr b o w).tb3 = s.tb3 := rfl
@[simp] theorem State.wr_wrapSeen : (s.wr b o w).wrapSeen = s.wrapSeen := rfl
@[simp] theorem State.wr_latches : (s.wr b o w).latches = s.latches := rfl
@[simp] theorem State.wr_ppsHigh : (s.wr b o w).ppsHigh = s.ppsHigh := rfl
@[simp] theorem State.wr_ptp : (s.wr b o w).ptp = s.ptp := rfl
@[simp] theorem State.wr_fresh : (s.wr b o w).fresh = s.fresh := rfl
@[simp] theorem State.wr_writes : (s.wr b o w).writes = s.writes := rfl
@[simp] theorem State.wr_map : (s.wr b o w).map = s.map := rfl
@[simp] theorem State.wr_pdks : (s.wr b o w).pdks = s.pdks := rfl
@[simp] theorem State.wr_chans : (s.wr b o w).chans = s.chans := rfl
@[simp] theorem State.wr_senses : (s.wr b o w).senses = s.senses := rfl
@[simp] theorem State.wr_raws : (s.wr b o w).raws = s.raws := rfl
@[simp] theorem State.wr_amps : (s.wr b o w).amps = s.amps := rfl
@[simp] theorem State.wr_pdkCounts : (s.wr b o w).pdkCounts = s.pdkCounts := rfl
@[simp] theorem State.wr_recv : (s.wr b o w).recv = s.recv := rfl
@[simp] theorem State.wr_colDue : (s.wr b o w).colDue = s.colDue := rfl
@[simp] theorem State.wr_pdkPwr : (s.wr b o w).pdkPwr = s.pdkPwr := rfl
@[simp] theorem State.wr_vrefs : (s.wr b o w).vrefs = s.vrefs := rfl
@[simp] theorem State.wr_driveLater : (s.wr b o w).driveLater = s.driveLater := rfl
@[simp] theorem State.wr_clearLow : (s.wr b o w).clearLow = s.clearLow := rfl
@[simp] theorem State.wr_clearHold : (s.wr b o w).clearHold = s.clearHold := rfl
@[simp] theorem State.wr_muster : (s.wr b o w).muster = s.muster := rfl
@[simp] theorem State.wr_shA : (s.wr b o w).shA = s.shA := rfl
@[simp] theorem State.wr_shB : (s.wr b o w).shB = s.shB := rfl
@[simp] theorem State.wr_cplSeq : (s.wr b o w).cplSeq = s.cplSeq := rfl
@[simp] theorem State.wr_evtSeq : (s.wr b o w).evtSeq = s.evtSeq := rfl
@[simp] theorem State.wr_tlmSeq : (s.wr b o w).tlmSeq = s.tlmSeq := rfl
@[simp] theorem State.wr_jobs : (s.wr b o w).jobs = s.jobs := rfl
@[simp] theorem State.wr_netCount : (s.wr b o w).netCount = s.netCount := rfl
@[simp] theorem State.wr_netFrom : (s.wr b o w).netFrom = s.netFrom := rfl
@[simp] theorem State.wr_netSeq : (s.wr b o w).netSeq = s.netSeq := rfl
@[simp] theorem State.wr_replies : (s.wr b o w).replies = s.replies := rfl
@[simp] theorem State.wr_slots : (s.wr b o w).slots = s.slots := rfl
@[simp] theorem State.wr_library : (s.wr b o w).library = s.library := rfl
@[simp] theorem State.wr_scratch : (s.wr b o w).scratch = s.scratch := rfl
@[simp] theorem State.wr_drover : (s.wr b o w).drover = s.drover := rfl
@[simp] theorem State.wr_posWr : (s.wr b o w).posWr = s.posWr := rfl
@[simp] theorem State.wr_commits : (s.wr b o w).commits = s.commits := rfl
@[simp] theorem State.wr_rots : (s.wr b o w).rots = s.rots := rfl
@[simp] theorem State.wr_stagings : (s.wr b o w).stagings = s.stagings := rfl
@[simp] theorem State.wr_domSeq : (s.wr b o w).domSeq = s.domSeq := rfl
@[simp] theorem State.wr_ctlSeq : (s.wr b o w).ctlSeq = s.ctlSeq := rfl
@[simp] theorem State.wr_stageSeq : (s.wr b o w).stageSeq = s.stageSeq := rfl
@[simp] theorem State.wr_stepped : (s.wr b o w).stepped = s.stepped := rfl
@[simp] theorem State.wr_links : (s.wr b o w).links = s.links := rfl
@[simp] theorem State.wr_grantTick : (s.wr b o w).grantTick = s.grantTick := rfl
@[simp] theorem State.wr_divNow : (s.wr b o w).divNow = s.divNow := rfl
@[simp] theorem State.wr_divRun : (s.wr b o w).divRun = s.divRun := rfl
@[simp] theorem State.wr_claims : (s.wr b o w).claims = s.claims := rfl
@[simp] theorem State.wr_initial : (s.wr b o w).initial = s.initial := rfl
@[simp] theorem State.wr_lone : (s.wr b o w).lone = s.lone := rfl
@[simp] theorem State.wr_handover : (s.wr b o w).handover = s.handover := rfl
@[simp] theorem State.wr_joining : (s.wr b o w).joining = s.joining := rfl
@[simp] theorem State.wr_bothLost : (s.wr b o w).bothLost = s.bothLost := rfl
@[simp] theorem State.wr_copyRec : (s.wr b o w).copyRec = s.copyRec := rfl
@[simp] theorem State.wr_sync : (s.wr b o w).sync = s.sync := rfl
@[simp] theorem State.wr_survey : (s.wr b o w).survey = s.survey := rfl
@[simp] theorem State.wr_results : (s.wr b o w).results = s.results := rfl
@[simp] theorem State.wr_waking : (s.wr b o w).waking = s.waking := rfl
@[simp] theorem State.wr_lpExit : (s.wr b o w).lpExit = s.lpExit := rfl
@[simp] theorem State.wr_safeDue : (s.wr b o w).safeDue = s.safeDue := rfl
@[simp] theorem State.wr_seeded : (s.wr b o w).seeded = s.seeded := rfl
@[simp] theorem State.wr_clearFell : (s.wr b o w).clearFell = s.clearFell := rfl
@[simp] theorem State.wr_badLib : (s.wr b o w).badLib = s.badLib := rfl
@[simp] theorem State.wr_out : (s.wr b o w).out = s.out := rfl
@[simp] theorem State.wr_epoch : (s.wr b o w).epoch = s.epoch := rfl
@[simp] theorem State.wr_fuses : (s.wr b o w).fuses = s.fuses := rfl
@[simp] theorem State.wr_store : (s.wr b o w).store = s.store := rfl
@[simp] theorem State.wr_keys : (s.wr b o w).keys = s.keys := rfl
@[simp] theorem State.wr_keySeq : (s.wr b o w).keySeq = s.keySeq := rfl
@[simp] theorem State.wr_safeSince : (s.wr b o w).safeSince = s.safeSince := rfl
@[simp] theorem State.wr_parkedFree : (s.wr b o w).parkedFree = s.parkedFree := rfl
@[simp] theorem State.wr_strapsKept : (s.wr b o w).strapsKept = s.strapsKept := rfl
@[simp] theorem State.wr_early : (s.wr b o w).early = s.early := rfl
@[simp] theorem State.wr_tx : (s.wr b o w).tx = s.tx := rfl
@[simp] theorem State.wr_txNum : (s.wr b o w).txNum = s.txNum := rfl
@[simp] theorem State.wr_rxCtl : (s.wr b o w).rxCtl = s.rxCtl := rfl
@[simp] theorem State.wr_ports : (s.wr b o w).ports = s.ports := rfl
@[simp] theorem State.wr_queues : (s.wr b o w).queues = s.queues := rfl
@[simp] theorem State.wr_pairs : (s.wr b o w).pairs = s.pairs := rfl
@[simp] theorem State.wr_streams : (s.wr b o w).streams = s.streams := rfl
@[simp] theorem State.wr_tlm : (s.wr b o w).tlm = s.tlm := rfl
@[simp] theorem State.wr_tlmLast : (s.wr b o w).tlmLast = s.tlmLast := rfl
@[simp] theorem State.wr_tlmWait : (s.wr b o w).tlmWait = s.tlmWait := rfl
@[simp] theorem State.wr_tlmSince : (s.wr b o w).tlmSince = s.tlmSince := rfl
@[simp] theorem State.wr_xing : (s.wr b o w).xing = s.xing := rfl
@[simp] theorem State.wr_xtDrains : (s.wr b o w).xtDrains = s.xtDrains := rfl
@[simp] theorem State.wr_tecs : (s.wr b o w).tecs = s.tecs := rfl
end

/-! ### dropRegs -/

section
variable (s : State) (b : Nat) (p : Nat → Bool)
@[simp] theorem State.dropRegs_pending : (s.dropRegs b p).pending = s.pending := rfl
@[simp] theorem State.dropRegs_part : (s.dropRegs b p).part = s.part := rfl
@[simp] theorem State.dropRegs_grade : (s.dropRegs b p).grade = s.grade := rfl
@[simp] theorem State.dropRegs_mode : (s.dropRegs b p).mode = s.mode := rfl
@[simp] theorem State.dropRegs_lp : (s.dropRegs b p).lp = s.lp := rfl
@[simp] theorem State.dropRegs_oos : (s.dropRegs b p).oos = s.oos := rfl
@[simp] theorem State.dropRegs_orphan : (s.dropRegs b p).orphan = s.orphan := rfl
@[simp] theorem State.dropRegs_edge : (s.dropRegs b p).edge = s.edge := rfl
@[simp] theorem State.dropRegs_tb0 : (s.dropRegs b p).tb0 = s.tb0 := rfl
@[simp] theorem State.dropRegs_tb1 : (s.dropRegs b p).tb1 = s.tb1 := rfl
@[simp] theorem State.dropRegs_tb2 : (s.dropRegs b p).tb2 = s.tb2 := rfl
@[simp] theorem State.dropRegs_tb3 : (s.dropRegs b p).tb3 = s.tb3 := rfl
@[simp] theorem State.dropRegs_wrapSeen : (s.dropRegs b p).wrapSeen = s.wrapSeen := rfl
@[simp] theorem State.dropRegs_latches : (s.dropRegs b p).latches = s.latches := rfl
@[simp] theorem State.dropRegs_ppsHigh : (s.dropRegs b p).ppsHigh = s.ppsHigh := rfl
@[simp] theorem State.dropRegs_ptp : (s.dropRegs b p).ptp = s.ptp := rfl
@[simp] theorem State.dropRegs_fresh : (s.dropRegs b p).fresh = s.fresh := rfl
@[simp] theorem State.dropRegs_writes : (s.dropRegs b p).writes = s.writes := rfl
@[simp] theorem State.dropRegs_map : (s.dropRegs b p).map = s.map := rfl
@[simp] theorem State.dropRegs_pdks : (s.dropRegs b p).pdks = s.pdks := rfl
@[simp] theorem State.dropRegs_chans : (s.dropRegs b p).chans = s.chans := rfl
@[simp] theorem State.dropRegs_senses : (s.dropRegs b p).senses = s.senses := rfl
@[simp] theorem State.dropRegs_raws : (s.dropRegs b p).raws = s.raws := rfl
@[simp] theorem State.dropRegs_amps : (s.dropRegs b p).amps = s.amps := rfl
@[simp] theorem State.dropRegs_pdkCounts : (s.dropRegs b p).pdkCounts = s.pdkCounts := rfl
@[simp] theorem State.dropRegs_recv : (s.dropRegs b p).recv = s.recv := rfl
@[simp] theorem State.dropRegs_colDue : (s.dropRegs b p).colDue = s.colDue := rfl
@[simp] theorem State.dropRegs_pdkPwr : (s.dropRegs b p).pdkPwr = s.pdkPwr := rfl
@[simp] theorem State.dropRegs_vrefs : (s.dropRegs b p).vrefs = s.vrefs := rfl
@[simp] theorem State.dropRegs_driveLater : (s.dropRegs b p).driveLater = s.driveLater := rfl
@[simp] theorem State.dropRegs_clearLow : (s.dropRegs b p).clearLow = s.clearLow := rfl
@[simp] theorem State.dropRegs_clearHold : (s.dropRegs b p).clearHold = s.clearHold := rfl
@[simp] theorem State.dropRegs_muster : (s.dropRegs b p).muster = s.muster := rfl
@[simp] theorem State.dropRegs_shA : (s.dropRegs b p).shA = s.shA := rfl
@[simp] theorem State.dropRegs_shB : (s.dropRegs b p).shB = s.shB := rfl
@[simp] theorem State.dropRegs_cplSeq : (s.dropRegs b p).cplSeq = s.cplSeq := rfl
@[simp] theorem State.dropRegs_evtSeq : (s.dropRegs b p).evtSeq = s.evtSeq := rfl
@[simp] theorem State.dropRegs_tlmSeq : (s.dropRegs b p).tlmSeq = s.tlmSeq := rfl
@[simp] theorem State.dropRegs_jobs : (s.dropRegs b p).jobs = s.jobs := rfl
@[simp] theorem State.dropRegs_netCount : (s.dropRegs b p).netCount = s.netCount := rfl
@[simp] theorem State.dropRegs_netFrom : (s.dropRegs b p).netFrom = s.netFrom := rfl
@[simp] theorem State.dropRegs_netSeq : (s.dropRegs b p).netSeq = s.netSeq := rfl
@[simp] theorem State.dropRegs_replies : (s.dropRegs b p).replies = s.replies := rfl
@[simp] theorem State.dropRegs_slots : (s.dropRegs b p).slots = s.slots := rfl
@[simp] theorem State.dropRegs_library : (s.dropRegs b p).library = s.library := rfl
@[simp] theorem State.dropRegs_scratch : (s.dropRegs b p).scratch = s.scratch := rfl
@[simp] theorem State.dropRegs_drover : (s.dropRegs b p).drover = s.drover := rfl
@[simp] theorem State.dropRegs_posWr : (s.dropRegs b p).posWr = s.posWr := rfl
@[simp] theorem State.dropRegs_commits : (s.dropRegs b p).commits = s.commits := rfl
@[simp] theorem State.dropRegs_rots : (s.dropRegs b p).rots = s.rots := rfl
@[simp] theorem State.dropRegs_stagings : (s.dropRegs b p).stagings = s.stagings := rfl
@[simp] theorem State.dropRegs_domSeq : (s.dropRegs b p).domSeq = s.domSeq := rfl
@[simp] theorem State.dropRegs_ctlSeq : (s.dropRegs b p).ctlSeq = s.ctlSeq := rfl
@[simp] theorem State.dropRegs_stageSeq : (s.dropRegs b p).stageSeq = s.stageSeq := rfl
@[simp] theorem State.dropRegs_stepped : (s.dropRegs b p).stepped = s.stepped := rfl
@[simp] theorem State.dropRegs_links : (s.dropRegs b p).links = s.links := rfl
@[simp] theorem State.dropRegs_grantTick : (s.dropRegs b p).grantTick = s.grantTick := rfl
@[simp] theorem State.dropRegs_divNow : (s.dropRegs b p).divNow = s.divNow := rfl
@[simp] theorem State.dropRegs_divRun : (s.dropRegs b p).divRun = s.divRun := rfl
@[simp] theorem State.dropRegs_claims : (s.dropRegs b p).claims = s.claims := rfl
@[simp] theorem State.dropRegs_initial : (s.dropRegs b p).initial = s.initial := rfl
@[simp] theorem State.dropRegs_lone : (s.dropRegs b p).lone = s.lone := rfl
@[simp] theorem State.dropRegs_handover : (s.dropRegs b p).handover = s.handover := rfl
@[simp] theorem State.dropRegs_joining : (s.dropRegs b p).joining = s.joining := rfl
@[simp] theorem State.dropRegs_bothLost : (s.dropRegs b p).bothLost = s.bothLost := rfl
@[simp] theorem State.dropRegs_copyRec : (s.dropRegs b p).copyRec = s.copyRec := rfl
@[simp] theorem State.dropRegs_sync : (s.dropRegs b p).sync = s.sync := rfl
@[simp] theorem State.dropRegs_survey : (s.dropRegs b p).survey = s.survey := rfl
@[simp] theorem State.dropRegs_results : (s.dropRegs b p).results = s.results := rfl
@[simp] theorem State.dropRegs_waking : (s.dropRegs b p).waking = s.waking := rfl
@[simp] theorem State.dropRegs_lpExit : (s.dropRegs b p).lpExit = s.lpExit := rfl
@[simp] theorem State.dropRegs_safeDue : (s.dropRegs b p).safeDue = s.safeDue := rfl
@[simp] theorem State.dropRegs_seeded : (s.dropRegs b p).seeded = s.seeded := rfl
@[simp] theorem State.dropRegs_clearFell : (s.dropRegs b p).clearFell = s.clearFell := rfl
@[simp] theorem State.dropRegs_badLib : (s.dropRegs b p).badLib = s.badLib := rfl
@[simp] theorem State.dropRegs_out : (s.dropRegs b p).out = s.out := rfl
@[simp] theorem State.dropRegs_epoch : (s.dropRegs b p).epoch = s.epoch := rfl
@[simp] theorem State.dropRegs_fuses : (s.dropRegs b p).fuses = s.fuses := rfl
@[simp] theorem State.dropRegs_store : (s.dropRegs b p).store = s.store := rfl
@[simp] theorem State.dropRegs_keys : (s.dropRegs b p).keys = s.keys := rfl
@[simp] theorem State.dropRegs_keySeq : (s.dropRegs b p).keySeq = s.keySeq := rfl
@[simp] theorem State.dropRegs_safeSince : (s.dropRegs b p).safeSince = s.safeSince := rfl
@[simp] theorem State.dropRegs_parkedFree : (s.dropRegs b p).parkedFree = s.parkedFree := rfl
@[simp] theorem State.dropRegs_strapsKept : (s.dropRegs b p).strapsKept = s.strapsKept := rfl
@[simp] theorem State.dropRegs_early : (s.dropRegs b p).early = s.early := rfl
@[simp] theorem State.dropRegs_tx : (s.dropRegs b p).tx = s.tx := rfl
@[simp] theorem State.dropRegs_txNum : (s.dropRegs b p).txNum = s.txNum := rfl
@[simp] theorem State.dropRegs_rxCtl : (s.dropRegs b p).rxCtl = s.rxCtl := rfl
@[simp] theorem State.dropRegs_ports : (s.dropRegs b p).ports = s.ports := rfl
@[simp] theorem State.dropRegs_queues : (s.dropRegs b p).queues = s.queues := rfl
@[simp] theorem State.dropRegs_pairs : (s.dropRegs b p).pairs = s.pairs := rfl
@[simp] theorem State.dropRegs_streams : (s.dropRegs b p).streams = s.streams := rfl
@[simp] theorem State.dropRegs_tlm : (s.dropRegs b p).tlm = s.tlm := rfl
@[simp] theorem State.dropRegs_tlmLast : (s.dropRegs b p).tlmLast = s.tlmLast := rfl
@[simp] theorem State.dropRegs_tlmWait : (s.dropRegs b p).tlmWait = s.tlmWait := rfl
@[simp] theorem State.dropRegs_tlmSince : (s.dropRegs b p).tlmSince = s.tlmSince := rfl
@[simp] theorem State.dropRegs_xing : (s.dropRegs b p).xing = s.xing := rfl
@[simp] theorem State.dropRegs_xtDrains : (s.dropRegs b p).xtDrains = s.xtDrains := rfl
@[simp] theorem State.dropRegs_tecs : (s.dropRegs b p).tecs = s.tecs := rfl
end

/-! ### setPdk -/

section
variable (s : State) (p : Nat) (v : Pdk)
@[simp] theorem State.setPdk_pending : (s.setPdk p v).pending = s.pending := rfl
@[simp] theorem State.setPdk_part : (s.setPdk p v).part = s.part := rfl
@[simp] theorem State.setPdk_grade : (s.setPdk p v).grade = s.grade := rfl
@[simp] theorem State.setPdk_mode : (s.setPdk p v).mode = s.mode := rfl
@[simp] theorem State.setPdk_lp : (s.setPdk p v).lp = s.lp := rfl
@[simp] theorem State.setPdk_oos : (s.setPdk p v).oos = s.oos := rfl
@[simp] theorem State.setPdk_orphan : (s.setPdk p v).orphan = s.orphan := rfl
@[simp] theorem State.setPdk_regs : (s.setPdk p v).regs = s.regs := rfl
@[simp] theorem State.setPdk_edge : (s.setPdk p v).edge = s.edge := rfl
@[simp] theorem State.setPdk_tb0 : (s.setPdk p v).tb0 = s.tb0 := rfl
@[simp] theorem State.setPdk_tb1 : (s.setPdk p v).tb1 = s.tb1 := rfl
@[simp] theorem State.setPdk_tb2 : (s.setPdk p v).tb2 = s.tb2 := rfl
@[simp] theorem State.setPdk_tb3 : (s.setPdk p v).tb3 = s.tb3 := rfl
@[simp] theorem State.setPdk_wrapSeen : (s.setPdk p v).wrapSeen = s.wrapSeen := rfl
@[simp] theorem State.setPdk_latches : (s.setPdk p v).latches = s.latches := rfl
@[simp] theorem State.setPdk_ppsHigh : (s.setPdk p v).ppsHigh = s.ppsHigh := rfl
@[simp] theorem State.setPdk_ptp : (s.setPdk p v).ptp = s.ptp := rfl
@[simp] theorem State.setPdk_fresh : (s.setPdk p v).fresh = s.fresh := rfl
@[simp] theorem State.setPdk_writes : (s.setPdk p v).writes = s.writes := rfl
@[simp] theorem State.setPdk_map : (s.setPdk p v).map = s.map := rfl
@[simp] theorem State.setPdk_chans : (s.setPdk p v).chans = s.chans := rfl
@[simp] theorem State.setPdk_senses : (s.setPdk p v).senses = s.senses := rfl
@[simp] theorem State.setPdk_raws : (s.setPdk p v).raws = s.raws := rfl
@[simp] theorem State.setPdk_amps : (s.setPdk p v).amps = s.amps := rfl
@[simp] theorem State.setPdk_pdkCounts : (s.setPdk p v).pdkCounts = s.pdkCounts := rfl
@[simp] theorem State.setPdk_recv : (s.setPdk p v).recv = s.recv := rfl
@[simp] theorem State.setPdk_colDue : (s.setPdk p v).colDue = s.colDue := rfl
@[simp] theorem State.setPdk_pdkPwr : (s.setPdk p v).pdkPwr = s.pdkPwr := rfl
@[simp] theorem State.setPdk_vrefs : (s.setPdk p v).vrefs = s.vrefs := rfl
@[simp] theorem State.setPdk_driveLater : (s.setPdk p v).driveLater = s.driveLater := rfl
@[simp] theorem State.setPdk_clearLow : (s.setPdk p v).clearLow = s.clearLow := rfl
@[simp] theorem State.setPdk_clearHold : (s.setPdk p v).clearHold = s.clearHold := rfl
@[simp] theorem State.setPdk_muster : (s.setPdk p v).muster = s.muster := rfl
@[simp] theorem State.setPdk_shA : (s.setPdk p v).shA = s.shA := rfl
@[simp] theorem State.setPdk_shB : (s.setPdk p v).shB = s.shB := rfl
@[simp] theorem State.setPdk_cplSeq : (s.setPdk p v).cplSeq = s.cplSeq := rfl
@[simp] theorem State.setPdk_evtSeq : (s.setPdk p v).evtSeq = s.evtSeq := rfl
@[simp] theorem State.setPdk_tlmSeq : (s.setPdk p v).tlmSeq = s.tlmSeq := rfl
@[simp] theorem State.setPdk_jobs : (s.setPdk p v).jobs = s.jobs := rfl
@[simp] theorem State.setPdk_netCount : (s.setPdk p v).netCount = s.netCount := rfl
@[simp] theorem State.setPdk_netFrom : (s.setPdk p v).netFrom = s.netFrom := rfl
@[simp] theorem State.setPdk_netSeq : (s.setPdk p v).netSeq = s.netSeq := rfl
@[simp] theorem State.setPdk_replies : (s.setPdk p v).replies = s.replies := rfl
@[simp] theorem State.setPdk_slots : (s.setPdk p v).slots = s.slots := rfl
@[simp] theorem State.setPdk_library : (s.setPdk p v).library = s.library := rfl
@[simp] theorem State.setPdk_scratch : (s.setPdk p v).scratch = s.scratch := rfl
@[simp] theorem State.setPdk_drover : (s.setPdk p v).drover = s.drover := rfl
@[simp] theorem State.setPdk_posWr : (s.setPdk p v).posWr = s.posWr := rfl
@[simp] theorem State.setPdk_commits : (s.setPdk p v).commits = s.commits := rfl
@[simp] theorem State.setPdk_rots : (s.setPdk p v).rots = s.rots := rfl
@[simp] theorem State.setPdk_stagings : (s.setPdk p v).stagings = s.stagings := rfl
@[simp] theorem State.setPdk_domSeq : (s.setPdk p v).domSeq = s.domSeq := rfl
@[simp] theorem State.setPdk_ctlSeq : (s.setPdk p v).ctlSeq = s.ctlSeq := rfl
@[simp] theorem State.setPdk_stageSeq : (s.setPdk p v).stageSeq = s.stageSeq := rfl
@[simp] theorem State.setPdk_stepped : (s.setPdk p v).stepped = s.stepped := rfl
@[simp] theorem State.setPdk_links : (s.setPdk p v).links = s.links := rfl
@[simp] theorem State.setPdk_grantTick : (s.setPdk p v).grantTick = s.grantTick := rfl
@[simp] theorem State.setPdk_divNow : (s.setPdk p v).divNow = s.divNow := rfl
@[simp] theorem State.setPdk_divRun : (s.setPdk p v).divRun = s.divRun := rfl
@[simp] theorem State.setPdk_claims : (s.setPdk p v).claims = s.claims := rfl
@[simp] theorem State.setPdk_initial : (s.setPdk p v).initial = s.initial := rfl
@[simp] theorem State.setPdk_lone : (s.setPdk p v).lone = s.lone := rfl
@[simp] theorem State.setPdk_handover : (s.setPdk p v).handover = s.handover := rfl
@[simp] theorem State.setPdk_joining : (s.setPdk p v).joining = s.joining := rfl
@[simp] theorem State.setPdk_bothLost : (s.setPdk p v).bothLost = s.bothLost := rfl
@[simp] theorem State.setPdk_copyRec : (s.setPdk p v).copyRec = s.copyRec := rfl
@[simp] theorem State.setPdk_sync : (s.setPdk p v).sync = s.sync := rfl
@[simp] theorem State.setPdk_survey : (s.setPdk p v).survey = s.survey := rfl
@[simp] theorem State.setPdk_results : (s.setPdk p v).results = s.results := rfl
@[simp] theorem State.setPdk_waking : (s.setPdk p v).waking = s.waking := rfl
@[simp] theorem State.setPdk_lpExit : (s.setPdk p v).lpExit = s.lpExit := rfl
@[simp] theorem State.setPdk_safeDue : (s.setPdk p v).safeDue = s.safeDue := rfl
@[simp] theorem State.setPdk_seeded : (s.setPdk p v).seeded = s.seeded := rfl
@[simp] theorem State.setPdk_clearFell : (s.setPdk p v).clearFell = s.clearFell := rfl
@[simp] theorem State.setPdk_badLib : (s.setPdk p v).badLib = s.badLib := rfl
@[simp] theorem State.setPdk_out : (s.setPdk p v).out = s.out := rfl
@[simp] theorem State.setPdk_epoch : (s.setPdk p v).epoch = s.epoch := rfl
@[simp] theorem State.setPdk_fuses : (s.setPdk p v).fuses = s.fuses := rfl
@[simp] theorem State.setPdk_store : (s.setPdk p v).store = s.store := rfl
@[simp] theorem State.setPdk_keys : (s.setPdk p v).keys = s.keys := rfl
@[simp] theorem State.setPdk_keySeq : (s.setPdk p v).keySeq = s.keySeq := rfl
@[simp] theorem State.setPdk_safeSince : (s.setPdk p v).safeSince = s.safeSince := rfl
@[simp] theorem State.setPdk_parkedFree : (s.setPdk p v).parkedFree = s.parkedFree := rfl
@[simp] theorem State.setPdk_strapsKept : (s.setPdk p v).strapsKept = s.strapsKept := rfl
@[simp] theorem State.setPdk_early : (s.setPdk p v).early = s.early := rfl
@[simp] theorem State.setPdk_tx : (s.setPdk p v).tx = s.tx := rfl
@[simp] theorem State.setPdk_txNum : (s.setPdk p v).txNum = s.txNum := rfl
@[simp] theorem State.setPdk_rxCtl : (s.setPdk p v).rxCtl = s.rxCtl := rfl
@[simp] theorem State.setPdk_ports : (s.setPdk p v).ports = s.ports := rfl
@[simp] theorem State.setPdk_queues : (s.setPdk p v).queues = s.queues := rfl
@[simp] theorem State.setPdk_pairs : (s.setPdk p v).pairs = s.pairs := rfl
@[simp] theorem State.setPdk_streams : (s.setPdk p v).streams = s.streams := rfl
@[simp] theorem State.setPdk_tlm : (s.setPdk p v).tlm = s.tlm := rfl
@[simp] theorem State.setPdk_tlmLast : (s.setPdk p v).tlmLast = s.tlmLast := rfl
@[simp] theorem State.setPdk_tlmWait : (s.setPdk p v).tlmWait = s.tlmWait := rfl
@[simp] theorem State.setPdk_tlmSince : (s.setPdk p v).tlmSince = s.tlmSince := rfl
@[simp] theorem State.setPdk_xing : (s.setPdk p v).xing = s.xing := rfl
@[simp] theorem State.setPdk_xtDrains : (s.setPdk p v).xtDrains = s.xtDrains := rfl
@[simp] theorem State.setPdk_tecs : (s.setPdk p v).tecs = s.tecs := rfl
end

/-! ### modChan -/

section
variable (s : State) (c : Nat) (f : ChPdk → ChPdk)
@[simp] theorem State.modChan_pending : (s.modChan c f).pending = s.pending := rfl
@[simp] theorem State.modChan_part : (s.modChan c f).part = s.part := rfl
@[simp] theorem State.modChan_grade : (s.modChan c f).grade = s.grade := rfl
@[simp] theorem State.modChan_mode : (s.modChan c f).mode = s.mode := rfl
@[simp] theorem State.modChan_lp : (s.modChan c f).lp = s.lp := rfl
@[simp] theorem State.modChan_oos : (s.modChan c f).oos = s.oos := rfl
@[simp] theorem State.modChan_orphan : (s.modChan c f).orphan = s.orphan := rfl
@[simp] theorem State.modChan_regs : (s.modChan c f).regs = s.regs := rfl
@[simp] theorem State.modChan_edge : (s.modChan c f).edge = s.edge := rfl
@[simp] theorem State.modChan_tb0 : (s.modChan c f).tb0 = s.tb0 := rfl
@[simp] theorem State.modChan_tb1 : (s.modChan c f).tb1 = s.tb1 := rfl
@[simp] theorem State.modChan_tb2 : (s.modChan c f).tb2 = s.tb2 := rfl
@[simp] theorem State.modChan_tb3 : (s.modChan c f).tb3 = s.tb3 := rfl
@[simp] theorem State.modChan_wrapSeen : (s.modChan c f).wrapSeen = s.wrapSeen := rfl
@[simp] theorem State.modChan_latches : (s.modChan c f).latches = s.latches := rfl
@[simp] theorem State.modChan_ppsHigh : (s.modChan c f).ppsHigh = s.ppsHigh := rfl
@[simp] theorem State.modChan_ptp : (s.modChan c f).ptp = s.ptp := rfl
@[simp] theorem State.modChan_fresh : (s.modChan c f).fresh = s.fresh := rfl
@[simp] theorem State.modChan_writes : (s.modChan c f).writes = s.writes := rfl
@[simp] theorem State.modChan_map : (s.modChan c f).map = s.map := rfl
@[simp] theorem State.modChan_pdks : (s.modChan c f).pdks = s.pdks := rfl
@[simp] theorem State.modChan_senses : (s.modChan c f).senses = s.senses := rfl
@[simp] theorem State.modChan_raws : (s.modChan c f).raws = s.raws := rfl
@[simp] theorem State.modChan_amps : (s.modChan c f).amps = s.amps := rfl
@[simp] theorem State.modChan_pdkCounts : (s.modChan c f).pdkCounts = s.pdkCounts := rfl
@[simp] theorem State.modChan_recv : (s.modChan c f).recv = s.recv := rfl
@[simp] theorem State.modChan_colDue : (s.modChan c f).colDue = s.colDue := rfl
@[simp] theorem State.modChan_pdkPwr : (s.modChan c f).pdkPwr = s.pdkPwr := rfl
@[simp] theorem State.modChan_vrefs : (s.modChan c f).vrefs = s.vrefs := rfl
@[simp] theorem State.modChan_driveLater : (s.modChan c f).driveLater = s.driveLater := rfl
@[simp] theorem State.modChan_clearLow : (s.modChan c f).clearLow = s.clearLow := rfl
@[simp] theorem State.modChan_clearHold : (s.modChan c f).clearHold = s.clearHold := rfl
@[simp] theorem State.modChan_muster : (s.modChan c f).muster = s.muster := rfl
@[simp] theorem State.modChan_shA : (s.modChan c f).shA = s.shA := rfl
@[simp] theorem State.modChan_shB : (s.modChan c f).shB = s.shB := rfl
@[simp] theorem State.modChan_cplSeq : (s.modChan c f).cplSeq = s.cplSeq := rfl
@[simp] theorem State.modChan_evtSeq : (s.modChan c f).evtSeq = s.evtSeq := rfl
@[simp] theorem State.modChan_tlmSeq : (s.modChan c f).tlmSeq = s.tlmSeq := rfl
@[simp] theorem State.modChan_jobs : (s.modChan c f).jobs = s.jobs := rfl
@[simp] theorem State.modChan_netCount : (s.modChan c f).netCount = s.netCount := rfl
@[simp] theorem State.modChan_netFrom : (s.modChan c f).netFrom = s.netFrom := rfl
@[simp] theorem State.modChan_netSeq : (s.modChan c f).netSeq = s.netSeq := rfl
@[simp] theorem State.modChan_replies : (s.modChan c f).replies = s.replies := rfl
@[simp] theorem State.modChan_slots : (s.modChan c f).slots = s.slots := rfl
@[simp] theorem State.modChan_library : (s.modChan c f).library = s.library := rfl
@[simp] theorem State.modChan_scratch : (s.modChan c f).scratch = s.scratch := rfl
@[simp] theorem State.modChan_drover : (s.modChan c f).drover = s.drover := rfl
@[simp] theorem State.modChan_posWr : (s.modChan c f).posWr = s.posWr := rfl
@[simp] theorem State.modChan_commits : (s.modChan c f).commits = s.commits := rfl
@[simp] theorem State.modChan_rots : (s.modChan c f).rots = s.rots := rfl
@[simp] theorem State.modChan_stagings : (s.modChan c f).stagings = s.stagings := rfl
@[simp] theorem State.modChan_domSeq : (s.modChan c f).domSeq = s.domSeq := rfl
@[simp] theorem State.modChan_ctlSeq : (s.modChan c f).ctlSeq = s.ctlSeq := rfl
@[simp] theorem State.modChan_stageSeq : (s.modChan c f).stageSeq = s.stageSeq := rfl
@[simp] theorem State.modChan_stepped : (s.modChan c f).stepped = s.stepped := rfl
@[simp] theorem State.modChan_links : (s.modChan c f).links = s.links := rfl
@[simp] theorem State.modChan_grantTick : (s.modChan c f).grantTick = s.grantTick := rfl
@[simp] theorem State.modChan_divNow : (s.modChan c f).divNow = s.divNow := rfl
@[simp] theorem State.modChan_divRun : (s.modChan c f).divRun = s.divRun := rfl
@[simp] theorem State.modChan_claims : (s.modChan c f).claims = s.claims := rfl
@[simp] theorem State.modChan_initial : (s.modChan c f).initial = s.initial := rfl
@[simp] theorem State.modChan_lone : (s.modChan c f).lone = s.lone := rfl
@[simp] theorem State.modChan_handover : (s.modChan c f).handover = s.handover := rfl
@[simp] theorem State.modChan_joining : (s.modChan c f).joining = s.joining := rfl
@[simp] theorem State.modChan_bothLost : (s.modChan c f).bothLost = s.bothLost := rfl
@[simp] theorem State.modChan_copyRec : (s.modChan c f).copyRec = s.copyRec := rfl
@[simp] theorem State.modChan_sync : (s.modChan c f).sync = s.sync := rfl
@[simp] theorem State.modChan_survey : (s.modChan c f).survey = s.survey := rfl
@[simp] theorem State.modChan_results : (s.modChan c f).results = s.results := rfl
@[simp] theorem State.modChan_waking : (s.modChan c f).waking = s.waking := rfl
@[simp] theorem State.modChan_lpExit : (s.modChan c f).lpExit = s.lpExit := rfl
@[simp] theorem State.modChan_safeDue : (s.modChan c f).safeDue = s.safeDue := rfl
@[simp] theorem State.modChan_seeded : (s.modChan c f).seeded = s.seeded := rfl
@[simp] theorem State.modChan_clearFell : (s.modChan c f).clearFell = s.clearFell := rfl
@[simp] theorem State.modChan_badLib : (s.modChan c f).badLib = s.badLib := rfl
@[simp] theorem State.modChan_out : (s.modChan c f).out = s.out := rfl
@[simp] theorem State.modChan_epoch : (s.modChan c f).epoch = s.epoch := rfl
@[simp] theorem State.modChan_fuses : (s.modChan c f).fuses = s.fuses := rfl
@[simp] theorem State.modChan_store : (s.modChan c f).store = s.store := rfl
@[simp] theorem State.modChan_keys : (s.modChan c f).keys = s.keys := rfl
@[simp] theorem State.modChan_keySeq : (s.modChan c f).keySeq = s.keySeq := rfl
@[simp] theorem State.modChan_safeSince : (s.modChan c f).safeSince = s.safeSince := rfl
@[simp] theorem State.modChan_parkedFree : (s.modChan c f).parkedFree = s.parkedFree := rfl
@[simp] theorem State.modChan_strapsKept : (s.modChan c f).strapsKept = s.strapsKept := rfl
@[simp] theorem State.modChan_early : (s.modChan c f).early = s.early := rfl
@[simp] theorem State.modChan_tx : (s.modChan c f).tx = s.tx := rfl
@[simp] theorem State.modChan_txNum : (s.modChan c f).txNum = s.txNum := rfl
@[simp] theorem State.modChan_rxCtl : (s.modChan c f).rxCtl = s.rxCtl := rfl
@[simp] theorem State.modChan_ports : (s.modChan c f).ports = s.ports := rfl
@[simp] theorem State.modChan_queues : (s.modChan c f).queues = s.queues := rfl
@[simp] theorem State.modChan_pairs : (s.modChan c f).pairs = s.pairs := rfl
@[simp] theorem State.modChan_streams : (s.modChan c f).streams = s.streams := rfl
@[simp] theorem State.modChan_tlm : (s.modChan c f).tlm = s.tlm := rfl
@[simp] theorem State.modChan_tlmLast : (s.modChan c f).tlmLast = s.tlmLast := rfl
@[simp] theorem State.modChan_tlmWait : (s.modChan c f).tlmWait = s.tlmWait := rfl
@[simp] theorem State.modChan_tlmSince : (s.modChan c f).tlmSince = s.tlmSince := rfl
@[simp] theorem State.modChan_xing : (s.modChan c f).xing = s.xing := rfl
@[simp] theorem State.modChan_xtDrains : (s.modChan c f).xtDrains = s.xtDrains := rfl
@[simp] theorem State.modChan_tecs : (s.modChan c f).tecs = s.tecs := rfl
end

/-! ### modSense -/

section
variable (s : State) (m : Nat) (f : SnsHid → SnsHid)
@[simp] theorem State.modSense_pending : (s.modSense m f).pending = s.pending := rfl
@[simp] theorem State.modSense_part : (s.modSense m f).part = s.part := rfl
@[simp] theorem State.modSense_grade : (s.modSense m f).grade = s.grade := rfl
@[simp] theorem State.modSense_mode : (s.modSense m f).mode = s.mode := rfl
@[simp] theorem State.modSense_lp : (s.modSense m f).lp = s.lp := rfl
@[simp] theorem State.modSense_oos : (s.modSense m f).oos = s.oos := rfl
@[simp] theorem State.modSense_orphan : (s.modSense m f).orphan = s.orphan := rfl
@[simp] theorem State.modSense_regs : (s.modSense m f).regs = s.regs := rfl
@[simp] theorem State.modSense_edge : (s.modSense m f).edge = s.edge := rfl
@[simp] theorem State.modSense_tb0 : (s.modSense m f).tb0 = s.tb0 := rfl
@[simp] theorem State.modSense_tb1 : (s.modSense m f).tb1 = s.tb1 := rfl
@[simp] theorem State.modSense_tb2 : (s.modSense m f).tb2 = s.tb2 := rfl
@[simp] theorem State.modSense_tb3 : (s.modSense m f).tb3 = s.tb3 := rfl
@[simp] theorem State.modSense_wrapSeen : (s.modSense m f).wrapSeen = s.wrapSeen := rfl
@[simp] theorem State.modSense_latches : (s.modSense m f).latches = s.latches := rfl
@[simp] theorem State.modSense_ppsHigh : (s.modSense m f).ppsHigh = s.ppsHigh := rfl
@[simp] theorem State.modSense_ptp : (s.modSense m f).ptp = s.ptp := rfl
@[simp] theorem State.modSense_fresh : (s.modSense m f).fresh = s.fresh := rfl
@[simp] theorem State.modSense_writes : (s.modSense m f).writes = s.writes := rfl
@[simp] theorem State.modSense_map : (s.modSense m f).map = s.map := rfl
@[simp] theorem State.modSense_pdks : (s.modSense m f).pdks = s.pdks := rfl
@[simp] theorem State.modSense_chans : (s.modSense m f).chans = s.chans := rfl
@[simp] theorem State.modSense_raws : (s.modSense m f).raws = s.raws := rfl
@[simp] theorem State.modSense_amps : (s.modSense m f).amps = s.amps := rfl
@[simp] theorem State.modSense_pdkCounts : (s.modSense m f).pdkCounts = s.pdkCounts := rfl
@[simp] theorem State.modSense_recv : (s.modSense m f).recv = s.recv := rfl
@[simp] theorem State.modSense_colDue : (s.modSense m f).colDue = s.colDue := rfl
@[simp] theorem State.modSense_pdkPwr : (s.modSense m f).pdkPwr = s.pdkPwr := rfl
@[simp] theorem State.modSense_vrefs : (s.modSense m f).vrefs = s.vrefs := rfl
@[simp] theorem State.modSense_driveLater : (s.modSense m f).driveLater = s.driveLater := rfl
@[simp] theorem State.modSense_clearLow : (s.modSense m f).clearLow = s.clearLow := rfl
@[simp] theorem State.modSense_clearHold : (s.modSense m f).clearHold = s.clearHold := rfl
@[simp] theorem State.modSense_muster : (s.modSense m f).muster = s.muster := rfl
@[simp] theorem State.modSense_shA : (s.modSense m f).shA = s.shA := rfl
@[simp] theorem State.modSense_shB : (s.modSense m f).shB = s.shB := rfl
@[simp] theorem State.modSense_cplSeq : (s.modSense m f).cplSeq = s.cplSeq := rfl
@[simp] theorem State.modSense_evtSeq : (s.modSense m f).evtSeq = s.evtSeq := rfl
@[simp] theorem State.modSense_tlmSeq : (s.modSense m f).tlmSeq = s.tlmSeq := rfl
@[simp] theorem State.modSense_jobs : (s.modSense m f).jobs = s.jobs := rfl
@[simp] theorem State.modSense_netCount : (s.modSense m f).netCount = s.netCount := rfl
@[simp] theorem State.modSense_netFrom : (s.modSense m f).netFrom = s.netFrom := rfl
@[simp] theorem State.modSense_netSeq : (s.modSense m f).netSeq = s.netSeq := rfl
@[simp] theorem State.modSense_replies : (s.modSense m f).replies = s.replies := rfl
@[simp] theorem State.modSense_slots : (s.modSense m f).slots = s.slots := rfl
@[simp] theorem State.modSense_library : (s.modSense m f).library = s.library := rfl
@[simp] theorem State.modSense_scratch : (s.modSense m f).scratch = s.scratch := rfl
@[simp] theorem State.modSense_drover : (s.modSense m f).drover = s.drover := rfl
@[simp] theorem State.modSense_posWr : (s.modSense m f).posWr = s.posWr := rfl
@[simp] theorem State.modSense_commits : (s.modSense m f).commits = s.commits := rfl
@[simp] theorem State.modSense_rots : (s.modSense m f).rots = s.rots := rfl
@[simp] theorem State.modSense_stagings : (s.modSense m f).stagings = s.stagings := rfl
@[simp] theorem State.modSense_domSeq : (s.modSense m f).domSeq = s.domSeq := rfl
@[simp] theorem State.modSense_ctlSeq : (s.modSense m f).ctlSeq = s.ctlSeq := rfl
@[simp] theorem State.modSense_stageSeq : (s.modSense m f).stageSeq = s.stageSeq := rfl
@[simp] theorem State.modSense_stepped : (s.modSense m f).stepped = s.stepped := rfl
@[simp] theorem State.modSense_links : (s.modSense m f).links = s.links := rfl
@[simp] theorem State.modSense_grantTick : (s.modSense m f).grantTick = s.grantTick := rfl
@[simp] theorem State.modSense_divNow : (s.modSense m f).divNow = s.divNow := rfl
@[simp] theorem State.modSense_divRun : (s.modSense m f).divRun = s.divRun := rfl
@[simp] theorem State.modSense_claims : (s.modSense m f).claims = s.claims := rfl
@[simp] theorem State.modSense_initial : (s.modSense m f).initial = s.initial := rfl
@[simp] theorem State.modSense_lone : (s.modSense m f).lone = s.lone := rfl
@[simp] theorem State.modSense_handover : (s.modSense m f).handover = s.handover := rfl
@[simp] theorem State.modSense_joining : (s.modSense m f).joining = s.joining := rfl
@[simp] theorem State.modSense_bothLost : (s.modSense m f).bothLost = s.bothLost := rfl
@[simp] theorem State.modSense_copyRec : (s.modSense m f).copyRec = s.copyRec := rfl
@[simp] theorem State.modSense_sync : (s.modSense m f).sync = s.sync := rfl
@[simp] theorem State.modSense_survey : (s.modSense m f).survey = s.survey := rfl
@[simp] theorem State.modSense_results : (s.modSense m f).results = s.results := rfl
@[simp] theorem State.modSense_waking : (s.modSense m f).waking = s.waking := rfl
@[simp] theorem State.modSense_lpExit : (s.modSense m f).lpExit = s.lpExit := rfl
@[simp] theorem State.modSense_safeDue : (s.modSense m f).safeDue = s.safeDue := rfl
@[simp] theorem State.modSense_seeded : (s.modSense m f).seeded = s.seeded := rfl
@[simp] theorem State.modSense_clearFell : (s.modSense m f).clearFell = s.clearFell := rfl
@[simp] theorem State.modSense_badLib : (s.modSense m f).badLib = s.badLib := rfl
@[simp] theorem State.modSense_out : (s.modSense m f).out = s.out := rfl
@[simp] theorem State.modSense_epoch : (s.modSense m f).epoch = s.epoch := rfl
@[simp] theorem State.modSense_fuses : (s.modSense m f).fuses = s.fuses := rfl
@[simp] theorem State.modSense_store : (s.modSense m f).store = s.store := rfl
@[simp] theorem State.modSense_keys : (s.modSense m f).keys = s.keys := rfl
@[simp] theorem State.modSense_keySeq : (s.modSense m f).keySeq = s.keySeq := rfl
@[simp] theorem State.modSense_safeSince : (s.modSense m f).safeSince = s.safeSince := rfl
@[simp] theorem State.modSense_parkedFree : (s.modSense m f).parkedFree = s.parkedFree := rfl
@[simp] theorem State.modSense_strapsKept : (s.modSense m f).strapsKept = s.strapsKept := rfl
@[simp] theorem State.modSense_early : (s.modSense m f).early = s.early := rfl
@[simp] theorem State.modSense_tx : (s.modSense m f).tx = s.tx := rfl
@[simp] theorem State.modSense_txNum : (s.modSense m f).txNum = s.txNum := rfl
@[simp] theorem State.modSense_rxCtl : (s.modSense m f).rxCtl = s.rxCtl := rfl
@[simp] theorem State.modSense_ports : (s.modSense m f).ports = s.ports := rfl
@[simp] theorem State.modSense_queues : (s.modSense m f).queues = s.queues := rfl
@[simp] theorem State.modSense_pairs : (s.modSense m f).pairs = s.pairs := rfl
@[simp] theorem State.modSense_streams : (s.modSense m f).streams = s.streams := rfl
@[simp] theorem State.modSense_tlm : (s.modSense m f).tlm = s.tlm := rfl
@[simp] theorem State.modSense_tlmLast : (s.modSense m f).tlmLast = s.tlmLast := rfl
@[simp] theorem State.modSense_tlmWait : (s.modSense m f).tlmWait = s.tlmWait := rfl
@[simp] theorem State.modSense_tlmSince : (s.modSense m f).tlmSince = s.tlmSince := rfl
@[simp] theorem State.modSense_xing : (s.modSense m f).xing = s.xing := rfl
@[simp] theorem State.modSense_xtDrains : (s.modSense m f).xtDrains = s.xtDrains := rfl
@[simp] theorem State.modSense_tecs : (s.modSense m f).tecs = s.tecs := rfl
end

/-! ### send -/

section
variable (s : State) (o : Out)
@[simp] theorem State.send_pending : (s.send o).pending = s.pending := rfl
@[simp] theorem State.send_part : (s.send o).part = s.part := rfl
@[simp] theorem State.send_grade : (s.send o).grade = s.grade := rfl
@[simp] theorem State.send_mode : (s.send o).mode = s.mode := rfl
@[simp] theorem State.send_lp : (s.send o).lp = s.lp := rfl
@[simp] theorem State.send_oos : (s.send o).oos = s.oos := rfl
@[simp] theorem State.send_orphan : (s.send o).orphan = s.orphan := rfl
@[simp] theorem State.send_regs : (s.send o).regs = s.regs := rfl
@[simp] theorem State.send_edge : (s.send o).edge = s.edge := rfl
@[simp] theorem State.send_tb0 : (s.send o).tb0 = s.tb0 := rfl
@[simp] theorem State.send_tb1 : (s.send o).tb1 = s.tb1 := rfl
@[simp] theorem State.send_tb2 : (s.send o).tb2 = s.tb2 := rfl
@[simp] theorem State.send_tb3 : (s.send o).tb3 = s.tb3 := rfl
@[simp] theorem State.send_wrapSeen : (s.send o).wrapSeen = s.wrapSeen := rfl
@[simp] theorem State.send_latches : (s.send o).latches = s.latches := rfl
@[simp] theorem State.send_ppsHigh : (s.send o).ppsHigh = s.ppsHigh := rfl
@[simp] theorem State.send_ptp : (s.send o).ptp = s.ptp := rfl
@[simp] theorem State.send_fresh : (s.send o).fresh = s.fresh := rfl
@[simp] theorem State.send_writes : (s.send o).writes = s.writes := rfl
@[simp] theorem State.send_map : (s.send o).map = s.map := rfl
@[simp] theorem State.send_pdks : (s.send o).pdks = s.pdks := rfl
@[simp] theorem State.send_chans : (s.send o).chans = s.chans := rfl
@[simp] theorem State.send_senses : (s.send o).senses = s.senses := rfl
@[simp] theorem State.send_raws : (s.send o).raws = s.raws := rfl
@[simp] theorem State.send_amps : (s.send o).amps = s.amps := rfl
@[simp] theorem State.send_pdkCounts : (s.send o).pdkCounts = s.pdkCounts := rfl
@[simp] theorem State.send_recv : (s.send o).recv = s.recv := rfl
@[simp] theorem State.send_colDue : (s.send o).colDue = s.colDue := rfl
@[simp] theorem State.send_pdkPwr : (s.send o).pdkPwr = s.pdkPwr := rfl
@[simp] theorem State.send_vrefs : (s.send o).vrefs = s.vrefs := rfl
@[simp] theorem State.send_driveLater : (s.send o).driveLater = s.driveLater := rfl
@[simp] theorem State.send_clearLow : (s.send o).clearLow = s.clearLow := rfl
@[simp] theorem State.send_clearHold : (s.send o).clearHold = s.clearHold := rfl
@[simp] theorem State.send_muster : (s.send o).muster = s.muster := rfl
@[simp] theorem State.send_shA : (s.send o).shA = s.shA := rfl
@[simp] theorem State.send_shB : (s.send o).shB = s.shB := rfl
@[simp] theorem State.send_cplSeq : (s.send o).cplSeq = s.cplSeq := rfl
@[simp] theorem State.send_evtSeq : (s.send o).evtSeq = s.evtSeq := rfl
@[simp] theorem State.send_tlmSeq : (s.send o).tlmSeq = s.tlmSeq := rfl
@[simp] theorem State.send_jobs : (s.send o).jobs = s.jobs := rfl
@[simp] theorem State.send_netCount : (s.send o).netCount = s.netCount := rfl
@[simp] theorem State.send_netFrom : (s.send o).netFrom = s.netFrom := rfl
@[simp] theorem State.send_netSeq : (s.send o).netSeq = s.netSeq := rfl
@[simp] theorem State.send_replies : (s.send o).replies = s.replies := rfl
@[simp] theorem State.send_slots : (s.send o).slots = s.slots := rfl
@[simp] theorem State.send_library : (s.send o).library = s.library := rfl
@[simp] theorem State.send_scratch : (s.send o).scratch = s.scratch := rfl
@[simp] theorem State.send_drover : (s.send o).drover = s.drover := rfl
@[simp] theorem State.send_posWr : (s.send o).posWr = s.posWr := rfl
@[simp] theorem State.send_commits : (s.send o).commits = s.commits := rfl
@[simp] theorem State.send_rots : (s.send o).rots = s.rots := rfl
@[simp] theorem State.send_stagings : (s.send o).stagings = s.stagings := rfl
@[simp] theorem State.send_domSeq : (s.send o).domSeq = s.domSeq := rfl
@[simp] theorem State.send_ctlSeq : (s.send o).ctlSeq = s.ctlSeq := rfl
@[simp] theorem State.send_stageSeq : (s.send o).stageSeq = s.stageSeq := rfl
@[simp] theorem State.send_stepped : (s.send o).stepped = s.stepped := rfl
@[simp] theorem State.send_links : (s.send o).links = s.links := rfl
@[simp] theorem State.send_grantTick : (s.send o).grantTick = s.grantTick := rfl
@[simp] theorem State.send_divNow : (s.send o).divNow = s.divNow := rfl
@[simp] theorem State.send_divRun : (s.send o).divRun = s.divRun := rfl
@[simp] theorem State.send_claims : (s.send o).claims = s.claims := rfl
@[simp] theorem State.send_initial : (s.send o).initial = s.initial := rfl
@[simp] theorem State.send_lone : (s.send o).lone = s.lone := rfl
@[simp] theorem State.send_handover : (s.send o).handover = s.handover := rfl
@[simp] theorem State.send_joining : (s.send o).joining = s.joining := rfl
@[simp] theorem State.send_bothLost : (s.send o).bothLost = s.bothLost := rfl
@[simp] theorem State.send_copyRec : (s.send o).copyRec = s.copyRec := rfl
@[simp] theorem State.send_sync : (s.send o).sync = s.sync := rfl
@[simp] theorem State.send_survey : (s.send o).survey = s.survey := rfl
@[simp] theorem State.send_results : (s.send o).results = s.results := rfl
@[simp] theorem State.send_waking : (s.send o).waking = s.waking := rfl
@[simp] theorem State.send_lpExit : (s.send o).lpExit = s.lpExit := rfl
@[simp] theorem State.send_safeDue : (s.send o).safeDue = s.safeDue := rfl
@[simp] theorem State.send_seeded : (s.send o).seeded = s.seeded := rfl
@[simp] theorem State.send_clearFell : (s.send o).clearFell = s.clearFell := rfl
@[simp] theorem State.send_badLib : (s.send o).badLib = s.badLib := rfl
@[simp] theorem State.send_epoch : (s.send o).epoch = s.epoch := rfl
@[simp] theorem State.send_fuses : (s.send o).fuses = s.fuses := rfl
@[simp] theorem State.send_store : (s.send o).store = s.store := rfl
@[simp] theorem State.send_keys : (s.send o).keys = s.keys := rfl
@[simp] theorem State.send_keySeq : (s.send o).keySeq = s.keySeq := rfl
@[simp] theorem State.send_safeSince : (s.send o).safeSince = s.safeSince := rfl
@[simp] theorem State.send_parkedFree : (s.send o).parkedFree = s.parkedFree := rfl
@[simp] theorem State.send_strapsKept : (s.send o).strapsKept = s.strapsKept := rfl
@[simp] theorem State.send_early : (s.send o).early = s.early := rfl
@[simp] theorem State.send_tx : (s.send o).tx = s.tx := rfl
@[simp] theorem State.send_txNum : (s.send o).txNum = s.txNum := rfl
@[simp] theorem State.send_rxCtl : (s.send o).rxCtl = s.rxCtl := rfl
@[simp] theorem State.send_ports : (s.send o).ports = s.ports := rfl
@[simp] theorem State.send_queues : (s.send o).queues = s.queues := rfl
@[simp] theorem State.send_pairs : (s.send o).pairs = s.pairs := rfl
@[simp] theorem State.send_streams : (s.send o).streams = s.streams := rfl
@[simp] theorem State.send_tlm : (s.send o).tlm = s.tlm := rfl
@[simp] theorem State.send_tlmLast : (s.send o).tlmLast = s.tlmLast := rfl
@[simp] theorem State.send_tlmWait : (s.send o).tlmWait = s.tlmWait := rfl
@[simp] theorem State.send_tlmSince : (s.send o).tlmSince = s.tlmSince := rfl
@[simp] theorem State.send_xing : (s.send o).xing = s.xing := rfl
@[simp] theorem State.send_xtDrains : (s.send o).xtDrains = s.xtDrains := rfl
@[simp] theorem State.send_tecs : (s.send o).tecs = s.tecs := rfl
end

/-! ### modSh -/

section
variable (s : State) (x : Shep) (f : ShepSt → ShepSt)
@[simp] theorem State.modSh_pending : (s.modSh x f).pending = s.pending := by cases x <;> rfl
@[simp] theorem State.modSh_part : (s.modSh x f).part = s.part := by cases x <;> rfl
@[simp] theorem State.modSh_grade : (s.modSh x f).grade = s.grade := by cases x <;> rfl
@[simp] theorem State.modSh_mode : (s.modSh x f).mode = s.mode := by cases x <;> rfl
@[simp] theorem State.modSh_lp : (s.modSh x f).lp = s.lp := by cases x <;> rfl
@[simp] theorem State.modSh_oos : (s.modSh x f).oos = s.oos := by cases x <;> rfl
@[simp] theorem State.modSh_orphan : (s.modSh x f).orphan = s.orphan := by cases x <;> rfl
@[simp] theorem State.modSh_regs : (s.modSh x f).regs = s.regs := by cases x <;> rfl
@[simp] theorem State.modSh_edge : (s.modSh x f).edge = s.edge := by cases x <;> rfl
@[simp] theorem State.modSh_tb0 : (s.modSh x f).tb0 = s.tb0 := by cases x <;> rfl
@[simp] theorem State.modSh_tb1 : (s.modSh x f).tb1 = s.tb1 := by cases x <;> rfl
@[simp] theorem State.modSh_tb2 : (s.modSh x f).tb2 = s.tb2 := by cases x <;> rfl
@[simp] theorem State.modSh_tb3 : (s.modSh x f).tb3 = s.tb3 := by cases x <;> rfl
@[simp] theorem State.modSh_wrapSeen : (s.modSh x f).wrapSeen = s.wrapSeen := by cases x <;> rfl
@[simp] theorem State.modSh_latches : (s.modSh x f).latches = s.latches := by cases x <;> rfl
@[simp] theorem State.modSh_ppsHigh : (s.modSh x f).ppsHigh = s.ppsHigh := by cases x <;> rfl
@[simp] theorem State.modSh_ptp : (s.modSh x f).ptp = s.ptp := by cases x <;> rfl
@[simp] theorem State.modSh_fresh : (s.modSh x f).fresh = s.fresh := by cases x <;> rfl
@[simp] theorem State.modSh_writes : (s.modSh x f).writes = s.writes := by cases x <;> rfl
@[simp] theorem State.modSh_map : (s.modSh x f).map = s.map := by cases x <;> rfl
@[simp] theorem State.modSh_pdks : (s.modSh x f).pdks = s.pdks := by cases x <;> rfl
@[simp] theorem State.modSh_chans : (s.modSh x f).chans = s.chans := by cases x <;> rfl
@[simp] theorem State.modSh_senses : (s.modSh x f).senses = s.senses := by cases x <;> rfl
@[simp] theorem State.modSh_raws : (s.modSh x f).raws = s.raws := by cases x <;> rfl
@[simp] theorem State.modSh_amps : (s.modSh x f).amps = s.amps := by cases x <;> rfl
@[simp] theorem State.modSh_pdkCounts : (s.modSh x f).pdkCounts = s.pdkCounts := by cases x <;> rfl
@[simp] theorem State.modSh_recv : (s.modSh x f).recv = s.recv := by cases x <;> rfl
@[simp] theorem State.modSh_colDue : (s.modSh x f).colDue = s.colDue := by cases x <;> rfl
@[simp] theorem State.modSh_pdkPwr : (s.modSh x f).pdkPwr = s.pdkPwr := by cases x <;> rfl
@[simp] theorem State.modSh_vrefs : (s.modSh x f).vrefs = s.vrefs := by cases x <;> rfl
@[simp] theorem State.modSh_driveLater : (s.modSh x f).driveLater = s.driveLater := by cases x <;> rfl
@[simp] theorem State.modSh_clearLow : (s.modSh x f).clearLow = s.clearLow := by cases x <;> rfl
@[simp] theorem State.modSh_clearHold : (s.modSh x f).clearHold = s.clearHold := by cases x <;> rfl
@[simp] theorem State.modSh_muster : (s.modSh x f).muster = s.muster := by cases x <;> rfl
@[simp] theorem State.modSh_cplSeq : (s.modSh x f).cplSeq = s.cplSeq := by cases x <;> rfl
@[simp] theorem State.modSh_evtSeq : (s.modSh x f).evtSeq = s.evtSeq := by cases x <;> rfl
@[simp] theorem State.modSh_tlmSeq : (s.modSh x f).tlmSeq = s.tlmSeq := by cases x <;> rfl
@[simp] theorem State.modSh_jobs : (s.modSh x f).jobs = s.jobs := by cases x <;> rfl
@[simp] theorem State.modSh_netCount : (s.modSh x f).netCount = s.netCount := by cases x <;> rfl
@[simp] theorem State.modSh_netFrom : (s.modSh x f).netFrom = s.netFrom := by cases x <;> rfl
@[simp] theorem State.modSh_netSeq : (s.modSh x f).netSeq = s.netSeq := by cases x <;> rfl
@[simp] theorem State.modSh_replies : (s.modSh x f).replies = s.replies := by cases x <;> rfl
@[simp] theorem State.modSh_slots : (s.modSh x f).slots = s.slots := by cases x <;> rfl
@[simp] theorem State.modSh_library : (s.modSh x f).library = s.library := by cases x <;> rfl
@[simp] theorem State.modSh_scratch : (s.modSh x f).scratch = s.scratch := by cases x <;> rfl
@[simp] theorem State.modSh_drover : (s.modSh x f).drover = s.drover := by cases x <;> rfl
@[simp] theorem State.modSh_posWr : (s.modSh x f).posWr = s.posWr := by cases x <;> rfl
@[simp] theorem State.modSh_commits : (s.modSh x f).commits = s.commits := by cases x <;> rfl
@[simp] theorem State.modSh_rots : (s.modSh x f).rots = s.rots := by cases x <;> rfl
@[simp] theorem State.modSh_stagings : (s.modSh x f).stagings = s.stagings := by cases x <;> rfl
@[simp] theorem State.modSh_domSeq : (s.modSh x f).domSeq = s.domSeq := by cases x <;> rfl
@[simp] theorem State.modSh_ctlSeq : (s.modSh x f).ctlSeq = s.ctlSeq := by cases x <;> rfl
@[simp] theorem State.modSh_stageSeq : (s.modSh x f).stageSeq = s.stageSeq := by cases x <;> rfl
@[simp] theorem State.modSh_stepped : (s.modSh x f).stepped = s.stepped := by cases x <;> rfl
@[simp] theorem State.modSh_links : (s.modSh x f).links = s.links := by cases x <;> rfl
@[simp] theorem State.modSh_grantTick : (s.modSh x f).grantTick = s.grantTick := by cases x <;> rfl
@[simp] theorem State.modSh_divNow : (s.modSh x f).divNow = s.divNow := by cases x <;> rfl
@[simp] theorem State.modSh_divRun : (s.modSh x f).divRun = s.divRun := by cases x <;> rfl
@[simp] theorem State.modSh_claims : (s.modSh x f).claims = s.claims := by cases x <;> rfl
@[simp] theorem State.modSh_initial : (s.modSh x f).initial = s.initial := by cases x <;> rfl
@[simp] theorem State.modSh_lone : (s.modSh x f).lone = s.lone := by cases x <;> rfl
@[simp] theorem State.modSh_handover : (s.modSh x f).handover = s.handover := by cases x <;> rfl
@[simp] theorem State.modSh_joining : (s.modSh x f).joining = s.joining := by cases x <;> rfl
@[simp] theorem State.modSh_bothLost : (s.modSh x f).bothLost = s.bothLost := by cases x <;> rfl
@[simp] theorem State.modSh_copyRec : (s.modSh x f).copyRec = s.copyRec := by cases x <;> rfl
@[simp] theorem State.modSh_sync : (s.modSh x f).sync = s.sync := by cases x <;> rfl
@[simp] theorem State.modSh_survey : (s.modSh x f).survey = s.survey := by cases x <;> rfl
@[simp] theorem State.modSh_results : (s.modSh x f).results = s.results := by cases x <;> rfl
@[simp] theorem State.modSh_waking : (s.modSh x f).waking = s.waking := by cases x <;> rfl
@[simp] theorem State.modSh_lpExit : (s.modSh x f).lpExit = s.lpExit := by cases x <;> rfl
@[simp] theorem State.modSh_safeDue : (s.modSh x f).safeDue = s.safeDue := by cases x <;> rfl
@[simp] theorem State.modSh_seeded : (s.modSh x f).seeded = s.seeded := by cases x <;> rfl
@[simp] theorem State.modSh_clearFell : (s.modSh x f).clearFell = s.clearFell := by cases x <;> rfl
@[simp] theorem State.modSh_badLib : (s.modSh x f).badLib = s.badLib := by cases x <;> rfl
@[simp] theorem State.modSh_out : (s.modSh x f).out = s.out := by cases x <;> rfl
@[simp] theorem State.modSh_epoch : (s.modSh x f).epoch = s.epoch := by cases x <;> rfl
@[simp] theorem State.modSh_fuses : (s.modSh x f).fuses = s.fuses := by cases x <;> rfl
@[simp] theorem State.modSh_store : (s.modSh x f).store = s.store := by cases x <;> rfl
@[simp] theorem State.modSh_keys : (s.modSh x f).keys = s.keys := by cases x <;> rfl
@[simp] theorem State.modSh_keySeq : (s.modSh x f).keySeq = s.keySeq := by cases x <;> rfl
@[simp] theorem State.modSh_safeSince : (s.modSh x f).safeSince = s.safeSince := by cases x <;> rfl
@[simp] theorem State.modSh_parkedFree : (s.modSh x f).parkedFree = s.parkedFree := by cases x <;> rfl
@[simp] theorem State.modSh_strapsKept : (s.modSh x f).strapsKept = s.strapsKept := by cases x <;> rfl
@[simp] theorem State.modSh_early : (s.modSh x f).early = s.early := by cases x <;> rfl
@[simp] theorem State.modSh_tx : (s.modSh x f).tx = s.tx := by cases x <;> rfl
@[simp] theorem State.modSh_txNum : (s.modSh x f).txNum = s.txNum := by cases x <;> rfl
@[simp] theorem State.modSh_rxCtl : (s.modSh x f).rxCtl = s.rxCtl := by cases x <;> rfl
@[simp] theorem State.modSh_ports : (s.modSh x f).ports = s.ports := by cases x <;> rfl
@[simp] theorem State.modSh_queues : (s.modSh x f).queues = s.queues := by cases x <;> rfl
@[simp] theorem State.modSh_pairs : (s.modSh x f).pairs = s.pairs := by cases x <;> rfl
@[simp] theorem State.modSh_streams : (s.modSh x f).streams = s.streams := by cases x <;> rfl
@[simp] theorem State.modSh_tlm : (s.modSh x f).tlm = s.tlm := by cases x <;> rfl
@[simp] theorem State.modSh_tlmLast : (s.modSh x f).tlmLast = s.tlmLast := by cases x <;> rfl
@[simp] theorem State.modSh_tlmWait : (s.modSh x f).tlmWait = s.tlmWait := by cases x <;> rfl
@[simp] theorem State.modSh_tlmSince : (s.modSh x f).tlmSince = s.tlmSince := by cases x <;> rfl
@[simp] theorem State.modSh_xing : (s.modSh x f).xing = s.xing := by cases x <;> rfl
@[simp] theorem State.modSh_xtDrains : (s.modSh x f).xtDrains = s.xtDrains := by cases x <;> rfl
@[simp] theorem State.modSh_tecs : (s.modSh x f).tecs = s.tecs := by cases x <;> rfl
end

/-! ### What an update gives -/

section
variable (s : State) (b o b' o' : Nat) (w : Word)

@[simp] theorem State.wr_regs : (s.wr b o w).regs = Tab.set s.regs (resetWord o) (regKey b o) w := rfl
@[simp] theorem State.send_out (e : Out) : (s.send e).out = s.out ++ [e] := rfl

/-- A register word reads what was written to it. -/
@[simp] theorem State.rd_wr_self : (s.wr b o w).rd b o = w := Tab.get_set_self ..

/-- Offsets of BAR0 and of the model's own tables lie below 2^28, so a bank and an offset name one word. -/
theorem regKey_inj (h : o < 0x10000000) (h' : o' < 0x10000000) (e : regKey b o = regKey b' o') : b = b' ∧ o = o' := by
  unfold regKey at e; omega

/-- A write leaves every other register word. -/
theorem State.rd_wr_ne (h : regKey b' o' ≠ regKey b o) : (s.wr b o w).rd b' o' = s.rd b' o' := Tab.get_set_ne _ _ _ _ _ _ h

theorem State.rd_wr_off (h : o < 0x10000000) (h' : o' < 0x10000000) (ne : o' ≠ o) : (s.wr b o w).rd b' o' = s.rd b' o' :=
  s.rd_wr_ne _ _ _ _ _ fun e => ne (regKey_inj _ _ _ _ h' h e).2

theorem State.rd_wr_bank (h : o < 0x10000000) (h' : o' < 0x10000000) (ne : b' ≠ b) : (s.wr b o w).rd b' o' = s.rd b' o' :=
  s.rd_wr_ne _ _ _ _ _ fun e => ne (regKey_inj _ _ _ _ h' h e).1

/-- A register word after a write. -/
theorem State.rd_wr (h : o < 0x10000000) (h' : o' < 0x10000000) :
    (s.wr b o w).rd b' o' = if b' = b ∧ o' = o then w else s.rd b' o' := by
  split
  · rename_i e; obtain ⟨rfl, rfl⟩ := e; simp
  · rename_i e
    exact s.rd_wr_ne _ _ _ _ _ fun k => e (regKey_inj _ _ _ _ h' h k)

/-- Reading depends on the register words alone. -/
theorem State.rd_congr (t : State) (h : t.regs = s.regs) : t.rd b o = s.rd b o := by unfold State.rd; rw [h]

@[simp] theorem State.rd_send (e : Out) : (s.send e).rd b o = s.rd b o := rfl
@[simp] theorem State.rd_modSh (x : Shep) (f : ShepSt → ShepSt) : (s.modSh x f).rd b o = s.rd b o := s.rd_congr _ _ _ (by simp)
@[simp] theorem State.rd_setPdk (p : Nat) (v : Pdk) : (s.setPdk p v).rd b o = s.rd b o := rfl
@[simp] theorem State.rd_modChan (c : Nat) (f : ChPdk → ChPdk) : (s.modChan c f).rd b o = s.rd b o := rfl
@[simp] theorem State.rd_modSense (m : Nat) (f : SnsHid → SnsHid) : (s.modSense m f).rd b o = s.rd b o := rfl

@[simp] theorem State.sh_wr (x : Shep) : (s.wr b o w).sh x = s.sh x := by cases x <;> rfl
@[simp] theorem State.sh_send (x : Shep) (e : Out) : (s.send e).sh x = s.sh x := by cases x <;> rfl
@[simp] theorem State.sh_setPdk (x : Shep) (p : Nat) (v : Pdk) : (s.setPdk p v).sh x = s.sh x := by cases x <;> rfl
@[simp] theorem State.sh_modChan (x : Shep) (c : Nat) (f : ChPdk → ChPdk) : (s.modChan c f).sh x = s.sh x := by cases x <;> rfl
@[simp] theorem State.sh_modSense (x : Shep) (m : Nat) (f : SnsHid → SnsHid) : (s.modSense m f).sh x = s.sh x := by cases x <;> rfl
@[simp] theorem State.sh_modSh_self (x : Shep) (f : ShepSt → ShepSt) : (s.modSh x f).sh x = f (s.sh x) := by cases x <;> rfl
theorem State.sh_modSh_ne (x y : Shep) (f : ShepSt → ShepSt) (h : y ≠ x) : (s.modSh x f).sh y = s.sh y := by
  cases x <;> cases y <;> first | rfl | exact absurd rfl h

@[simp] theorem State.pdk_setPdk_self (p : Nat) (v : Pdk) : (s.setPdk p v).pdk p = v := Tab.get_set_self ..
theorem State.pdk_setPdk_ne (p q : Nat) (v : Pdk) (h : q ≠ p) : (s.setPdk p v).pdk q = s.pdk q := Tab.get_set_ne _ _ _ _ _ _ h
@[simp] theorem State.chan_modChan_self (c : Nat) (f : ChPdk → ChPdk) : (s.modChan c f).chan c = f (s.chan c) := Tab.get_set_self ..
theorem State.chan_modChan_ne (c e : Nat) (f : ChPdk → ChPdk) (h : e ≠ c) : (s.modChan c f).chan e = s.chan e := Tab.get_set_ne _ _ _ _ _ _ h
@[simp] theorem State.sense_modSense_self (m : Nat) (f : SnsHid → SnsHid) : (s.modSense m f).sense m = f (s.sense m) := Tab.get_set_self ..
theorem State.sense_modSense_ne (m n : Nat) (f : SnsHid → SnsHid) (h : n ≠ m) : (s.modSense m f).sense n = s.sense n := Tab.get_set_ne _ _ _ _ _ _ h

end

/-! ### Fields of a word -/

/-- The bits of a word whose field was replaced. -/
theorem Fld.testBit_put (f : Fld) (w : Word) (v i : Nat) (h : f.lo ≤ f.hi) (hi : i < 32) :
    (f.put w v).toNat.testBit i = if f.lo ≤ i ∧ i ≤ f.hi then v.testBit (i - f.lo) else w.toNat.testBit i := by
  have e : w.toNat / 2 ^ (f.hi + 1) * 2 ^ (f.hi + 1) + v % 2 ^ f.width * 2 ^ f.lo + w.toNat % 2 ^ f.lo =
      2 ^ f.lo * (2 ^ f.width * (w.toNat / 2 ^ (f.hi + 1)) + v % 2 ^ f.width) + w.toNat % 2 ^ f.lo := by
    have hp : 2 ^ (f.hi + 1) = 2 ^ f.lo * 2 ^ f.width := by
      rw [← Nat.pow_add]; congr 1; unfold Fld.width; omega
    rw [hp]; ring
  unfold Fld.put
  rw [e, BitVec.toNat_ofNat, Nat.testBit_mod_two_pow]
  have hw : i - f.lo < f.width ↔ (i ≤ f.hi ∨ i < f.lo) := by unfold Fld.width; omega
  rw [Nat.testBit_two_pow_mul_add _ (Nat.mod_lt _ (Nat.two_pow_pos _)), Nat.testBit_two_pow_mul_add _ (Nat.mod_lt _ (Nat.two_pow_pos _))]
  by_cases h1 : i < f.lo
  · simp [h1, hi, Nat.testBit_mod_two_pow, show ¬ f.lo ≤ i by omega]
  · by_cases h2 : i ≤ f.hi
    · have h3 : i - f.lo < f.width := hw.mpr (Or.inl h2)
      simp [h1, hi, h2, h3, Nat.testBit_mod_two_pow, show f.lo ≤ i by omega]
    · have h3 : ¬ i - f.lo < f.width := fun c => (hw.mp c).elim h2 h1
      simp only [h1, hi, h3, if_false, decide_true, Bool.true_and, show ¬ (f.lo ≤ i ∧ i ≤ f.hi) by omega]
      rw [Nat.testBit_div_two_pow]
      congr 1
      unfold Fld.width at h3 ⊢; omega

/-- The bits of a field. -/
theorem Fld.testBit_get (f : Fld) (w : Word) (i : Nat) :
    (f.get w).testBit i = (decide (i < f.width) && w.toNat.testBit (i + f.lo)) := by
  unfold Fld.get
  rw [Nat.testBit_mod_two_pow, Nat.testBit_div_two_pow, Nat.add_comm]

/-- A field reads the low bits of what was put there. -/
theorem Fld.get_put_self (f : Fld) (w : Word) (v : Nat) (h : f.lo ≤ f.hi) (h32 : f.hi < 32) : f.get (f.put w v) = v % 2 ^ f.width := by
  apply Nat.eq_of_testBit_eq
  intro i
  rw [Fld.testBit_get, Nat.testBit_mod_two_pow]
  by_cases hi : i < f.width
  · have hb : i + f.lo ≤ f.hi := by unfold Fld.width at hi; omega
    rw [Fld.testBit_put f w v _ h (by omega)]
    simp [hi, hb]
  · simp [hi]

/-- A field keeps its value when another is put. -/
theorem Fld.get_put_ne (f g : Fld) (w : Word) (v : Nat) (h : g.lo ≤ g.hi) (h32 : f.hi < 32) (d : f.hi < g.lo ∨ g.hi < f.lo) :
    f.get (g.put w v) = f.get w := by
  apply Nat.eq_of_testBit_eq
  intro i
  rw [Fld.testBit_get, Fld.testBit_get]
  by_cases hi : i < f.width
  · have hb : i + f.lo ≤ f.hi := by unfold Fld.width at hi; omega
    rw [Fld.testBit_put g w v _ h (by omega), if_neg (by omega)]
  · simp [hi]

/-- A field of a device-wide register reads what was put there. -/
theorem State.dGet_dPut_self (s : State) (o : Nat) (f : Fld) (v : Nat) (h : f.lo ≤ f.hi) (h32 : f.hi < 32) :
    (s.dPut o f v).dGet o f = v % 2 ^ f.width := by
  unfold State.dGet State.dPut; rw [State.rd_wr_self, Fld.get_put_self _ _ _ h h32]

/-- A field of a shepherd's copy reads what was put there. -/
theorem State.pGet_pPut_self (s : State) (x : Shep) (o : Nat) (f : Fld) (v : Nat) (h : f.lo ≤ f.hi) (h32 : f.hi < 32) :
    (s.pPut x o f v).pGet x o f = v % 2 ^ f.width := by
  unfold State.pGet State.pPut; rw [State.rd_wr_self, Fld.get_put_self _ _ _ h h32]

/-! ### The canonical form of the register words -/

theorem State.reset_regsWf : State.reset.regsWf := rfl

theorem State.wr_regsWf (s : State) (b o : Nat) (w : Word) (ho : o < 0x10000000) (h : s.regsWf) : (s.wr b o w).regsWf := by
  have e : resetWord o = resetAt (regKey b o) := by unfold resetAt regKey; congr 1; omega
  show Tab.wf resetAt (Tab.set s.regs (resetWord o) (regKey b o) w) = true
  rw [e]
  exact Tab.wf_set resetAt s.regs (regKey b o) w h

theorem State.dropRegs_regsWf (s : State) (b : Nat) (p : Nat → Bool) (h : s.regsWf) : (s.dropRegs b p).regsWf :=
  Tab.wf_filter resetAt _ s.regs h


end Sys2Proof.Machine
end

