-- ==== Sys2Proof/Tests/Slice0.lean ====
section
/-! SUPPORT. Tests on small states, and for each statement of the provers states and operands that meet the hypotheses of its clauses. -/

open Sys2Proof Sys2Proof.Machine Claims

namespace Sys2Proof.Tests

-- Each proof is checked before the next begins, which keeps the memory of a compile of the whole package small.
set_option Elab.async false

/-- PARKED, with Shepherd A active, B standing by, and the CPL ring of A on. -/
def up : State :=
  State.pPut (State.pPut { State.reset with mode := .parked, shA := { role := .active, halted := false, booted := true }, shB := { role := .standby, halted := false, booted := true } }
    .A (HIF_RING_CFG 0) fHIF_RING_CFG_SIZE 2) .A (HIF_RING_CFG 0) fHIF_RING_CFG_EN 1

def inMode (m : Mode) : State := { up with mode := m }

/-- A descriptor on ring 0 with the first bytes of INLINE and a payload. -/
def cmd (op : Nat) (inl : List Nat := []) (pay : List Nat := []) : Desc :=
  ⟨0, 0, op, 0, 0, 7, 0, pay.length, 0, 0, (List.range 32).map fun i => BitVec.ofNat 8 (inl.getD i 0), some (pay.map fun b => BitVec.ofNat 8 b)⟩

/-- The descriptor starts in s, where no fold holds it. -/
def starts (s : State) (d : Desc) : Bool :=
  s.mayStart d && s.serves d && decide (descFail d (decide (s.mode = .safe)) = none) && !(s.sh s.lead).fold.any fun f => sameCmd d f.d

theorem starts_of {s : State} {d : Desc} (h : starts s d = true) : Starts s s d := by
  unfold starts at h
  simp only [Bool.and_eq_true, Bool.not_eq_true', decide_eq_true_eq] at h
  obtain ⟨⟨⟨h1, h2⟩, h3⟩, h4⟩ := h
  refine ⟨h1, ?_, h2, h3⟩
  unfold State.claimDesc
  rw [h4]
  rfl

/-! ### The machine -/

theorem witness_EmptyQueueIdles :
    (let s := { up with mode := .off }; s.pending = [] ∧ s.mode = .off) ∧
    (let s := { up with edge := 799 }; s.pending = [] ∧ s.edge % 400 = 399) ∧
    (let s := { up with edge := 798 }; s.pending = [] ∧ s.mode ≠ .off ∧ s.mode ≠ .reset ∧ s.edge % 400 ≠ 399) :=
  ⟨by decide +kernel,
   by decide +kernel,
   by decide +kernel⟩

theorem witness_ResetLeavesBoot :
    (regFind PWR_RAIL ≠ none ∧ PWR_RAIL < 0x1000000 ∧ PWR_RAIL ≠ ALM_CLASS 0x0E ∧ 0x1000000 ≤ RIP_WORD 0 0) :=
  by decide +kernel

theorem witness_RegisterWordsHold :
    (0xFFFFFFC < 0x10000000 ∧ (2 ≠ 1 ∨ 8 ≠ 8) ∧ up.regsWf) :=
  by decide +kernel

theorem witness_LifeCycleOnlyForward :
    (let s := { up with fuses := { life := 1, due := some (400, 2) }, edge := 400, pending := [.lifecycleReset] }; s.lifeOk = true ∧ ∃ t, step s = .next t) :=
  ⟨by decide +kernel, _, rfl⟩

theorem witness_OtherCommandsLeaveFuses :
    (Claims.touchesFuses .clearNRise = false ∧ ∃ t, exec .clearNRise up = .next t) :=
  ⟨rfl, _, rfl⟩

theorem witness_DescriptorBytesSpellIt :
    ((cmd 0x5C [3, 255] [1, 2]).fits = true ∧ 16 < 17 ∧ 65535 < 65536 ∧ (zeros 64).length = 64) :=
  by decide +kernel

theorem witness_RowsStartWhatBoundariesStart :
    (let d := cmd 0x03 [4]; (Instr.modeParked d).wellFormed = true ∧ (Instr.modeParked d).desc? = some d ∧ d.op ∉ [0x60, 0x62, 0x63]) :=
  by decide +kernel

/-! ### Basic descriptors -/

/-- Two domains: 0 has one port of one element, 1 is a Benes of four ports whose first cell has one element. -/
def theMap : FabricMap :=
  ⟨9, [⟨0, 2, 1, 0, 0, 1, 0, false⟩, ⟨1, 0, 4, 8, 6, 1, 0, true⟩], [⟨0, 1, 0, 1, 255, 0, 255, 0xFFFF, 0⟩, ⟨2, 1, 0, 1, 255, 1, 0, 0, 0⟩], [⟨1, 0, 0, 1, 0, 0⟩],
    [⟨3, 0, 0xFFFF, 0, [0]⟩], []⟩

/-- The state with the map in force, in a mode. -/
def mapped (m : Mode) : State := { up with mode := m, map := some theMap }

/-- The state with paddock 2 napping. -/
def napping : State := up.modPdk 2 fun k => { k with nap := true }

theorem witness_BasicDescriptorsComplete :
    (let s := up; let d := cmd 0; Starts s s d ∧ d.op = 0x00) ∧
    (let d := cmd 0xFE; up.mayStart d = true ∧ up = up.claimDesc d ∧ up.serves d = true ∧ d.op ∉ opcodes) ∧
    (let s := up; let d := cmd 0x01 [] [0, 0, 16, 0, 7, 0, 0, 0]; Starts s s d ∧ d.op = 0x01 ∧ d.len % 8 = 0 ∧ ∀ r ∈ listRecs 8 d, s.setupFail r = none) ∧
    (let s := up; let d := cmd 0x02; Starts s s d ∧ d.op = 0x02 ∧ s.locked = false) ∧
    (let s := up.setLock; let d := cmd 0x02; Starts s s d ∧ d.op = 0x02 ∧ s.locked = true) ∧
    (let s := up; let d := cmd 0x68 [1, 0, 15]; Starts s s d ∧ d.op = 0x68 ∧ d.in2 32 ≠ 0 ∧ d.in1 34 < 16) :=
  ⟨⟨starts_of (by decide +kernel), by decide +kernel⟩,
   by decide +kernel,
   ⟨starts_of (by decide +kernel), by decide +kernel⟩,
   ⟨starts_of (by decide +kernel), by decide +kernel⟩,
   ⟨starts_of (by decide +kernel), by decide +kernel⟩,
   ⟨starts_of (by decide +kernel), by decide +kernel⟩⟩

theorem witness_ModeDescriptorsChangeMode :
    (let s := up; let d := cmd 3 [4, 0, 0, 1]; Starts s s d ∧ d.op = 0x03 ∧ d.in1 35 < 2 ∧ s.lp ≠ .quiesce ∧ s.napMask = 0 ∧ d.in1 32 = 4 ∧ s.mode = .parked) ∧
    (let s := inMode .service; let d := cmd 3 [4]; Starts s s d ∧ d.op = 0x03 ∧ d.in1 35 < 2 ∧ s.lp ≠ .quiesce ∧ s.napMask = 0 ∧ d.in1 32 = 4 ∧ s.mode = .service) ∧
    (let s := inMode .maintenance; let d := cmd 3 [4]; Starts s s d ∧ d.op = 0x03 ∧ d.in1 35 < 2 ∧ s.lp ≠ .quiesce ∧ s.napMask = 0 ∧ d.in1 32 = 4 ∧ s.mode = .maintenance ∧ s.survey = none) ∧
    (let s := inMode .safe; let d := cmd 3 [4]; Starts s s d ∧ d.op = 0x03 ∧ d.in1 35 < 2 ∧ s.lp ≠ .quiesce ∧ s.napMask = 0 ∧ d.in1 32 = 4 ∧ s.mode = .safe ∧ s.safeExitOk = true) ∧
    (let s := inMode .service; let d := cmd 3 [5]; Starts s s d ∧ d.op = 0x03 ∧ d.in1 35 < 2 ∧ s.lp ≠ .quiesce ∧ s.napMask = 0 ∧ d.in1 32 = 5 ∧ s.mode = .service) ∧
    (let s := inMode .maintenance; let d := cmd 3 [5]; Starts s s d ∧ d.op = 0x03 ∧ d.in1 35 < 2 ∧ s.lp ≠ .quiesce ∧ s.napMask = 0 ∧ d.in1 32 = 5 ∧ s.mode = .maintenance ∧ s.survey = none) ∧
    (let s := mapped .parked; let d := cmd 3 [5, 0, 0, 1]; Starts s s d ∧ d.op = 0x03 ∧ d.in1 35 < 2 ∧ s.lp ≠ .quiesce ∧ s.napMask = 0 ∧ d.in1 32 = 5 ∧ s.mode = .parked ∧ s.map ≠ none) ∧
    (let s := inMode .service; let d := cmd 3 [6, 0, 15]; Starts s s d ∧ d.op = 0x03 ∧ d.in1 35 < 2 ∧ s.lp ≠ .quiesce ∧ s.napMask = 0 ∧ d.in1 32 = 6 ∧ d.in1 33 = 0 ∧ d.in1 34 < s.part.paddocks ∧ OutOfService.paddock 15 = .paddock (d.in1 34) ∧ s.mode = .service) ∧
    (let s := { inMode .maintenance with oos := .paddock 15 }; let d := cmd 3 [6, 0, 15]; Starts s s d ∧ d.op = 0x03 ∧ d.in1 35 < 2 ∧ s.lp ≠ .quiesce ∧ s.napMask = 0 ∧ d.in1 32 = 6 ∧ d.in1 33 = 0 ∧ d.in1 34 < s.part.paddocks ∧ OutOfService.paddock 15 = .paddock (d.in1 34) ∧ s.mode = .maintenance) ∧
    (let s := mapped .service; let d := cmd 3 [6, 1, 1]; Starts s s d ∧ d.op = 0x03 ∧ d.in1 35 < 2 ∧ s.lp ≠ .quiesce ∧ s.napMask = 0 ∧ d.in1 32 = 6 ∧ d.in1 33 = 1 ∧ s.dom? (d.in1 34) ≠ none ∧ OutOfService.domain 1 = .domain (d.in1 34) ∧ s.mode = .service) ∧
    (let s := { up with lp := .quiesce }; let d := cmd 3 [4]; Starts s s d ∧ d.op = 0x03 ∧ d.in1 35 < 2 ∧ s.lp = .quiesce ∧ d.in1 32 = 4) ∧
    (let s := napping; let d := cmd 3 [5]; Starts s s d ∧ d.op = 0x03 ∧ d.in1 35 < 2 ∧ s.napMask ≠ 0 ∧ d.in1 32 = 5) ∧
    (let s := napping; let d := cmd 3 [6, 1]; Starts s s d ∧ d.op = 0x03 ∧ d.in1 35 < 2 ∧ s.napMask ≠ 0 ∧ d.in1 32 = 6 ∧ d.in1 33 < 2) :=
  ⟨⟨starts_of (by decide +kernel), by decide +kernel⟩,
   ⟨starts_of (by decide +kernel), by decide +kernel⟩,
   ⟨starts_of (by decide +kernel), by decide +kernel⟩,
   ⟨starts_of (by decide +kernel), by decide +kernel⟩,
   ⟨starts_of (by decide +kernel), by decide +kernel⟩,
   ⟨starts_of (by decide +kernel), by decide +kernel⟩,
   ⟨starts_of (by decide +kernel), by decide +kernel⟩,
   ⟨starts_of (by decide +kernel), by decide +kernel⟩,
   ⟨starts_of (by decide +kernel), by decide +kernel⟩,
   ⟨starts_of (by decide +kernel), by decide +kernel⟩,
   ⟨starts_of (by decide +kernel), by decide +kernel⟩,
   ⟨starts_of (by decide +kernel), by decide +kernel⟩,
   ⟨starts_of (by decide +kernel), by decide +kernel⟩⟩

theorem witness_ModeRequestsReachTheirMode :
    (let s := inMode .service; let d := cmd 3 [4]; Starts s s d ∧ d.op = 0x03 ∧ d.in1 35 < 2 ∧ s.lp ≠ .quiesce ∧ s.napMask = 0 ∧ s.survey = none ∧ d.in1 32 = 4 ∧ s.mode = .service) ∧
    (let s := inMode .maintenance; let d := cmd 3 [4]; Starts s s d ∧ d.op = 0x03 ∧ d.in1 35 < 2 ∧ s.lp ≠ .quiesce ∧ s.napMask = 0 ∧ s.survey = none ∧ d.in1 32 = 4 ∧ s.mode = .maintenance) ∧
    (let s := inMode .safe; let d := cmd 3 [4]; Starts s s d ∧ d.op = 0x03 ∧ d.in1 35 < 2 ∧ s.lp ≠ .quiesce ∧ s.napMask = 0 ∧ s.survey = none ∧ d.in1 32 = 4 ∧ s.mode = .safe ∧ s.safeExitOk = true) ∧
    (let s := inMode .maintenance; let d := cmd 3 [5]; Starts s s d ∧ d.op = 0x03 ∧ d.in1 35 < 2 ∧ s.lp ≠ .quiesce ∧ s.napMask = 0 ∧ s.survey = none ∧ d.in1 32 = 5 ∧ s.mode = .maintenance) ∧
    (let s := mapped .parked; let d := cmd 3 [5, 0, 0, 1]; Starts s s d ∧ d.op = 0x03 ∧ d.in1 35 < 2 ∧ s.lp ≠ .quiesce ∧ s.napMask = 0 ∧ s.survey = none ∧ d.in1 32 = 5 ∧ s.mode = .parked ∧ s.map ≠ none) ∧
    (let s := inMode .service; let d := cmd 3 [6, 0, 15]; Starts s s d ∧ d.op = 0x03 ∧ d.in1 35 < 2 ∧ s.lp ≠ .quiesce ∧ s.napMask = 0 ∧ s.survey = none ∧ d.in1 33 = 0 ∧ d.in1 34 < s.part.paddocks ∧ OutOfService.paddock 15 = .paddock (d.in1 34) ∧ d.in1 32 = 6 ∧ s.mode = .service) ∧
    (let s := mapped .service; let d := cmd 3 [6, 1, 1]; Starts s s d ∧ d.op = 0x03 ∧ d.in1 35 < 2 ∧ s.lp ≠ .quiesce ∧ s.napMask = 0 ∧ s.survey = none ∧ d.in1 33 = 1 ∧ s.dom? (d.in1 34) ≠ none ∧ OutOfService.domain 1 = .domain (d.in1 34) ∧ d.in1 32 = 6 ∧ s.mode = .service) ∧
    (let s := { inMode .maintenance with oos := .paddock 15 }; let d := cmd 3 [6, 0, 15]; Starts s s d ∧ d.op = 0x03 ∧ d.in1 35 < 2 ∧ s.lp ≠ .quiesce ∧ s.napMask = 0 ∧ s.survey = none ∧ d.in1 33 = 0 ∧ d.in1 34 < s.part.paddocks ∧ OutOfService.paddock 15 = .paddock (d.in1 34) ∧ d.in1 32 = 6 ∧ s.mode = .maintenance ∧ s.oos = .paddock 15) :=
  ⟨⟨starts_of (by decide +kernel), by decide +kernel⟩,
   ⟨starts_of (by decide +kernel), by decide +kernel⟩,
   ⟨starts_of (by decide +kernel), by decide +kernel⟩,
   ⟨starts_of (by decide +kernel), by decide +kernel⟩,
   ⟨starts_of (by decide +kernel), by decide +kernel⟩,
   ⟨starts_of (by decide +kernel), by decide +kernel⟩,
   ⟨starts_of (by decide +kernel), by decide +kernel⟩,
   ⟨starts_of (by decide +kernel), by decide +kernel⟩⟩

theorem witness_PowerDescriptorsAct :
    (let s := up; let d := cmd 4 [0, 0, 255, 255]; Starts s s d ∧ d.op = 0x04 ∧ d.in1 32 = 0 ∧ d.in2 34 < 2 ^ s.part.paddocks ∧ s.mode = .parked ∧ s.lp = .none) ∧
    (let s := up; let d := cmd 4 [1, 0, 255, 255]; Starts s s d ∧ d.op = 0x04 ∧ d.in1 32 = 1 ∧ d.in2 34 < 2 ^ s.part.paddocks ∧ s.mode = .parked ∧
      (s.wakePdks (s.maskPdks (d.in2 34))).waking = [] ∧ (s.wakePdks (s.maskPdks (d.in2 34))).lp = .none) ∧
    (let s := napping; let d := cmd 4 [1, 0, 255, 255]; Starts s s d ∧ d.op = 0x04 ∧ d.in1 32 = 1 ∧ d.in2 34 < 2 ^ s.part.paddocks ∧ s.mode = .parked ∧
      (s.wakePdks (s.maskPdks (d.in2 34))).waking ≠ [] ∧ (s.wakePdks (s.maskPdks (d.in2 34))).lp = .none) ∧
    (let s := { napping with lp := .quiesce }; let d := cmd 4 [1, 0, 255, 255]; Starts s s d ∧ d.op = 0x04 ∧ d.in1 32 = 1 ∧ d.in2 34 < 2 ^ s.part.paddocks ∧ s.mode = .parked ∧
      (s.wakePdks (s.maskPdks (d.in2 34))).lp ≠ .none) ∧
    (let s := up; let d := cmd 4 [2]; Starts s s d ∧ d.op = 0x04 ∧ d.in1 32 = 2 ∧ s.mode = .parked ∧ s.lp = .none) ∧
    (let s := up; let d := cmd 4 [3]; Starts s s d ∧ d.op = 0x04 ∧ d.in1 32 = 3 ∧ s.mode = .parked ∧ s.lp = .none) ∧
    (let s := { up with lp := .quiesce }; let d := cmd 4 [4]; Starts s s d ∧ d.op = 0x04 ∧ d.in1 32 = 4 ∧ s.lp = .quiesce) ∧
    (let s := up; let d := cmd 4 [5, 15]; Starts s s d ∧ d.op = 0x04 ∧ d.in1 32 = 5 ∧ d.in1 33 < s.part.paddocks ∧ s.pdkResetOk (d.in1 33) = true) ∧
    (let s := up; let d := cmd 4 [6, 1]; Starts s s d ∧ d.op = 0x04 ∧ d.in1 32 = 6 ∧ d.in1 33 = Shep.B.num ∧ ∀ y ∈ [Shep.A, Shep.B], s.role y = .active ∨ s.role y = .standby) ∧
    (let s := up; let d := cmd 4 [7, 0]; Starts s s d ∧ d.op = 0x04 ∧ d.in1 32 = 7 ∧ d.in1 33 = Shep.A.num) :=
  ⟨⟨starts_of (by decide +kernel), by decide +kernel⟩,
   ⟨starts_of (by decide +kernel), by decide +kernel⟩,
   ⟨starts_of (by decide +kernel), by decide +kernel⟩,
   ⟨starts_of (by decide +kernel), by decide +kernel⟩,
   ⟨starts_of (by decide +kernel), by decide +kernel⟩,
   ⟨starts_of (by decide +kernel), by decide +kernel⟩,
   ⟨starts_of (by decide +kernel), by decide +kernel⟩,
   ⟨starts_of (by decide +kernel), by decide +kernel⟩,
   ⟨starts_of (by decide +kernel), by decide +kernel⟩,
   ⟨starts_of (by decide +kernel), by decide +kernel⟩⟩

/-! ### Descriptors that carry a list -/

theorem listOk_of {size : Nat} {d : Desc} {rsv out bad : List Byte → Bool}
    (h : (decide (d.len % size = 0) && (listRecs size d).all fun r => !rsv r && !out r && !bad r) = true) : ListOk size d rsv out bad := by
  rw [Bool.and_eq_true, decide_eq_true_eq, List.all_eq_true] at h
  refine ⟨h.1, fun r hr => ?_⟩
  have k := h.2 r hr
  simp only [Bool.and_eq_true, Bool.not_eq_true'] at k
  exact ⟨k.1.1, k.1.2, k.2⟩

theorem witness_ChannelListsStart_drive :
    (let s := up; let d := cmd 0x10 [] [0, 0, 7, 0, 0, 0, 0, 0, 255, 127, 0, 0, 0, 0, 0, 0]; Starts s s d ∧ d.op = 0x10 ∧ ListOk 8 d (fun r => recRsv r 3 1 || recRsv r 6 2) (fun r => decide (s.part.chans ≤ recNum r)) (fun r => decide (6 = leAt r 2 1 ∨ 8 ≤ leAt r 2 1))) ∧
    (let s := up; let d := cmd 0x11 [0] [255, 127, 0, 0]; Starts s s d ∧ d.op = 0x11 ∧ d.in1 32 = 0 ∧ ListOk 4 d (fun r => recRsv r 2 2) (fun r => decide (s.part.chans ≤ recNum r)) (fun _ => false)) ∧
    (let s := up; let d := cmd 0x11 [1] [255, 127, 0, 0]; Starts s s d ∧ d.op = 0x11 ∧ d.in1 32 = 1 ∧ ListOk 4 d (fun r => recRsv r 2 2) (fun r => decide (s.part.chans ≤ recNum r)) (fun _ => false)) ∧
    (let s := up; let d := cmd 0x12 [] [255, 63, 3, 240, 2, 0, 0, 0]; Starts s s d ∧ d.op = 0x12 ∧ ListOk 8 d (fun r => recRsv r 5 3) (fun r => decide (s.part.senses ≤ recNum r)) (fun r => decide (3 < leAt r 2 1 ∨ 240 < leAt r 3 1 ∨ 2 < leAt r 4 1))) :=
  ⟨⟨starts_of (by decide +kernel), by decide +kernel, listOk_of (by decide +kernel)⟩,
   ⟨starts_of (by decide +kernel), by decide +kernel, by decide +kernel, listOk_of (by decide +kernel)⟩,
   ⟨starts_of (by decide +kernel), by decide +kernel, by decide +kernel, listOk_of (by decide +kernel)⟩,
   ⟨starts_of (by decide +kernel), by decide +kernel, listOk_of (by decide +kernel)⟩⟩

theorem witness_ChannelListsStart_loop :
    (let s := up; let d := cmd 0x18 [] [255, 127, 4, 0, 255, 255, 255, 255, 0, 0, 0, 0, 0, 0, 0, 0, 0, 0, 0, 255, 0, 0, 0, 0, 0, 0, 0, 0, 0, 0, 0, 0]; Starts s s d ∧ d.op = 0x18 ∧ ListOk 32 d (fun r => decide (32 ≤ leAt r 2 1 ∨ 4 ≤ leAt r 22 1) || recRsv r 23 9)
      (fun r => decide (s.part.chans ≤ recNum r) || s.monOut (leAt r 4 2) || s.monOut (leAt r 6 2))
      (fun r => decide (4 < leAt r 2 1 % 8 ∨ 15 < leAt r 3 1) || (decide (leAt r 3 1 ≠ 0) && !s.isHeater (recNum r)) ||
        decide (63 < leAt r 19 1 ∧ leAt r 19 1 ≠ 255))) ∧
    (let s := up; let d := cmd 0x19 [] [255, 127, 2, 3, 255, 63, 0, 0, 0, 0, 0, 0, 0, 0, 0, 0]; Starts s s d ∧ d.op = 0x19 ∧ ListOk 16 d (fun r => recRsv r 6 2 || recRsv r 11 1) (fun r => decide (s.part.chans ≤ recNum r) || s.monOut (leAt r 4 2))
      (fun r => decide (2 < leAt r 2 1 ∨ 3 < leAt r 3 1)) ∧ allocate s.ownedRanges (armNeeds (listRecs 16 d)) ≠ none) ∧
    (let s := up; let d := cmd 0x1A [] [255, 127, 255, 0, 0, 0, 2, 0]; Starts s s d ∧ d.op = 0x1A ∧ ListOk 4 d (fun r => recRsv r 3 1) (fun r => decide (s.part.chans ≤ recNum r)) (fun r => decide (2 < leAt r 2 1 ∧ leAt r 2 1 ≠ 255))) ∧
    (let s := up; let d := cmd 0x1B [] [255, 127, 0, 0]; Starts s s d ∧ d.op = 0x1B ∧ ListOk 4 d (fun r => recRsv r 2 2) (fun r => decide (s.part.chans ≤ recNum r)) (fun _ => false)) ∧
    (let s := up; let d := cmd 0x1C [] [255, 127, 0, 0]; Starts s s d ∧ d.op = 0x1C ∧ ListOk 4 d (fun r => recRsv r 2 2) (fun r => decide (s.part.chans ≤ recNum r)) (fun _ => false)) ∧
    (let s := up; let d := cmd 0x1D [] [255, 127, 255, 255]; Starts s s d ∧ d.op = 0x1D ∧ ListOk 4 d (fun _ => false) (fun r => decide (s.part.chans ≤ recNum r)) (fun _ => false)) :=
  ⟨⟨starts_of (by decide +kernel), by decide +kernel, listOk_of (by decide +kernel)⟩,
   ⟨starts_of (by decide +kernel), by decide +kernel, listOk_of (by decide +kernel), by decide +kernel⟩,
   ⟨starts_of (by decide +kernel), by decide +kernel, listOk_of (by decide +kernel)⟩,
   ⟨starts_of (by decide +kernel), by decide +kernel, listOk_of (by decide +kernel)⟩,
   ⟨starts_of (by decide +kernel), by decide +kernel, listOk_of (by decide +kernel)⟩,
   ⟨starts_of (by decide +kernel), by decide +kernel, listOk_of (by decide +kernel)⟩⟩

theorem witness_CompensationDescriptorsStart :
    (let s := up; let d := cmd 0x20 [] (([255, 127, 7] : List Nat) ++ List.replicate 333 0); Starts s s d ∧ d.op = 0x20 ∧ ListOk 336 d (fun r => decide (8 ≤ leAt r 2 1) || recRsv r 3 5) (fun r => decide (s.part.chans ≤ recNum r))
      (fun r => decide (leAt r 2 1 / 4 % 2 = 1 ∧ 1 ≤ fCMP_RIP_CFG_PERIOD.get (BitVec.ofNat 32 (leAt r 332 4)) ∧
        fCMP_RIP_CFG_PERIOD.get (BitVec.ofNat 32 (leAt r 332 4)) ≤ 31))) ∧
    (let s := up; let d := cmd 0x21 [] [255, 127, 1, 0, 5, 0, 0, 0]; let rs : List (Nat × Nat × List Nat) := [(32767, 1, [5])]; Starts s s d ∧ d.op = 0x21 ∧ d.len % 4 = 0 ∧ xtalkRecs (d.len / 4) d.pay = (rs, true) ∧ ∀ e ∈ rs, e.1 < s.part.chans ∧ e.2.1 ≤ 512) ∧
    (let s := up; let d := cmd 0x22 [0, 64, 0, 0, 0, 0, 0, 128, 0, 0, 0, 0, 1] [255, 127, 1, 0]; Starts s s d ∧ d.op = 0x22 ∧ ListOk 4 d (fun r => recRsv r 3 1) (fun r => decide (s.part.chans ≤ recNum r)) (fun r => decide (1 < leAt r 2 1)) ∧ d.in2 32 ≤ 0x4000 ∧ d.in2 38 ≤ 32768 ∧ d.in1 44 ≤ 1) ∧
    (let s := up; let d := cmd 0x23; Starts s s d ∧ d.op = 0x23 ∧ s.sGet CMP_FIT_CTRL fCMP_FIT_CTRL_EN = 0) ∧
    (let s := State.modFit up .A fun f => { f with log := [zeros 8, zeros 16] }; let d := { cmd 0x24 with len := 8 }; Starts s s d ∧ d.op = 0x24 ∧ recsIn d.len (s.sh s.lead).fit.log ≠ []) ∧
    (let s := State.modFit up .A fun f => { f with log := [zeros 8, zeros 16] }; let d := cmd 0x25 [24]; Starts s s d ∧ d.op = 0x25 ∧ d.in4 32 ≤ recBytes (s.sh s.lead).fit.log ∧ recBytes (recsIn (d.in4 32) (s.sh s.lead).fit.log) = d.in4 32) :=
  ⟨⟨starts_of (by decide +kernel), by decide +kernel, listOk_of (by decide +kernel)⟩,
   ⟨starts_of (by decide +kernel), by decide +kernel⟩,
   ⟨starts_of (by decide +kernel), by decide +kernel, listOk_of (by decide +kernel), by decide +kernel⟩,
   ⟨starts_of (by decide +kernel), by decide +kernel⟩,
   ⟨starts_of (by decide +kernel), by decide +kernel⟩,
   ⟨starts_of (by decide +kernel), by decide +kernel⟩⟩

theorem witness_ListsWorkAtBoundaries :
    (let s := up; let j : Job := (⟨cmd 0x01 [] [], .setup, 0, 0, []⟩ : Job); j.due ≤ s.tick ∧ j.kind = .setup ∧ j.phase = 0) ∧
    (let s := up; let j : Job := (⟨cmd 0x11 [] [5, 0, 0, 0], .park, 0, 0, []⟩ : Job); j.due ≤ s.tick ∧ j.kind = .park ∧ j.phase = 0) ∧
    (let s := up; let j : Job := (⟨cmd 0x1B [] [5, 0, 0, 0], .holdLoop, 0, 0, []⟩ : Job); j.due ≤ s.tick ∧ j.kind = .holdLoop ∧ j.phase = 0) ∧
    (let s := up; let j : Job := (⟨cmd 0x20 [] [], .setComp, 0, 0, []⟩ : Job); j.due ≤ s.tick ∧ j.kind = .setComp ∧ j.phase = 0) ∧
    (let s := up; let j : Job := (⟨cmd 0x18 [] [], .setLoop, 0, 0, []⟩ : Job); j.due ≤ s.tick ∧ j.kind = .setLoop ∧ j.phase = 0) ∧
    (let s := up; let j : Job := (⟨cmd 0x1A [] [5, 0, 255, 0], .disarmComp, 1, 0, []⟩ : Job); j.due ≤ s.tick ∧ j.kind = .disarmComp ∧ j.phase = 1) ∧
    (let s := up; let j : Job := (⟨cmd 0x1D [] [5, 0, 1, 0], .seedLoop, 2, 0, []⟩ : Job); j.due ≤ s.tick ∧ j.kind = .seedLoop ∧ j.phase = 2) ∧
    (let s := up; let j : Job := (⟨cmd 0x19 [] [5, 0, 2, 1, 0, 0, 0, 0, 0, 0, 0, 0, 0, 0, 0, 0], .armComp, 1, 0, []⟩ : Job); j.due ≤ s.tick ∧ j.kind = .armComp ∧ j.phase = 1 ∧ allocate s.ownedRanges (armNeeds (listRecs 16 j.d)) = some [(5, 0, 3)]) ∧
    (let s := up; let j : Job := (⟨cmd 0x10 [] [5, 0, 1, 0, 0, 0, 0, 0], .setSpan, 1, 0, []⟩ : Job); j.due ≤ s.tick ∧ j.kind = .setSpan ∧ j.phase = 1) :=
  ⟨by decide +kernel,
   by decide +kernel,
   by decide +kernel,
   by decide +kernel,
   by decide +kernel,
   by decide +kernel,
   by decide +kernel,
   by decide +kernel,
   by decide +kernel⟩

/-! ### Maps and plans -/

/-- A map image of one domain with one port and one element (R31 to R51); its CRC is that of IEEE 802.3 (R51). -/
def image : List Nat :=
  [1, 1, 32, 0, 9, 0, 0, 0, 80, 0, 0, 0, 3, 0, 0, 0, 16, 1, 0, 0, 200, 81, 120, 75, 0, 0, 0, 0, 0, 0, 0, 0, 2, 0, 32, 0, 0, 2, 1, 0, 0, 0, 0,
  0, 1, 0, 0, 0, 0, 0, 0, 0, 0, 0, 0, 0, 0, 0, 0, 0, 0, 0, 0, 0, 3, 0, 16, 0, 0, 0, 1, 0, 1, 255, 0, 255, 255, 255, 0, 0]

/-- A plan of domain 1 whose element goes to the code 600, with a setpoint for port 0. -/
def thePlan : Plan := ⟨1, 5, 9, [0], [1, 0, 2, 3], [⟨0, 1, 700⟩], [⟨2, 10, 600, false, 0⟩]⟩

/-- In a mode with the map and a READY plan in slot 3. -/
def planned (m : Mode) : State := { mapped m with slots := [(3, { state := 2, plan := some thePlan })], library := [(5, some thePlan)] }

/-- With a command under way. -/
def busy (s : State) (j : Job) : State := { s with jobs := [j] }

theorem witness_MapCommandsRun :
    (let j := (⟨cmd 0x08 [] image, .mapLoad, 0, 0, []⟩ : Job); let s := busy up j; s.job? .mapLoad = some j ∧ j.phase = 0 ∧ s.mapModeOk (mapDom j.d) = true ∧
      (validateMap s.part (mapDom j.d) (s.mapLeft (mapDom j.d)) j.d.pay).toOption.isSome = true) ∧
    (let j := (⟨cmd 0x08 [] [1, 2, 3, 4], .mapLoad, 0, 0, []⟩ : Job); let s := busy up j; s.job? .mapLoad = some j ∧ j.phase = 0 ∧ s.mapModeOk (mapDom j.d) = true ∧
      (validateMap s.part (mapDom j.d) (s.mapLeft (mapDom j.d)) j.d.pay).toOption = none) ∧
    (let j := (⟨cmd 0x08 [] image, .mapLoad, 1, 0, []⟩ : Job); let s := busy up j; s.job? .mapLoad = some j ∧ j.phase = 1 ∧ s.edge % 400 = 0 ∧ j.due ≤ s.tick ∧ s.drover = none ∧
      s.mapModeOk (mapDom j.d) = true ∧ (validateMap s.part (mapDom j.d) (s.mapLeft (mapDom j.d)) j.d.pay).toOption.isSome = true) :=
  ⟨by decide +kernel,
   by decide +kernel,
   by decide +kernel⟩

theorem witness_PlansBeginAndAct :
    (let s := planned .service; let d := cmd 0x28 [] (([1, 255, 0, 0, 5, 0, 0, 0, 4, 0, 0, 0, 0, 0, 0] ++ List.replicate 17 0 : List Nat) ++ [1, 0, 0, 0, 2, 0, 3, 0]); Starts s s d ∧ DroverIdle s ∧ planCode s d.op d.pay = 0 ∧ s.dom? (planReq d.pay).dom = some ⟨1, 0, 4, 8, 6, 1, 0, true⟩ ∧ d.op = 0x28) ∧
    (let s := planned .service; let d := cmd 0x29 [] (([1, 0, 0, 0, 5, 0, 0, 0, 4, 0, 0, 0, 0, 0, 0] ++ List.replicate 17 0 : List Nat) ++ [1, 0, 0, 0]); Starts s s d ∧ DroverIdle s ∧ planCode s d.op d.pay = 0 ∧ s.dom? (planReq d.pay).dom = some ⟨1, 0, 4, 8, 6, 1, 0, true⟩ ∧ d.op = 0x29) ∧
    (let s := planned .service; let d := cmd 0x2A [] (([0, 0, 1, 0, 5, 0, 0, 0, 1, 0, 0, 0, 0, 0, 0] ++ List.replicate 17 0 : List Nat) ++ [0, 0, 88, 2]); Starts s s d ∧ DroverIdle s ∧ planCode s d.op d.pay = 0 ∧ s.dom? (planReq d.pay).dom = some ⟨0, 2, 1, 0, 0, 1, 0, false⟩ ∧ d.op = 0x2A ∧ (planReq d.pay).dryRun = false ∧ ((planReq d.pay).store = true → s.libFull (planReq d.pay).planId = false)) ∧
    (let s := planned .service; let d := cmd 0x2B [255]; Starts s s d ∧ DroverIdle s ∧ s.routeModeOk d.op = true ∧ d.op = 0x2B ∧ s.slotBusy (d.in1 32) = false) ∧
    (let s := planned .service; let d := cmd 0x2C [3]; Starts s s d ∧ DroverIdle s ∧ s.routeModeOk d.op = true ∧ d.op = 0x2C ∧ (s.slot (d.in1 32)).plan = some thePlan ∧ 2 ≤ (s.slot (d.in1 32)).state ∧ (s.slot (d.in1 32)).refresh = false) ∧
    (let s := planned .service; let d := cmd 0x2D [3, 0, 0, 0, 6]; Starts s s d ∧ DroverIdle s ∧ s.routeModeOk d.op = true ∧ d.op = 0x2D ∧ (s.slot (d.in1 32)).plan = some thePlan ∧ 2 ≤ (s.slot (d.in1 32)).state ∧ s.libFull (d.in4 36) = false) ∧
    (let s := planned .service; let d := cmd 0x2E [0, 0, 0, 0, 5]; Starts s s d ∧ DroverIdle s ∧ s.routeModeOk d.op = true ∧ d.op = 0x2E ∧ s.libRead (d.in4 36) = some thePlan ∧ s.dom? thePlan.dom = some ⟨1, 0, 4, 8, 6, 1, 0, true⟩ ∧ s.slotBusy (d.in1 32) = false ∧
      thePlan.mapId = (s.map.map fun m => m.id).getD 0 ∧ thePlan.image.map (fun e => e.ch) = sortN (s.domChans 1)) ∧
    (let s := planned .safe; let d := { cmd 0x30 [0, 0, 0, 0, 5] with len := 147456 }; Starts s s d ∧ DroverIdle s ∧ s.routeModeOk d.op = true ∧ d.op = 0x30 ∧ s.part.recBytes ≤ d.len ∧ s.libRead (d.in4 36) = some thePlan) ∧
    (let s := planned .service; let d := cmd 0x31 [0, 0, 0, 0, 5]; Starts s s d ∧ DroverIdle s ∧ s.routeModeOk d.op = true ∧ d.op = 0x31 ∧ s.libGet (d.in4 36) ≠ none) :=
  ⟨⟨starts_of (by decide +kernel), ⟨by decide +kernel, by decide +kernel, by decide +kernel⟩, by decide +kernel⟩,
   ⟨starts_of (by decide +kernel), ⟨by decide +kernel, by decide +kernel, by decide +kernel⟩, by decide +kernel⟩,
   ⟨starts_of (by decide +kernel), ⟨by decide +kernel, by decide +kernel, by decide +kernel⟩, by decide +kernel⟩,
   ⟨starts_of (by decide +kernel), ⟨by decide +kernel, by decide +kernel, by decide +kernel⟩, by decide +kernel⟩,
   ⟨starts_of (by decide +kernel), ⟨by decide +kernel, by decide +kernel, by decide +kernel⟩, by decide +kernel⟩,
   ⟨starts_of (by decide +kernel), ⟨by decide +kernel, by decide +kernel, by decide +kernel⟩, by decide +kernel⟩,
   ⟨starts_of (by decide +kernel), ⟨by decide +kernel, by decide +kernel, by decide +kernel⟩, by decide +kernel⟩,
   ⟨starts_of (by decide +kernel), ⟨by decide +kernel, by decide +kernel, by decide +kernel⟩, by decide +kernel⟩,
   ⟨starts_of (by decide +kernel), ⟨by decide +kernel, by decide +kernel, by decide +kernel⟩, by decide +kernel⟩⟩

/-- A descriptor whose payload has its length passes where one without a payload does. -/
theorem descFail_len {d : Desc} {p : List Byte} {safe : Bool} (h1 : d.payload = some p) (h2 : p.length = d.len) (h3 : d.ring ≠ 16) (h4 : d.op ≠ 0x40)
    (h : descFail { d with payload := none, len := 0 } safe = none) : descFail d safe = none := by
  have e : descFail d safe = descFail { d with payload := none, len := 0 } safe := by
    unfold descFail needsPayload Desc.expert Desc.in1
    simp [h1, h2, h3, h4]
  rw [e, h]

/-- A PLAN_IMPORT on the smallest part. -/
def import1 : Desc :=
  ⟨0, 0, 0x2F, 0, 0, 7, 0, 49152, 0, 0, zeros 32, some ([6, 0, 0, 0, 1, 0, 0, 0, 9, 0, 0, 0, 4, 0, 0, 0] ++ List.replicate 49136 0)⟩

theorem witness_PlansBeginAndAct_import :
    let s := { planned .service with part := .gl3220 }
    let d := import1
    let p := planOf (sortN (s.domChans (leAt d.pay 4 1))) d.pay
    Starts s s d ∧ DroverIdle s ∧ s.routeModeOk d.op = true ∧ d.op = 0x2F ∧ d.len = s.part.recBytes ∧ zeroAt d.pay [5, 6, 7] = true ∧
      zeroAt d.pay ((List.range 12).map (· + 20)) = true ∧ leAt d.pay 12 2 ≤ 1024 ∧ leAt d.pay 14 2 ≤ 1024 ∧ s.dom? p.dom ≠ none ∧
      s.libFull p.planId = false ∧ p.mapId = (s.map.map fun m => m.id).getD 0 := by
  refine ⟨⟨by decide +kernel, by decide +kernel, by decide +kernel, descFail_len rfl (by rw [List.length_append, List.length_replicate]; rfl) (by decide) (by decide) (by decide +kernel)⟩,
    ⟨by decide +kernel, by decide +kernel, by decide +kernel⟩, by decide +kernel, rfl, rfl, by decide +kernel, by decide +kernel, by decide +kernel,
    by decide +kernel, by decide +kernel, by decide +kernel, by decide +kernel⟩

/-! ### Turnouts, rotations and the sequencer -/

/-- A turnout entry's commit of domain 1 from slot 3, with its source, fire edge, stage and staging number. -/
def com (src instant fire stage seq : Nat) : Commit := ⟨src, 1, 3, instant, 7, 0, 0, fire, false, stage, seq, instant, false⟩

def coming (c : Commit) : State := { planned .service with commits := [c] }

theorem witness_ScheduleDescriptorsAct_turnouts :
    (let s := planned .service; let d := cmd 0x38 [16, 39, 0, 0, 3, 1, 0, 0, 7]; let dom := 1; let es := [turnEnt d.inl]; let cs := (assignInstants s dom es []).1; Starts s s d ∧ d.op = 0x38 ∧ (turnEnt d.inl).dom = dom ∧ EntriesPass s dom es ∧ assignInstants s dom es [] = (cs, false) ∧ rising (cs.map fun k => k.instant) = true ∧
      crowded (((s.domCommits dom).filter fun k => decide (k.src = 0)).map fun k => k.instant) (cs.map fun k => k.instant) = false ∧ s.poolUsed + cs.length ≤ 4096) ∧
    (let s := coming (com 0 30000 12000 0 0); let d := cmd 0x39 [] [1, 0, 2, 0, 0, 0, 0, 0, 0, 0, 0, 0, 0, 0, 0, 0, 16, 39, 0, 0, 3, 1, 0, 0, 7, 0, 0, 0, 0, 0, 0, 0, 0, 0, 0, 0, 3, 1, 2, 0, 8, 0, 0, 0, 0, 0, 0, 0]; let dom := 1; let es := (List.range 2).map fun i => turnEnt (d.pay.drop (16 + 16 * i)); let cs := (assignInstants s dom es []).1; Starts s s d ∧ d.op = 0x39 ∧ d.payByte 1 = 0 ∧ leAt d.pay 2 2 = 2 ∧ leAt d.pay 8 8 = 0 ∧ d.pay.length = 16 + 16 * 2 ∧ EntriesPass s dom es ∧ assignInstants s dom es [] = (cs, false) ∧ rising (cs.map fun k => k.instant) = true ∧
      crowded (((s.domCommits dom).filter fun k => decide (k.src = 0)).map fun k => k.instant) (cs.map fun k => k.instant) = false ∧ s.poolUsed + cs.length ≤ 4096) ∧
    (let s := coming (com 0 30000 12000 0 0); let d := cmd 0x39 [] [1, 1, 1, 0, 0, 39, 0, 0, 0, 0, 0, 0, 0, 0, 0, 0, 16, 39, 0, 0, 3, 1, 0, 0, 7, 0, 0, 0, 0, 0, 0, 0]; let dom := 1; let es := (List.range 1).map fun i => turnEnt (d.pay.drop (16 + 16 * i))
     let t := if s.future (leAt d.pay 4 4) = true then leAt d.pay 4 4 else s.now
     let removed := (s.domCommits dom).filter fun k => decide (k.src = 0 ∧ (k.instant + 2 ^ 32 - t) % 2 ^ 32 < 2 ^ 31) && !s.frozen k
     let c1 := { s with commits := s.commits.filter fun k => decide (k ∉ removed) }
     let cs := (assignInstants c1 dom es []).1; Starts s s d ∧ d.op = 0x39 ∧ d.payByte 1 = 1 ∧ leAt d.pay 2 2 = 1 ∧ leAt d.pay 8 8 = 0 ∧ d.pay.length = 16 + 16 * 1 ∧ EntriesPass s dom es ∧ removed ≠ [] ∧ assignInstants c1 dom es [] = (cs, false) ∧ rising (cs.map fun k => k.instant) = true ∧ (∀ k ∈ cs, (k.instant + 2 ^ 32 - t) % 2 ^ 32 < 2 ^ 31) ∧
      crowded (((s.domCommits dom).filter fun k => decide (k.src = 0 ∧ k ∉ removed)).map fun k => k.instant) (cs.map fun k => k.instant) = false ∧
      c1.poolUsed + cs.length ≤ 4096) :=
  ⟨⟨starts_of (by decide +kernel), by decide +kernel, by decide +kernel, ⟨by decide +kernel, by decide +kernel, by decide +kernel, by decide +kernel⟩, by decide +kernel⟩,
   ⟨starts_of (by decide +kernel), by decide +kernel, by decide +kernel, by decide +kernel, by decide +kernel, by decide +kernel, ⟨by decide +kernel, by decide +kernel, by decide +kernel, by decide +kernel⟩, by decide +kernel⟩,
   ⟨starts_of (by decide +kernel), by decide +kernel, by decide +kernel, by decide +kernel, by decide +kernel, by decide +kernel, ⟨by decide +kernel, by decide +kernel, by decide +kernel, by decide +kernel⟩, by decide +kernel⟩⟩

theorem witness_ScheduleDescriptorsAct_rotations :
    (let s := coming (com 0 30000 12000 0 0); let d := cmd 0x3A [1, 1]; Starts s s d ∧ (s.mode = .service ∨ s.mode = .maintenance) ∧ d.op = 0x3A ∧ d.in1 33 ≤ 1 ∧ s.dom? (d.in1 32) ≠ none) ∧
    (let s := planned .service; let d := cmd 0x3B [] ([1, 0, 1, 0, 0, 0, 0, 0, 208, 7] ++ List.replicate 22 0 ++ [3, 0, 0, 0, 208, 7, 0, 0]); let ents := (List.range 1).map fun i => (leAt d.pay (32 + 8 * i) 1, leAt d.pay (32 + 8 * i + 4) 4); Starts s s d ∧ (s.mode = .service ∨ s.mode = .maintenance) ∧ d.op = 0x3B ∧ leAt d.pay 2 2 = 1 ∧ d.pay.length = 32 + 8 * 1 ∧ leAt d.pay 1 1 = 0 ∧ leAt d.pay 16 8 = 0 ∧ leAt d.pay 24 8 = 0 ∧
      (∀ i < 1, leAt d.pay (32 + 8 * i + 1) 3 = 0) ∧ s.seqModeBad (leAt d.pay 0 1) = false ∧ s.dom? (leAt d.pay 0 1) = some ⟨1, 0, 4, 8, 6, 1, 0, true⟩ ∧
      (∀ k ∈ s.domCommits 1, k.src ≠ 0) ∧ (∀ e ∈ ents, s.slotReady e.1 1 = true) ∧ (∀ e ∈ ents, 2000 ≤ e.2 ∧ 5 * s.leadEdges ≤ 2 * e.2) ∧
      leAt d.pay 8 4 = (ents.map fun (e : Nat × Nat) => e.2).foldl (· + ·) 0 ∧ leAt d.pay 8 4 ≤ 2 ^ 30 ∧ s.rotOf 1 = none) ∧
    (let s := planned .service; let d := cmd 0x3C [1]; Starts s s d ∧ (s.mode = .service ∨ s.mode = .maintenance) ∧ d.op = 0x3C ∧ s.dom? (d.in1 32) = some ⟨1, 0, 4, 8, 6, 1, 0, true⟩ ∧ s.rotOf (d.in1 32) = none) :=
  ⟨⟨starts_of (by decide +kernel), by decide +kernel⟩,
   ⟨starts_of (by decide +kernel), by decide +kernel⟩,
   ⟨starts_of (by decide +kernel), by decide +kernel⟩⟩

theorem witness_StagingsRun :
    (let c := com 0 1750 700 0 0; let s := coming c; ∃ e ∈ List.range 200, pickStage s s.eligible = some (e, c) ∧ (s.slot c.slot).plan = some thePlan) ∧
    (let c := com 2 1750 700 1 1; let r : Staging := ⟨1, 1, 3, [(0, 4)]⟩; let s := { coming c with stagings := [r] }
     (s.stagings.find? fun t => decide (t.dom = 1)) = some r ∧ s.slotReady r.slot 1 = true ∧
      (s.commits.find? fun c => decide (c.seq = r.seq ∧ c.stage = 1)) = some c ∧ (c.src ≠ 2 ∨ s.edge + edges100ns ≤ c.fire)) ∧
    (let c := com 2 90 39 1 1; let r : Staging := ⟨1, 1, 3, [(0, 4)]⟩; let s := { coming c with stagings := [r] }
     (s.stagings.find? fun t => decide (t.dom = 1)) = some r ∧ s.slotReady r.slot 1 = true ∧
      (s.commits.find? fun c => decide (c.seq = r.seq ∧ c.stage = 1)) = some c ∧ c.src = 2 ∧ c.fire < s.edge + edges100ns) ∧
    (let c := com 1 0 100 0 0; let s := coming c; s.lateOne 1 = some c ∧ c.src = 1) ∧
    (let c := { com 0 250 100 0 0 with flags := 1 }; let s := coming c
     s.lateOne 1 = some c ∧ c.src ≠ 1 ∧ bitAt c.flags 0 = true) ∧
    (let c := com 0 250 100 0 0; let s := coming c
     s.lateOne 1 = some c ∧ c.src ≠ 1 ∧ bitAt c.flags 0 = false) :=
  ⟨by decide +kernel,
   by decide +kernel,
   by decide +kernel,
   by decide +kernel,
   by decide +kernel,
   by decide +kernel⟩

theorem witness_CommitsFire :
    (let c := com 0 250 399 2 1; let s := { coming c with pdks := [(0, { staging := [⟨1, 1, 1, 1⟩] })] }
     let e := (s.fireStrays c.fire).toEdge c.fire
     let r := (e.domPdks 1).foldl (fun (a : State × List Nat) p =>
       let q := if a.1.fenced p then (a.1.xingPend p 1, false) else a.1.firePdk 1 p c.seq c.fire
       (q.1, if q.2 then a.2 ++ [p] else a.2)) (e, [])
     s.domCommits 1 = [c] ∧ c.fire < (s.tick + 1) * 400 ∧ s.skipsStart c = false ∧ c.stage = 2 ∧ c.src ≠ 1 ∧ r.2 = []) ∧
    (let c := com 0 250 399 2 1; let s := coming c
     let e := (s.fireStrays c.fire).toEdge c.fire
     let r := (e.domPdks 1).foldl (fun (a : State × List Nat) p =>
       let q := if a.1.fenced p then (a.1.xingPend p 1, false) else a.1.firePdk 1 p c.seq c.fire
       (q.1, if q.2 then a.2 ++ [p] else a.2)) (e, [])
     s.domCommits 1 = [c] ∧ c.fire < (s.tick + 1) * 400 ∧ s.skipsStart c = false ∧ c.stage = 2 ∧ c.src ≠ 1 ∧ r.2 ≠ []) :=
  ⟨by decide +kernel,
   by decide +kernel⟩

theorem witness_SequencerFollowsUp :
    (let s := { planned .service with edge := 400, domSeq := [(1, { last := some 399, slot := 3, seed := some 399 })] }
     (s.domSeqOf 1).seed = some 399 ∧ s.edge % 400 = 0 ∧ 399 < s.edge ∧ (s.slot (s.domSeqOf 1).slot).plan = some thePlan) ∧
    (let s := planned .parked; let e : ImgEntry := ⟨2, 10, 600, false, 0⟩; s.loopState s.lead e.ch = 0 ∨ pdkOf e.ch ∈ (s.domSeqOf 1).split) ∧
    (let s := { planned .service with domSeq := [(1, { split := [0] })] }; let e : ImgEntry := ⟨2, 10, 600, false, 0⟩; s.loopState s.lead e.ch = 0 ∨ pdkOf e.ch ∈ (s.domSeqOf 1).split) ∧
    (let s := { planned .service with map := some { theMap with mons := [⟨3, 4, 8, 1, [2]⟩] } }; let e : ImgEntry := ⟨2, 10, 600, false, 0⟩
     let u := (s.sPut (LOOP_CTRL 2) fLOOP_CTRL_KIND 1).sPut (LOOP_MON 2) fLOOP_MON_MON_A 3
     u.loopState u.lead e.ch ≠ 0 ∧ pdkOf e.ch ∉ (s.domSeqOf 1).split ∧
      (both (fun x s => s.setDir x e.ch (e.falling, e.tp)) u).targetOf thePlan e.ch = some ⟨0, 1, 700⟩) ∧
    (let r : Rot := ⟨⟨10, 4000, [(3, 4000)]⟩, 10, 0, some ⟨20, 5000, []⟩, 5⟩; let s := { planned .service with rots := [(1, some r)] }; let q : RotList := ⟨20, 5000, []⟩; s.rotOf 1 = some r ∧ r.pend = some q ∧ q.ents = [] ∧
      ((r.takeOff : Int) ≤ s.unwrapped - r.org ∨ s.edgeOf (r.instantAt r.takeOff) < (s.tick + 1) * 400)) ∧
    (let r : Rot := ⟨⟨10, 4000, [(3, 4000)]⟩, 10, 0, some ⟨20, 5000, [(3, 5000)]⟩, 5⟩; let s := { planned .service with rots := [(1, some r)] }; let q : RotList := ⟨20, 5000, [(3, 5000)]⟩; s.rotOf 1 = some r ∧ r.pend = some q ∧ q.ents ≠ [] ∧
      ((r.pendOff q : Int) ≤ s.unwrapped - r.org ∨ s.edgeOf (r.instantAt (r.pendOff q)) < (s.tick + 1) * 400)) ∧
    (let s := { up with stepped := some (-5) }; s.stepped = some (-5)) :=
  ⟨by decide +kernel,
   by decide +kernel,
   by decide +kernel,
   by decide +kernel,
   by decide +kernel,
   by decide +kernel,
   by decide +kernel⟩

/-! ### Surveys, the pair, the recorder, march, alarms -/

/-- A sweep of the first pass over the element of domain 1 whose first point is done. -/
def sweeping (b : Batch) : State :=
  { mapped .parked with survey := some ⟨none, false, true, false, false, none, 6, 0, [], [], some b, [], false, false, []⟩ }

theorem witness_SurveysRun :
    (let s := mapped .parked; let d := cmd 0x40 [] ([1, 0, 2, 0, 2] ++ List.replicate 27 0); Starts s s d ∧ d.op = 0x40 ∧ d.len = 32 ∧ SurveyOk s d.pay) ∧
    (let s := up; let d := cmd 0x41; Starts s s d ∧ d.op = 0x41 ∧ s.survey = none) ∧
    (let s := { up with survey := some ⟨none, true, false, false, false, none, 2, 0, [], [], none, [], false, false, [0]⟩ }; let d := cmd 0x41; Starts s s d ∧ d.op = 0x41 ∧ s.survey ≠ none) ∧
    (let s := up; let d := { cmd 0x42 with len := 8192 }; Starts s s d ∧ d.op = 0x42 ∧ (srvImage ((s.results.head?.map fun r => r.mapId).getD 0) s.results).length ≤ d.len) ∧
    (let b := (⟨[2], 0, 0, true, false, [], []⟩ : Batch); let s := { sweeping b with edge := 400000 }; s.edge % 400 = 0 ∧ (s.survey.bind fun v => v.cur) = some b ∧
      s.pointEnd b < s.tick ∧ b.spoiled = true) ∧
    (let b := (⟨[2], 0, 0, false, false, [], []⟩ : Batch); let s := { sweeping b with edge := 400000 }; s.edge % 400 = 0 ∧ (s.survey.bind fun v => v.cur) = some b ∧
      s.pointEnd b < s.tick ∧ b.spoiled = false ∧ (s.survey.bind fun v => v.nextPoint b b.point).isSome = true) ∧
    (let b := (⟨[2], 1000000, 0, false, false, [], []⟩ : Batch); let s := { sweeping b with edge := 400000 }; s.edge % 400 = 0 ∧ (s.survey.bind fun v => v.cur) = some b ∧
      s.pointEnd b < s.tick ∧ b.spoiled = false ∧ (s.survey.bind fun v => v.nextPoint b b.point).isSome = false) ∧
    (let s := { up with survey := some ⟨none, true, false, false, false, none, 2, 0, [], [], none, [], false, false, [0]⟩ }
     s.survey.isSome = true ∧ s.edge % 400 = 0 ∧ (s.survey.map fun v => v.conv && !v.waits && decide (0 < v.phase ∧ v.phase < 6)) = some true) :=
  ⟨⟨starts_of (by decide +kernel), by unfold SurveyOk; decide +kernel⟩,
   ⟨starts_of (by decide +kernel), by decide +kernel⟩,
   ⟨starts_of (by decide +kernel), by decide +kernel⟩,
   ⟨starts_of (by decide +kernel), by decide +kernel⟩,
   by decide +kernel,
   by decide +kernel,
   by decide +kernel,
   by decide +kernel⟩

theorem witness_PairDescriptorsStart :
    (let s := up; let d := cmd 0x48; Starts s s d ∧ d.op = 0x48 ∧ s.standby ≠ none) ∧
    (let s := { up with shB := { role := .detached, halted := false, booted := true } }; let d := cmd 0x49; Starts s s d ∧ d.op = 0x49 ∧ s.role s.lead.other = .detached ∧ (s.sh s.lead.other).halted = false ∧ (s.startSync s.lead.other).role s.lead.other = .syncing) :=
  ⟨⟨starts_of (by decide +kernel), by decide +kernel⟩,
   ⟨starts_of (by decide +kernel), by decide +kernel⟩⟩

theorem witness_RecorderAndMarchRun :
    (let s := up; let d := cmd 0x50 [] (([1] : List Nat) ++ List.replicate 15 0 ++ [0, 0, 8, 0, 6, 63, 0, 0]); Starts s s d ∧ d.outAddr = 0 ∧ d.op = 0x50 ∧ leAt d.pay 0 1 = 1 ∧ d.pay.length = 16 + 8 * 1 ∧ (∀ i < 15, leAt d.pay (1 + i) 1 = 0) ∧ (∀ i < 1, leAt d.pay (22 + 8 * i) 2 = 0) ∧
      (∀ g ∈ recGroups d.pay, g.bad s.part = false) ∧ groupsOverlap (recGroups d.pay) = false ∧ rate64 (recGroups d.pay) ≤ 64 * 128000) ∧
    (let s := State.modRec up .A fun r => { r with state := 1 }; let d := cmd 0x51 [0, 0, 0, 0, 5]; Starts s s d ∧ d.outAddr = 0 ∧ d.op = 0x51 ∧ d.in1 32 = 0 ∧ (s.sh s.lead).recorder.state = 1) ∧
    (let s := State.modRec up .A fun r => { r with state := 3 }; let d := cmd 0x51 [1]; Starts s s d ∧ d.outAddr = 0 ∧ d.op = 0x51 ∧ d.in1 32 = 1 ∧ (s.sh s.lead).recorder.state = 3) ∧
    (let s := State.modRec up .A fun r => { r with state := 3 }; let d := cmd 0x51 [2]; Starts s s d ∧ d.outAddr = 0 ∧ d.op = 0x51 ∧ d.in1 32 = 2) ∧
    (let s := up; let d := { cmd 0x52 with len := 64 }; Starts s s d ∧ d.outAddr = 0 ∧ d.op = 0x52 ∧ 64 ≤ d.len) ∧
    (let j := (⟨cmd 0x50, .recConfig, 0, 64, []⟩ : Job); let s := { busy up j with edge := 25600 }; s.job? .recConfig = some j ∧ s.edge % 400 = 0 ∧ s.tick % 64 = 0 ∧ j.due ≤ s.tick) ∧
    (let s := { State.modRec up .A fun r => { r with state := 2, postEnd := 4 } with edge := 2000 }; (s.sh .A).recorder.state = 2 ∧ (s.sh .A).recorder.postEnd < s.tick) ∧
    (let s := up; let d := { cmd 0x53 ([0, 0, 0, 0, 0, 0, 0, 0, 0, 0, 0, 0, 0, 0, 0, 0, 0, 3, 3, 0, 127, 1]) with len := 32 }; Starts s s d ∧ d.outAddr = 0 ∧ d.op = 0x53 ∧ d.in1 50 < 4 ∧ 32 ≤ d.len ∧ s.part = .gl3280 ∧ d.in1 48 ≤ 1 ∧ d.in1 49 ≤ 3 ∧ 4 ≤ d.in1 52 ∧ d.in1 52 + d.in1 53 ≤ 128 ∧
      s.mode = .parked ∧ s.lp = .none ∧ (d.in1 48 = 0 → s.map = none)) ∧
    (let j := (⟨cmd 0x53 ([0, 0, 0, 0, 0, 0, 0, 0, 0, 0, 0, 0, 0, 0, 0, 0, 0, 3, 3, 0, 127, 1]), .march, 0, 0, []⟩ : Job); let s := busy up j; s.job? .march = some j) :=
  ⟨⟨starts_of (by decide +kernel), by decide +kernel⟩,
   ⟨starts_of (by decide +kernel), by decide +kernel⟩,
   ⟨starts_of (by decide +kernel), by decide +kernel⟩,
   ⟨starts_of (by decide +kernel), by decide +kernel⟩,
   ⟨starts_of (by decide +kernel), by decide +kernel⟩,
   by decide +kernel,
   by decide +kernel,
   ⟨starts_of (by decide +kernel), by decide +kernel⟩,
   by decide +kernel⟩

theorem witness_AlarmsRun :
    (let s := up; let d := cmd 0x59 [0, 4, 50] [2, 3, 1, 0]; Starts s s d ∧ d.op = 0x59 ∧ d.in1 36 = 0 ∧ d.len % 4 = 0 ∧ d.in1 37 = 0 ∧ d.in2 38 = 0 ∧ d.in8 40 = 0 ∧ d.in1 35 = 0 ∧
      (∀ r ∈ alarmRecs d.pay, r.2.2.2 = 0 ∧ alarmCode r.1 = true ∧ r.2.1 ≤ 3 ∧ r.2.2.1 ≤ 1) ∧ d.in2 32 ≤ 1024 ∧
      (d.in1 34 ≠ 0 → 50 ≤ d.in1 34 ∧ d.in1 34 ≤ 100) ∧ s.locked = false) ∧
    (let s := up; let d := cmd 0x59 [0, 0, 0, 0, 1, 1, 255, 255, 1]; Starts s s d ∧ d.op = 0x59 ∧ d.in1 36 = 1 ∧ d.in1 37 < 2 ∧ d.in2 32 = 0 ∧ d.in2 34 = 0 ∧ d.len = 0) ∧
    (let w : MusterWin := ⟨3, 0, 64, [], 0⟩; let s := { up with muster := { win := some w }, edge := 400 * 67 }; s.muster.win = some w ∧ w.openTick + w.len ≤ s.tick) ∧
    (let r : MusterRec := ⟨0, [], [5]⟩; let s := { up with muster := { closed := [r] } }; s.muster.closed = r :: []) ∧
    (up.edge % 400 = 0) :=
  ⟨⟨starts_of (by decide +kernel), by decide +kernel⟩,
   ⟨starts_of (by decide +kernel), by decide +kernel⟩,
   by decide +kernel,
   by decide +kernel,
   by decide +kernel⟩

/-! ### Boundaries, time, traffic, keys and firmware -/

/-- One aggressor list of one entry whose coefficient is away from its anchor. -/
def anchored : State := State.sWr { mapped .service with map := some { theMap with aggrs := [⟨2, [0]⟩] } } (XT_WORD 0) 65536

theorem witness_CommandsEndAtBoundaries :
    (let s := up; let j : Job := (⟨cmd 0x59, .setup, 10, 0, []⟩ : Job); j.due ≤ s.tick ∧ j.kind = .setup ∧ j.phase = 10) ∧
    (let s := up; let j : Job := (⟨cmd 0x59, .setup, 11, 0, []⟩ : Job); j.due ≤ s.tick ∧ j.kind = .setup ∧ j.phase = 11) ∧
    (let s := up; let j : Job := (⟨cmd 0x12 [] [3, 0, 3, 240, 2, 0, 0, 0], .setSense, 0, 0, []⟩ : Job); j.due ≤ s.tick ∧ j.kind = .setSense ∧ j.phase = 0) ∧
    (let s := up.dPut (SNS_CH_CTRL 3) fSNS_CH_CTRL_DARK_VALID 1; let j : Job := (⟨cmd 0x12 [] [3, 0, 3, 240, 2, 0, 0, 0], .setSense, 1, 0, [3]⟩ : Job); j.due ≤ s.tick ∧ j.kind = .setSense ∧ j.phase = 1 ∧ ∀ m ∈ j.nums, s.dGet (SNS_CH_CTRL m) fSNS_CH_CTRL_DARK_VALID = 1) ∧
    (let s := up; let j : Job := (⟨cmd 0x21 [] [255, 127, 1, 0, 5, 0, 0, 0], .setXtalk, 0, 0, [0, 5, 1, 6]⟩ : Job); j.due ≤ s.tick ∧ j.kind = .setXtalk ∧ j.phase = 0 ∧ j.nums ≠ [] ∧
      (State.queuePairs (65536 - (s.sh s.lead).xt.queue.length - s.sGet CMP_FIT_BUDGET fCMP_FIT_BUDGET_MAX_UPD) j.nums s).2 = []) ∧
    (let s := { up with xtDrains := 5 }; let j : Job := (⟨cmd 0x21 [] [255, 127, 1, 0, 5, 0, 0, 0], .setXtalk, 1, 0, [4]⟩ : Job); j.due ≤ s.tick ∧ j.kind = .setXtalk ∧ j.phase = 1 ∧ j.nums.headD 0 < s.xtDrains) ∧
    (let s := { up with xtDrains := 5 }; let j : Job := (⟨cmd 0x23, .revertFit, 1, 0, [4]⟩ : Job); j.due ≤ s.tick ∧ j.kind = .revertFit ∧ (j.phase = 1 → j.nums.headD 0 < s.xtDrains) ∧ s.anchorPairs = []) ∧
    (let s := anchored; let j : Job := (⟨cmd 0x23, .revertFit, 0, 0, []⟩ : Job); j.due ≤ s.tick ∧ j.kind = .revertFit ∧ (j.phase = 1 → j.nums.headD 0 < s.xtDrains) ∧ s.anchorPairs ≠ []) ∧
    (let s := up; let j : Job := (⟨cmd 0x22, .setFit, 0, 0, []⟩ : Job); j.due ≤ s.tick ∧ j.kind = .setFit) ∧
    (let j : Job := (⟨cmd 0x02, .setupLock, 0, 0, []⟩ : Job); let s := busy up j; s.job? .setupLock = some j ∧ j.due ≤ s.tick) ∧
    (let j : Job := (⟨cmd 4 [5, 15], .padReset, 0, 0, [15]⟩ : Job); let s := busy up j; s.job? .padReset = some j ∧ j.due ≤ s.tick ∧ j.phase = 0) ∧
    (let j : Job := (⟨cmd 4 [5, 15], .padReset, 1, 0, [15]⟩ : Job); let s := busy up j; s.job? .padReset = some j ∧ j.due ≤ s.tick ∧ j.phase = 1 ∧ s.pdkResetOk (j.nums.headD 0) = true) ∧
    (let j : Job := (⟨cmd 4 [5, 15], .padReset, 2, 0, [15]⟩ : Job); let s := (busy up j).dPut RST_PDK_READY fRST_PDK_READY_READY 0x8000; s.job? .padReset = some j ∧ j.due ≤ s.tick ∧ j.phase = 2 ∧ bitAt (s.dGet RST_PDK_READY fRST_PDK_READY_READY) (j.nums.headD 0) = true) ∧
    (let j : Job := (⟨cmd 4 [5, 15], .padReset, 3, 0, [15]⟩ : Job); let s := busy up j; s.job? .padReset = some j ∧ j.due ≤ s.tick ∧ j.phase = 3) ∧
    (let j : Job := (⟨cmd 0x48, .handover, 0, 64, []⟩ : Job); let s := busy up j; s.job? .handover = some j ∧ s.standby ≠ none ∧ j.phase = 0 ∧ s.sGet SHP_STATUS fSHP_STATUS_REPAIR_PENDING = 0) ∧
    (let j : Job := (⟨cmd 0x48, .handover, 1, 0, []⟩ : Job); let s := busy up j; s.job? .handover = some j ∧ s.standby ≠ none ∧ j.phase = 1 ∧ j.due ≤ s.tick ∧ (s.handoverWrite s.lead).handover ≠ none) ∧
    (let j : Job := (⟨cmd 0x41, .surveyAbort, 0, 0, []⟩ : Job); let s := { busy up j with survey := some ⟨none, false, true, false, false, none, 6, 0, [], [], none, [], true, false, []⟩ }
     s.survey.isSome = true ∧ (s.survey.map fun v => v.abort) = some true ∧ s.surveyStop.job? .surveyAbort = some j) :=
  ⟨by decide +kernel,
   by decide +kernel,
   by decide +kernel,
   by decide +kernel,
   by decide +kernel,
   by decide +kernel,
   by decide +kernel,
   by decide +kernel,
   by decide +kernel,
   by decide +kernel,
   by decide +kernel,
   by decide +kernel,
   by decide +kernel,
   by decide +kernel,
   by decide +kernel,
   by decide +kernel,
   by decide +kernel⟩

theorem witness_TimeAndTrafficDescriptorsAct :
    (let s := up; let d := { cmd 0x5C [0] with len := 16 }; Starts s s d ∧ d.op = 0x5C ∧ d.in1 32 = 0) ∧
    (let s := up; let d := cmd 0x5C [1, 0, 0, 0, 1, 2, 3, 4, 5]; Starts s s d ∧ d.op = 0x5C ∧ d.in1 32 = 1) ∧
    (let s := up; let d := cmd 0x5C [2] ([0, 1, 1, 2, 0, 0, 0, 0, 249, 253, 5, 10, 0, 0, 1, 7, 254, 15] ++ List.replicate 14 0); Starts s s d ∧ d.op = 0x5C ∧ d.in1 32 = 2 ∧ d.len = 32 ∧ ptpRecOk d.pay = true) ∧
    (let s := up.dPut (ETH_PORT_CFG 3) fETH_PORT_CFG_SPEED 0; let d := cmd 0x5C [3, 3]; Starts s s d ∧ d.op = 0x5C ∧ d.in1 32 = 3 ∧ d.in1 33 ≤ 3 ∧ s.ptpUses (d.in1 33) = false ∧ s.hsr (d.in1 33 / 2) = false ∧
      (2 ≤ d.in1 33 → s.dGet (ETH_PAIR_CFG 1) fETH_PAIR_CFG_TLM_EN ≠ 1) ∧ s.dGet (ETH_PORT_CFG (d.in1 33)) fETH_PORT_CFG_SPEED ≠ 3) ∧
    (let j : Job := (⟨cmd 0x5C [3, 3], .portMeasure, 0, 0, [3]⟩ : Job); let s := busy up j; s.job? .portMeasure = some j ∧ True) ∧
    (let s := up; let d := cmd 0x5D [] ([3, 0, 1, 0, 0, 0, 0, 0, 100] ++ List.replicate 7 0 ++ [255, 0, 0, 0, 100, 0, 0, 0]); let ents := gateEnts (d.pay.drop 16) 1; Starts s s d ∧ d.op = 0x5D ∧ leAt d.pay 2 2 = 1 ∧ d.len = 16 + 8 * 1 ∧ leAt d.pay 0 1 ≤ 3 ∧ leAt d.pay 1 1 = 0 ∧ leAt d.pay 12 4 = 0 ∧
      (∀ j < 1, leAt d.pay (16 + 8 * j + 1) 3 = 0) ∧ leAt d.pay 8 4 = (ents.map fun (e : Nat × Nat) => e.2).foldl (· + ·) 0 ∧ leAt d.pay 8 4 ≤ 2 ^ 30 ∧
      ∀ e ∈ ents, 100 ≤ e.2) ∧
    (let s := up; let d := cmd 0x5E [] [127, 15, 15, 7, 254, 15, 1, 2, 3, 4, 5, 6, 0, 1, 0, 0, 64, 0, 0, 0, 0, 0, 0, 0]; Starts s s d ∧ d.op = 0x5E ∧ d.len % 24 = 0 ∧ ∀ r ∈ records 24 d.pay (d.len / 24), streamFail r = 0) :=
  ⟨⟨starts_of (by decide +kernel), by decide +kernel⟩,
   ⟨starts_of (by decide +kernel), by decide +kernel⟩,
   ⟨starts_of (by decide +kernel), by decide +kernel⟩,
   ⟨starts_of (by decide +kernel), by decide +kernel⟩,
   by decide +kernel,
   ⟨starts_of (by decide +kernel), by decide +kernel⟩,
   ⟨starts_of (by decide +kernel), by decide +kernel⟩⟩

/-- With an owner debug key, in a life-cycle state. -/
def keyed (life : Nat) : State := { up with fuses := { life := life }, keys := { dbgKey := some (zeros 96) } }

theorem witness_KeyDescriptorsAct :
    (let s := up; let d := cmd 0x60 [2]; Starts s s d ∧ d.op = 0x60 ∧ transition s.fuses.life (d.in1 32) = some 2 ∧ s.mode = .parked ∧ s.lp = .none ∧ s.fuses.due = none ∧ s.needsToken 2 = false ∧ d.len = 0) ∧
    (let s := keyed 1; let d := cmd 0x60 [3] ([1, 19, 0] ++ List.replicate 101 0); Starts s s d ∧ d.op = 0x60 ∧ transition s.fuses.life (d.in1 32) = some 0 ∧ s.mode = .parked ∧ s.lp = .none ∧ s.fuses.due = none ∧ s.needsToken 0 = true ∧ d.len = 104 ∧
      tokenForm d.pay = true ∧ leAt d.pay 1 1 = 0x10 + d.in1 32 ∧ leAt d.pay 2 1 = 0) ∧
    (let s := keyed 1; let d := cmd 0x61 [] ([1, 2, 0] ++ List.replicate 101 0); Starts s s d ∧ d.op = 0x61 ∧ d.len = 104 ∧ tokenForm d.pay = true ∧ (leAt d.pay 1 1 = 1 ∨ leAt d.pay 1 1 = 2)) ∧
    (let s := keyed 2; let d := cmd 0x62 [] (([1, 1, 32, 0] : List Nat) ++ List.replicate 32 5); Starts s s d ∧ d.op = 0x62 ∧ d.payByte 0 = 1 ∧ s.keysOpen = true ∧ keySlot d < 2 ∧ keyForm d 32 = true) ∧
    (let s := up; let d := cmd 0x62 [] (([2, 0, 96, 0] : List Nat) ++ (leBytes 48 p384g.1 ++ leBytes 48 p384g.2).map BitVec.toNat); Starts s s d ∧ d.op = 0x62 ∧ d.payByte 0 = 2 ∧ s.fuses.life = 1 ∧ keySlot d = 0 ∧ keyForm d 96 = true ∧
      onCurve (leNat ((keyValue d).take 48), leNat (((keyValue d).drop 48).take 48)) = true ∧ s.locked = false) ∧
    (let s := up; let d := cmd 0x62 [] (([3, 0, 0, 0] : List Nat) ++ []); Starts s s d ∧ d.op = 0x62 ∧ d.payByte 0 = 3 ∧ s.keysOpen = true ∧ keySlot d < 2 ∧ keyForm d 0 = true ∧ (keySlot d = 0 → s.fuses.life = 1 ∧ s.locked = false)) ∧
    (let s := up; let d := cmd 0x62 [] (([4, 0, 1, 0] : List Nat) ++ [1]); Starts s s d ∧ d.op = 0x62 ∧ d.payByte 0 = 4 ∧ s.keysOpen = true ∧ keySlot d = 0 ∧ keyForm d 1 = true ∧ leAt d.pay 4 1 ≤ 1 ∧ s.locked = false) :=
  ⟨⟨starts_of (by decide +kernel), by decide +kernel⟩,
   ⟨starts_of (by decide +kernel), by decide +kernel⟩,
   ⟨starts_of (by decide +kernel), by decide +kernel⟩,
   ⟨starts_of (by decide +kernel), by decide +kernel⟩,
   ⟨starts_of (by decide +kernel), by decide +kernel⟩,
   ⟨starts_of (by decide +kernel), by decide +kernel⟩,
   ⟨starts_of (by decide +kernel), by decide +kernel⟩⟩

theorem witness_FirmwareAndDebugAct :
    (let s := up; let d := cmd 0x63 [0, 1] (List.replicate 512 3); Starts s s d ∧ d.op = 0x63 ∧ s.fuses.life ≠ 4 ∧ d.in1 32 = 0 ∧ s.bootedFrom (d.in1 33) = false ∧ s.busyWith .fwWrite = false ∧ d.in1 33 < 2 ∧ 512 ≤ d.len ∧ d.len ≤ 33554432) ∧
    (let s := { up with store := { slot0 := some (zeros 600), slot1 := some (zeros 5) } }; let d := { cmd 0x63 [1] with len := 1088 }; Starts s s d ∧ d.op = 0x63 ∧ s.fuses.life ≠ 4 ∧ d.in1 32 = 1 ∧ 1088 ≤ d.len ∧ s.store.slot0 = some (zeros 600) ∧ s.store.slot1 = some (zeros 5)) ∧
    (let s := up; let d := cmd 0x63 [2, 1]; Starts s s d ∧ d.op = 0x63 ∧ s.fuses.life ≠ 4 ∧ d.in1 32 = 2 ∧ d.in1 33 < 2) ∧
    (let s := up; let d := cmd 0x63 [3]; Starts s s d ∧ d.op = 0x63 ∧ s.fuses.life ≠ 4 ∧ d.in1 32 = 3 ∧ s.pGet .A LCS_FW_INFO fLCS_FW_INFO_SVN = s.pGet .B LCS_FW_INFO fLCS_FW_INFO_SVN) ∧
    (let j : Job := (⟨cmd 0x63 [0, 1] [7, 7], .fwWrite, 0, 0, [0]⟩ : Job); let s := busy up j; s.job? .fwWrite = some j ∧ j.nums = [0]) ∧
    (let j : Job := (⟨cmd 0x63 [0, 1] [7, 7], .fwWrite, 0, 0, [1]⟩ : Job); let s := busy up j; s.job? .fwWrite = some j ∧ j.nums = [1]) ∧
    (let s := up; let t : List Byte := ([1, 18, 1] ++ List.replicate 101 0).map fun b => BitVec.ofNat 8 b; s.mode ≠ .off ∧ 0x10 ≤ leAt t 1 1 ∧ transition s.fuses.life (leAt t 1 1 - 0x10) = some 2 ∧
      (s.mode = .boot ∨ s.mode = .parked) ∧ s.lp = .none ∧ s.fuses.due = none ∧ s.needsToken 2 = false ∧ tokenForm t = true ∧ s.lockout = false) ∧
    (let s := keyed 1; let t : List Byte := ([1, 19, 0] ++ List.replicate 101 0).map fun b => BitVec.ofNat 8 b; s.mode ≠ .off ∧ 0x10 ≤ leAt t 1 1 ∧ transition s.fuses.life (leAt t 1 1 - 0x10) = some 0 ∧
      (s.mode = .boot ∨ s.mode = .parked) ∧ s.lp = .none ∧ s.fuses.due = none ∧ s.needsToken 0 = true ∧ leAt t 2 1 = 0) ∧
    (let s := { keyed 1 with mode := .boot }; let t : List Byte := ([1, 19, 0] ++ List.replicate 101 0).map fun b => BitVec.ofNat 8 b; s.mode ≠ .off ∧ 0x10 ≤ leAt t 1 1 ∧ transition s.fuses.life (leAt t 1 1 - 0x10) = some 0 ∧
      (s.mode = .boot ∨ s.mode = .parked) ∧ s.lp = .none ∧ s.fuses.due = none ∧ s.needsToken 0 = true ∧ leAt t 2 1 = 0) ∧
    (let s := keyed 3; let t : List Byte := ([1, 2, 1] ++ List.replicate 101 0).map fun b => BitVec.ofNat 8 b; s.mode ≠ .off ∧ leAt t 1 1 < 0x10) ∧
    (let s := { up.setLevel 2 with shB := { role := .detached } }; s.jtagSet = 4 ∧ s.role .B = .detached) ∧
    (up.jtagSet ≠ 4) ∧
    (let s := up.setLevel 2; s.jtagSet = 4 ∧ s.role .A = .active) ∧
    (let s := up.setLevel 2; s.jtagSet = 4 ∧ s.role .B = .standby) :=
  ⟨⟨starts_of (by decide +kernel), by decide +kernel⟩,
   ⟨starts_of (by decide +kernel), by decide +kernel⟩,
   ⟨starts_of (by decide +kernel), by decide +kernel⟩,
   ⟨starts_of (by decide +kernel), by decide +kernel⟩,
   by decide +kernel,
   by decide +kernel,
   by decide +kernel,
   by decide +kernel,
   by decide +kernel,
   by decide +kernel,
   by decide +kernel,
   by decide +kernel,
   by decide +kernel,
   by decide +kernel⟩

/-! ### Resets, rails and boot -/

theorem witness_DevicesAndShepherdsReset :
    (let s := { up with fuses := { life := 1, due := some (400, 2) }, edge := 400 }; (s.fuses.due.map fun e => decide (e.1 ≤ s.edge)) = some true) ∧
    (let s := { up with mode := .reset }; s.mode = .reset) ∧
    (let s := up.pPut .B RST_WDG fRST_WDG_EN 1; s.pGet .B RST_WDG fRST_WDG_EN = 1 ∧ (s.sh .B).perst = false ∧ (s.sh .B).railLow = false) ∧
    (let s := up; s.mode ≠ .off ∧ s.mode ≠ .reset ∧ s.mode ≠ .boot ∧ s.otherUp .B = true ∧ s.syncing ≠ some .B ∧ s.sync = none) :=
  ⟨by decide +kernel,
   by decide +kernel,
   by decide +kernel,
   by decide +kernel⟩

theorem witness_RailsFallAndReturn :
    (15 < up.part.paddocks) ∧
    (let s := up.modPdk 15 fun k => { k with vdrLow := true }; (s.pdk 15).vdrLow = true) ∧
    (let s := up.modPdk 15 fun k => { k with mode := .reset }; (s.pdk 15).mode = .reset ∧ (s.pdk 15).railLow = false) ∧
    (let s := up.modPdk 15 fun k => { k with mode := .reload }; (s.pdk 15).mode = .reload) ∧
    (let s := up; 15 < s.part.paddocks ∧ (s.pdk 15).mode = .run ∧ refState 41781 ≠ 0 ∧ s.dGet (SRV_PDK_CAL 15) fSRV_PDK_CAL_REF_SRC ≠ 1) ∧
    (let s := up.modPdk 15 fun k => { k with mode := .reload }; 15 < s.part.paddocks ∧ (s.pdk 15).mode = .reload ∧ refState 0 ≠ 0 ∧ s.dGet (SRV_PDK_CAL 15) fSRV_PDK_CAL_REF_SRC ≠ 1) :=
  ⟨by decide +kernel,
   by decide +kernel,
   by decide +kernel,
   by decide +kernel,
   by decide +kernel,
   by decide +kernel⟩

theorem witness_BootsAndClaims :
    (let s := State.reset; let b := (⟨2, 1, true, 0, 1, 64, false, true⟩ : BootInfo); let march := (s.sh .B).porBoot && decide (s.part = .gl3280); (s.sh .B).halted = true ∧ (s.sh .B).perst = false ∧ (s.sh .B).railLow = false ∧ (s.sh .B).coreHalt = false ∧ s.role .B ≠ .active ∧ s.role .B ≠ .standby ∧
      s.mode ≠ .off ∧ s.mode ≠ .reset ∧ b.unrepaired = true ∧ march = true) ∧
    (let s := State.reset.dPut RST_STRAPS fRST_STRAPS_BOOT_SEL 3; let b := (⟨2, 1, false, 0, 1, 64, false, true⟩ : BootInfo); let march := (s.sh .B).porBoot && decide (s.part = .gl3280)
     let m := if (s.sh .B).porBoot = true then
       s.wr (Shep.bank .B) BNK_REPAIR (fBNK_REPAIR_FUSED.put (fBNK_REPAIR_SOFT.put 0 (if march = true then b.soft else 0)) b.fused) else s
     (s.sh .B).halted = true ∧ (s.sh .B).perst = false ∧ (s.sh .B).railLow = false ∧ (s.sh .B).coreHalt = false ∧ s.role .B ≠ .active ∧ s.role .B ≠ .standby ∧
      s.mode ≠ .off ∧ s.mode ≠ .reset ∧ (b.unrepaired && march) = false ∧ (m.bootImage .B b.storeErr).1 = false) ∧
    (let s := { State.reset.dPut RST_STRAPS fRST_STRAPS_BOOT_SEL 2 with shB := { loaded := some (zeros 512) } }; let b := (⟨2, 1, false, 1, 1, 64, false, true⟩ : BootInfo); let march := (s.sh .B).porBoot && decide (s.part = .gl3280)
     let m := if (s.sh .B).porBoot = true then
       s.wr (Shep.bank .B) BNK_REPAIR (fBNK_REPAIR_FUSED.put (fBNK_REPAIR_SOFT.put 0 (if march = true then b.soft else 0)) b.fused) else s
     (s.sh .B).halted = true ∧ (s.sh .B).perst = false ∧ (s.sh .B).railLow = false ∧ (s.sh .B).coreHalt = false ∧ s.role .B ≠ .active ∧ s.role .B ≠ .standby ∧
      s.mode ≠ .off ∧ s.mode ≠ .reset ∧ (b.unrepaired && march) = false ∧ (m.bootImage .B b.storeErr).1 = true ∧ b.pop ≠ 0) ∧
    (let s := { State.reset.dPut RST_STRAPS fRST_STRAPS_BOOT_SEL 2 with shB := { loaded := some (zeros 512) } }; let b := (⟨2, 1, false, 0, 1, 64, false, true⟩ : BootInfo); let march := (s.sh .B).porBoot && decide (s.part = .gl3280)
     let m := if (s.sh .B).porBoot = true then
       s.wr (Shep.bank .B) BNK_REPAIR (fBNK_REPAIR_FUSED.put (fBNK_REPAIR_SOFT.put 0 (if march = true then b.soft else 0)) b.fused) else s
     (s.sh .B).halted = true ∧ (s.sh .B).perst = false ∧ (s.sh .B).railLow = false ∧ (s.sh .B).coreHalt = false ∧ s.role .B ≠ .active ∧ s.role .B ≠ .standby ∧
      s.mode ≠ .off ∧ s.mode ≠ .reset ∧ (b.unrepaired && march) = false ∧ (m.bootImage .B b.storeErr).1 = true ∧ b.pop = 0) ∧
    (let s := { State.reset with claims := [(.B, 4)], edge := 8000 }; s.claims = [(.B, 4)] ∧ s.active = none ∧ 4 + 16 ≤ s.tick) ∧
    (let s := State.reset.pPut .A GLB_LOAD_CTRL fGLB_LOAD_CTRL_BUSY 1; s.loadBusy .A = true) :=
  ⟨by decide +kernel,
   by decide +kernel,
   by decide +kernel,
   by decide +kernel,
   by decide +kernel,
   by decide +kernel⟩

/-! ### The tick, pins, clocks, outputs, senses and loops -/

theorem witness_TickBoundaries :
    (let s := { up with mode := .off }; s.mode = .off) ∧
    (let s := { up with mode := .reset }; s.mode = .reset) ∧
    (up.mode ≠ .off ∧ up.mode ≠ .reset ∧ up.strays ((up.tick + 1) * 400 - 1) = []) ∧
    (let s := { up with copyRec := some ⟨0, [], false, false, true⟩ }; let i : TickInput := ⟨[], [], [], false, false, 0, [], [], [], [], []⟩
     s.mode ≠ .off ∧ s.mode ≠ .reset ∧
     let e := (s.fireStrays ((s.tick + 1) * 400 - 1)).toEdge ((s.tick + 1) * 400)
     let m := State.startReady 64 ((e.endTick i (e.tick - 1)).applyDue.stepJobs.claimBoundary.joinBoundary)
     m.standby = some .B ∧ (m.sh .B).copyMiss = 0) ∧
    (let s := up; let i : TickInput := ⟨[], [], [], false, false, 0, [], [], [], [], []⟩
     s.mode ≠ .off ∧ s.mode ≠ .reset ∧
     let e := (s.fireStrays ((s.tick + 1) * 400 - 1)).toEdge ((s.tick + 1) * 400)
     let m := State.startReady 64 ((e.endTick i (e.tick - 1)).applyDue.stepJobs.claimBoundary.joinBoundary)
     m.standby = some .B ∧ 0 < (m.sh .B).copyMiss) ∧
    (let w : PendWrite := ⟨.A, DRV_CH_CTRL 32767, 7, 0, 0, 0⟩; let s := { up with writes := [w] }; s.writes = [w] ∧ w.due ≤ s.tick ∧ s.heldByFence w = false) ∧
    (let w : PendWrite := ⟨.A, DRV_CH_CTRL 32767, 7, 1, 0, 0⟩; let s := { up with writes := [w] }; s.writes = [w] ∧ s.tick < w.due) :=
  ⟨by decide +kernel,
   by decide +kernel,
   by decide +kernel,
   by decide +kernel,
   by decide +kernel,
   by decide +kernel,
   by decide +kernel⟩

theorem witness_PinsAndClocksAct :
    (let s := up; 0 < 2 ^ 31 ∧ 2 ^ 31 < 2 ^ 32 ∧ s.mode ≠ .off ∧ s.mode ≠ .reset ∧ (s.sh .B).perst = false ∧ (s.sh .B).railLow = false) ∧
    (let s := State.modSh up .B fun h => { h with stretched := true }; (s.sh .B).stretched = true ∧ s.pGet .B CLK_DROOP_CFG fCLK_DROOP_CFG_HOLD ≤ 65535) ∧
    (up.napMask = 0) ∧
    (let s := up.modPdk 15 fun k => { k with nap := true }; s.napMask ≠ 0 ∧ s.lp = .none) ∧
    (let s := { up with clearHold := true, clearLow := false }; s.clearHold = true ∧ s.clearLow = false ∧ s.edge % 400 = 0) ∧
    (3 < 4) ∧
    (let s := { up with waking := [15] }; s.waking ≠ [] ∧ s.lpExit = none ∧ s.endNap.safeDue = false) ∧
    (let s := { up with waking := [15], safeDue := true }; s.waking ≠ [] ∧ s.lpExit = none ∧ s.endNap.safeDue = true) ∧
    (let s := { up with lpExit := some 1, lp := .quiesce }; s.lpExit = some 1 ∧ (s.lp = .quiesce ∨ s.lp = .deep)) ∧
    (let s := { up with lpExit := some 4, lp := .deep }; s.lpExit = some 4 ∧ (s.lp = .quiesce ∨ s.lp = .deep)) ∧
    (let s := up.dPut (ETH_PORT_CFG 3) fETH_PORT_CFG_SPEED 2; s.mode ≠ .off ∧ s.mode ≠ .reset ∧ s.speed 3 ≠ 3) :=
  ⟨by decide +kernel,
   by decide +kernel,
   by decide +kernel,
   by decide +kernel,
   by decide +kernel,
   by decide +kernel,
   by decide +kernel,
   by decide +kernel,
   by decide +kernel,
   by decide +kernel,
   by decide +kernel⟩

/-- SERVICE with channel 2 in a phase of its span change, of a span and OE. -/
def chan2 (ph : SpanPhase) (span oe : Nat) : State :=
  ((State.modChan (mapped .service) 2 fun h => { h with phase := ph }).dPut (DRV_CH_CTRL 2) fDRV_CH_CTRL_SPAN span).dPut (DRV_CH_CTRL 2) fDRV_CH_CTRL_OE oe

theorem witness_OutputsAndSensesWork :
    (((chan2 .hold 0 1).chan 2).phase = .hold) ∧
    (let s := chan2 .opened 0 1; (s.chan 2).phase = .opened ∧ s.oeOf 2 = true ∧ s.disabled 2 = false) ∧
    (let s := chan2 .opened 0 0; (s.chan 2).phase = .opened ∧ s.oeOf 2 = false) ∧
    (((chan2 .closed 0 1).chan 2).phase = .closed) ∧
    (let s := chan2 .config 0 1; (s.chan 2).phase = .config ∧ (s.modChan 2 fun h => { h with phase := .idle }).on 2 = true) ∧
    (let s := chan2 .config 0 0; (s.chan 2).phase = .config ∧ (s.modChan 2 fun h => { h with phase := .idle }).on 2 = false) ∧
    (let s := chan2 .idle 4 1; 2 < s.part.chans ∧ current (s.spanOf 2) = true) ∧
    (let s := { up with edge := 400 }; s.role .B ≠ .off ∧ 15 < s.part.paddocks ∧ (s.pdk 15).mode = .run ∧ (s.pdk 15).nap = false) ∧
    (let g : SenseFrame := { tick := 0, counts := [(1023, 77)] }; let s := { up with edge := 400, pdkCounts := [(15, some g)] }
     s.role .B ≠ .off ∧ 15 < s.part.paddocks ∧ (s.pdk 15).mode = .run ∧ (s.pdk 15).nap = false ∧ Tab.get s.pdkCounts none 15 = some g ∧
      g.heard 15 (s.pdk 15).epoch [] = some g ∧ (g.tick + 1) % 2 ^ 48 = s.tick % 2 ^ 48) ∧
    (let s := { State.modPdk up 15 (fun k => { k with nap := true }) with edge := 400 }; s.role .B ≠ .off ∧ 15 < s.part.paddocks ∧ ((s.pdk 15).mode ≠ .run ∨ (s.pdk 15).nap = true)) ∧
    (let s := up.dPut (SNS_CH_STAT 16383) fSNS_CH_STAT_OVER_RUN 16; 16 ≤ s.dGet (SNS_CH_STAT 16383) fSNS_CH_STAT_OVER_RUN ∧ (s.sense 16383).reported = false) ∧
    (let s := { State.modSense up 3 (fun h => { h with voidUntil := 5 }) with edge := 2000 }; (s.sense 3).voidUntil ≤ s.tick) ∧
    (let s := { State.modSense up 3 (fun h => { h with meas := some 5 }) with edge := 2000 }; (s.sense 3).meas = some 5 ∧ 5 ≤ s.tick ∧ (s.pdk (3 / 1024)).mode = .run) :=
  ⟨by decide +kernel,
   by decide +kernel,
   by decide +kernel,
   by decide +kernel,
   by decide +kernel,
   by decide +kernel,
   by decide +kernel,
   by decide +kernel,
   by decide +kernel,
   by decide +kernel,
   by decide +kernel,
   by decide +kernel,
   by decide +kernel⟩

theorem witness_WindowsEnd :
    (let s := { mapped .service with edge := 400 * 64 }; 3 < 16384 ∧ 0 < s.tick ∧ s.tick % s.winEnded 3 = 0 ∧ (s.sense 3).winWas = none) ∧
    (let s := { State.modSense (mapped .service) 3 (fun h => { h with winWas := some (64, 16) }) with edge := 400 * 64 }; s.tick % s.winEnded 3 = 0 ∧ (s.sense 3).winWas = some (s.tick, 16)) ∧
    (let u := mapped .service; u.demodMon 0 ≠ 3) ∧
    (let u := State.modDemod ((mapped .service).sPut (LOOP_MON 0) fLOOP_MON_MON_A 3) .B 0 fun k => { k with n := (mapped .service).winLen 3 }
     u.demodMon 0 = 3 ∧ ((u.sh .B).dm 0).n = u.winEnded 3 ∧ ((u.sh .B).dm 0).spoiled (u.tick - u.winEnded 3) u.tick = false) ∧
    (let u := State.modDemod ((mapped .service).sPut (LOOP_MON 0) fLOOP_MON_MON_A 3) .B 0 fun k => { k with n := 15 }
     u.demodMon 0 = 3 ∧ ((u.sh .B).dm 0).n ≠ u.winEnded 3) ∧
    (let u := State.modDemod { (mapped .service).sPut (LOOP_MON 0) fLOOP_MON_MON_A 3 with edge := 400 * 64 } .B 0 fun k => { k with n := 16, spoilt := some 63 }
     u.demodMon 0 = 3 ∧ ((u.sh .B).dm 0).spoiled (u.tick - u.winEnded 3) u.tick = true) :=
  ⟨by decide +kernel,
   by decide +kernel,
   by decide +kernel,
   by decide +kernel,
   by decide +kernel,
   by decide +kernel⟩

theorem witness_LoopsRun :
    (let s := up.pPut .B LOOP_CFG fLOOP_CFG_OVR_ALARM 4; let t := s.modSh .B fun h => { h with ovrRun := 4 }
     t.pGet .B LOOP_CFG fLOOP_CFG_OVR_ALARM ≠ 0 ∧ (t.sh .B).ovrRun = t.pGet .B LOOP_CFG fLOOP_CFG_OVR_ALARM) ∧
    (let s := State.sPut (both (fun x s => s.modDyn x 2 fun d => { d with satRun := 9 }) (mapped .service)) ALM_LOOP fALM_LOOP_SAT_TICKS 9
     s.sGet ALM_LOOP fALM_LOOP_SAT_TICKS ≠ 0 ∧ s.sGet ALM_LOOP fALM_LOOP_SAT_TICKS ≤ (s.dynOf s.lead 2).satRun ∧ (s.dynOf s.lead 2).satRep = false) ∧
    (let s := State.sPut (both (fun x s => s.modDyn x 2 fun d => { d with errRun := 9 }) (mapped .service)) ALM_LOOP fALM_LOOP_ERR_TICKS 9
     s.sGet ALM_LOOP fALM_LOOP_ERR_TICKS ≠ 0 ∧ s.sGet ALM_LOOP fALM_LOOP_ERR_TICKS ≤ (s.dynOf s.lead 2).errRun ∧ (s.dynOf s.lead 2).errRep = false) ∧
    (let s := { up with muster := { hotRun := 16 } }; 16 ≤ s.muster.hotRun ∧ s.muster.hot = false) ∧
    (let s := both (fun x s => s.modDyn x 2 fun d => { d with settle := some ⟨0, 0⟩ }) (mapped .service); (s.dynOf .B 2).settle = some ⟨0, 0⟩ ∧ settleOver 1 ⟨0, 0⟩ = true ∧ settleOver 1 ⟨0, 1⟩ = false) :=
  ⟨by decide +kernel,
   by decide +kernel,
   by decide +kernel,
   by decide +kernel,
   by decide +kernel⟩

/-! ### The fabric's work, frames and the pair -/

/-- A PLAN_ROUTE of the identity on domain 1 under work, with the flags and pins of its request and the cells in cross of its reference. -/
def routing (flags : Nat) (pins : List (Nat × Nat)) (refCells : List Nat) : Drover :=
  let head : List Nat := [1, 255, flags, 0, 6, 0, 0, 0, 4, 0, 0, 0, pins.length, 0, 0]
  ⟨cmd 0x28 [] (head ++ List.replicate 17 0 ++ [0, 0, 1, 0, 2, 0, 3, 0] ++ pins.flatMap fun p => [p.1, 0, p.2, 0]), 1, 255, refCells, [0, 1, 2, 3],
    { thePlan with perm := [0, 1, 2, 3] }, [], [], []⟩

def routes (s : State) (w : Drover) : State := { s with drover := some w }

/-- Where a route stands when it ends: its context, the cells in cross with the pins dropped, and its report. -/
def routed (s : State) (w : Drover) (dr : DomRec) : List Nat × List Nat × RouteReport :=
  let perm := w.plan.perm
  let ctx := s.routeCtx dr w.refCells w.refPerm perm ((planReq w.d.pay).pins w.d.op dr)
  let r := routePerm ctx perm
  (r.1, r.2, judge ctx dr.cells (fun c => decide (c ∈ r.1)) perm w.refPerm)

theorem witness_RoutesBuildsAndPositions :
    (let w := routing 2 [(0, 1), (1, 2), (4, 1), (5, 1)] []; let s := routes ((planned .service).sWr (DRO_PROTECT 0) 0xF00) w; let dr : DomRec := ⟨1, 0, 4, 8, 6, 1, 0, true⟩; let q := routed s w dr; let r := planReq w.d.pay
     s.drover = some w ∧ s.dom? w.plan.dom = some dr ∧ w.phase = 1 ∧ r.dryRun = false ∧ ∃ c ∈ q.2.1, c / 2 = 0 ∨ c / 2 = 2) ∧
    (let w := routing 2 [(2, 1), (3, 2)] []; let s := routes (planned .service) w; let dr : DomRec := ⟨1, 0, 4, 8, 6, 1, 0, true⟩; let q := routed s w dr; let r := planReq w.d.pay
     s.drover = some w ∧ s.dom? w.plan.dom = some dr ∧ w.phase = 1 ∧ r.strict = true ∧ q.2.1 ≠ []) ∧
    (let w := routing 2 [(0, 1), (1, 2), (4, 1)] []; let s := routes ((planned .service).sWr (DRO_PROTECT 0) 0xF00) w; let dr : DomRec := ⟨1, 0, 4, 8, 6, 1, 0, true⟩; let q := routed s w dr; let r := planReq w.d.pay
     s.drover = some w ∧ s.dom? w.plan.dom = some dr ∧ w.phase = 1 ∧ ¬((∃ c ∈ q.2.1, c / 2 = 0 ∨ c / 2 = 2) ∨ (r.strict = true ∧ q.2.1 ≠ [])) ∧ q.2.2.hit ≠ []) ∧
    (let w := routing 4 [] [0, 1, 2, 3, 4, 5]; let s := routes (planned .service) w; let dr : DomRec := ⟨1, 0, 4, 8, 6, 1, 0, true⟩; let q := routed s w dr; let r := planReq w.d.pay
     s.drover = some w ∧ s.dom? w.plan.dom = some dr ∧ w.phase = 1 ∧ ¬((∃ c ∈ q.2.1, c / 2 = 0 ∨ c / 2 = 2) ∨ (r.strict = true ∧ q.2.1 ≠ [])) ∧ q.2.2.hit = [] ∧ r.noCollateral = true ∧ q.2.2.collateral ≠ []) ∧
    (let w := routing 1 [] []; let s := routes ((planned .service).sPut FLD_LIB_CFG fFLD_LIB_CFG_RECORDS 1) w; let dr : DomRec := ⟨1, 0, 4, 8, 6, 1, 0, true⟩; let q := routed s w dr; let r := planReq w.d.pay
     s.drover = some w ∧ s.dom? w.plan.dom = some dr ∧ w.phase = 1 ∧ ¬((∃ c ∈ q.2.1, c / 2 = 0 ∨ c / 2 = 2) ∨ (r.strict = true ∧ q.2.1 ≠ [])) ∧ q.2.2.hit = [] ∧ (r.noCollateral = true → q.2.2.collateral = []) ∧ r.dryRun = false ∧ r.store = true ∧ s.libFull r.planId = true) ∧
    (let w := routing 1 [] []; let s := routes (planned .service) w; let dr : DomRec := ⟨1, 0, 4, 8, 6, 1, 0, true⟩; let q := routed s w dr; let r := planReq w.d.pay
     s.drover = some w ∧ s.dom? w.plan.dom = some dr ∧ w.phase = 1 ∧ ¬((∃ c ∈ q.2.1, c / 2 = 0 ∨ c / 2 = 2) ∨ (r.strict = true ∧ q.2.1 ≠ [])) ∧ q.2.2.hit = [] ∧ (r.noCollateral = true → q.2.2.collateral = []) ∧ ¬(r.dryRun = false ∧ r.store = true ∧ s.libFull r.planId = true)) ∧
    (let w := { routing 1 [] [] with phase := 2, d := cmd 0x2C [3], slot := 3 }; let s := routes (planned .service) w; s.drover = some w ∧ w.phase = 2 ∧ w.d.op = 0x2C) ∧
    (let w := { routing 1 [] [] with phase := 2 }; let s := routes (planned .service) w
     s.drover = some w ∧ w.phase = 2 ∧ w.d.op ≠ 0x2C ∧ 0x28 ≤ w.d.op ∧ w.d.op ≤ 0x2A ∧ (planReq w.d.pay).store = true) ∧
    (let w := { routing 0 [] [] with phase := 2 }; let s := routes (planned .service) w
     s.drover = some w ∧ w.phase = 2 ∧ w.d.op ≠ 0x2C ∧ ¬(0x28 ≤ w.d.op ∧ w.d.op ≤ 0x2A ∧ (planReq w.d.pay).store = true)) ∧
    (let d := { cmd 0x28 with outAddr := 4096 }; ([0x52] : List Byte) ≠ [] ∧ d.ring ≠ 16 ∧ d.outAddr ≠ 0) ∧
    (let s := (planned .service).sPut DRO_ROUTE_CFG fDRO_ROUTE_CFG_TRACK 1; s.edge % 400 = 0 ∧ s.tick % 1024 = 0 ∧ s.sGet DRO_ROUTE_CFG fDRO_ROUTE_CFG_TRACK = 1) :=
  ⟨by decide +kernel,
   by decide +kernel,
   by decide +kernel,
   by decide +kernel,
   by decide +kernel,
   by decide +kernel,
   by decide +kernel,
   by decide +kernel,
   by decide +kernel,
   by decide +kernel,
   by decide +kernel⟩

/-- A loop frame of tick 0 with the codes of channels of two paddocks. -/
def lf (src : Shep) (epoch code : Nat) : LoopFrame := ⟨0, src, epoch, false, false, false, [(2, code), (2048, 5)]⟩

def framed (x : Shep) (f : LoopFrame) : State := State.modSh up x fun h => { h with frame := some f }

/-- A control frame of paddock 0 with one word of codes, and the state in which it is the next on the link of Shepherd B. -/
def cf (kind : CtlKind) (epoch seq : Nat) : CtlFrame := ⟨kind, .B, epoch, 0, seq, 1, 1, 3, 0, 399, 1, [(2, 600)]⟩

def linked (f : CtlFrame) : State := { up with links := [(linkKey 0 .B, [f])] }

/-- The fold of a CRC that works its state out at every step, which the kernel needs on a payload of 4,096 bytes. -/
def foldForced (f : Nat → Byte → Nat) (c : Nat) : List Byte → Nat
  | [] => c
  | b :: bs => if f c b = 0 then foldForced f 0 bs else foldForced f (f c b - 1 + 1) bs

theorem foldForced_eq (f : Nat → Byte → Nat) (bs : List Byte) : ∀ c, bs.foldl f c = foldForced f c bs := by
  induction bs with
  | nil => intro c; rfl
  | cons b bs ih =>
    intro c
    rw [foldForced, List.foldl_cons, ih]
    split
    · rw [‹f c b = 0›]
    · rw [Nat.sub_add_cancel (by omega)]

theorem crc32c_forced (bs : List Byte) : crc32c bs = Nat.xor (foldForced (crcByte 0x82F63B78) 0xFFFFFFFF bs) 0xFFFFFFFF := by rw [crc32c, foldForced_eq]

/-- The noise that makes one frame into another in its first 32 bytes. -/
def forge (a b : List Byte) : Noise := (List.range 32).map fun k => (k, a.getD k 0 ^^^ b.getD k 0)

theorem heard_none {f : LoopFrame} {p : Nat} {noise : Noise} (hn : noise ≠ []) (h : ¬leAt (delivered noise ((f.toPdk p).bytes p)) 0 1 < 6) : f.heard p noise = none := by
  simp only [LoopFrame.heard, hn, if_false, linkOk, h, decide_false, Bool.and_false, Bool.false_and]
  rfl

theorem witness_LoopAndControlFramesArrive :
    (let f := lf .B 1 600; let s := framed .B f; let noise : Noise := []; (s.sh .B).frame = some f ∧ f.tick = s.tick % 2 ^ 48 ∧ s.hubPasses .B f.epoch = false ∧ noise = []) ∧
    (let f := lf .B 0 600; let s := framed .B f; let noise : Noise := [(0, 64)]; (s.sh .B).frame = some f ∧ f.tick = s.tick % 2 ^ 48 ∧ s.hubPasses .B f.epoch = true ∧ s.pdkHears 0 = true ∧ f.heard 0 noise = none) ∧
    (let f := lf .B 0 600; let s := State.modPdk (framed .B f) 0 fun k => { k with epoch := 1, epochTick := 9 }; let noise : Noise := []; (s.sh .B).frame = some f ∧ f.tick = s.tick % 2 ^ 48 ∧ s.hubPasses .B f.epoch = true ∧ s.pdkHears 0 = true ∧ let h := f.toPdk 0; f.heard 0 noise = some h ∧ (s.takeEpoch 0 h.epoch).1 = false) ∧
    (let f := lf .B 0 600; let s := framed .B f; let noise : Noise := forge (LoopFrame.bytes (f.toPdk 0) 0) (LoopFrame.bytes { f.toPdk 0 with tick := 9 } 0); (s.sh .B).frame = some f ∧ f.tick = s.tick % 2 ^ 48 ∧ s.hubPasses .B f.epoch = true ∧ s.pdkHears 0 = true ∧ ((f.heard 0 noise).map fun h => (s.takeEpoch 0 h.epoch).1 && decide (h.tick ≠ s.tick % 2 ^ 48)) = some true) ∧
    (let f := lf .B 0 600; let s := framed .B f; let noise : Noise := []; (s.sh .B).frame = some f ∧ f.tick = s.tick % 2 ^ 48 ∧ s.hubPasses .B f.epoch = true ∧ s.pdkHears 0 = true ∧ let h := f.toPdk 0; f.heard 0 noise = some h ∧ (s.takeEpoch 0 h.epoch).1 = true ∧ let n := (s.takeEpoch 0 h.epoch).2; h.tick = n.tick % 2 ^ 48 ∧ (n.pdk 0).frame = none) ∧
    (let f := lf .B 0 600; let s := State.modPdk (framed .B f) 0 fun k => { k with frame := some { lf .A 0 600 with tick := 9 } }; let noise : Noise := []; (s.sh .B).frame = some f ∧ f.tick = s.tick % 2 ^ 48 ∧ s.hubPasses .B f.epoch = true ∧ s.pdkHears 0 = true ∧ let h := f.toPdk 0; f.heard 0 noise = some h ∧ (s.takeEpoch 0 h.epoch).1 = true ∧ let n := (s.takeEpoch 0 h.epoch).2; h.tick = n.tick % 2 ^ 48 ∧ ((n.pdk 0).frame.map fun g => decide (g.tick ≠ h.tick)) = some true) ∧
    (let f := lf .B 0 600; let s := State.modPdk (framed .B f) 0 fun k => { k with frame := some { lf .A 0 601 with codes := [(2, 601)] } }; let noise : Noise := []; (s.sh .B).frame = some f ∧ f.tick = s.tick % 2 ^ 48 ∧ s.hubPasses .B f.epoch = true ∧ s.pdkHears 0 = true ∧ let h := f.toPdk 0; f.heard 0 noise = some h ∧ (s.takeEpoch 0 h.epoch).1 = true ∧ let n := (s.takeEpoch 0 h.epoch).2; h.tick = n.tick % 2 ^ 48 ∧ ((n.pdk 0).frame.map fun g => decide (g.tick = h.tick ∧ g.epoch = h.epoch ∧ g.overrun = false ∧
        h.overrun = false ∧ g.extended = false ∧ h.extended = false ∧ g.inputMiss = false ∧ h.inputMiss = false ∧ g.codes ≠ h.codes ∧ crc32c (g.payload 0) ≠ crc32c (h.payload 0))) = some true) ∧
    (let f := lf .B 0 600; let s := State.modPdk (framed .B f) 0 fun k => { k with frame := some { lf .A 0 600 with codes := [(2, 600)] } }; let noise : Noise := []; (s.sh .B).frame = some f ∧ f.tick = s.tick % 2 ^ 48 ∧ s.hubPasses .B f.epoch = true ∧ s.pdkHears 0 = true ∧ let h := f.toPdk 0; f.heard 0 noise = some h ∧ (s.takeEpoch 0 h.epoch).1 = true ∧ let n := (s.takeEpoch 0 h.epoch).2; h.tick = n.tick % 2 ^ 48 ∧ ((n.pdk 0).frame.map fun g => decide (g.tick = h.tick ∧ g.codes = h.codes)) = some true) ∧
    (let f := cf .stage 1 1; let s := linked f; let noise : Noise := []; Tab.get s.links [] (linkKey 0 .B) = [f] ∧ let u := { s with links := Tab.set s.links [] (linkKey 0 .B) [] }
     u.hubPasses .B f.epoch = false ∧ f.pdk = 0 ∧ noise = []) ∧
    (let f := cf .stage 0 1; let s := linked f; let noise : Noise := [(33, 1)]; Tab.get s.links [] (linkKey 0 .B) = [f] ∧ let u := { s with links := Tab.set s.links [] (linkKey 0 .B) [] }
     u.hubPasses .B f.epoch = true ∧ u.pdkHears 0 = true ∧ f.heard 0 noise = none) ∧
    (let f := cf .retime 0 1; let s := State.modPdk (linked f) 0 fun k => { k with epoch := 1, epochTick := 9 }; let noise : Noise := []; Tab.get s.links [] (linkKey 0 .B) = [f] ∧ let u := { s with links := Tab.set s.links [] (linkKey 0 .B) [] }
     u.hubPasses .B f.epoch = true ∧ u.pdkHears 0 = true ∧ f.heard 0 noise = some f ∧ (u.takeEpoch 0 f.epoch).1 = false) ∧
    (let f := cf .cancel 0 0; let s := State.modPdk (linked f) 0 fun k => { k with copies := [(0, 0, 7)] }; let noise : Noise := []; Tab.get s.links [] (linkKey 0 .B) = [f] ∧ let u := { s with links := Tab.set s.links [] (linkKey 0 .B) [] }
     u.hubPasses .B f.epoch = true ∧ u.pdkHears 0 = true ∧ let h := f; f.heard 0 noise = some h ∧ (u.takeEpoch 0 h.epoch).1 = true ∧
     let n := (u.takeEpoch 0 h.epoch).2
     let m := if (n.pdk 0).ctlAny = true then n.modPdk 0 fun k => { k with ctlAny := false, ctlSeq := (h.ctlSeq + 2 ^ 32 - 1) % 2 ^ 32 } else n
     let ahead := (h.ctlSeq + 2 ^ 32 - (m.pdk 0).ctlSeq) % 2 ^ 32
     ahead = 0 ∧ ((m.pdk 0).held.find? fun g => decide (g.ctlSeq = f.ctlSeq)) = none ∧
      ((m.pdk 0).copies.find? fun q => decide (q.1 = f.ctlSeq)) = some (0, 0, 7) ∧ 0 = h.epoch ∧ 7 ≠ crc32c h.payload) ∧
    (let f := cf .stage 0 5; let s := State.modPdk (linked f) 0 fun k => { k with held := [{ cf .stage 0 5 with codes := [(2, 601)] }] }; let noise : Noise := []; Tab.get s.links [] (linkKey 0 .B) = [f] ∧ let u := { s with links := Tab.set s.links [] (linkKey 0 .B) [] }
     u.hubPasses .B f.epoch = true ∧ u.pdkHears 0 = true ∧ let h := f; f.heard 0 noise = some h ∧ (u.takeEpoch 0 h.epoch).1 = true ∧
     let n := (u.takeEpoch 0 h.epoch).2
     let m := if (n.pdk 0).ctlAny = true then n.modPdk 0 fun k => { k with ctlAny := false, ctlSeq := (h.ctlSeq + 2 ^ 32 - 1) % 2 ^ 32 } else n
     let ahead := (h.ctlSeq + 2 ^ 32 - (m.pdk 0).ctlSeq) % 2 ^ 32
     1 < ahead ∧ ahead < 2 ^ 31 ∧ ((m.pdk 0).held.find? fun g => decide (g.ctlSeq = f.ctlSeq)) = some { f with codes := [(2, 601)] } ∧
      crc32c (CtlFrame.payload { f with codes := [(2, 601)] }) ≠ crc32c h.payload) ∧
    (let f := cf .stage 0 (2 ^ 31); let s := linked f; let noise : Noise := []; Tab.get s.links [] (linkKey 0 .B) = [f] ∧ let u := { s with links := Tab.set s.links [] (linkKey 0 .B) [] }
     u.hubPasses .B f.epoch = true ∧ u.pdkHears 0 = true ∧ let h := f; f.heard 0 noise = some h ∧ (u.takeEpoch 0 h.epoch).1 = true ∧
     let n := (u.takeEpoch 0 h.epoch).2
     let m := if (n.pdk 0).ctlAny = true then n.modPdk 0 fun k => { k with ctlAny := false, ctlSeq := (h.ctlSeq + 2 ^ 32 - 1) % 2 ^ 32 } else n
     let ahead := (h.ctlSeq + 2 ^ 32 - (m.pdk 0).ctlSeq) % 2 ^ 32
     2 ^ 31 = ahead ∧ (m.pdk 0).held = [] ∧ (m.pdk 0).copies = []) ∧
    (let f := cf .commit 0 0; let s := State.modPdk (linked f) 0 fun k => { k with copies := [(0, 1, 7)] }; let noise : Noise := []; Tab.get s.links [] (linkKey 0 .B) = [f] ∧ let u := { s with links := Tab.set s.links [] (linkKey 0 .B) [] }
     u.hubPasses .B f.epoch = true ∧ u.pdkHears 0 = true ∧ let h := f; f.heard 0 noise = some h ∧ (u.takeEpoch 0 h.epoch).1 = true ∧
     let n := (u.takeEpoch 0 h.epoch).2
     let m := if (n.pdk 0).ctlAny = true then n.modPdk 0 fun k => { k with ctlAny := false, ctlSeq := (h.ctlSeq + 2 ^ 32 - 1) % 2 ^ 32 } else n
     let ahead := (h.ctlSeq + 2 ^ 32 - (m.pdk 0).ctlSeq) % 2 ^ 32
     ahead = 0 ∧ (m.pdk 0).held = [] ∧ ((m.pdk 0).copies.find? fun q => decide (q.1 = f.ctlSeq)) = some (0, 1, 7) ∧ 1 ≠ h.epoch) ∧
    (let f := cf .commit 0 1; let s := State.modPdk (linked f) 0 fun k => { k with ctlAny := true, ctlSeq := 77 }; let noise : Noise := []; Tab.get s.links [] (linkKey 0 .B) = [f] ∧ let u := { s with links := Tab.set s.links [] (linkKey 0 .B) [] }
     u.hubPasses .B f.epoch = true ∧ u.pdkHears 0 = true ∧ let h := f; f.heard 0 noise = some h ∧ (u.takeEpoch 0 h.epoch).1 = true ∧
     let n := (u.takeEpoch 0 h.epoch).2
     let m := if (n.pdk 0).ctlAny = true then n.modPdk 0 fun k => { k with ctlAny := false, ctlSeq := (h.ctlSeq + 2 ^ 32 - 1) % 2 ^ 32 } else n
     let ahead := (h.ctlSeq + 2 ^ 32 - (m.pdk 0).ctlSeq) % 2 ^ 32
     (n.pdk 0).ctlAny = true ∧ ahead = 1 ∧ (m.pdk 0).held = []) ∧
    (let f := cf .retime 0 1; let s := linked f; let noise : Noise := []; Tab.get s.links [] (linkKey 0 .B) = [f] ∧ let u := { s with links := Tab.set s.links [] (linkKey 0 .B) [] }
     u.hubPasses .B f.epoch = true ∧ u.pdkHears 0 = true ∧ let h := f; f.heard 0 noise = some h ∧ (u.takeEpoch 0 h.epoch).1 = true ∧
     let n := (u.takeEpoch 0 h.epoch).2
     let m := if (n.pdk 0).ctlAny = true then n.modPdk 0 fun k => { k with ctlAny := false, ctlSeq := (h.ctlSeq + 2 ^ 32 - 1) % 2 ^ 32 } else n
     let ahead := (h.ctlSeq + 2 ^ 32 - (m.pdk 0).ctlSeq) % 2 ^ 32
     (n.pdk 0).ctlAny = false ∧ ahead = 1 ∧ (m.pdk 0).held = []) ∧
    (let f := cf .stage 0 1; let s := linked f; let noise : Noise := forge (CtlFrame.bytes f) (CtlFrame.bytes { f with ctlSeq := 2 ^ 31 - 1 }); Tab.get s.links [] (linkKey 0 .B) = [f] ∧ let u := { s with links := Tab.set s.links [] (linkKey 0 .B) [] }
     u.hubPasses .B f.epoch = true ∧ u.pdkHears 0 = true ∧ let h := { f with ctlSeq := 2 ^ 31 - 1, fire := 0 }; f.heard 0 noise = some h ∧ (u.takeEpoch 0 h.epoch).1 = true ∧
     let n := (u.takeEpoch 0 h.epoch).2
     let m := if (n.pdk 0).ctlAny = true then n.modPdk 0 fun k => { k with ctlAny := false, ctlSeq := (h.ctlSeq + 2 ^ 32 - 1) % 2 ^ 32 } else n
     let ahead := (h.ctlSeq + 2 ^ 32 - (m.pdk 0).ctlSeq) % 2 ^ 32
     decide (h.ctlSeq = 2 ^ 31 - 1) = true ∧ 1 < ahead ∧ ahead < 2 ^ 31 ∧ (m.pdk 0).held = []) ∧
    (let f := cf .stage 0 2; let s := State.modPdk (linked f) 0 fun k => { k with held := (List.range 8).map fun q => cf .stage 0 (3 + q) }; let noise : Noise := []; Tab.get s.links [] (linkKey 0 .B) = [f] ∧ let u := { s with links := Tab.set s.links [] (linkKey 0 .B) [] }
     u.hubPasses .B f.epoch = true ∧ u.pdkHears 0 = true ∧ let h := f; f.heard 0 noise = some h ∧ (u.takeEpoch 0 h.epoch).1 = true ∧
     let n := (u.takeEpoch 0 h.epoch).2
     let m := if (n.pdk 0).ctlAny = true then n.modPdk 0 fun k => { k with ctlAny := false, ctlSeq := (h.ctlSeq + 2 ^ 32 - 1) % 2 ^ 32 } else n
     let ahead := (h.ctlSeq + 2 ^ 32 - (m.pdk 0).ctlSeq) % 2 ^ 32
     ahead = 2 ∧ (∀ g ∈ (m.pdk 0).held, g.ctlSeq ≠ h.ctlSeq) ∧ (m.pdk 0).held.length = 8) ∧
    (let s := State.modPdk up 0 fun k => { k with held := [cf .stage 0 9] }; (s.pdk 0).held ≠ [] ∧ s.fenced 0 = false) :=
  ⟨by decide +kernel,
   by refine ⟨by decide +kernel, by decide +kernel, by decide +kernel, by decide +kernel, heard_none (by simp) (by decide +kernel)⟩,
   by decide +kernel,
   by simp only [LoopFrame.heard, LoopFrame.bytes, linkBytes, linkOk, crc32c_forced]; decide +kernel,
   by decide +kernel,
   by decide +kernel,
   by simp only [crc32c_forced]; decide +kernel,
   by decide +kernel,
   by decide +kernel,
   by decide +kernel,
   by decide +kernel,
   by decide +kernel,
   by decide +kernel,
   by decide +kernel,
   by decide +kernel,
   by decide +kernel,
   by decide +kernel,
   by decide +kernel,
   by decide +kernel,
   by decide +kernel⟩

theorem witness_PairChangesAndResynchronises :
    (let s := up; s.activeWorks = true ∧ s.copyTo ≠ none ∧ (s.sync.map fun y => y.stage) ≠ some 3) ∧
    (let s := { up with shB := { role := .syncing }, sync := some ⟨3, 0, [1], 0, 0, [], {}⟩ }; s.activeWorks = true ∧ s.copyTo ≠ none ∧ (s.sync.map fun y => y.stage) = some 3) ∧
    (let r : CopyRec := ⟨0, [4], false, false, false⟩; let s := { up with copyRec := some r }; s.copyRec = some r ∧ r.tick = s.tick ∧ s.copyTo ≠ none) ∧
    (let s := State.modSh up .B fun h => { h with copyMiss := 4096 }; s.standby = some .B ∧ s.active = some .A ∧ s.dGet SHP_CFG fSHP_CFG_COPY_MISS ≤ (s.sh .B).copyMiss ∧ (s.sh .A).hbMiss = 0) ∧
    (let s := { up.dPut SHP_CFG fSHP_CFG_DIV_LIMIT 3 with divRun := 3 }; s.standby = some .B ∧ s.dGet SHP_CFG fSHP_CFG_DIV_LIMIT ≠ 0 ∧ s.dGet SHP_CFG fSHP_CFG_DIV_LIMIT ≤ s.divRun) ∧
    (let s := State.modSh up .B fun h => { h with hbMiss := 64 }; s.isLost .B = true ∧ s.role .B = .standby ∧ s.isLost .A = false) ∧
    (let s := State.modSh (State.modSh up .A fun h => { h with hbMiss := 64 }) .B fun h => { h with hbMiss := 64 }; s.isLost .B = true ∧ s.role .B = .standby ∧ s.isLost .A = true) ∧
    (let s := State.modSh up .A fun h => { h with hbMiss := 64 }; s.isLost .A = true ∧ s.role .A ≠ .standby ∧ s.standby = some .B ∧ (s.sh .B).hbMiss = 0 ∧ s.fencedOwn .B 16 = false) ∧
    (let s := State.modSh (State.modSh up .A fun h => { h with hbMiss := 64 }) .B fun h => { h with hbMiss := 64 }; s.isLost .A = true ∧ s.role .A ≠ .standby ∧ s.standby = some .B ∧ (s.sh .B).hbMiss ≠ 0 ∧ s.isLost .B = true) ∧
    (let s := State.modSh { up with shB := { role := .detached } } .A fun h => { h with hbMiss := 64 }; s.isLost .A = true ∧ s.role .A ≠ .standby ∧ s.standby = none) ∧
    (let s := { up with handover := some 0, edge := 400 }; s.handover = some 0 ∧ s.active = some .A ∧ s.standby = some .B ∧ 0 + 1 ≤ s.tick ∧ ((s.setRole .A .standby).grant .B 1).job? .handover = none) ∧
    (let j : Job := ⟨cmd 0x48, .handover, 2, 0, []⟩; let s := { busy up j with handover := some 0, edge := 400 }
     s.handover = some 0 ∧ s.active = some .A ∧ s.standby = some .B ∧ 0 + 1 ≤ s.tick ∧ ((s.setRole .A .standby).grant .B 1).job? .handover = some j ∧ j.phase = 2) ∧
    (let s := { up with shB := { role := .syncing, halted := false, booted := true }, sync := some ⟨1, 0, [], 16, 9999999, [(4, 0)], {}⟩ }; s.syncing = some .B ∧ (s.sync.map fun y => decide (y.stage = 1 ∧ s.part.bankPages ≤ y.done ∧ ∀ e ∈ y.todo, e.2 = 0)) = some true) ∧
    (let s := { up with shB := { role := .syncing, halted := false, booted := true }, sync := some ⟨2, 0, [], 16, 0, [(5, 0)], {}⟩ }; s.syncing = some .B ∧ (s.sync.map fun y => decide (y.stage = 2 ∧ ∀ e ∈ y.todo, e.2 = 0)) = some true) ∧
    (let s := { up with shB := { role := .syncing, halted := false, booted := true }, sync := some ⟨3, 0, [], 16, 0, [], {}⟩ }; s.syncing = some .B ∧ (s.sync.map fun y => y.stage) = some 3 ∧ (s.sync.map fun y => decide (16 ≤ y.agree)) = some true) ∧
    (let s := { up with sync := some ⟨1, 0, [], 0, 0, [], {}⟩, edge := 400 * syncTicks }; (s.sync.map fun y => decide (y.start + syncTicks ≤ s.tick)) = some true) :=
  ⟨by decide +kernel,
   by decide +kernel,
   by decide +kernel,
   by decide +kernel,
   by decide +kernel,
   by decide +kernel,
   by decide +kernel,
   by decide +kernel,
   by decide +kernel,
   by decide +kernel,
   by decide +kernel,
   by decide +kernel,
   by decide +kernel,
   by decide +kernel,
   by decide +kernel,
   by decide +kernel⟩

theorem witness_CrosstalkPasses :
    (let s := mapped .service; s.passesRun = true ∧ s.runs .A = true ∧ s.edge % 400 = 0 ∧ (s.sh .A).xt.n0 = none ∧ (s.sh .A).xt.next ≤ s.tick ∧ s.tick % s.xtPeriod .A = 0 ∧ s.pGet .A CMP_FIT_CTRL fCMP_FIT_CTRL_EN = 0) ∧
    (let s := State.modRec ((mapped .service).sPut CMP_FIT_CTRL fCMP_FIT_CTRL_EN 1) .A fun r => { r with state := 1 }
     let f := s.recFrame .A 2 0 s.part.dualChans.length 0 (s.part.dualChans.flatMap fun c => leBytes 4 (Tab.get (s.sh .A).xt.pbar 0 c % 2 ^ 22))
     s.passesRun = true ∧ s.runs .A = true ∧ s.pGet .A CMP_FIT_CTRL fCMP_FIT_CTRL_EN = 1 ∧ s.recording .A = true ∧ f.recLost .A = false) ∧
    (let s := State.modSh (mapped .service) .A fun h => { h with xt := { n0 := some 0 } }; s.passesRun = true ∧ s.runs .A = true ∧ (s.sh .A).xt.n0 = some 0) ∧
    (let s := State.modSh (mapped .service) .A fun h => { h with xt := { ready := some ⟨0, [(2, -7, true), (2, 7, false)]⟩ } }; s.passesRun = true ∧ s.runs .A = true ∧ ((s.sh .A).xt.ready.map fun r => decide (r.tick ≤ s.tick)) = some true) :=
  ⟨by decide +kernel,
   by decide +kernel,
   by decide +kernel,
   by decide +kernel⟩

/-! ### The host, the network and time -/

/-- Ring 15 on, with three descriptors that Shepherd B has seen and not fetched. -/
def ringed : State := State.modSh (((up.sPut (HIF_CMD_CFG 15) fHIF_CMD_CFG_SIZE 2).sPut (HIF_CMD_CFG 15) fHIF_CMD_CFG_EN 1)) .B fun h => { h with cmdProd := [(15, 3)] }

/-- Port 0 up at 1 Gb/s and pair 0 with an address. -/
def netUp : State := ((up.dPut (ETH_PORT_CFG 0) fETH_PORT_CFG_SPEED 2).dPut (ETH_PORT_STAT 0) fETH_PORT_STAT_LINK 1).wr 0 (ETH_MAC_LO 0) 0x030201

def frame (dst src etype : Nat) (red : Option (Nat × Nat)) (body : List Byte) : EthFrame := ⟨leBytes 6 dst, leBytes 6 src, none, etype, red, body⟩

/-- A control frame body of slot 0 with its number, a NOP descriptor and a tag. -/
def ctlBody (ver seq : Nat) (tag : List Byte) : List Byte := [BitVec.ofNat 8 ver, 1, 80, 0, 0, 0, 0, 0] ++ leBytes 8 seq ++ zeros 64 ++ tag

/-- The control frame with the tag of the key. -/
def ctlFrameOf (seq : Nat) : EthFrame :=
  let f := frame 0x030201 0x0A0908 0x88B5 none (ctlBody 1 seq [])
  { f with body := ctlBody 1 seq (ctlTag (zeros 32) f.dst f.src f.etype f.body) }

def withCtl (f : EthFrame) : State := { netUp with keys := { ctl0 := some (zeros 32) }, rxCtl := [(0, f)], keySeq := [(0, 4)] }

theorem witness_HostRingsMove :
    (let s := up.sPut HIF_POLL fHIF_POLL_EN 1; s.polls .B = true ∧ s.sGet HIF_POLL fHIF_POLL_EN ≠ 0) ∧
    (let s := ringed; let es : List (List Byte × Option (List Byte)) := List.replicate 3 (zeros 64, none); let n := (fitting (s.commandsHeld .B).length es).length; n = 3 ∧ s.polls .B = true ∧ 15 < 16 ∧ s.cmdOn 15 = true ∧ 15 ∉ (s.sh .B).stopped ∧ n ≤ 32 ∧ s.cmdCons .B 15 % s.cmdSize 15 + n ≤ s.cmdSize 15 ∧
      n ≤ (s.cmdProd .B 15 + 65536 - s.cmdCons .B 15) % 65536 ∧ (s.sh .B).fold.length < 4096) ∧
    (let s := State.modSh up .B fun h => { h with dbFails := 15 }; s.polls .B = true ∧ (s.sh .B).dbFails + 1 = 16) ∧
    (let s := ringed; s.polls .B = true ∧ s.cmdOn 15 = true ∧ 15 ∉ (s.sh .B).stopped) ∧
    (let s := up.pPut .B HIF_STAT_ADDR_LO fHIF_STAT_ADDR_LO_EN 1; (s.sh .B).writes = true ∧ s.pGet .B HIF_STAT_ADDR_LO fHIF_STAT_ADDR_LO_EN ≠ 0 ∧
      (s.lineBody .B ≠ (s.sh .B).line ∨ (s.sh .B).lineTick + 1024 ≤ s.tick)) ∧
    (let s := State.modSh up .B fun h => { h with irqHeld := [3] }; 3 ∈ (s.sh .B).irqHeld ∧ s.irqFree .B 3 = true ∧ (s.sh .B).msix.on = true ∧ (s.sh .B).msix.allMasked = false ∧ 3 ∉ (s.sh .B).msix.masked) ∧
    (let s := State.modSh up .B fun h => { h with irqHeld := [3], msix := { masked := [3] } }; 3 ∈ (s.sh .B).irqHeld ∧ s.irqFree .B 3 = true ∧ (s.sh .B).msix.on = true ∧ 3 ∈ (s.sh .B).msix.masked) ∧
    (let s := State.modSh up .B fun h => { h with irqHeld := [3], msix := { on := false } }; 3 ∈ (s.sh .B).irqHeld ∧ s.irqFree .B 3 = true ∧ (s.sh .B).msix.on = false) ∧
    ((up.sh .B).writes = true) :=
  ⟨by decide +kernel,
   by decide +kernel,
   by decide +kernel,
   by decide +kernel,
   by decide +kernel,
   by decide +kernel,
   by decide +kernel,
   by decide +kernel,
   by decide +kernel⟩

theorem witness_TelemetryIsSent :
    (let s := (both (fun x s => s.pPut x HIF_TLM_CFG fHIF_TLM_CFG_INTERVAL 4) up); let t := { s with edge := 1600 }
     t.active ≠ none ∧ t.tlmLast + t.pGet t.lead HIF_TLM_CFG fHIF_TLM_CFG_INTERVAL ≤ t.tick) ∧
    (let s := { up with tlmWait := List.replicate 16 (zeros 4) }; min 16 s.tlmWait.length = 16 ∧ s.keys.ctl0 = none) ∧
    (let s := { up with tlmWait := [zeros 4], edge := 40000, keys := { ctl0 := some (zeros 32) } }; min 16 s.tlmWait.length ≠ 0 ∧ s.tlmSince + 40000 ≤ s.edge ∧ s.keys.ctl0 = some (zeros 32)) :=
  ⟨by decide +kernel,
   by decide +kernel,
   by decide +kernel⟩

theorem witness_ErrorsAndSensorsShow :
    (let s := up; let a := (s.pPut .B BNK_ERR_ADDR fBNK_ERR_ADDR_BANK 9).pPut .B BNK_ERR_ADDR fBNK_ERR_ADDR_WORD 1; let b := (a.pCount .B BNK_ECC fBNK_ECC_UE 1).pFlag .B BNK_STATUS fBNK_STATUS_UE_SEEN; (b.sh Shep.B.other).writes = true ∧ workBank s.part 4 = false ∧ sharedOff (CMP_CH_CTRL 2) = true) ∧
    (let s := { up with shA := { role := .off } }; let a := (s.pPut .B BNK_ERR_ADDR fBNK_ERR_ADDR_BANK 9).pPut .B BNK_ERR_ADDR fBNK_ERR_ADDR_WORD 1; let b := (a.pCount .B BNK_ECC fBNK_ECC_UE 1).pFlag .B BNK_STATUS fBNK_STATUS_UE_SEEN; (b.sh Shep.B.other).writes = false ∧ workBank s.part 4 = false ∧ sharedOff (CMP_CH_CTRL 2) = true) ∧
    (workBank up.part 3 = true ∧ workBank up.part 63 = true ∧ sharedOff HIF_STATUS = false) ∧
    (16 < 17 ∧ 4096 < 4064 % 4096 / 32 * 32 + 32 * 2) ∧
    (let s := up; matrixRefuses s.part (s.remap .B) 14 10 64 1 = true ∧ 14 < 15 ∧ (s.sh .B).perst = false ∧ (s.sh .B).railLow = false ∧ s.mode ≠ .off ∧ s.mode ≠ .reset ∧ s.pGet .B MTX_ERR_STATUS fMTX_ERR_STATUS_VALID = 0) ∧
    (let s := up.pPut .B MTX_ERR_STATUS fMTX_ERR_STATUS_VALID 1; matrixRefuses s.part (s.remap .B) 14 10 64 1 = true ∧ 14 < 15 ∧ (s.sh .B).perst = false ∧ (s.sh .B).railLow = false ∧ s.mode ≠ .off ∧ s.mode ≠ .reset ∧ s.pGet .B MTX_ERR_STATUS fMTX_ERR_STATUS_VALID ≠ 0) ∧
    (let s := up; s.mode ≠ .off ∧ s.mode ≠ .reset ∧ ((s.sh .A).writes = true ∨ (s.sh .B).writes = true)) ∧
    (let s := { up with shA := { role := .off }, shB := { role := .off } }; s.mode ≠ .off ∧ s.mode ≠ .reset ∧ (s.sh .A).writes = false ∧ (s.sh .B).writes = false) ∧
    (let s := up.dPut (PDK_TEC_CFG 3) fPDK_TEC_CFG_EN 1; s.dGet (PDK_TEC_CFG 3) fPDK_TEC_CFG_EN ≠ 0 ∧ s.mode ≠ .off ∧ s.mode ≠ .reset ∧ (Tab.get s.tecs {} 3).due ≤ s.tick ∧ (Tab.get s.tecs {} 3).fault = false) :=
  ⟨by decide +kernel,
   by decide +kernel,
   by decide +kernel,
   by decide +kernel,
   by decide +kernel,
   by decide +kernel,
   by decide +kernel,
   by decide +kernel,
   by decide +kernel⟩

theorem witness_FramesAreReceived :
    (let f := frame 0x030201 0x0A0908 0x0800 none (zeros 46); let s := netUp.dPut ETH_POL_CFG fETH_POL_CFG_UNMATCHED 1; s.portUp 0 = true ∧ f.len (s.hsr 0) ≤ 9216 ∧ let r := s.police 0 f (f.len (s.hsr 0))
     r.1 = false) ∧
    (let f := frame 0x0100000C28001 0x0A0908 0x8808 none (zeros 46); let s := netUp; s.portUp 0 = true ∧ f.len (s.hsr 0) ≤ 9216 ∧ let r := s.police 0 f (f.len (s.hsr 0))
     r.1 = true ∧ f.etype = 0x8808) ∧
    (let f := frame 0x030201 0x0A0908 0x0800 none (zeros 46); let s := netUp; s.portUp 0 = true ∧ f.len (s.hsr 0) ≤ 9216 ∧ let r := s.police 0 f (f.len (s.hsr 0))
     r.1 = true ∧ f.etype ≠ 0x8808 ∧ r.2.hasMac 0 = true ∧ (s.hsr 0 = true → f.src ≠ r.2.mac 0) ∧ f.red = none) ∧
    (let f := frame 0x180C200000E 0x0A0908 0x88F7 none (zeros 46); let s := netUp.wr 0 (ETH_MAC_LO 0) 0; s.portUp 0 = true ∧ f.len (s.hsr 0) ≤ 9216 ∧ let r := s.police 0 f (f.len (s.hsr 0))
     r.1 = true ∧ r.2.hasMac 0 = false ∧ f.etype = 0x88F7 ∧ s.hsr 0 = false ∧ f.red = none) ∧
    (let f := frame 0x030201 0x0A0908 0x0800 (some (9, 0)) (zeros 46); let s := netUp; s.portUp 0 = true ∧ f.len (s.hsr 0) ≤ 9216 ∧ let r := s.police 0 f (f.len (s.hsr 0))
     r.1 = true ∧ f.etype ≠ 0x8808 ∧ r.2.hasMac 0 = true ∧ (s.hsr 0 = true → f.src ≠ r.2.mac 0) ∧ f.red = some (9, 0) ∧
      ((r.2.seeNode 0 (leNat f.src)).duplicate 0 (leNat f.src) 9).1 = false) ∧
    (let f := frame 0x030201 0x0A0908 0x0800 (some (9, 1)) (zeros 46); let s := State.modPair netUp 0 fun p => { p with dups := [(0x0A0908, [9], 0)] }; s.portUp 0 = true ∧ f.len (s.hsr 0) ≤ 9216 ∧ let r := s.police 0 f (f.len (s.hsr 0))
     r.1 = true ∧ f.etype ≠ 0x8808 ∧ r.2.hasMac 0 = true ∧ (s.hsr 0 = true → f.src ≠ r.2.mac 0) ∧ f.red = some (9, 1) ∧
      ((r.2.seeNode 0 (leNat f.src)).duplicate 0 (leNat f.src) 9).1 = true) ∧
    (let f := ctlFrameOf 5; let s := State.modSh (withCtl f) .A fun h => { h with fold := List.replicate 256 ⟨{ cmd 0 with ring := 16 }, 0⟩ }; s.rxCtl.length = 1 ∧ s.active ≠ none ∧ let u := { s with rxCtl := [] }
     u.ctlFail 0 f = 0 ∧ 256 ≤ u.netHeld) ∧
    (let f := ctlFrameOf 5; let s := withCtl f; s.rxCtl.length = 1 ∧ s.active ≠ none ∧ let u := { s with rxCtl := [] }
     u.ctlFail 0 f = 0 ∧ u.netHeld < 256) ∧
    (let f := frame 0x030201 0x0A0908 0x88B5 none (ctlBody 2 5 (zeros 16)); let s := withCtl f; s.rxCtl.length = 1 ∧ s.active ≠ none ∧ let u := { s with rxCtl := [] }
     u.ctlFail 0 f = 1) ∧
    (let f := frame 0x030201 0x0A0908 0x88B5 none (ctlBody 1 5 (zeros 16)); let s := withCtl f; s.rxCtl.length = 1 ∧ s.active ≠ none ∧ let u := { s with rxCtl := [] }
     u.ctlFail 0 f = 2) ∧
    (let f := ctlFrameOf 4; let s := withCtl f; s.rxCtl.length = 1 ∧ s.active ≠ none ∧ let u := { s with rxCtl := [] }
     u.ctlFail 0 f = 3) :=
  ⟨by decide +kernel,
   by decide +kernel,
   by decide +kernel,
   by decide +kernel,
   by decide +kernel,
   by decide +kernel,
   by decide +kernel,
   by decide +kernel,
   by decide +kernel,
   by decide +kernel,
   by decide +kernel⟩

def txOf (first : Option (Nat × Nat)) : TxFrame := ⟨0, 0, frame 0x0A0908 0x030201 0x0800 none (zeros 46), none, first, 0⟩

def glist : GateList := ⟨0, 200, [(255, 100), (1, 100)]⟩

/-- A frame waits in the highest queue of port 0. -/
def queued : State := State.modQueue netUp 0 7 fun q => { q with frames := [⟨frame 0x0A0908 0x030201 0x0800 none (zeros 46), false, none, 0, none⟩] }

theorem witness_FramesAreSent :
    (let s := { netUp with tx := [txOf (none)], edge := 0 }; let n := s.formReplies; let u := n.modSh .B fun h => { h with offers := (h.offers + 1) % 2 ^ 32 }
     let epoch := n.pGet .B SHP_STATUS fSHP_STATUS_EPOCH; (s.sh .B).offering = true ∧ bitAt (s.rd (Shep.bank .B) CLK_XING_FENCE).toNat 19 = false ∧
      (n.tx.find? fun t => decide (t.num = (n.sh .B).offers)) = some (txOf (none)) ∧ u.hubPasses .B epoch = true ∧ (txOf none).first = none) ∧
    (let s := { (State.modSh netUp .B fun h => { h with role := .detached }) with tx := [txOf (none)], edge := 0 }; let n := s.formReplies; let u := n.modSh .B fun h => { h with offers := (h.offers + 1) % 2 ^ 32 }
     let epoch := n.pGet .B SHP_STATUS fSHP_STATUS_EPOCH; (s.sh .B).offering = true ∧ bitAt (s.rd (Shep.bank .B) CLK_XING_FENCE).toNat 19 = false ∧
      (n.tx.find? fun t => decide (t.num = (n.sh .B).offers)) = some (txOf (none)) ∧ u.hubPasses .B epoch = false ∧ (txOf none).first = none) ∧
    (let s := { netUp with tx := [txOf (some (0, 0))], edge := 25600 }; let n := s.formReplies; let u := n.modSh .B fun h => { h with offers := (h.offers + 1) % 2 ^ 32 }
     let epoch := n.pGet .B SHP_STATUS fSHP_STATUS_EPOCH; (s.sh .B).offering = true ∧ bitAt (s.rd (Shep.bank .B) CLK_XING_FENCE).toNat 19 = false ∧
      (n.tx.find? fun t => decide (t.num = (n.sh .B).offers)) = some (txOf (some (0, 0))) ∧ u.hubPasses .B epoch = true ∧ u.edge ≤ 0 + 25600 ∧ 0 = epoch) ∧
    (let s := { netUp with tx := [txOf (some (0, 1))], edge := 25600 }; let n := s.formReplies; let u := n.modSh .B fun h => { h with offers := (h.offers + 1) % 2 ^ 32 }
     let epoch := n.pGet .B SHP_STATUS fSHP_STATUS_EPOCH; (s.sh .B).offering = true ∧ bitAt (s.rd (Shep.bank .B) CLK_XING_FENCE).toNat 19 = false ∧
      (n.tx.find? fun t => decide (t.num = (n.sh .B).offers)) = some (txOf (some (0, 1))) ∧ u.hubPasses .B epoch = true ∧ u.edge ≤ 0 + 25600 ∧ 1 ≠ epoch) ∧
    (let s := { netUp with tx := [txOf (some (0, 0))], edge := 25601 }; let n := s.formReplies; let u := n.modSh .B fun h => { h with offers := (h.offers + 1) % 2 ^ 32 }
     let epoch := n.pGet .B SHP_STATUS fSHP_STATUS_EPOCH; (s.sh .B).offering = true ∧ bitAt (s.rd (Shep.bank .B) CLK_XING_FENCE).toNat 19 = false ∧
      (n.tx.find? fun t => decide (t.num = (n.sh .B).offers)) = some (txOf (some (0, 0))) ∧ u.hubPasses .B epoch = true ∧ 0 + 25600 < u.edge) ∧
    (let s := queued; s.portUp 0 = true ∧ s.hasMac 0 = true ∧ (s.port 0).free ≤ s.edge ∧ ((List.range 8).reverse.find? fun q => s.headGoes 0 q) = some 7 ∧ (s.queue 0 7).frames.length = 1) ∧
    (let s := State.modPort up 3 fun p => { p with oper := some glist }; 3 < 4 ∧ (s.port 3).oper ≠ none) ∧
    (let s := State.modPort up 3 fun p => { p with pend := some (glist, 0) }; 3 < 4 ∧ (s.port 3).pend = some (glist, 0) ∧ 0 ≤ (s.full : Int)) ∧
    (let s := netUp; (s.pair 0).supDue ≤ s.edge ∧ s.hasMac 0 = true ∧ s.active ≠ none) :=
  ⟨by decide +kernel,
   by decide +kernel,
   by decide +kernel,
   by decide +kernel,
   by decide +kernel,
   by decide +kernel,
   by decide +kernel,
   by decide +kernel,
   by decide +kernel⟩

theorem witness_PtpAndTimeGoOn_ptp :
    (let s := netUp; s.ptpUses 0 = true ∧ s.ethLink 0 = true ∧ s.lp = .none ∧ s.ptp.mpd = none) ∧
    (let s := netUp.modPtp fun p => { p with sync := some (100, 356) }; s.ptpUses 0 = true ∧ s.ethLink 0 = true ∧ s.lp = .none ∧ s.ptp.sync = some (100, 356)) ∧
    (let s := netUp.modPtp fun p => { p with mpd := some 256 }; s.ptpUses 0 = true ∧ s.ethLink 0 = true ∧ s.lp = .none ∧ s.ptp.mpd = some 256) ∧
    (let s := netUp.modPtp fun p => { p with state := 6 }; s.ptpUses 0 = true ∧ s.ethLink 0 = true ∧ s.lp = .none ∧ s.ptpSends = true ∧ s.ptp.state = 6 ∧ s.ptp.byte 2 = 0) ∧
    (let s := netUp.modPtp fun p => { p with cfg := [0, 1, 1] }; s.ptpUses 0 = true ∧ s.ethLink 0 = true ∧ s.lp = .none ∧ s.ptpSends = true ∧ s.ptp.byte 2 = 1) ∧
    (let s := up; s.hsr 0 = false ∧ s.ptp.byte 3 = 0 ∧ s.ethLink s.ptp.port = false) ∧
    (let s := { netUp.modPtp (fun p => { p with cfg := [0, 1, 1, 0, 0, 0, 0, 0, 249, 253, 5, 2] }) with edge := 4 * edgesLog 1 }; s.hsr 0 = false ∧ s.ptp.byte 3 = 0 ∧ s.ptp.announced + s.ptp.byte 11 * edgesLog (s.ptp.log 9) ≤ s.edge) ∧
    (let s := netUp; s.lp = .none ∧ (s.ptp.due[1]?).getD 0 ≤ s.edge ∧ s.job? .ptpConfig = none ∧ decide (s.ptp.state = 6) = false) ∧
    (let s := netUp.modPtp fun p => { p with state := 6 }; s.lp = .none ∧ (s.ptp.due[1]?).getD 0 ≤ s.edge ∧ s.job? .ptpConfig = none ∧ decide (s.ptp.state = 6) = true ∧
      s.hasMac 0 = true ∧ s.active ≠ none) ∧
    (let s := netUp.modPtp fun p => { p with state := 9 }; (s.ptp.due[2]?).getD 0 ≤ s.edge ∧ (s.ptp.byte 2 = 1 ∨ s.ptp.state = 8 ∨ s.ptp.state = 9)) :=
  ⟨by decide +kernel,
   by decide +kernel,
   by decide +kernel,
   by decide +kernel,
   by decide +kernel,
   by decide +kernel,
   by decide +kernel,
   by decide +kernel,
   by decide +kernel,
   by decide +kernel⟩

theorem witness_PtpAndTimeGoOn_time :
    (let s := up; s.mode ≠ .off ∧ s.mode ≠ .reset ∧ (s.sh .B).halted = false ∧ (2 ^ 32 - 1 : Nat) < 2 ^ 32 ∧ -(2 ^ 31 : Int) ≤ -(2 ^ 31)) ∧
    (let s := { up.setServo .B 4 with edge := 10 ^ 12 }; s.servoState .B = 4 ∧ (s.servo .B).hold + edgesMs * s.sGet TIM_HOLD fTIM_HOLD_ASYM_TIME ≤ s.edge) ∧
    (let s := { State.sPut ((up.setServo .B 2).sPut TIM_SERVO_CFG fTIM_SERVO_CFG_EN 1) TIM_HOLD fTIM_HOLD_HOLD_TIMEOUT 5 with edge := 10 ^ 12 }
     s.servoOn = true ∧ s.sGet TIM_HOLD fTIM_HOLD_HOLD_TIMEOUT ≠ 0 ∧ s.servoState .B ≠ 0 ∧ s.servoState .B ≠ 3 ∧
      (s.servo .B).since + edgesMs * s.sGet TIM_HOLD fTIM_HOLD_HOLD_TIMEOUT ≤ s.edge) ∧
    (let s := { up with tb0 := 2 ^ 56 }; s.wraps ≠ s.wrapSeen) ∧
    (let s := up.sPut TIM_PPS_CFG fTIM_PPS_CFG_OUT_EN 1; s.sGet TIM_PPS_CFG fTIM_PPS_CFG_OUT_EN = 1 ∧ (s.now + 2 ^ 32 - (s.sRd TIM_PPS_NEXT).toNat) % 2 ^ 32 < 2 ^ 31) :=
  ⟨by decide +kernel,
   by decide +kernel,
   by decide +kernel,
   by decide +kernel,
   by decide +kernel⟩

/-! ### Writes of registers -/

theorem witness_WriteRowsArrive :
    (let s := State.modSh up .B fun h => { h with perst := true }; writeOf (.xtCoefWrite .B 262143 0) = some (.B, 0x3FFFFC, 0) ∧ s.served .B 0x3FFFFC = false) ∧
    (let s := up; writeOf (.xtCoefWrite .B 262143 0) = some (.B, 0x3FFFFC, 0) ∧ s.served .B 0x3FFFFC = true ∧ tableWin 0x3FFFFC = true ∧ s.apart .B = false) ∧
    (let s := { up with shB := { role := .syncing, halted := false, booted := true } }; writeOf (.xtCoefWrite .B 262143 0) = some (.B, 0x3FFFFC, 0) ∧ s.served .B 0x3FFFFC = true ∧ s.apart .B = true) ∧
    (let s := { up with part := .gl3220 }; writeOf (.drvChCtrlWrite .A 32767 0) = some (.A, DRV_CH_CTRL 32767, 0) ∧ s.served .A (DRV_CH_CTRL 32767) = true ∧
      tableWin (DRV_CH_CTRL 32767) = false ∧ ((regAt (DRV_CH_CTRL 32767)).map fun e => s.part.absentBits e.1 e.2) = some none) ∧
    (let s := up; writeOf (.drvChCtrlWrite .A 32767 7) = some (.A, DRV_CH_CTRL 32767, 7) ∧ s.served .A (DRV_CH_CTRL 32767) = true ∧ s.apart .A = false ∧
      ((regAt (DRV_CH_CTRL 32767)).bind fun e => s.part.absentBits e.1 e.2) = some 0) ∧
    (let s := { up with shB := { role := .syncing, halted := false, booted := true } }; writeOf (.cmpWinSelWrite .B 7) = some (.B, CMP_WIN_SEL, 7) ∧ s.served .B CMP_WIN_SEL = true ∧ s.apart .B = true ∧
      ((regAt CMP_WIN_SEL).map fun e => decide (e.1.scope = .per ∧ s.part.absentBits e.1 e.2 = some 0)) = some true) ∧
    (let s := { up with shB := { role := .syncing, halted := false, booted := true } }; writeOf (.seqMarginWrite .B 40) = some (.B, SEQ_CFG, 40) ∧ s.served .B SEQ_CFG = true ∧ s.apart .B = true ∧
      ((regAt SEQ_CFG).map fun e => decide ((e.1.scope = .dev ∨ e.1.scope = .shared) ∧ s.part.absentBits e.1 e.2 = some 0)) = some true) ∧
    (let s := { up with part := .gl3220 }; writeOf (.clkXingFenceWrite .A 0xFFFFFFFF) = some (.A, CLK_XING_FENCE, 0xFFFFFFFF) ∧ s.served .A CLK_XING_FENCE = true ∧ tableWin CLK_XING_FENCE = false ∧ s.apart .A = false ∧
      ((regAt CLK_XING_FENCE).bind fun e => s.part.absentBits e.1 e.2) = some 0xFFF0) ∧
    (let s := { up with shB := { role := .syncing, halted := false, booted := true } }; writeOf (.clkXingFenceWrite .B 0xFFFFFFFF) = some (.B, CLK_XING_FENCE, 0xFFFFFFFF) ∧ s.served .B CLK_XING_FENCE = true ∧ s.apart .B = true ∧
      ((regAt CLK_XING_FENCE).map fun e => decide (e.1.scope = .mixed ∧ s.part.absentBits e.1 e.2 = some 0)) = some true) :=
  ⟨by decide +kernel,
   by decide +kernel,
   by decide +kernel,
   by decide +kernel,
   by decide +kernel,
   by decide +kernel,
   by decide +kernel,
   by decide +kernel,
   by decide +kernel⟩

theorem witness_RegisterRequestsArrive :
    (let s := up; s.mode ≠ .off ∧ s.mode ≠ .reset ∧ (s.sh .B).perst = false ∧ (s.sh .B).railLow = false ∧ s.jtagSet ≠ 4) ∧
    (let s := up.setLevel 2; s.mode ≠ .off ∧ s.mode ≠ .reset ∧ (s.sh .B).perst = false ∧ (s.sh .B).railLow = false ∧ s.jtagSet = 4) ∧
    ((zeros 4).length = 4 ∧ 8 % 4 = 0 ∧ 0 < (zeros 1).length ∧ (zeros 1).length < 4 ∧ 11 % 4 + (zeros 1).length ≤ 4 ∧ 4 < 11 % 4 + (zeros 2).length ∧ 11 % 4 ≠ 0 ∧ 4 ≤ (zeros 4).length) ∧
    (zeros 8 = leBytes 4 (0 : Word).toNat ++ zeros 4 ∧ zeros 4 ≠ [] ∧ (zeros 4).length % 4 = 0) ∧
    (let s := up; let o := 0xFFF; s.served .B o = true ∧ loadWin o = false ∧ tableWin o = false ∧ regAt o = none) ∧
    (let s := up; let o := LOOP_SP 32767; s.served .B o = true ∧ loadWin o = false ∧ tableWin o = false ∧ ((regAt o).map fun e => s.part.absentBits e.1 e.2) = some (some 0) ∧ s.apart .B = false ∧ o ≠ LCS_DBG ∧ ((regAt o).map fun e => lockedOut e.1 s.locked) = some false) ∧
    ((3, TIM_NOW) = (3, TIM_NOW)) ∧
    (let s := up; 1 = Shep.B.num ∧ s.served .B TIM_NOW = true ∧ s.served .B TIM_NOW_FRAC = true) ∧
    (let s := up; 1 = Shep.B.num ∧ s.served .B (TIM_NOW + 1) = true ∧ (TIM_NOW + 1) % 4 ≠ 0 ∧ 4 ≤ 8) :=
  ⟨by decide +kernel,
   by decide +kernel,
   by decide +kernel,
   by decide +kernel,
   by decide +kernel,
   by decide +kernel,
   by decide +kernel,
   by decide +kernel,
   by decide +kernel⟩

theorem witness_RegisterRequestsArrive_rule : ∃ r k, regAt ETH_TLM_DST_LO = some (r, k) ∧ ∀ u w, State.writeOwnRule u .B r k ETH_TLM_DST_LO w = none :=
  ⟨_, _, rfl, fun _ _ => rfl⟩

theorem witness_SetUpLockKeepsFields : up.setLock.locked = true ∧ ∃ r k, regAt ETH_TLM_DST_LO = some (r, k) ∧ ETH_TLM_DST_LO < 0x10000000 ∧ loadWin ETH_TLM_DST_LO = false ∧
    tableWin ETH_TLM_DST_LO = false ∧ (∀ u w, State.writeOwnRule u .B r k ETH_TLM_DST_LO w = none) ∧ (r.scope = .dev ∨ r.scope = .per) :=
  ⟨by decide +kernel, _, _, rfl, by decide, by decide, by decide, fun _ _ => rfl, by decide⟩

theorem witness_SetUpLockKeepsFields_whole : ∃ r k, regAt ETH_TLM_DST_LO = some (r, k) ∧ ETH_TLM_DST_LO < 0x10000000 ∧ loadWin ETH_TLM_DST_LO = false ∧
    tableWin ETH_TLM_DST_LO = false ∧ r.rwl ≠ 0 ∧ r.rw = 0 ∧ r.w1c = 0 ∧ r.w1s = 0 ∧ r.wo = 0 :=
  ⟨_, _, rfl, by decide, by decide, by decide, by decide, by decide, by decide, by decide, by decide⟩

/-- A DRV_CH_CTRL word of a span and OE. -/
def drv (span oe : Nat) : Word := fDRV_CH_CTRL_OE.put (fDRV_CH_CTRL_SPAN.put 0 span) oe

def sns (bias window measure : Nat) : Word := fSNS_CH_CTRL_MEASURE.put (fSNS_CH_CTRL_WINDOW.put (fSNS_CH_CTRL_BIAS.put 0 bias) window) measure

theorem witness_DriveAndSenseWritesAct :
    (let s := chan2 .hold 0 1; let v := drv 0 1; let span := fDRV_CH_CTRL_SPAN.get v; let bad := span = 6 ∨ (current span = true ∧ dualMode 2 = false)
     s.locked = false ∧ ¬bad ∧ (s.chan 2).phase ≠ .idle) ∧
    (let s := chan2 .idle 0 1; let v := drv 6 1; let span := fDRV_CH_CTRL_SPAN.get v; let bad := span = 6 ∨ (current span = true ∧ dualMode 2 = false)
     s.locked = false ∧ (s.chan 2).phase = .idle ∧ bad) ∧
    (let s := chan2 .idle 0 1; let v := drv 7 1; let span := fDRV_CH_CTRL_SPAN.get v; let bad := span = 6 ∨ (current span = true ∧ dualMode 2 = false)
     s.locked = false ∧ (s.chan 2).phase = .idle ∧ ¬bad ∧ s.elem? 2 ≠ none ∧ span = 7) ∧
    (let s := State.modPdk (chan2 .idle 0 1) 0 fun k => { k with mode := .reload }; let v := drv 0 1; let span := fDRV_CH_CTRL_SPAN.get v; let bad := span = 6 ∨ (current span = true ∧ dualMode 2 = false)
     s.locked = false ∧ (s.chan 2).phase = .idle ∧ ¬bad ∧ s.elem? 2 ≠ none ∧ (s.pdk (pdkOf 2)).mode ≠ .run) ∧
    (let s := chan2 .idle 7 0; let v := drv 0 1; let span := fDRV_CH_CTRL_SPAN.get v; let bad := span = 6 ∨ (current span = true ∧ dualMode 2 = false)
     s.locked = false ∧ (s.chan 2).phase = .idle ∧ ¬bad ∧ s.elem? 2 ≠ none ∧ (s.pdk (pdkOf 2)).mode = .run ∧ span ≠ 7 ∧ s.spanOf 2 = 7) ∧
    (let s := chan2 .idle 1 0; let v := drv 0 1; let span := fDRV_CH_CTRL_SPAN.get v; let bad := span = 6 ∨ (current span = true ∧ dualMode 2 = false)
     s.locked = false ∧ (s.chan 2).phase = .idle ∧ ¬bad ∧ s.elem? 2 ≠ none ∧ (s.pdk (pdkOf 2)).mode = .run ∧ span ≠ 7 ∧ s.spanOf 2 ≠ 7 ∧ span ≠ s.spanOf 2) ∧
    (let s := chan2 .idle 1 0; let v := drv 1 1; let span := fDRV_CH_CTRL_SPAN.get v; let bad := span = 6 ∨ (current span = true ∧ dualMode 2 = false)
     s.locked = false ∧ (s.chan 2).phase = .idle ∧ ¬bad ∧ s.elem? 2 ≠ none ∧ (s.pdk (pdkOf 2)).mode = .run ∧ span ≠ 7 ∧ span = s.spanOf 2 ∧ ((let u := s.storeCtrl 2 v (fDRV_CH_CTRL_OE.get v); if current span = true then u else (u.dPut (DRV_CH_CTRL 2) fDRV_CH_CTRL_COMPLIANCE 0).dPut (DRV_CH_STAT 2) fDRV_CH_STAT_VLOAD 0).on 2) = true ∧ s.on 2 = false) ∧
    (let s := chan2 .idle 1 1; let v := drv 1 0; let span := fDRV_CH_CTRL_SPAN.get v; let bad := span = 6 ∨ (current span = true ∧ dualMode 2 = false)
     s.locked = false ∧ (s.chan 2).phase = .idle ∧ ¬bad ∧ s.elem? 2 ≠ none ∧ (s.pdk (pdkOf 2)).mode = .run ∧ span ≠ 7 ∧ span = s.spanOf 2 ∧ ((let u := s.storeCtrl 2 v (fDRV_CH_CTRL_OE.get v); if current span = true then u else (u.dPut (DRV_CH_CTRL 2) fDRV_CH_CTRL_COMPLIANCE 0).dPut (DRV_CH_STAT 2) fDRV_CH_STAT_VLOAD 0).on 2) = false) ∧
    (let s := chan2 .idle 1 1; let v := drv 1 1; let span := fDRV_CH_CTRL_SPAN.get v; let bad := span = 6 ∨ (current span = true ∧ dualMode 2 = false)
     s.locked = false ∧ (s.chan 2).phase = .idle ∧ ¬bad ∧ s.elem? 2 ≠ none ∧ (s.pdk (pdkOf 2)).mode = .run ∧ span ≠ 7 ∧ span = s.spanOf 2 ∧ ((let u := s.storeCtrl 2 v (fDRV_CH_CTRL_OE.get v); if current span = true then u else (u.dPut (DRV_CH_CTRL 2) fDRV_CH_CTRL_COMPLIANCE 0).dPut (DRV_CH_STAT 2) fDRV_CH_STAT_VLOAD 0).on 2) = true ∧ s.on 2 = true) ∧
    (let s := mapped .service; let c := 32767; (s.chan c).phase = .idle ∧ s.elem? c = none ∧ fDRV_CH_CTRL_SPAN.get (drv 1 0) = 1 ∧ fDRV_CH_CTRL_OE.get (drv 1 0) = 0 ∧ fDRV_CH_CTRL_OE.get (drv 1 1) = 1) ∧
    (let s := up; let t := up.dPut (DRV_FLOCK_CFG 63) fDRV_FLOCK_CFG_SRC 6; 1 < 2 ∧ s.part.flocks ≤ 32 * 2 ∧ 32 * 1 + 31 < t.part.flocks ∧ t.flockSrc (32 * 1 + 31) = 6 ∧ s.flockSrc (32 * 1 + 31) ≠ 6) ∧
    (let s := up; let v := sns 241 2 0; let diff := fun (f : Fld) => f.get (s.rd 0 (SNS_CH_CTRL 16383)) ≠ f.get v
     s.locked = false ∧ 240 < fSNS_CH_CTRL_BIAS.get v ∧ fSNS_CH_CTRL_WINDOW.get v ≠ 3 ∧ diff fSNS_CH_CTRL_BIAS) ∧
    (let s := up; let v := sns 240 3 0; let diff := fun (f : Fld) => f.get (s.rd 0 (SNS_CH_CTRL 16383)) ≠ f.get v
     s.locked = false ∧ fSNS_CH_CTRL_BIAS.get v ≤ 240 ∧ fSNS_CH_CTRL_WINDOW.get v = 3 ∧ diff fSNS_CH_CTRL_BIAS) ∧
    (let s := up; let v := sns 241 3 0; let diff := fun (f : Fld) => f.get (s.rd 0 (SNS_CH_CTRL 16383)) ≠ f.get v
     s.locked = false ∧ 240 < fSNS_CH_CTRL_BIAS.get v ∧ fSNS_CH_CTRL_WINDOW.get v = 3 ∧ diff fSNS_CH_CTRL_BIAS) ∧
    (let s := State.modPdk up 15 fun k => { k with mode := .reset }; let v := sns 240 2 0; let diff := fun (f : Fld) => f.get (s.rd 0 (SNS_CH_CTRL 16383)) ≠ f.get v
     s.locked = false ∧ fSNS_CH_CTRL_BIAS.get v ≤ 240 ∧ fSNS_CH_CTRL_WINDOW.get v ≠ 3 ∧ diff fSNS_CH_CTRL_BIAS ∧ (s.pdk (16383 / 1024)).mode ≠ .run) ∧
    (let s := up; let v := sns 240 2 0; let diff := fun (f : Fld) => f.get (s.rd 0 (SNS_CH_CTRL 16383)) ≠ f.get v
     s.locked = false ∧ fSNS_CH_CTRL_BIAS.get v ≤ 240 ∧ fSNS_CH_CTRL_WINDOW.get v ≠ 3 ∧ (s.pdk (16383 / 1024)).mode = .run ∧ diff fSNS_CH_CTRL_BIAS ∧ fSNS_CH_CTRL_MEASURE.get v = 0) ∧
    (let s := up; let v := fSNS_CH_CTRL_RANGE.put (fSNS_CH_CTRL_MEASURE.put (s.rd 0 (SNS_CH_CTRL 16383)) 1) 3; let diff := fun (f : Fld) => f.get (s.rd 0 (SNS_CH_CTRL 16383)) ≠ f.get v
     s.locked = false ∧ fSNS_CH_CTRL_BIAS.get v ≤ 240 ∧ fSNS_CH_CTRL_WINDOW.get v ≠ 3 ∧ (s.pdk (16383 / 1024)).mode = .run ∧ diff fSNS_CH_CTRL_RANGE ∧ fSNS_CH_CTRL_MEASURE.get v = 1) ∧
    (let s := up; let v := fSNS_CH_CTRL_DARK_OFFSET.put (s.rd 0 (SNS_CH_CTRL 16383)) 5; let diff := fun (f : Fld) => f.get (s.rd 0 (SNS_CH_CTRL 16383)) ≠ f.get v
     s.locked = false ∧ fSNS_CH_CTRL_BIAS.get v ≤ 240 ∧ fSNS_CH_CTRL_WINDOW.get v ≠ 3 ∧ ¬diff fSNS_CH_CTRL_RANGE ∧ ¬diff fSNS_CH_CTRL_BIAS ∧ diff fSNS_CH_CTRL_DARK_OFFSET ∧ fSNS_CH_CTRL_MEASURE.get v = 0) ∧
    (let s := up; let v := fSNS_CH_CTRL_MEASURE.put (s.rd 0 (SNS_CH_CTRL 16383)) 1; let diff := fun (f : Fld) => f.get (s.rd 0 (SNS_CH_CTRL 16383)) ≠ f.get v
     s.locked = false ∧ fSNS_CH_CTRL_BIAS.get v ≤ 240 ∧ fSNS_CH_CTRL_WINDOW.get v ≠ 3 ∧ ¬diff fSNS_CH_CTRL_RANGE ∧ ¬diff fSNS_CH_CTRL_BIAS ∧ (s.pdk (16383 / 1024)).mode = .run ∧ ¬diff fSNS_CH_CTRL_DARK_OFFSET ∧ fSNS_CH_CTRL_MEASURE.get v = 1 ∧ (s.sense 16383).meas = none) ∧
    (let s := State.modSense up 16383 fun h => { h with meas := some 9 }; let v := fSNS_CH_CTRL_MEASURE.put (s.rd 0 (SNS_CH_CTRL 16383)) 1; let diff := fun (f : Fld) => f.get (s.rd 0 (SNS_CH_CTRL 16383)) ≠ f.get v
     s.locked = false ∧ fSNS_CH_CTRL_BIAS.get v ≤ 240 ∧ fSNS_CH_CTRL_WINDOW.get v ≠ 3 ∧ ¬diff fSNS_CH_CTRL_RANGE ∧ ¬diff fSNS_CH_CTRL_BIAS ∧ (s.pdk (16383 / 1024)).mode = .run ∧ (s.sense 16383).meas ≠ none) ∧
    (15 < 16) :=
  ⟨by decide +kernel,
   by decide +kernel,
   by decide +kernel,
   by decide +kernel,
   by decide +kernel,
   by decide +kernel,
   by decide +kernel,
   by decide +kernel,
   by decide +kernel,
   by decide +kernel,
   by decide +kernel,
   by decide +kernel,
   by decide +kernel,
   by decide +kernel,
   by decide +kernel,
   by decide +kernel,
   by decide +kernel,
   by decide +kernel,
   by decide +kernel,
   by decide +kernel,
   by decide +kernel⟩

theorem witness_LoopWritesAct :
    (let s := mapped .service; let v := fLOOP_CTRL_COMP_BASE.put (fLOOP_CTRL_COMP_COUNT.put (fLOOP_CTRL_DIV.put (fLOOP_CTRL_KIND.put 0 5) 0) 0) 0; s.locked = false ∧ 4 < fLOOP_CTRL_KIND.get v ∧ (fLOOP_CTRL_DIV.get v = 0 ∨ s.isHeater 32767 = true) ∧ s.slotsBad 32767 v = false) ∧
    (let s := mapped .service; let v := fLOOP_CTRL_COMP_BASE.put (fLOOP_CTRL_COMP_COUNT.put (fLOOP_CTRL_DIV.put (fLOOP_CTRL_KIND.put 0 4) 1) 0) 0; s.locked = false ∧ fLOOP_CTRL_KIND.get v ≤ 4 ∧ fLOOP_CTRL_DIV.get v ≠ 0 ∧ s.isHeater 32767 = false ∧ s.slotsBad 32767 v = false) ∧
    (let s := mapped .service; let v := fLOOP_CTRL_COMP_BASE.put (fLOOP_CTRL_COMP_COUNT.put (fLOOP_CTRL_DIV.put (fLOOP_CTRL_KIND.put 0 4) 0) 2) 65535; s.locked = false ∧ fLOOP_CTRL_KIND.get v ≤ 4 ∧ fLOOP_CTRL_DIV.get v = 0 ∧ s.slotsBad 32767 v = true) ∧
    (let s := mapped .service; let v := fLOOP_CTRL_COMP_BASE.put (fLOOP_CTRL_COMP_COUNT.put (fLOOP_CTRL_DIV.put (fLOOP_CTRL_KIND.put 0 7) 1) 2) 65535; s.locked = false ∧ 4 < fLOOP_CTRL_KIND.get v ∧ fLOOP_CTRL_DIV.get v ≠ 0 ∧ s.isHeater 32767 = false ∧ s.slotsBad 32767 v = true) ∧
    (let s := mapped .service; let v := fLOOP_CTRL_COMP_BASE.put (fLOOP_CTRL_COMP_COUNT.put (fLOOP_CTRL_DIV.put (fLOOP_CTRL_KIND.put 0 4) 0) 1) 5; s.locked = false ∧ fLOOP_CTRL_KIND.get v ≤ 4 ∧ fLOOP_CTRL_DIV.get v = 0 ∧ s.slotsBad 32767 v = false ∧ s.pGet .B (LOOP_CTRL 32767) fLOOP_CTRL_KIND ≠ fLOOP_CTRL_KIND.get v) ∧
    (let s := { up with part := .gl3220 }; let v := fCMP_WIN_SEL_PAGE.put (fCMP_WIN_SEL_TABLE.put 0 2) (4 * s.part.paddocks); 2 < fCMP_WIN_SEL_TABLE.get (fCMP_WIN_SEL_TABLE.put 0 3) ∧ 4 * s.part.paddocks ≤ fCMP_WIN_SEL_PAGE.get v) ∧
    (let s := up; let v := fCMP_WIN_SEL_PAGE.put (fCMP_WIN_SEL_TABLE.put 0 2) (4 * s.part.paddocks - 1); fCMP_WIN_SEL_TABLE.get v ≤ 2 ∧ fCMP_WIN_SEL_PAGE.get v < 4 * s.part.paddocks) ∧
    (let p : Part := .gl3220; let v := fCMP_WIN_SEL_PAGE.put (fCMP_WIN_SEL_TABLE.put 0 2) (4 * p.paddocks); 262143 < 262144 ∧ (winWord v 262143).present p = false) ∧
    (let p : Part := .gl3280; let v := fCMP_WIN_SEL_PAGE.put (fCMP_WIN_SEL_TABLE.put 0 2) (4 * p.paddocks - 1); (winWord v 262143).present p = true ∧ winWord v 262143 = .xt 16777215) ∧
    (let p : Part := .gl3280; (winWord 0 0).present p = true ∧ winWord 0 0 = .hys 0 0) ∧
    (let p : Part := .gl3280; let v := fCMP_WIN_SEL_TABLE.put 0 1; (winWord v 0).present p = true ∧ winWord v 0 = .rip 0 0) ∧
    (let s := State.modSh up .A fun h => { h with xt := { queue := [⟨false, 70000, 9⟩] } }; (s.sh s.lead).xt.queue.length < 65536 ∧ s.queueFull s.lead = false) ∧
    (let v : Word := 31; let w : Word := 1025; fCMP_CFG_PERIOD.get v < 32 ∧ 1024 < fCMP_CFG_PERIOD.get w) ∧
    (let v : Word := 32; let w : Word := 1024; 32 ≤ fCMP_CFG_PERIOD.get v ∧ fCMP_CFG_PERIOD.get w ≤ 1024) :=
  ⟨by decide +kernel,
   by decide +kernel,
   by decide +kernel,
   by decide +kernel,
   by decide +kernel,
   by decide +kernel,
   by decide +kernel,
   by decide +kernel,
   by decide +kernel,
   by decide +kernel,
   by decide +kernel,
   by decide +kernel,
   by decide +kernel,
   by decide +kernel⟩

theorem witness_SequencerAndPairWritesAct :
    (let v := fSEQ_ARM_CTRL_CANCEL.put 0 1; fSEQ_ARM_CTRL_CANCEL.bit v = true ∧ fSEQ_ARM_CTRL_GO.bit v = false) ∧
    (let v := fSEQ_ARM_CTRL_SLOT.put (fSEQ_ARM_CTRL_DOMAIN.put (fSEQ_ARM_CTRL_GO.put 0 1) 1) 3; let n := coming (com 0 9000 3600 0 0); fSEQ_ARM_CTRL_CANCEL.bit v = false ∧ fSEQ_ARM_CTRL_GO.bit v = true ∧ fSEQ_ARM_CTRL_DOMAIN.get v = 1 ∧ fSEQ_ARM_CTRL_SLOT.get v = 3 ∧ ¬(n.seqModeBad 1 = false ∧ n.rotOf 1 = none ∧ (∀ k ∈ n.domCommits 1, k.src ≠ 0) ∧ n.slotReady 3 1 = true)) ∧
    (let n := (planned .service).sWr SEQ_ARM_INSTANT (BitVec.ofNat 32 (2 ^ 31 - 1)); n.seqModeBad 1 = false ∧ n.rotOf 1 = none ∧ (∀ k ∈ n.domCommits 1, k.src ≠ 0) ∧ n.slotReady 3 1 = true ∧ n.ahead (n.sRd SEQ_ARM_INSTANT).toNat < 2 ^ 31) ∧
    (let n := (planned .service).sWr SEQ_ARM_INSTANT (BitVec.ofNat 32 (2 ^ 31)); n.seqModeBad 1 = false ∧ n.rotOf 1 = none ∧ (∀ k ∈ n.domCommits 1, k.src ≠ 0) ∧ n.slotReady 3 1 = true ∧ 2 ^ 31 ≤ n.ahead (n.sRd SEQ_ARM_INSTANT).toNat) ∧
    (fSEQ_CFG_MARGIN.get (fSEQ_CFG_MARGIN.put 0 39) < 40 ∧ 10000 < fSEQ_CFG_MARGIN.get (fSEQ_CFG_MARGIN.put 0 10001)) ∧
    (40 ≤ fSEQ_CFG_MARGIN.get (fSEQ_CFG_MARGIN.put 0 40) ∧ fSEQ_CFG_MARGIN.get (fSEQ_CFG_MARGIN.put 0 10000) ≤ 10000) ∧
    (let s := up; let v := fSHP_CTRL_HANDOVER.put 0 1; s.role .A = .active ∧ fSHP_CTRL_CLR_CNT.get v = 0 ∧ v.toNat / 2 ^ 29 = 4) ∧
    (let s := { up with shB := { role := .detached, halted := false } }; let v := fSHP_CTRL_RESYNC_PEER.put 0 1
     s.role .A = .active ∧ fSHP_CTRL_CLR_CNT.get v = 0 ∧ v.toNat / 2 ^ 29 = 2 ∧ s.role .B = .detached ∧ (s.sh .B).halted = false) ∧
    (let s := up; let v := fSHP_CTRL_DETACH_PEER.put 0 1; s.role .A = .active ∧ fSHP_CTRL_CLR_CNT.get v = 0 ∧ v.toNat / 2 ^ 29 = 1 ∧ (s.role .B = .standby ∨ s.role .B = .detached)) ∧
    (let s := { up with shB := { role := .syncing, halted := false, booted := true } }; let v := fSHP_CTRL_DETACH_PEER.put 0 1; s.role .A = .active ∧ fSHP_CTRL_CLR_CNT.get v = 0 ∧ v.toNat / 2 ^ 29 = 1 ∧ s.role .B = .syncing) ∧
    (let s := up; let v : Word := 0x60000000; let w : Word := 0xA0000000; s.role .A = .active ∧ fSHP_CTRL_CLR_CNT.get v = 0 ∧ v.toNat / 2 ^ 29 = 3 ∧ fSHP_CTRL_CLR_CNT.get w = 0 ∧ 5 ≤ w.toNat / 2 ^ 29) ∧
    (let s := up; let v := fSHP_CTRL_HANDOVER.put 0 1; s.role .B ≠ .active ∧ v.toNat / 2 ^ 29 ≠ 0) ∧
    (let v := fSHP_CTRL_CLR_CNT.put 0 1; fSHP_CTRL_CLR_CNT.get v = 1 ∧ v.toNat / 2 ^ 29 = 0) ∧
    (fSHP_HOST_DIV_REPORT.get (fSHP_HOST_DIV_REPORT.put 0 1) = 1) :=
  ⟨by decide +kernel,
   by decide +kernel,
   by decide +kernel,
   by decide +kernel,
   by decide +kernel,
   by decide +kernel,
   by decide +kernel,
   by decide +kernel,
   by decide +kernel,
   by decide +kernel,
   by decide +kernel,
   by decide +kernel,
   by decide +kernel,
   by decide +kernel⟩

theorem witness_HostTimeAlarmWritesAct :
    (let s := up; let v := fHIF_CMD_CFG_EN.put (fHIF_CMD_CFG_SIZE.put 0 9) 1; 15 < 16 ∧ fHIF_CMD_CFG_SIZE.get v < 10 ∧ s.cmdOn 15 = false ∧ fHIF_CMD_CFG_EN.get v = 1) ∧
    (let s := ringed; let v := fHIF_CMD_CFG_PRIO.put (fHIF_CMD_CFG_SIZE.put 0 2) (s.cmdPrio 15)
     fHIF_CMD_CFG_SIZE.get v < 10 ∧ s.cmdOn 15 = true ∧ fHIF_CMD_CFG_SIZE.get v = s.sGet (HIF_CMD_CFG 15) fHIF_CMD_CFG_SIZE ∧ fHIF_CMD_CFG_PRIO.get v = s.cmdPrio 15) ∧
    (let s := ringed; let v := fHIF_CMD_CFG_PRIO.put (fHIF_CMD_CFG_SIZE.put 0 3) (s.cmdPrio 15)
     fHIF_CMD_CFG_SIZE.get v < 10 ∧ s.cmdOn 15 = true ∧ fHIF_CMD_CFG_SIZE.get v ≠ s.sGet (HIF_CMD_CFG 15) fHIF_CMD_CFG_SIZE) ∧
    (let s := up; let v := fHIF_RING_CFG_EN.put (fHIF_RING_CFG_SIZE.put 0 9) 1; 2 < 3 ∧ fHIF_RING_CFG_SIZE.get v < 10 ∧ s.pGet .B (HIF_RING_CFG 2) fHIF_RING_CFG_EN = 0 ∧ fHIF_RING_CFG_EN.get v = 1) ∧
    (let s := up; s.pGet .A (HIF_RING_CFG 0) fHIF_RING_CFG_EN ≠ 0) ∧
    (let s := up.sPut TIM_SERVO_CFG fTIM_SERVO_CFG_EN 1; s.servoOn = true ∧ (nominalIncr - 41944) + 41943 < nominalIncr ∧ nominalIncr + 41943 < nominalIncr + 41944) ∧
    (let s := up.sPut TIM_SERVO_CFG fTIM_SERVO_CFG_EN 0; let v : Word := BitVec.ofNat 32 (nominalIncr - 41943); s.servoOn = false ∧ nominalIncr ≤ v.toNat + 41943 ∧ v.toNat ≤ nominalIncr + 41943) ∧
    (fALM_INJECT_KIND.get (fALM_INJECT_KIND.put 0 5) = 5 ∧ fALM_INJECT_KIND.get (fALM_INJECT_KIND.put 0 0) = 0) ∧
    (fALM_PARKED_FREE.get (fALM_PARKED_FREE.put 0 1) = 1 ∧ fALM_PARKED_FREE.get 0 = 0) :=
  ⟨by decide +kernel,
   by decide +kernel,
   by decide +kernel,
   by decide +kernel,
   by decide +kernel,
   by decide +kernel,
   by decide +kernel,
   by decide +kernel,
   by decide +kernel⟩

theorem witness_PowerAndSecurityWritesAct :
    (let v := fPWR_WAKE_WAKE.put 0 1; up.locked = false ∧ fPWR_WAKE_WAKE.get v = 1 ∧ fPWR_WAKE_WAKE_SEEN.get v = 0) ∧
    ((fRST_CTRL_SHP_RESET.put 0 1).toNat / 2 ^ 29 = 4 ∧ (fRST_CTRL_SOFT_RESET.put 0 1).toNat / 2 ^ 29 = 2) ∧
    (let v := fRST_CTRL_PADDOCK.put (fRST_CTRL_PDK_RESET.put 0 1) 15; v.toNat / 2 ^ 29 = 1 ∧ up.pdkResetOk (fRST_CTRL_PADDOCK.get v) = true ∧ (mapped .service).pdkResetOk (fRST_CTRL_PADDOCK.get v) = false) ∧
    ((0x60000000#32).toNat / 2 ^ 29 = 3 ∧ 5 ≤ (0xA0000000#32).toNat / 2 ^ 29) ∧
    (let s := up; s.served .B LCS_DBG = true ∧ s.apart .B = false ∧ s.mode ≠ .off ∧ s.mode ≠ .reset) ∧
    (let s := up; let v := fGLB_LOAD_CTRL_START.put (fGLB_LOAD_CTRL_LENGTH.put 0 s.part.loadBytes) 1; fGLB_LOAD_CTRL_START.get v = 1 ∧ s.loadBusy .B = false ∧
      0 < fGLB_LOAD_CTRL_LENGTH.get v ∧ fGLB_LOAD_CTRL_LENGTH.get v ≤ s.part.loadBytes) ∧
    (let s := up; let v := fGLB_LOAD_CTRL_START.put (fGLB_LOAD_CTRL_LENGTH.put 0 (s.part.loadBytes + 1)) 1; fGLB_LOAD_CTRL_START.get v = 1 ∧ s.loadBusy .B = false ∧ s.part.loadBytes < fGLB_LOAD_CTRL_LENGTH.get v) ∧
    (let s := State.wr (up.sPut TIM_SERVO_CFG fTIM_SERVO_CFG_EN 1) (Shep.bank .A) CLK_XING_FENCE 0x20000; s.fencedOwn .A 17 = true ∧ s.servoOn = true ∧ s.steers .A = .tb0) ∧
    (let s := up; let v := fGLB_LOAD_CTRL_START.put 0 1; fGLB_LOAD_CTRL_START.get v = 1 ∧ s.loadBusy .B = false ∧ fGLB_LOAD_CTRL_LENGTH.get v = 0) ∧
    (let s := up; (s.sh s.lead).recorder.state = 0 ∧ s.library = [] ∧ (s.sh s.lead).fit.log = [] ∧ fFLD_FITLOG_CFG_SIZE.get (fFLD_FITLOG_CFG_SIZE.put 0 16) = 16 ∧ fFLD_LIB_CFG_RECORDS.get (fFLD_LIB_CFG_RECORDS.put 0 65536) = 65536) ∧
    (let s := planned .service; ¬((s.sh s.lead).recorder.state = 0 ∧ s.library = [] ∧ (s.sh s.lead).fit.log = [])) :=
  ⟨by decide +kernel,
   by decide +kernel,
   by decide +kernel,
   by decide +kernel,
   by decide +kernel,
   by decide +kernel,
   by decide +kernel,
   by decide +kernel,
   by decide +kernel,
   by decide +kernel,
   by decide +kernel⟩

/-! ### Rules of single sentences -/

theorem witness_ServiceNeedsMap :
    (let s := up; let d := cmd 3 [5]; Starts s s d ∧ d.op = 0x03 ∧ d.in1 32 = 5 ∧ s.mode = .parked ∧ s.map = none) :=
  ⟨starts_of (by decide +kernel), by decide +kernel⟩

theorem witness_MapCommandsNeedTheirMode :
    (let s := up; let d := cmd 0x08 [] image; Starts s s d ∧ d.op = 0x08 ∧ s.mode = .parked ∧ s.surveying = false) ∧
    (let s := inMode .service; let d := cmd 0x08 [] image; Starts s s d ∧ d.op = 0x08 ∧ s.mode ≠ .parked) ∧
    (let s := { up with survey := some ⟨none, true, false, false, false, none, 2, 0, [], [], none, [], false, false, [0]⟩ }; let d := cmd 0x08 [] image; Starts s s d ∧ d.op = 0x08 ∧ s.surveying = true) ∧
    (let s := { mapped .maintenance with oos := .domain 1 }; let d := cmd 0x09 [1] image; Starts s s d ∧ d.op = 0x09 ∧ s.mode = .maintenance ∧ s.domOut (d.in1 32) = true ∧ s.surveying = false) ∧
    (let s := up; let d := cmd 0x09 [1] image; Starts s s d ∧ d.op = 0x09 ∧ s.mode ≠ .maintenance) ∧
    (let s := { mapped .maintenance with oos := .domain 1 }; let d := cmd 0x09 [2] image; Starts s s d ∧ d.op = 0x09 ∧ s.domOut (d.in1 32) = false) :=
  ⟨⟨starts_of (by decide +kernel), by decide +kernel⟩,
   ⟨starts_of (by decide +kernel), by decide +kernel⟩,
   ⟨starts_of (by decide +kernel), by decide +kernel⟩,
   ⟨starts_of (by decide +kernel), by decide +kernel⟩,
   ⟨starts_of (by decide +kernel), by decide +kernel⟩,
   ⟨starts_of (by decide +kernel), by decide +kernel⟩⟩

/-- The window that a MUSTER_READ names is held. -/
def Held (s : State) (d : Desc) : Prop :=
  let last := s.muster.no - s.muster.closed.length
  ∃ w, 0 < w ∧ w ≤ last ∧ last < w + 8192 ∧ d.in4 32 = w % 2 ^ 32

theorem witness_MusterReadGivesBitmaps :
    (let s := up; let d := { cmd 0x58 [1] with len := 8191 }; Starts s s d ∧ d.op = 0x58 ∧ d.len < 8192) ∧
    (let s := { up with muster := { no := 1, closed := [⟨1, [], []⟩] } }; let d := { cmd 0x58 [1] with len := 8192 }; Starts s s d ∧ d.op = 0x58 ∧ 8192 ≤ d.len ∧ ¬Held s d) ∧
    (let s := { up with muster := { no := 8193 } }; let d := { cmd 0x58 [1] with len := 8192 }; Starts s s d ∧ d.op = 0x58 ∧ 8192 ≤ d.len ∧ ¬Held s d) ∧
    (let s := { up with muster := { no := 8192 } }; let d := { cmd 0x58 [1] with len := 8192 }; Starts s s d ∧ d.op = 0x58 ∧ 8192 ≤ d.len ∧ Held s d) ∧
    (let s := { up with muster := { no := 2 ^ 32 + 1 } }; let d := { cmd 0x58 [1] with len := 8192 }; Starts s s d ∧ d.op = 0x58 ∧ 8192 ≤ d.len ∧ Held s d) :=
  ⟨⟨starts_of (by decide +kernel), by decide +kernel⟩,
   ⟨starts_of (by decide +kernel), by decide +kernel, by decide +kernel, fun ⟨_, h0, h1, _⟩ => absurd (Nat.lt_of_lt_of_le h0 h1) (by decide +kernel)⟩,
   ⟨starts_of (by decide +kernel), by decide +kernel, by decide +kernel, fun ⟨w, _, h1, h2, h3⟩ => by
     have e1 : w ≤ 8193 := h1
     have e2 : 8193 < w + 8192 := h2
     have e3 : 1 = w % 2 ^ 32 := h3
     omega⟩,
   ⟨starts_of (by decide +kernel), by decide +kernel, by decide +kernel, 1, by decide +kernel, by decide +kernel, by decide +kernel, by decide +kernel⟩,
   ⟨starts_of (by decide +kernel), by decide +kernel, by decide +kernel, 2 ^ 32 + 1, by decide +kernel, by decide +kernel, by decide +kernel, by decide +kernel⟩⟩

/-! ### Well-formed terms -/

def ill1 : List Instr :=
   [.railBelowThreshold (.pdk 16), .railBelowThreshold (.vdr 16), .railBelowThreshold (.vhtr 16), .railRestored (.pdk 16), .railRestored (.vdr 16),
    .railRestored (.vhtr 16), .vdrLow 16, .vhtrOutOfRange 16 true, .paddockResetRelease 16, .paddockReloadDone 16, .refvWindowFault 16 0,
    .flockStbEdge 4 true, .senseFrameReceive .A 16 [], .senseFrameDeadline .A 16, .windowResult .A 16384, .settlingEnd 32768, .loopSat 32768,
    .loopError 32768, .senseOver 16384, .voidPeriodEnd 16384, .darkMeasureDone 16384 0, .complianceSet 32768, .complianceClear 32768,
    .loopOutputFrameReceive .A 16 [], .stageFrame .A 16 [], .commitFrame .A 16 [], .retimeFrame .A 16 [], .cancelFrame .A 16 [], .controlFrameGap 16,
    .stagingComplete 16, .lateStage 16, .commitFire 16, .commitLoopSeed 16, .rotationTakeover 16, .spanChangeSwitchOpen 32768,
    .spanChangeSwitchClose 32768, .spanChangeEnd 32768, .spanConfigEnd 32768, .doorbellPoll .A (zeros 63), .descriptorFetchDone .A 16 [],
    .descriptorFetchDone .A 0 [(zeros 63, none)], .irqHoldoffEnd .A 4, .ethFrameReceive 4 (frame 0 0 0 none []) true, .transmitSelection 4 true]

def ill2 : List Instr :=
   [.gateEntryStart 4, .gateListTakeover 4, .supervisionFrame 2, .tableEntryForget 2, .ptpMessageReceive 2 .unsupported,
    .bankEccError .A true 128 0 none, .matrixAccessRefused .A 15 0 true 0 0, .matrixAccessRefused .A 0 16 true 0 0,
    .matrixAccessRefused .A 0 0 true (2 ^ 48) 0, .smbusRead 256 0, .tecLoopUpdate 4 0, .registerWrite .A (2 ^ 24) [] true, .timNowRead 8 0 0,
    .timNowRead 0 (2 ^ 24) 0, .timNowRead 0 0 4097, .drvChCtrlWrite .A 32768 0, .drvFlockStrobe .A 2 0, .snsChCtrlWrite .A 16384 0,
    .snsMeasure .A 16384 0, .snsLinkErrClear .A 16, .loopCtrlWrite .A 32768 0, .loopIntSeed .A 32768 0, .xtCoefWrite .A 262144 0,
    .hifCmdEnable .A 16 0, .hifRingEnable .A 3 0, .nop (cmd 1), .reservedOpcode (cmd 0), .setup (cmd 0), .setupLock (cmd 0), .modeParked (cmd 0),
    .modeParked (cmd 0x03 [9, 0, 0, 0, 9] [9, 9]), .modeService (cmd 0), .modeService (cmd 0x03 [9, 0, 0, 0, 9] [9, 9]), .modeMaintenance (cmd 0),
    .modeMaintenance (cmd 0x03 [9, 0, 0, 0, 9] [9, 9]), .napEnter (cmd 0), .napEnter (cmd 0x04 [9, 0, 0, 0, 9] [9, 9]), .napExit (cmd 0)]

def ill3 : List Instr :=
   [.napExit (cmd 0x04 [9, 0, 0, 0, 9] [9, 9]), .quiesce (cmd 0), .quiesce (cmd 0x04 [9, 0, 0, 0, 9] [9, 9]), .deep (cmd 0),
    .deep (cmd 0x04 [9, 0, 0, 0, 9] [9, 9]), .wake (cmd 0), .wake (cmd 0x04 [9, 0, 0, 0, 9] [9, 9]), .paddockReset (cmd 0),
    .paddockReset (cmd 0x04 [9, 0, 0, 0, 9] [9, 9]), .shepherdReset (cmd 0), .shepherdReset (cmd 0x04 [9, 0, 0, 0, 9] [9, 9]), .softReset (cmd 0),
    .softReset (cmd 0x04 [9, 0, 0, 0, 9] [9, 9]), .mapLoad (cmd 0), .domainReload (cmd 0), .setSpan (cmd 0), .park (cmd 0),
    .park (cmd 0x11 [9, 0, 0, 0, 9] [9, 9]), .parkRelease (cmd 0), .parkRelease (cmd 0x11 [9, 0, 0, 0, 9] [9, 9]), .setSense (cmd 0), .setLoop (cmd 0),
    .armComp (cmd 0), .disarmComp (cmd 0), .holdLoop (cmd 0), .releaseLoop (cmd 0), .seedLoop (cmd 0), .setComp (cmd 0), .setXtalk (cmd 0),
    .setFit (cmd 0), .revertFit (cmd 0), .fitLogRead (cmd 0), .fitLogFree (cmd 0), .planRoute (cmd 0), .planCells (cmd 0), .planDirect (cmd 0),
    .planFree (cmd 0), .planRefresh (cmd 0), .planStore (cmd 0), .planLoad (cmd 0), .planImport (cmd 0), .planExport (cmd 0), .planDelete (cmd 0)]

def ill4 : List Instr :=
   [.turnout (cmd 0), .turnoutListAdd (cmd 0), .turnoutListAdd (cmd 0x39 [9, 0, 0, 0, 9] [9, 9]), .turnoutListReplace (cmd 0),
    .turnoutListReplace (cmd 0x39 [9, 0, 0, 0, 9] [9, 9]), .turnoutCancel (cmd 0), .rotationList (cmd 0), .rotationStop (cmd 0), .survey (cmd 0),
    .surveyAbort (cmd 0), .surveyExport (cmd 0), .handover (cmd 0), .resync (cmd 0), .recConfig (cmd 0), .recFreeze (cmd 0),
    .recFreeze (cmd 0x51 [9, 0, 0, 0, 9] [9, 9]), .recResume (cmd 0), .recResume (cmd 0x51 [9, 0, 0, 0, 9] [9, 9]), .recStop (cmd 0),
    .recStop (cmd 0x51 [9, 0, 0, 0, 9] [9, 9]), .recRead (cmd 0), .march (cmd 0), .musterRead (cmd 0), .alarmConfig (cmd 0),
    .alarmConfig (cmd 0x59 [9, 0, 0, 0, 9] [9, 9]), .alarmRelease (cmd 0), .alarmRelease (cmd 0x59 [9, 0, 0, 0, 9] [9, 9]), .timeRead (cmd 0),
    .timeRead (cmd 0x5C [9, 0, 0, 0, 9] [9, 9]), .timeSet (cmd 0), .timeSet (cmd 0x5C [9, 0, 0, 0, 9] [9, 9]), .ptpConfig (cmd 0),
    .ptpConfig (cmd 0x5C [9, 0, 0, 0, 9] [9, 9]), .portMeasure (cmd 0), .portMeasure (cmd 0x5C [9, 0, 0, 0, 9] [9, 9]), .gateList (cmd 0)]

def ill5 : List Instr :=
   [.policer (cmd 0), .lifecycle (cmd 0) true, .debugToken (cmd 0), .controlKeyProvision (cmd 0) true,
    .controlKeyProvision (cmd 0x62 [9, 0, 0, 0, 9] [9, 9]) true, .ownerDebugKey (cmd 0) true, .ownerDebugKey (cmd 0x62 [9, 0, 0, 0, 9] [9, 9]) true,
    .keyErase (cmd 0) true, .keyErase (cmd 0x62 [9, 0, 0, 0, 9] [9, 9]) true, .recorderKeep (cmd 0) true,
    .recorderKeep (cmd 0x62 [9, 0, 0, 0, 9] [9, 9]) true, .fwWrite (cmd 0), .fwWrite (cmd 0x63 [9, 0, 0, 0, 9] [9, 9]), .fwInfo (cmd 0),
    .fwInfo (cmd 0x63 [9, 0, 0, 0, 9] [9, 9]), .fwSelect (cmd 0) true, .fwSelect (cmd 0x63 [9, 0, 0, 0, 9] [9, 9]) true, .fwRaiseSvn (cmd 0) true,
    .fwRaiseSvn (cmd 0x63 [9, 0, 0, 0, 9] [9, 9]) true, .telemetryCfg (cmd 0), .ethLinkChange 4 true, .vparkOutOfRange 16, .ptpMessageTimer 3]

/-- A term that breaks a check, for each check of each constructor that has one. -/
theorem test_ill_formed : (ill1 ++ ill2 ++ ill3 ++ ill4 ++ ill5).all (fun i => !i.wellFormed) = true := by decide +kernel

/-- Fields that do not fit the descriptor format (R336). -/
theorem test_ill_fits : [{ cmd 0 with ring := 17 }, { cmd 0 with index := 65536 }, { cmd 0 with op := 256 }, { cmd 0 with flags := 256 }, { cmd 0 with rsv2 := 65536 },
    { cmd 0 with tag := 2 ^ 32 }, { cmd 0 with addr := 2 ^ 64 }, { cmd 0 with len := 2 ^ 32 }, { cmd 0 with rsv20 := 2 ^ 32 }, { cmd 0 with outAddr := 2 ^ 64 },
    { cmd 0 with inl := zeros 31 }].all (fun d => !(Instr.nop d).wellFormed) = true := by decide +kernel

theorem test_well_formed : (Instr.nop (cmd 0)).wellFormed = true ∧ (Instr.drvChCtrlWrite .A 32767 0).wellFormed = true := by decide +kernel

/-! ### Numbers from outside the model -/

def text (s : String) : List Byte := s.toList.map fun c => BitVec.ofNat 8 c.toNat

/-- The check value of the CRC of IEEE 802.3, which R51 names. -/
theorem test_crc32 : crc32 (text "123456789") = 0xCBF43926 := by decide +kernel

/-- The check value of CRC-32C, which R328 names. -/
theorem test_crc32c : crc32c (text "123456789") = 0xE3069283 := by decide +kernel

/-- The digest of FIPS 180-4's example abc. -/
theorem test_sha384 : beNat ((sha384 (text "abc")).take 8) = 0xcb00753f45a35e8b := by decide +kernel

/-- The MAC of RFC 4231's second case. -/
theorem test_hmac : beNat ((hmac256 (text "Jefe") (text "what do ya want for nothing?")).take 8) = 0x5bdcc146bf60754e := by decide +kernel

/-- The base point of P-384 is on the curve, and its order takes it to the point at infinity (FIPS 186). -/
theorem test_p384 : onCurve p384g = true := by decide +kernel

/-! ### The commands -/

/-- One PCLK period is 2.5 ns, 0x2800000 in units of 2^-24 ns (R366). -/
theorem test_edge : (match step { up with edge := 5 } with
    | .next t => decide (t.tb0 = 0x2800000 ∧ t.edge = 6)
    | _ => false) = true := by decide +kernel

/-- The first edge of a tick boundary ends the wait of the edge before it. -/
theorem test_tick : (match exec (.tickBoundary ⟨[], [], [], true, true, 250, [], [], [], [], []⟩) { up with edge := 799 } with
    | .next t => decide (t.edge = 800)
    | _ => false) = true := by decide +kernel

/-- A write that arrives between two boundaries waits for the second of them, the first at least 1 us later (R68). -/
theorem test_write_waits : (match exec (.drvChCtrlWrite .A 5 7) { up with edge := 401 } with
    | .next t => decide (t.writes = [⟨.A, 0x100028, 7, 3, 401, 0⟩])
    | _ => false) = true := by decide +kernel

/-- A one-byte write at 0x1007 sets NARROW_WR alone (R535). -/
theorem test_narrow : (match exec (.registerWrite .B 0x1007 [1] false) up with
    | .next t => decide (t.rd 2 GLB_STATUS = fGLB_STATUS_NARROW_WR.put 0 1 ∧ t.writes = [])
    | _ => false) = true := by decide +kernel

/-- The end of RESET leaves BOOT (R484). -/
theorem test_reset_end : (match exec (.resetEnd 2) { up with mode := .reset } with
    | .next t => decide (t.mode = .boot)
    | _ => false) = true := by decide +kernel

/-- DRV_CH_CTRL reads 7, SPAN 7, at reset (R549). -/
theorem test_reset_span : State.reset.rd 0 (DRV_CH_CTRL 100) = 7 ∧ State.reset.spanOf 100 = 7 := by decide +kernel

/-- An S-box entry of the example of FIPS 197. -/
theorem test_sbox : subByte 0x53 = 0xED := by decide +kernel

/-- The pads of the worked example of spec/20: heater D20356, and the sense pad nearest to it. -/
theorem test_pads : driveAt 20356 = (3425, 11775) ∧ sensePad 10180 = (78, 4) := by decide +kernel

/-- The addresses of the worked example of spec/19: LOOP_KP of D1800, and the window word of H_R[39] of D178. -/
theorem test_window : LOOP_KP 1800 = 0x81C208 ∧ winWord 0 ((0x30B24C - 0x300000) / 4) = .hys 178 19 := by decide +kernel

end Sys2Proof.Tests
end

/-! ### The start of a descriptor row, and the commands of the fabric map -/

section
open Sys2Proof Sys2Proof.Machine Claims

namespace Sys2Proof.Machine

/-- A descriptor that starts is taken by its opcode's own function in the state without it (R333, R334, R337). -/
theorem State.startRow_of_starts {s c : State} {d : Desc} (h : Starts s c d) (f : Desc → State → State) :
    s.startRow d true f = f d c := by
  obtain ⟨hmay, rfl, hserves, hfail⟩ := h
  simp [State.startRow, State.startWith, hmay, hserves, hfail]

/-- A row whose meaning is `startRow` answers with what its function makes of a descriptor that starts. -/
theorem does_of_startRow {i : Instr} {s c : State} {d : Desc} {isRow : Bool} {f : Desc → State → State}
    (hexec : exec i s = s.ran (s.startRow d isRow f)) (hrow : isRow = true) (h : Starts s c d) : Does i s (f d c) := by
  subst hrow
  rw [State.startRow_of_starts h] at hexec
  exact hexec

theorem does_modeService {s c : State} {d : Desc} (h : Starts s c d) (hop : d.op = 0x03) (htarget : d.in1 32 = 5) :
    Does (.modeService d) s (startMode d c) :=
  does_of_startRow rfl (decide_eq_true ⟨hop, htarget⟩) h

theorem does_mapLoad {s c : State} {d : Desc} (h : Starts s c d) (hop : d.op = 0x08) : Does (.mapLoad d) s (startMap d c) :=
  does_of_startRow rfl (decide_eq_true hop) h

theorem does_domainReload {s c : State} {d : Desc} (h : Starts s c d) (hop : d.op = 0x09) :
    Does (.domainReload d) s (startMap d c) :=
  does_of_startRow rfl (decide_eq_true hop) h

/-! ### MODE SERVICE without a map -/

/-- The code is HIF_FORMAT where the descriptor has a reserved bit set (R337), and else HIF_STATE, in a low-power state (R479) as out of one (R58). -/
theorem startMode_service_of_noMap {s : State} {d : Desc} (htarget : d.in1 32 = 5) (hmode : s.mode = .parked) (hmap : s.map = none) :
    startMode d s = s.completeHif d (if 2 ≤ d.in1 35 then 2 else 7) := by
  unfold startMode
  by_cases hformat : 2 ≤ d.in1 35
  · rw [if_pos hformat, if_pos hformat]
  · simp [hformat, htarget, startModeService, hmode, hmap]

@[simp] theorem State.completeHif_mode (s : State) (d : Desc) (code : Nat) : (s.completeHif d code).mode = s.mode :=
  State.mode_of_quiet (State.completeHif_quiet ..)

/-! ### The mode that a map command needs -/

theorem mapDom_mapLoad {d : Desc} (hop : d.op = 0x08) : mapDom d = none := by
  simp [mapDom, hop]

theorem mapDom_domainReload {d : Desc} (hop : d.op = 0x09) : mapDom d = some (d.in1 32) :=
  if_pos hop

theorem State.mapModeOk_none_iff (s : State) : s.mapModeOk none = true ↔ s.mode = .parked ∧ s.surveying = false := by
  simp [State.mapModeOk]

theorem State.mapModeOk_some_iff (s : State) (k : Nat) :
    s.mapModeOk (some k) = true ↔ s.mode = .maintenance ∧ s.domOut k = true ∧ s.surveying = false := by
  simp [State.mapModeOk, and_assoc]

theorem startMap_of_modeOk {s : State} {d : Desc} (h : s.mapModeOk (mapDom d) = true) :
    startMap d s = (s.sPut DRO_MAP_STATUS fDRO_MAP_STATUS_BUSY 1).addJob ⟨d, .mapLoad, 0, 0, []⟩ := by
  simp [startMap, h]

theorem startMap_of_not_modeOk {s : State} {d : Desc} (h : ¬ s.mapModeOk (mapDom d) = true) :
    startMap d s = s.mapEnd d 1 0xFFFFFFFF [] := by
  simp [startMap, h, wholeMap]

end Sys2Proof.Machine

namespace Sys2Proof

/-- Settles O58: with no map in force the MODE SERVICE completes with HIF_FORMAT or HIF_STATE, and a completion leaves the mode. -/
theorem serviceNeedsMap : Obligations.ServiceNeedsMap := by
  intro s c d hstarts hop htarget hmode hmap
  refine ⟨if 2 ≤ d.in1 35 then 2 else 7, by split <;> decide, ?_, (c.completeHif_mode d _).trans hmode⟩
  rw [← startMode_service_of_noMap htarget hmode hmap]
  exact does_modeService hstarts hop htarget

/-- Settles O59: MAP_LOAD and DOMAIN_RELOAD turn on `mapModeOk`, which is R53's condition with R256's, and a map command that ends leaves the map. -/
theorem mapCommandsNeedTheirMode : Obligations.MapCommandsNeedTheirMode := by
  intro s c d hstarts begun refused
  have accepted (h : c.mapModeOk (mapDom d) = true) : startMap d c = begun := startMap_of_modeOk h
  have refusedElse (h : ¬ c.mapModeOk (mapDom d) = true) : startMap d c = refused := startMap_of_not_modeOk h
  refine ⟨c.mapEnd_map d _ _ _, fun hop => ?full, fun hop => ?reload⟩
  case full =>
    have hdoes := does_mapLoad hstarts hop
    rw [mapDom_mapLoad hop, State.mapModeOk_none_iff] at accepted refusedElse
    refine ⟨fun hmode hsurvey => accepted ⟨hmode, hsurvey⟩ ▸ hdoes, fun hnot => refusedElse ?_ ▸ hdoes⟩
    rintro ⟨hmode, hsurvey⟩
    simp [hmode, hsurvey] at hnot
  case reload =>
    have hdoes := does_domainReload hstarts hop
    rw [mapDom_domainReload hop, State.mapModeOk_some_iff] at accepted refusedElse
    refine ⟨fun hmode hout hsurvey => accepted ⟨hmode, hout, hsurvey⟩ ▸ hdoes, fun hnot => refusedElse ?_ ▸ hdoes⟩
    rintro ⟨hmode, hout, hsurvey⟩
    simp [hmode, hout, hsurvey] at hnot

end Sys2Proof
end

/-! ### MUSTER_READ -/

section
open Sys2Proof Sys2Proof.Machine Claims

namespace Sys2Proof

/-- A four-byte INLINE field names a number below 2^32 (R336). -/
theorem Desc.in4_lt (d : Desc) (i : Nat) : d.in4 i < 2 ^ 32 := leAt_lt d.inl (i - 32) 4

end Sys2Proof

namespace Sys2Proof.Machine

@[simp] theorem length_bitmapBytes (bits : List Nat) : (bitmapBytes bits).length = 8192 := by
  simp [bitmapBytes]

/-- The bitmap of window w is written (log entry 136) and window w + 8,192 has not overwritten it (R521). -/
def Muster.Keeps (m : Muster) (w : Nat) : Prop :=
  let last := m.no - m.closed.length
  0 < w ∧ w ≤ last ∧ last < w + 8192

/-- The look-up finds the windows kept: a kept window is less than 8,192 back from the last one written, so its distance survives the modulus 2^32. -/
theorem Muster.held?_eq_none_iff (m : Muster) {n : Nat} (hn : n < 2 ^ 32) :
    m.held? n = none ↔ ¬ ∃ w, m.Keeps w ∧ n = w % 2 ^ 32 := by
  unfold Muster.held? Muster.Keeps
  generalize m.no - m.closed.length = last
  dsimp only
  split
  case isTrue hback =>
    have hkept : ∃ w, (0 < w ∧ w ≤ last ∧ last < w + 8192) ∧ n = w % 2 ^ 32 :=
      ⟨last - (last + 2 ^ 32 - n) % 2 ^ 32, by omega, by omega⟩
    exact iff_of_false (Option.some_ne_none _) (not_not_intro hkept)
  case isFalse hback =>
    refine iff_of_true rfl ?_
    rintro ⟨w, ⟨hpos, hlast, hring⟩, hname⟩
    omega

/-! The three ends of MUSTER_READ (R530). -/

theorem startMusterRead_of_short {s : State} {d : Desc} (hlen : d.len < 8192) : startMusterRead d s = s.completeHif d 5 :=
  if_pos hlen

theorem startMusterRead_of_not_held {s : State} {d : Desc} (hlen : 8192 ≤ d.len)
    (hheld : ¬ ∃ w, s.muster.Keeps w ∧ d.in4 32 = w % 2 ^ 32) : startMusterRead d s = s.completeHif d 7 := by
  have hnone := (s.muster.held?_eq_none_iff (d.in4_lt 32)).mpr hheld
  simp [startMusterRead, Nat.not_lt.mpr hlen, hnone]

theorem startMusterRead_of_held {s : State} {d : Desc} (hlen : 8192 ≤ d.len)
    (hheld : ∃ w, s.muster.Keeps w ∧ d.in4 32 = w % 2 ^ 32) :
    startMusterRead d s =
      (s.writeOut d.outAddr (bitmapBytes (Tab.get s.muster.bitmaps [] (d.in4 32 % 8192)))).completeHif d 0 := by
  have hsome : s.muster.held? (d.in4 32) ≠ none := fun hnone =>
    (s.muster.held?_eq_none_iff (d.in4_lt 32)).mp hnone hheld
  simp [startMusterRead, Nat.not_lt.mpr hlen, hsome]

theorem does_musterRead {s c : State} {d : Desc} (h : Starts s c d) (hop : d.op = 0x58) :
    Does (.musterRead d) s (startMusterRead d c) :=
  does_of_startRow rfl (decide_eq_true hop) h

end Sys2Proof.Machine

namespace Sys2Proof

/-- Settles O60: MUSTER_READ turns on LEN and on the look-up of its number, which finds exactly the windows kept. -/
theorem musterReadGivesBitmaps : Obligations.MusterReadGivesBitmaps := by
  intro s c d hstarts hop n last held bits
  have hdoes := does_musterRead hstarts hop
  have hheld : held ↔ ∃ w, c.muster.Keeps w ∧ n = w % 2 ^ 32 := by
    simp only [held, last, Muster.Keeps, and_assoc]
  refine ⟨length_bitmapBytes _, fun hlen => ?short, fun hlen hnot => ?notHeld, fun hlen hkept => ?written⟩
  case short => rwa [startMusterRead_of_short hlen] at hdoes
  case notHeld => rwa [startMusterRead_of_not_held hlen (mt hheld.mpr hnot)] at hdoes
  case written => rwa [startMusterRead_of_held hlen (hheld.mp hkept)] at hdoes

end Sys2Proof
end

/-! ### What the commands do to the fuses -/

section
open Sys2Proof Sys2Proof.Machine Claims

namespace Sys2Proof.Machine

/-- A command that leaves the fuses as they are. -/
def LeavesFuses (i : Instr) : Prop := ∀ s t, exec i s = .next t → t.fuses = s.fuses

/-- A command that undoes no fuse: it burns along R494's table, or puts a burned transition into force (R495). -/
def KeepsBurns (i : Instr) : Prop := ∀ s t, exec i s = .next t → Burns s.fuses t.fuses ∨ t.fuses = s.fuses.now

/-- What a command answers has the fuses of what it makes of the state. -/
theorem State.fuses_of_ran {s u t : State} (h : s.ran u = .next t) : t.fuses = u.otp := by
  injection h with h
  subst h
  rfl

theorem LeavesFuses.of_ran {i : Instr} {f : State → State} (hf : ∀ s, (f s).otp = s.otp) (he : ∀ s, exec i s = s.ran (f s) := by intro; rfl) :
    LeavesFuses i := fun s _ h => (State.fuses_of_ran ((he s).symm.trans h)).trans (hf s)

theorem KeepsBurns.of_ran {i : Instr} {f : State → State} (hf : ∀ s, Burns s.otp (f s).otp ∨ (f s).otp = s.otp.now)
    (he : ∀ s, exec i s = s.ran (f s) := by intro; rfl) : KeepsBurns i := fun s t h => by
  rw [State.fuses_of_ran ((he s).symm.trans h)]
  exact hf s

theorem LeavesFuses.keepsBurns {i : Instr} (h : LeavesFuses i) : KeepsBurns i := fun s t e => .inl (.of_eq (h s t e))

/-! A descriptor row starts its descriptor in the state without it, or leaves the state (R334). -/

theorem State.startWith_otp (s : State) (d : Desc) {f : Desc → State → State} (hf : ∀ s, (f d s).otp = s.otp) : (s.startWith d f).otp = s.otp := by
  unfold State.startWith
  split
  · rfl
  · split
    · exact State.completeHif_otp ..
    · exact hf s

theorem State.startRow_otp (s : State) (d : Desc) (isRow : Bool) {f : Desc → State → State} (hf : ∀ s, (f d s).otp = s.otp) :
    (s.startRow d isRow f).otp = s.otp := by
  unfold State.startRow
  split
  · exact (State.startWith_otp _ d hf).trans (State.claimDesc_otp ..)
  · rfl

/-- A reserved opcode fails the first check of R337. -/
theorem descFail_of_reserved {d : Desc} (h : d.op ∉ opcodes) (safe : Bool) : descFail d safe = some 0x01 :=
  if_pos (.inl h)

/-- A reserved opcode never comes to a function of its own (R338). -/
theorem State.startWith_of_reserved {s : State} {d : Desc} (h : d.op ∉ opcodes) (f : Desc → State → State) :
    s.startWith d f = s.startWith d fun d s => s.completeHif d 0x01 := by
  simp only [State.startWith, descFail_of_reserved h]

theorem State.startRow_reserved_otp (s : State) (d : Desc) : (s.startRow d (decide (d.op ∉ opcodes)) runDesc).otp = s.otp := by
  by_cases h : d.op ∉ opcodes
  · unfold State.startRow
    rw [State.startWith_of_reserved h]
    exact s.startRow_otp d (decide (d.op ∉ opcodes)) fun s => s.completeHif_otp d 0x01
  · rw [decide_eq_false h]
    rfl

/-- Every command that `touchesFuses` does not name leaves the fuses: one line for each row of the table. -/
theorem leavesFuses (i : Instr) (h : touchesFuses i = false) : LeavesFuses i := by
  cases i with
  | por => cases h
  | resetNAssert => cases h
  | pllLossOfLock => cases h
  | resetEnd _ => exact .of_ran fun _ => doResetEnd_otp ..
  | perstAssert _ => exact .of_ran fun _ => doPerst_otp ..
  | pcieHotReset _ => exact .of_ran fun _ => doHotReset_otp ..
  | functionLevelReset _ => exact .of_ran fun _ => doFlr_otp ..
  | watchdogExpiry _ => exact .of_ran fun _ => doWatchdog_otp ..
  | railBelowThreshold r => exact .of_ran fun s => doRailLow_otp r s (of_decide_eq_false h)
  | railRestored _ => exact .of_ran fun _ => doRailRestored_otp ..
  | vdrLow _ => exact .of_ran fun _ => doVdrLow_otp ..
  | vhtrOutOfRange _ _ => exact .of_ran fun _ => doVhtr_otp ..
  | paddockResetRelease _ => exact .of_ran fun _ => doPadRelease_otp ..
  | paddockReloadDone _ => exact .of_ran fun _ => doPadReload_otp ..
  | bootComplete _ _ => exact .of_ran fun _ => doBootComplete_otp ..
  | claimWindowExpiry => exact .of_ran fun _ => doClaimExpiry_otp ..
  | converterCalibrationDone _ _ => exact .of_ran fun _ => doConverterCalDone_otp ..
  | refvWindowFault _ _ => exact .of_ran fun _ => doRefvFault_otp ..
  | droopTrip _ _ => exact .of_ran fun _ => doDroopTrip_otp ..
  | stretchHoldEnd _ _ => exact .of_ran fun _ => doStretchEnd_otp ..
  | clearNFall => exact .of_ran fun _ => doClearLow_otp ..
  | clearNRise => exact .of_ran fun _ => doClearHigh_otp ..
  | flockRelease => exact .of_ran fun _ => doFlockRelease_otp ..
  | flockStbEdge _ _ => exact .of_ran fun _ => ite2_otp (doFlockEdge_otp ..) rfl
  | wakeNFall => exact .of_ran fun _ => doWakeN_otp ..
  | lowPowerExitDone => exact .of_ran fun _ => doLowPowerExit_otp ..
  | ppsInEdge => exact .of_ran fun _ => doPpsIn_otp ..
  | tickBoundary _ => cases h
  | senseFrameReceive _ _ _ => exact .of_ran fun _ => doSenseFrame_otp ..
  | senseFrameDeadline _ _ => exact .of_ran fun _ => doSenseDeadline_otp ..
  | loopEvaluation _ _ => exact .of_ran fun _ => doLoopEvaluation_otp ..
  | windowResult _ _ => exact .of_ran fun _ => ite2_otp (doWindowResult_otp ..) rfl
  | settlingEnd _ => exact .of_ran fun _ => doSettlingEnd_otp ..
  | loopOverrun _ => exact .of_ran fun _ => doLoopOverrun_otp ..
  | loopSat _ => exact .of_ran fun _ => doLoopSat_otp ..
  | loopError _ => exact .of_ran fun _ => doLoopError_otp ..
  | senseOver _ => exact .of_ran fun _ => ite2_otp (doSenseOver_otp ..) rfl
  | voidPeriodEnd _ => exact .of_ran fun _ => doVoidEnd_otp ..
  | darkMeasureDone _ _ => exact .of_ran fun _ => doDarkDone_otp ..
  | complianceSet _ => exact .of_ran fun _ => doComplianceSet_otp ..
  | complianceClear _ => exact .of_ran fun _ => doComplianceClear_otp ..
  | junctionHot => exact .of_ran fun _ => doJunctionHot_otp ..
  | loopOutputFrameReceive _ _ _ => exact .of_ran fun _ => doLoopFrame_otp ..
  | copyRecordSend => exact .of_ran fun _ => doCopySend_otp ..
  | copyRecordReceive _ => exact .of_ran fun _ => doCopyReceive_otp ..
  | copyMissLimit => exact .of_ran fun _ => doCopyMissLimit_otp ..
  | divergenceLimit => exact .of_ran fun _ => doDivergenceLimit_otp ..
  | shepherdLost _ => exact .of_ran fun _ => doShepherdLost_otp ..
  | handoverGrant => exact .of_ran fun _ => doHandoverGrant_otp ..
  | resyncBankDone => exact .of_ran fun _ => doResyncBank_otp ..
  | resyncLibraryDone => exact .of_ran fun _ => doResyncLibrary_otp ..
  | resyncStateDone => exact .of_ran fun _ => doResyncState_otp ..
  | resyncTimeout => exact .of_ran fun _ => doResyncTimeout_otp ..
  | stageFrame _ _ _ => exact .of_ran fun _ => doCtlFrame_otp ..
  | commitFrame _ _ _ => exact .of_ran fun _ => doCtlFrame_otp ..
  | retimeFrame _ _ _ => exact .of_ran fun _ => doCtlFrame_otp ..
  | cancelFrame _ _ _ => exact .of_ran fun _ => doCtlFrame_otp ..
  | controlFrameGap _ => exact .of_ran fun _ => doCtlGap_otp ..
  | stagingStart => exact .of_ran fun _ => doStagingStart_otp ..
  | stagingComplete _ => exact .of_ran fun _ => doStagingComplete_otp ..
  | lateStage _ => exact .of_ran fun _ => doLateStage_otp ..
  | commitFire _ => exact .of_ran fun _ => doCommitFire_otp ..
  | commitLoopSeed _ => exact .of_ran fun _ => doCommitLoopSeed_otp ..
  | rotationTakeover _ => exact .of_ran fun _ => doRotationTakeover_otp ..
  | sequencerTimeStep => exact .of_ran fun _ => doSequencerStep_otp ..
  | routeComplete _ => exact .of_ran fun _ => doRouteComplete_otp ..
  | imageBuildDone => exact .of_ran fun _ => doImageBuildDone_otp ..
  | positionTrack => exact .of_ran fun _ => doPositionTrack_otp ..
  | mapValidationDone => exact .of_ran fun _ => doMapValidationDone_otp ..
  | mapTakesEffect => exact .of_ran fun _ => doMapTakesEffect_otp ..
  | spanChangeSwitchOpen _ => exact .of_ran fun _ => doSpanOpen_otp ..
  | spanChangeSwitchClose _ => exact .of_ran fun _ => doSpanClose_otp ..
  | spanChangeEnd _ => exact .of_ran fun _ => doSpanEnd_otp ..
  | spanConfigEnd _ => exact .of_ran fun _ => doSpanConfigEnd_otp ..
  | crosstalkPassStart _ => exact .of_ran fun _ => doCrosstalkPassStart_otp ..
  | crosstalkPassDone _ => exact .of_ran fun _ => doPassDone_otp ..
  | crosstalkTermsInForce _ => exact .of_ran fun _ => doTermsInForce_otp ..
  | surveyPointDone => exact .of_ran fun _ => doSurveyPointDone_otp ..
  | doorbellPoll _ _ => exact .of_ran fun _ => doDoorbell_otp ..
  | descriptorFetchDone _ _ _ => exact .of_ran fun _ => doFetch_otp ..
  | hostReadError _ _ => exact .of_ran fun _ => doHostReadError_otp ..
  | statusLineWrite _ => exact .of_ran fun _ => doStatusLine_otp ..
  | irqHoldoffEnd _ _ => exact .of_ran fun _ => doHoldoffEnd_otp ..
  | heldCompletionFlush _ => exact .of_ran fun _ => doFlushCpl_otp ..
  | eventLogFlush _ => exact .of_ran fun _ => doFlushEvt_otp ..
  | telemetryInterval _ _ => exact .of_ran fun _ => doTelemetry_otp ..
  | ethFrameReceive _ _ _ => exact .of_ran fun _ => ite2_otp (doFrameReceive_otp ..) rfl
  | controlFrameReceive => exact .of_ran fun _ => doControlFrame_otp ..
  | ethFrameOffer _ _ => exact .of_ran fun _ => doOffer_otp ..
  | transmitSelection _ _ => exact .of_ran fun _ => ite2_otp (doTransmit_otp ..) rfl
  | gateEntryStart _ => exact .of_ran fun _ => doGateEntry_otp ..
  | gateListTakeover _ => exact .of_ran fun _ => doGateTakeover_otp ..
  | supervisionFrame _ => exact .of_ran fun _ => doSupervision_otp ..
  | tableEntryForget _ => exact .of_ran fun _ => doForget_otp ..
  | telemetryFrameSend => exact .of_ran fun _ => doTelemetryFrame_otp ..
  | ptpMessageReceive _ _ => exact .of_ran fun _ => ite2_otp (doPtpMessage_otp ..) rfl
  | ptpPortMove => exact .of_ran fun _ => doPtpPortMove_otp ..
  | servoSample _ _ _ => exact .of_ran fun _ => State.sampleRow_otp ..
  | asymHoldEnd _ => exact .of_ran fun _ => doAsymHoldEnd_otp ..
  | holdover _ => exact .of_ran fun _ => doHoldover_otp ..
  | timeWrap => exact .of_ran fun _ => doTimeWrap_otp ..
  | ppsOutPulse => exact .of_ran fun _ => doPpsOut_otp ..
  | recorderConfigEffect => exact .of_ran fun _ => doRecorderConfigEffect_otp ..
  | recorderPostEnd _ => exact .of_ran fun _ => doRecorderPostEnd_otp ..
  | foldEccError _ _ _ => exact .of_ran fun _ => doFoldEccError_otp ..
  | bankEccError _ _ _ _ _ => exact .of_ran fun _ => doBankEccError_otp ..
  | matrixAccessRefused _ _ _ _ _ _ => exact .of_ran fun _ => doMatrixRefused_otp ..
  | musterWindowClose => exact .of_ran fun _ => doMusterWindowClose_otp ..
  | faultReaction => exact .of_ran fun _ => doFaultReaction_otp ..
  | lifecycleReset => cases h
  | jtagToken _ _ => cases h
  | jtagCoreHalt _ => exact .of_ran fun _ => doCoreHalt_otp ..
  | smbusRead _ _ => exact .of_ran fun _ => doSmbus_otp ..
  | tecLoopUpdate _ _ => exact .of_ran fun _ => doTecUpdate_otp ..
  | registerWrite _ _ _ _ => exact .of_ran fun _ => State.writePath_otp ..
  | timNowRead _ _ _ => exact .of_ran fun _ => State.readPath_otp ..
  | drvChCtrlWrite _ _ _ => exact .of_ran fun _ => State.hostWrite_otp ..
  | drvFlockStrobe _ _ _ => exact .of_ran fun _ => State.hostWrite_otp ..
  | snsChCtrlWrite _ _ _ => exact .of_ran fun _ => State.hostWrite_otp ..
  | snsMeasure _ _ _ => exact .of_ran fun _ => State.hostWrite_otp ..
  | snsLinkErrClear _ _ => exact .of_ran fun _ => State.hostWrite_otp ..
  | loopCtrlWrite _ _ _ => exact .of_ran fun _ => State.hostWrite_otp ..
  | loopIntSeed _ _ _ => exact .of_ran fun _ => State.hostWrite_otp ..
  | loopClrCnt _ _ => exact .of_ran fun _ => State.hostWrite_otp ..
  | cmpWinSelWrite _ _ => exact .of_ran fun _ => State.hostWrite_otp ..
  | xtCoefWrite _ _ _ => exact .of_ran fun _ => State.hostWrite_otp ..
  | cmpStageApply _ _ => exact .of_ran fun _ => State.hostWrite_otp ..
  | cmpPeriodWrite _ _ => exact .of_ran fun _ => State.hostWrite_otp ..
  | seqArmGo _ _ => exact .of_ran fun _ => State.hostWrite_otp ..
  | seqArmCancel _ _ => exact .of_ran fun _ => State.hostWrite_otp ..
  | seqMarginWrite _ _ => exact .of_ran fun _ => State.hostWrite_otp ..
  | shpHandover _ _ => exact .of_ran fun _ => State.hostWrite_otp ..
  | shpResyncPeer _ _ => exact .of_ran fun _ => State.hostWrite_otp ..
  | shpDetachPeer _ _ => exact .of_ran fun _ => State.hostWrite_otp ..
  | shpClrCnt _ _ => exact .of_ran fun _ => State.hostWrite_otp ..
  | shpHostDivReport _ _ => exact .of_ran fun _ => State.hostWrite_otp ..
  | hifCmdEnable _ _ _ => exact .of_ran fun _ => State.hostWrite_otp ..
  | hifRingEnable _ _ _ => exact .of_ran fun _ => State.hostWrite_otp ..
  | timIncrWrite _ _ => exact .of_ran fun _ => State.hostWrite_otp ..
  | almInjectWrite _ _ => exact .of_ran fun _ => State.hostWrite_otp ..
  | almReleaseWrite _ _ _ => exact .of_ran fun _ => State.hostWrite_otp ..
  | pwrWakeWrite _ _ => exact .of_ran fun _ => State.hostWrite_otp ..
  | rstShpReset _ _ => exact .of_ran fun _ => State.hostWrite_otp ..
  | rstSoftReset _ _ => exact .of_ran fun _ => State.hostWrite_otp ..
  | rstPdkReset _ _ => exact .of_ran fun _ => State.hostWrite_otp ..
  | lcsLockSet _ => exact .of_ran fun _ => State.hostWrite_otp ..
  | lcsRelock _ => exact .of_ran fun _ => State.relock_otp ..
  | glbLoadStart _ _ => exact .of_ran fun _ => State.hostWrite_otp ..
  | clkXingFenceWrite _ _ => exact .of_ran fun _ => State.hostWrite_otp ..
  | fldLayoutWrite _ _ _ => exact .of_ran fun _ => State.hostWrite_otp ..
  | nop _ => exact .of_ran fun s => s.startRow_otp _ _ fun _ => startNop_otp ..
  | reservedOpcode d => exact .of_ran fun s => s.startRow_reserved_otp d
  | setup _ => exact .of_ran fun s => s.startRow_otp _ _ fun _ => startSetup_otp ..
  | setupLock _ => exact .of_ran fun s => s.startRow_otp _ _ fun _ => startSetupLock_otp ..
  | modeParked _ => exact .of_ran fun s => s.startRow_otp _ _ fun _ => startMode_otp ..
  | modeService _ => exact .of_ran fun s => s.startRow_otp _ _ fun _ => startMode_otp ..
  | modeMaintenance _ => exact .of_ran fun s => s.startRow_otp _ _ fun _ => startMode_otp ..
  | napEnter _ => exact .of_ran fun s => s.startRow_otp _ _ fun _ => startNapEnter_otp ..
  | napExit _ => exact .of_ran fun s => s.startRow_otp _ _ fun _ => startNapExit_otp ..
  | quiesce _ => exact .of_ran fun s => s.startRow_otp _ _ fun _ => startQuiesce_otp ..
  | deep _ => exact .of_ran fun s => s.startRow_otp _ _ fun _ => startDeep_otp ..
  | wake _ => exact .of_ran fun s => s.startRow_otp _ _ fun _ => startWake_otp ..
  | paddockReset _ => exact .of_ran fun s => s.startRow_otp _ _ fun _ => startPaddockReset_otp ..
  | shepherdReset _ => exact .of_ran fun s => s.startRow_otp _ _ fun _ => startShepherdReset_otp ..
  | softReset _ => exact .of_ran fun s => s.startRow_otp _ _ fun _ => startSoftReset_otp ..
  | mapLoad _ => exact .of_ran fun s => s.startRow_otp _ _ fun _ => startMap_otp ..
  | domainReload _ => exact .of_ran fun s => s.startRow_otp _ _ fun _ => startMap_otp ..
  | setSpan _ => exact .of_ran fun s => s.startRow_otp _ _ fun _ => startSetSpan_otp ..
  | park _ => exact .of_ran fun s => s.startRow_otp _ _ fun _ => startParkList_otp ..
  | parkRelease _ => exact .of_ran fun s => s.startRow_otp _ _ fun _ => startParkList_otp ..
  | setSense _ => exact .of_ran fun s => s.startRow_otp _ _ fun _ => startSetSense_otp ..
  | setLoop _ => exact .of_ran fun s => s.startRow_otp _ _ fun _ => startSetLoop_otp ..
  | armComp _ => exact .of_ran fun s => s.startRow_otp _ _ fun _ => startArmComp_otp ..
  | disarmComp _ => exact .of_ran fun s => s.startRow_otp _ _ fun _ => startDisarmComp_otp ..
  | holdLoop _ => exact .of_ran fun s => s.startRow_otp _ _ fun _ => startHoldList_otp ..
  | releaseLoop _ => exact .of_ran fun s => s.startRow_otp _ _ fun _ => startHoldList_otp ..
  | seedLoop _ => exact .of_ran fun s => s.startRow_otp _ _ fun _ => startSeedList_otp ..
  | setComp _ => exact .of_ran fun s => s.startRow_otp _ _ fun _ => startSetComp_otp ..
  | setXtalk _ => exact .of_ran fun s => s.startRow_otp _ _ fun _ => startSetXtalk_otp ..
  | setFit _ => exact .of_ran fun s => s.startRow_otp _ _ fun _ => startSetFit_otp ..
  | revertFit _ => exact .of_ran fun s => s.startRow_otp _ _ fun _ => startRevertFit_otp ..
  | fitLogRead _ => exact .of_ran fun s => s.startRow_otp _ _ fun _ => startFitLogRead_otp ..
  | fitLogFree _ => exact .of_ran fun s => s.startRow_otp _ _ fun _ => startFitLogFree_otp ..
  | planRoute _ => exact .of_ran fun s => s.startRow_otp _ _ fun _ => startPlan_otp ..
  | planCells _ => exact .of_ran fun s => s.startRow_otp _ _ fun _ => startPlan_otp ..
  | planDirect _ => exact .of_ran fun s => s.startRow_otp _ _ fun _ => startPlan_otp ..
  | planFree _ => exact .of_ran fun s => s.startRow_otp _ _ fun _ => startPlan_otp ..
  | planRefresh _ => exact .of_ran fun s => s.startRow_otp _ _ fun _ => startPlan_otp ..
  | planStore _ => exact .of_ran fun s => s.startRow_otp _ _ fun _ => startPlan_otp ..
  | planLoad _ => exact .of_ran fun s => s.startRow_otp _ _ fun _ => startPlan_otp ..
  | planImport _ => exact .of_ran fun s => s.startRow_otp _ _ fun _ => startPlan_otp ..
  | planExport _ => exact .of_ran fun s => s.startRow_otp _ _ fun _ => startPlan_otp ..
  | planDelete _ => exact .of_ran fun s => s.startRow_otp _ _ fun _ => startPlan_otp ..
  | turnout _ => exact .of_ran fun s => s.startRow_otp _ _ fun _ => startTurnout_otp ..
  | turnoutListAdd _ => exact .of_ran fun s => s.startRow_otp _ _ fun _ => startTurnoutList_otp ..
  | turnoutListReplace _ => exact .of_ran fun s => s.startRow_otp _ _ fun _ => startTurnoutList_otp ..
  | turnoutCancel _ => exact .of_ran fun s => s.startRow_otp _ _ fun _ => startTurnoutCancel_otp ..
  | rotationList _ => exact .of_ran fun s => s.startRow_otp _ _ fun _ => startRotationList_otp ..
  | rotationStop _ => exact .of_ran fun s => s.startRow_otp _ _ fun _ => startRotationStop_otp ..
  | survey _ => exact .of_ran fun s => s.startRow_otp _ _ fun _ => startSurvey_otp ..
  | surveyAbort _ => exact .of_ran fun s => s.startRow_otp _ _ fun _ => startSurveyAbort_otp ..
  | surveyExport _ => exact .of_ran fun s => s.startRow_otp _ _ fun _ => startSurveyExport_otp ..
  | handover _ => exact .of_ran fun s => s.startRow_otp _ _ fun _ => startHandover_otp ..
  | resync _ => exact .of_ran fun s => s.startRow_otp _ _ fun _ => startResync_otp ..
  | recConfig _ => exact .of_ran fun s => s.startRow_otp _ _ fun _ => startRecConfig_otp ..
  | recFreeze _ => exact .of_ran fun s => s.startRow_otp _ _ fun _ => startRecControl_otp ..
  | recResume _ => exact .of_ran fun s => s.startRow_otp _ _ fun _ => startRecControl_otp ..
  | recStop _ => exact .of_ran fun s => s.startRow_otp _ _ fun _ => startRecControl_otp ..
  | recRead _ => exact .of_ran fun s => s.startRow_otp _ _ fun _ => startRecRead_otp ..
  | march _ => exact .of_ran fun s => s.startRow_otp _ _ fun _ => startMarch_otp ..
  | musterRead _ => exact .of_ran fun s => s.startRow_otp _ _ fun _ => startMusterRead_otp ..
  | alarmConfig _ => exact .of_ran fun s => s.startRow_otp _ _ fun _ => startAlarmCfg_otp ..
  | alarmRelease _ => exact .of_ran fun s => s.startRow_otp _ _ fun _ => startAlarmCfg_otp ..
  | timeRead _ => exact .of_ran fun s => s.startRow_otp _ _ fun _ => startTime_otp ..
  | timeSet _ => exact .of_ran fun s => s.startRow_otp _ _ fun _ => startTime_otp ..
  | ptpConfig _ => exact .of_ran fun s => s.startRow_otp _ _ fun _ => startTime_otp ..
  | portMeasure _ => exact .of_ran fun s => s.startRow_otp _ _ fun _ => startTime_otp ..
  | gateList _ => exact .of_ran fun s => s.startRow_otp _ _ fun _ => startGateList_otp ..
  | policer _ => exact .of_ran fun s => s.startRow_otp _ _ fun _ => startPolicer_otp ..
  | lifecycle _ _ => cases h
  | debugToken _ => exact .of_ran fun s => s.startRow_otp _ _ fun _ => startDebugToken_otp ..
  | controlKeyProvision _ _ => exact .of_ran fun s => s.startRow_otp _ _ fun _ => startKeyProvision_otp ..
  | ownerDebugKey _ _ => exact .of_ran fun s => s.startRow_otp _ _ fun _ => startKeyProvision_otp ..
  | keyErase _ _ => exact .of_ran fun s => s.startRow_otp _ _ fun _ => startKeyProvision_otp ..
  | recorderKeep _ _ => exact .of_ran fun s => s.startRow_otp _ _ fun _ => startKeyProvision_otp ..
  | fwWrite _ => exact .of_ran fun s => s.startRow_otp _ _ fun _ => startFwWrite_otp ..
  | fwInfo _ => exact .of_ran fun s => s.startRow_otp _ _ fun _ => startFwInfo_otp ..
  | fwSelect _ _ => exact .of_ran fun s => s.startRow_otp _ _ fun _ => startFwSelect_otp ..
  | fwRaiseSvn _ _ => cases h
  | telemetryCfg _ => exact .of_ran fun s => s.startRow_otp _ _ fun _ => startTelemetryCfg_otp ..
  | perstRelease _ => exact .of_ran fun _ => doPerstRelease_otp ..
  | ethLinkChange _ _ => exact .of_ran fun _ => doLinkChange_otp ..
  | vparkOutOfRange _ => exact .of_ran fun _ => doVpark_otp ..
  | ptpMessageTimer _ => exact .of_ran fun _ => doPtpTimer_otp ..
  | marchDone _ _ => exact .of_ran fun _ => doMarchDone_otp ..
  | portMeasureDone _ => exact .of_ran fun _ => doPortMeasureDone_otp ..
  | fwStoreWriteDone _ => exact .of_ran fun _ => doFwStoreDone_otp ..
  | loadCheckDone _ => exact .of_ran fun _ => doLoadCheck_otp ..

/-- The commands that `touchesFuses` names undo no fuse. -/
theorem keepsBurns (i : Instr) : KeepsBurns i := by
  cases h : touchesFuses i with
  | false => exact (leavesFuses i h).keepsBurns
  | true =>
    cases i with
    | por => exact .of_ran fun s => .inr (doPor_otp s)
    | resetNAssert => exact .of_ran fun s => .inr (doResetN_otp s)
    | pllLossOfLock => exact .of_ran fun s => .inr (doLossOfLock_otp s)
    | railBelowThreshold r =>
      obtain rfl := of_decide_eq_true h
      exact .of_ran fun s => .inr (doRailLow_aon_otp s)
    | lifecycleReset => exact .of_ran fun s => (doLifecycleReset_otp s).imp_left .of_eq
    | jtagToken t burned => exact .of_ran fun s => .inl (doJtagToken_burns t burned s)
    | lifecycle d burned => exact .of_ran fun s => .inl (s.startRow_burns d _ _ fun s => startLifecycle_burns d burned s)
    | fwRaiseSvn d burned => exact .of_ran fun s => .inl (s.startRow_burns d _ _ fun s => startFwRaise_burns d burned s)
    | tickBoundary i => exact .of_ran fun s => .inl (doTickBoundary_burns i s)
    | _ => cases h

/-! ### The life cycle along R494's table -/

/-- A change that is due is one of R494's table; the fuses alone say so. -/
theorem State.lifeOk_iff (s : State) : s.lifeOk = true ↔ ∀ p, s.fuses.due = some p → transition s.fuses.life p.2 ≠ none := by
  unfold State.lifeOk
  cases s.fuses.due with
  | none => simp
  | some p => simp [Option.ne_none_iff_isSome]

theorem lifeOk_of_burns {s t : State} (h : Burns s.fuses t.fuses) (hs : s.lifeOk = true) : t.lifeOk = true := by
  obtain ⟨hlife, -, hdue⟩ := h
  rw [State.lifeOk_iff] at hs ⊢
  intro p hp
  rw [hlife]
  exact (hdue p hp).elim (hs p) id

theorem leadsTo_of_burns {f g : Fuses} (h : Burns f g) : f.leadsTo g :=
  ⟨.inl h.1, h.2.1⟩

/-- A reset of the device leaves no change due. -/
theorem Fuses.now_due (f : Fuses) : f.now.due = none := by
  unfold Fuses.now
  split
  · rfl
  · assumption

theorem lifeOk_of_now {s t : State} (h : t.fuses = s.fuses.now) : t.lifeOk = true := by
  rw [State.lifeOk_iff, h, Fuses.now_due]
  simp

/-- What a reset puts into force is the change that was due. -/
theorem leadsTo_now {s : State} (hs : s.lifeOk = true) : s.fuses.leadsTo s.fuses.now := by
  rw [State.lifeOk_iff] at hs
  unfold Fuses.now
  split
  case h_1 target hdue => exact ⟨.inr (hs _ hdue), Nat.le_refl _⟩
  case h_2 => exact ⟨.inl rfl, Nat.le_refl _⟩

/-- A step is a command's doing with the queue's rest, or an idle edge; neither undoes a fuse. -/
theorem step_burns {s t : State} (h : step s = .next t) : Burns s.fuses t.fuses ∨ t.fuses = s.fuses.now := by
  unfold step at h
  split at h
  case h_1 c rest _ => exact keepsBurns c { s with pending := rest } t h
  case h_2 =>
    injection h with h
    subst h
    exact .inl (.of_eq (idle_otp s))

end Sys2Proof.Machine

namespace Sys2Proof

/-- Settles O8, row by row. -/
theorem otherCommandsLeaveFuses : Obligations.OtherCommandsLeaveFuses :=
  fun c s t hc h => leavesFuses c hc s t h

/-- Settles O7: a step burns along R494's table, or a reset puts what was burned into force. -/
theorem lifeCycleOnlyForward : Obligations.LifeCycleOnlyForward := by
  intro s t hs hstep
  rcases step_burns hstep with hburns | hnow
  · exact ⟨lifeOk_of_burns hburns hs, leadsTo_of_burns hburns⟩
  · exact ⟨lifeOk_of_now hnow, hnow ▸ leadsTo_now hs⟩

end Sys2Proof
end

/-! ### The bytes of a descriptor -/

section
open Sys2Proof Sys2Proof.Machine Claims

namespace Sys2Proof

/-! A descriptor's fields lie behind one another, so a field is read behind the bytes of those before it, and what lies between two offsets is what the
bytes up to each have apart (R336). -/

theorem leAt_leBytes_skip {n v i k : Nat} {r : List Byte} (h : n ≤ i) : leAt (leBytes n v ++ r) i k = leAt r (i - n) k :=
  leAt_skip _ _ _ _ _ (by rw [length_leBytes]; omega)

/-- The 32 bytes in front of INLINE. -/
def Desc.head (d : Desc) : List Byte :=
  leBytes 1 d.op ++ leBytes 1 d.flags ++ leBytes 2 d.rsv2 ++ leBytes 4 d.tag ++ leBytes 8 d.addr ++ leBytes 4 d.len ++
  leBytes 4 d.rsv20 ++ leBytes 8 d.outAddr

theorem Desc.length_head (d : Desc) : d.head.length = 32 := by
  simp [Desc.head]

theorem Desc.bytes_of_inl {d : Desc} (h : d.inl.length = 32) : d.bytes = d.head ++ d.inl := by
  have hinl : (d.inl ++ zeros 32).take 32 = d.inl := List.take_left' h
  rw [Desc.bytes, hinl, Desc.head]

/-- The fields of what bytes spell are numbers of as many bytes (R336). -/
theorem descOf_fits {ring index : Nat} {bs : List Byte} (p : Option (List Byte)) (hring : ring < 17) (hindex : index < 65536) (hlen : bs.length = 64) :
    (descOf ring index bs p).fits = true := by
  have hinl : ((bs.drop 32).take 32).length = 32 := by simp [hlen]
  exact decide_eq_true ⟨hring, hindex, leAt_lt bs 0 1, leAt_lt bs 1 1, leAt_lt bs 2 2, leAt_lt bs 4 4, leAt_lt bs 8 8, leAt_lt bs 16 4, leAt_lt bs 20 4,
    leAt_lt bs 24 8, hinl⟩

theorem descOf_bytes (d : Desc) (h : d.fits = true) : descOf d.ring d.index d.bytes d.payload = d := by
  obtain ⟨-, -, hop, hflags, hrsv2, htag, haddr, hlen, hrsv20, hout, hinl⟩ := of_decide_eq_true h
  have hbytes := Desc.bytes_of_inl hinl
  have hdrop : (d.bytes.drop 32).take 32 = d.inl := by
    rw [hbytes, List.drop_left' d.length_head, List.take_of_length_le (Nat.le_of_eq hinl)]
  simp only [descOf, hdrop]
  simp only [hbytes, Desc.head, List.append_assoc]
  simp [leAt_leBytes_skip, leAt_append 1 d.op _ hop, leAt_append 1 d.flags _ hflags, leAt_append 2 d.rsv2 _ hrsv2, leAt_append 4 d.tag _ htag,
    leAt_append 8 d.addr _ haddr, leAt_append 4 d.len _ hlen, leAt_append 4 d.rsv20 _ hrsv20, leAt_append 8 d.outAddr _ hout]

theorem bytes_descOf {bs : List Byte} (ring index : Nat) (p : Option (List Byte)) (hlen : bs.length = 64) : (descOf ring index bs p).bytes = bs := by
  have hinl : ((bs.drop 32).take 32).length = 32 := by simp [hlen]
  have hfield (i n : Nat) (h : i + n ≤ 64) : leBytes n (leAt bs i n) = (bs.drop i).take n := leBytes_leAt bs i n (by omega)
  have hjoin (i n : Nat) : bs.take i ++ (bs.drop i).take n = bs.take (i + n) := List.take_add.symm
  rw [Desc.bytes_of_inl hinl]
  simp only [Desc.head, descOf, hfield 0 1 (by decide), hfield 1 1 (by decide), hfield 2 2 (by decide), hfield 4 4 (by decide), hfield 8 8 (by decide),
    hfield 16 4 (by decide), hfield 20 4 (by decide), hfield 24 8 (by decide)]
  rw [List.drop_zero, hjoin, hjoin, hjoin, hjoin, hjoin, hjoin, hjoin, hjoin, List.take_of_length_le (Nat.le_of_eq hlen)]

/-- Settles O9, by the fields of the format in their order. -/
theorem descriptorBytesSpellIt : Obligations.DescriptorBytesSpellIt := by
  refine ⟨fun d hfits => ⟨?_, descOf_bytes d hfits⟩, fun ring index bs p hring hindex hlen => ⟨descOf_fits p hring hindex hlen, bytes_descOf ring index p hlen⟩⟩
  simp [Desc.bytes]

end Sys2Proof
end

/-! ### A descriptor row and the boundary start the same work -/

section
open Sys2Proof Sys2Proof.Machine Claims

namespace Sys2Proof.Machine

/-- A command is answered with what its meaning makes of the state. -/
theorem does_of_ran {i : Instr} {s u t : State} (hexec : exec i s = s.ran u) (h : u = t) : Does i s t := by
  rw [← h]
  exact hexec

/-- A row whose descriptor starts here as it does at a boundary (R334). -/
def StartsAsAtBoundary (i : Instr) : Prop :=
  ∀ (d : Desc) (s : State), i.wellFormed = true → i.desc? = some d → d.op ∉ [0x60, 0x62, 0x63] → Does i s (s.startRow d true runDesc)

theorem State.startRow_congr (s : State) {d : Desc} {b : Bool} {f g : Desc → State → State} (h : ∀ s, f d s = g d s) : s.startRow d b f = s.startRow d b g := by
  simp only [State.startRow, State.startWith, h]

/-- A row is its own opcode's function, under the row's condition on the descriptor, and `runDesc` comes to the same function there. -/
theorem StartsAsAtBoundary.of_row {i : Instr} {d : Desc} {c : Prop} [Decidable c] {f : Desc → State → State}
    (hdesc : i.desc? = some d) (hwf : i.wellFormed = (d.fits && decide c))
    (hexec : ∀ s, exec i s = s.ran (s.startRow d (decide c) f)) (hrun : c → ∀ s, runDesc d s = f d s) : StartsAsAtBoundary i := by
  intro d' s hok hd _
  obtain rfl : d = d' := Option.some.inj (hdesc.symm.trans hd)
  rw [hwf, Bool.and_eq_true] at hok
  have hc := of_decide_eq_true hok.2
  have h := hexec s
  rw [hok.2, ← s.startRow_congr (hrun hc)] at h
  exact h

/-- A row of the opcodes whose outcome the row itself gives. -/
theorem StartsAsAtBoundary.excluded {i : Instr} {d : Desc} {c : Prop} [Decidable c]
    (hdesc : i.desc? = some d) (hwf : i.wellFormed = (d.fits && decide c)) (hop : c → d.op ∈ [0x60, 0x62, 0x63]) : StartsAsAtBoundary i := by
  intro d' s hok hd hnot
  obtain rfl : d = d' := Option.some.inj (hdesc.symm.trans hd)
  rw [hwf, Bool.and_eq_true] at hok
  exact absurd (hop (of_decide_eq_true hok.2)) hnot

theorem StartsAsAtBoundary.of_none {i : Instr} (hdesc : i.desc? = none) : StartsAsAtBoundary i := by
  intro d s _ hd
  rw [hdesc] at hd
  cases hd

/-- The subcommand of POWER (R478). -/
theorem in1_eq {d : Desc} {k : Nat} (h : leAt d.inl 0 1 = k) : d.in1 32 = k := h

/-- POWER goes on by its subcommand (R478). -/
theorem runDesc_power {d : Desc} (h : d.op = 0x04) (s : State) : runDesc d s = startPower d s := by
  simp only [runDesc, h]

/-- Every row of a descriptor: one line for each row of the table. -/
theorem startsAsAtBoundary (i : Instr) : StartsAsAtBoundary i := by
  cases i with
  | nop d => exact .of_row rfl rfl (fun _ => rfl) fun h s => by simp only [runDesc, h]
  | reservedOpcode d => exact .of_row rfl rfl (fun _ => rfl) fun _ _ => rfl
  | setup d => exact .of_row rfl rfl (fun _ => rfl) fun h s => by simp only [runDesc, h]
  | setupLock d => exact .of_row rfl rfl (fun _ => rfl) fun h s => by simp only [runDesc, h]
  | modeParked d => exact .of_row rfl rfl (fun _ => rfl) fun h s => by simp only [runDesc, h.1]
  | modeService d => exact .of_row rfl rfl (fun _ => rfl) fun h s => by simp only [runDesc, h.1]
  | modeMaintenance d => exact .of_row rfl rfl (fun _ => rfl) fun h s => by simp only [runDesc, h.1]
  | napEnter d => exact .of_row rfl rfl (fun _ => rfl) fun h s => by simp only [runDesc_power h.1, startPower, in1_eq h.2]
  | napExit d => exact .of_row rfl rfl (fun _ => rfl) fun h s => by simp only [runDesc_power h.1, startPower, in1_eq h.2]
  | quiesce d => exact .of_row rfl rfl (fun _ => rfl) fun h s => by simp only [runDesc_power h.1, startPower, in1_eq h.2]
  | deep d => exact .of_row rfl rfl (fun _ => rfl) fun h s => by simp only [runDesc_power h.1, startPower, in1_eq h.2]
  | wake d => exact .of_row rfl rfl (fun _ => rfl) fun h s => by simp only [runDesc_power h.1, startPower, in1_eq h.2]
  | paddockReset d => exact .of_row rfl rfl (fun _ => rfl) fun h s => by simp only [runDesc_power h.1, startPower, in1_eq h.2]
  | shepherdReset d => exact .of_row rfl rfl (fun _ => rfl) fun h s => by simp only [runDesc_power h.1, startPower, in1_eq h.2]
  | softReset d => exact .of_row rfl rfl (fun _ => rfl) fun h s => by simp only [runDesc_power h.1, startPower, in1_eq h.2]
  | mapLoad d => exact .of_row rfl rfl (fun _ => rfl) fun h s => by simp only [runDesc, h]
  | domainReload d => exact .of_row rfl rfl (fun _ => rfl) fun h s => by simp only [runDesc, h]
  | setSpan d => exact .of_row rfl rfl (fun _ => rfl) fun h s => by simp only [runDesc, h]
  | park d => exact .of_row rfl rfl (fun _ => rfl) fun h s => by simp only [runDesc, h.1]
  | parkRelease d => exact .of_row rfl rfl (fun _ => rfl) fun h s => by simp only [runDesc, h.1]
  | setSense d => exact .of_row rfl rfl (fun _ => rfl) fun h s => by simp only [runDesc, h]
  | setLoop d => exact .of_row rfl rfl (fun _ => rfl) fun h s => by simp only [runDesc, h]
  | armComp d => exact .of_row rfl rfl (fun _ => rfl) fun h s => by simp only [runDesc, h]
  | disarmComp d => exact .of_row rfl rfl (fun _ => rfl) fun h s => by simp only [runDesc, h]
  | holdLoop d => exact .of_row rfl rfl (fun _ => rfl) fun h s => by simp only [runDesc, h]
  | releaseLoop d => exact .of_row rfl rfl (fun _ => rfl) fun h s => by simp only [runDesc, h]
  | seedLoop d => exact .of_row rfl rfl (fun _ => rfl) fun h s => by simp only [runDesc, h]
  | setComp d => exact .of_row rfl rfl (fun _ => rfl) fun h s => by simp only [runDesc, h]
  | setXtalk d => exact .of_row rfl rfl (fun _ => rfl) fun h s => by simp only [runDesc, h]
  | setFit d => exact .of_row rfl rfl (fun _ => rfl) fun h s => by simp only [runDesc, h]
  | revertFit d => exact .of_row rfl rfl (fun _ => rfl) fun h s => by simp only [runDesc, h]
  | fitLogRead d => exact .of_row rfl rfl (fun _ => rfl) fun h s => by simp only [runDesc, h]
  | fitLogFree d => exact .of_row rfl rfl (fun _ => rfl) fun h s => by simp only [runDesc, h]
  | planRoute d => exact .of_row rfl rfl (fun _ => rfl) fun h s => by simp [runDesc, h]
  | planCells d => exact .of_row rfl rfl (fun _ => rfl) fun h s => by simp [runDesc, h]
  | planDirect d => exact .of_row rfl rfl (fun _ => rfl) fun h s => by simp [runDesc, h]
  | planFree d => exact .of_row rfl rfl (fun _ => rfl) fun h s => by simp [runDesc, h]
  | planRefresh d => exact .of_row rfl rfl (fun _ => rfl) fun h s => by simp [runDesc, h]
  | planStore d => exact .of_row rfl rfl (fun _ => rfl) fun h s => by simp [runDesc, h]
  | planLoad d => exact .of_row rfl rfl (fun _ => rfl) fun h s => by simp [runDesc, h]
  | planImport d => exact .of_row rfl rfl (fun _ => rfl) fun h s => by simp [runDesc, h]
  | planExport d => exact .of_row rfl rfl (fun _ => rfl) fun h s => by simp [runDesc, h]
  | planDelete d => exact .of_row rfl rfl (fun _ => rfl) fun h s => by simp [runDesc, h]
  | turnout d => exact .of_row rfl rfl (fun _ => rfl) fun h s => by simp only [runDesc, h]
  | turnoutListAdd d => exact .of_row rfl rfl (fun _ => rfl) fun h s => by simp only [runDesc, h.1]
  | turnoutListReplace d => exact .of_row rfl rfl (fun _ => rfl) fun h s => by simp only [runDesc, h.1]
  | turnoutCancel d => exact .of_row rfl rfl (fun _ => rfl) fun h s => by simp only [runDesc, h]
  | rotationList d => exact .of_row rfl rfl (fun _ => rfl) fun h s => by simp only [runDesc, h]
  | rotationStop d => exact .of_row rfl rfl (fun _ => rfl) fun h s => by simp only [runDesc, h]
  | survey d => exact .of_row rfl rfl (fun _ => rfl) fun h s => by simp only [runDesc, h]
  | surveyAbort d => exact .of_row rfl rfl (fun _ => rfl) fun h s => by simp only [runDesc, h]
  | surveyExport d => exact .of_row rfl rfl (fun _ => rfl) fun h s => by simp only [runDesc, h]
  | handover d => exact .of_row rfl rfl (fun _ => rfl) fun h s => by simp only [runDesc, h]
  | resync d => exact .of_row rfl rfl (fun _ => rfl) fun h s => by simp only [runDesc, h]
  | recConfig d => exact .of_row rfl rfl (fun _ => rfl) fun h s => by simp only [runDesc, h]
  | recFreeze d => exact .of_row rfl rfl (fun _ => rfl) fun h s => by simp only [runDesc, h.1]
  | recResume d => exact .of_row rfl rfl (fun _ => rfl) fun h s => by simp only [runDesc, h.1]
  | recStop d => exact .of_row rfl rfl (fun _ => rfl) fun h s => by simp only [runDesc, h.1]
  | recRead d => exact .of_row rfl rfl (fun _ => rfl) fun h s => by simp only [runDesc, h]
  | march d => exact .of_row rfl rfl (fun _ => rfl) fun h s => by simp only [runDesc, h]
  | musterRead d => exact .of_row rfl rfl (fun _ => rfl) fun h s => by simp only [runDesc, h]
  | alarmConfig d => exact .of_row rfl rfl (fun _ => rfl) fun h s => by simp only [runDesc, h.1]
  | alarmRelease d => exact .of_row rfl rfl (fun _ => rfl) fun h s => by simp only [runDesc, h.1]
  | timeRead d => exact .of_row rfl rfl (fun _ => rfl) fun h s => by simp only [runDesc, h.1]
  | timeSet d => exact .of_row rfl rfl (fun _ => rfl) fun h s => by simp only [runDesc, h.1]
  | ptpConfig d => exact .of_row rfl rfl (fun _ => rfl) fun h s => by simp only [runDesc, h.1]
  | portMeasure d => exact .of_row rfl rfl (fun _ => rfl) fun h s => by simp only [runDesc, h.1]
  | gateList d => exact .of_row rfl rfl (fun _ => rfl) fun h s => by simp only [runDesc, h]
  | policer d => exact .of_row rfl rfl (fun _ => rfl) fun h s => by simp only [runDesc, h]
  | lifecycle d burned => exact .excluded rfl rfl (by intro h; simp [h])
  | debugToken d => exact .of_row rfl rfl (fun _ => rfl) fun h s => by simp only [runDesc, h]
  | controlKeyProvision d ok => exact .excluded rfl rfl (by intro h; simp [h.1])
  | ownerDebugKey d ok => exact .excluded rfl rfl (by intro h; simp [h.1])
  | keyErase d ok => exact .excluded rfl rfl (by intro h; simp [h.1])
  | recorderKeep d ok => exact .excluded rfl rfl (by intro h; simp [h.1])
  | fwWrite d => exact .excluded rfl rfl (by intro h; simp [h.1])
  | fwInfo d => exact .excluded rfl rfl (by intro h; simp [h.1])
  | fwSelect d ok => exact .excluded rfl rfl (by intro h; simp [h.1])
  | fwRaiseSvn d burned => exact .excluded rfl rfl (by intro h; simp [h.1])
  | telemetryCfg d => exact .of_row rfl rfl (fun _ => rfl) fun h s => by simp only [runDesc, h]
  | _ => exact .of_none rfl

end Sys2Proof.Machine

namespace Sys2Proof

/-- Settles O10, row by row. -/
theorem rowsStartWhatBoundariesStart : Obligations.RowsStartWhatBoundariesStart :=
  fun i d s hok hdesc hop => startsAsAtBoundary i d s hok hdesc hop

end Sys2Proof
end

/-! ### The MODE descriptor -/

section
open Sys2Proof Sys2Proof.Machine Claims

namespace Sys2Proof.Machine

/-- A row whose descriptor starts: what its opcode's function makes of the state. -/
theorem does_of_start {i : Instr} {s c t : State} {d : Desc} {p : Prop} [Decidable p] {f : Desc → State → State} (hexec : exec i s = s.ran (s.startRow d (decide p) f)) (hrow : p)
    (hstarts : Starts s c d) (h : f d c = t) : Does i s t :=
  h ▸ does_of_startRow hexec (decide_eq_true hrow) hstarts

theorem startMode_low {s : State} {d : Desc} (hfmt : d.in1 35 < 2) (htarget : d.in1 32 = 4 ∨ d.in1 32 = 5 ∨ (d.in1 32 = 6 ∧ d.in1 33 < 2))
    (hlow : s.lp = .quiesce ∨ s.napMask ≠ 0) : startMode d s = s.completeHif d 7 := by
  have hknown : ¬((d.in1 32 ≠ 4 ∧ d.in1 32 ≠ 5 ∧ d.in1 32 ≠ 6) ∨ (d.in1 32 = 6 ∧ 2 ≤ d.in1 33)) := by omega
  rw [startMode, if_neg (Nat.not_le.mpr hfmt), if_neg hknown, if_pos hlow]

section Awake
variable {s : State} {d : Desc} (hfmt : d.in1 35 < 2) (hlp : s.lp ≠ .quiesce) (hnap : s.napMask = 0)
include hfmt hlp hnap

theorem startMode_parked (htarget : d.in1 32 = 4) : startMode d s = startModeParked d s := by
  simp [startMode, Nat.not_le.mpr hfmt, hlp, hnap, htarget]

theorem startMode_service (htarget : d.in1 32 = 5) : startMode d s = startModeService d s := by
  simp [startMode, Nat.not_le.mpr hfmt, hlp, hnap, htarget]

theorem startMode_maintenance (htarget : d.in1 32 = 6) (hpart : d.in1 33 < 2) : startMode d s = startModeMaintenance d s := by
  simp [startMode, Nat.not_le.mpr hfmt, hlp, hnap, htarget, Nat.not_le.mpr hpart]

end Awake

/-- The part that a MODE MAINTENANCE names is one that the device has. -/
def NamesPart (s : State) (d : Desc) (out : OutOfService) : Prop :=
  (d.in1 33 = 0 ∧ d.in1 34 < s.part.paddocks ∧ out = .paddock (d.in1 34)) ∨ (d.in1 33 = 1 ∧ s.dom? (d.in1 34) ≠ none ∧ out = .domain (d.in1 34))

theorem NamesPart.kind_lt {s : State} {d : Desc} {out : OutOfService} (h : NamesPart s d out) : d.in1 33 < 2 := by
  rcases h with ⟨hkind, _⟩ | ⟨hkind, _⟩ <;> omega

theorem startModeMaintenance_of_service {s : State} {d : Desc} {out : OutOfService} (h : NamesPart s d out) (hmode : s.mode = .service) :
    startModeMaintenance d s = (s.enterMaintenance out 0).completeHif d 0 := by
  rcases h with ⟨hkind, hpart, rfl⟩ | ⟨hkind, hpart, rfl⟩
  · simp [startModeMaintenance, modePart, hkind, Nat.not_le.mpr hpart, hmode]
  · simp [startModeMaintenance, modePart, hkind, hpart, hmode]

theorem startModeMaintenance_of_maintenance {s : State} {d : Desc} {out : OutOfService} (h : NamesPart s d out) (hmode : s.mode = .maintenance) :
    startModeMaintenance d s = s.completeHif d (if s.oos = out then 0 else 7) := by
  rcases h with ⟨hkind, hpart, rfl⟩ | ⟨hkind, hpart, rfl⟩
  · simp [startModeMaintenance, modePart, hkind, Nat.not_le.mpr hpart, hmode]
  · simp [startModeMaintenance, modePart, hkind, hpart, hmode]

theorem startModeParked_leaves {s : State} {d : Desc} (hmode : s.mode = .service ∨ s.mode = .maintenance ∨ (s.mode = .safe ∧ s.safeExitOk = true)) (hsurvey : s.survey = none) :
    startModeParked d s = (s.enterParked 0).completeHif d 0 := by
  rcases hmode with hmode | hmode | ⟨hmode, hsafe⟩
  · simp [startModeParked, hmode]
  · simp [startModeParked, hmode, hsurvey]
  · simp [startModeParked, hmode, hsafe]

theorem startModeService_leaves {s : State} {d : Desc} (hmode : s.mode = .maintenance ∨ (s.mode = .parked ∧ s.map ≠ none)) (hsurvey : s.survey = none) :
    startModeService d s = (s.enterService (bitAt (d.in1 35) 0) 0).completeHif d 0 := by
  rcases hmode with hmode | ⟨hmode, hmap⟩
  · simp [startModeService, hmode, hsurvey]
  · simp [startModeService, hmode, hmap]

/-- A MODE that changes the mode ends in the place that its function leaves. -/
theorem does_place {i : Instr} {s u t : State} {d : Desc} {m : Mode} {out : OutOfService} (h : Does i s t) (ht : t = u.completeHif d 0) (hu : u.place = (m, out)) :
    ∃ t, exec i s = .next t ∧ t.mode = m ∧ t.oos = out ∧ t.pending = s.pending := by
  have hplace : t.place = (m, out) := by rw [ht, State.completeHif_place, hu]
  exact ⟨_, h, congrArg Prod.fst hplace, congrArg Prod.snd hplace, rfl⟩

section Row
variable {s c : State} {d : Desc} (h : Starts s c d) (hop : d.op = 0x03)
include h hop

theorem does_modeParked (htarget : d.in1 32 = 4) : Does (.modeParked d) s (startMode d c) :=
  does_of_startRow rfl (decide_eq_true ⟨hop, htarget⟩) h

theorem does_modeMaintenance (htarget : d.in1 32 = 6) : Does (.modeMaintenance d) s (startMode d c) :=
  does_of_startRow rfl (decide_eq_true ⟨hop, htarget⟩) h

end Row

end Sys2Proof.Machine

namespace Sys2Proof

/-- Settles O13, from the place that each entry function leaves. -/
theorem modeRequestsReachTheirMode : Obligations.ModeRequestsReachTheirMode := by
  intro s c d h hop hfmt hlp hnap hsurvey
  refine ⟨fun htarget hmode => ?_, fun htarget hmode => ?_, fun out hpart htarget hmode => ?_⟩
  · exact does_place (does_modeParked h hop htarget) ((startMode_parked hfmt hlp hnap htarget).trans (startModeParked_leaves hmode hsurvey)) (State.enterParked_place ..)
  · exact does_place (does_modeService h hop htarget) ((startMode_service hfmt hlp hnap htarget).trans (startModeService_leaves hmode hsurvey)) (State.enterService_place ..)
  · have hpart : NamesPart c d out := hpart
    have hstart := startMode_maintenance hfmt hlp hnap htarget hpart.kind_lt
    rcases hmode with hmode | ⟨hmode, hout⟩
    · exact does_place (does_modeMaintenance h hop htarget) (hstart.trans (startModeMaintenance_of_service hpart hmode)) (State.enterMaintenance_place ..)
    · exact does_place (does_modeMaintenance h hop htarget) (hstart.trans (by rw [startModeMaintenance_of_maintenance hpart hmode, if_pos hout])) (Prod.ext hmode hout)

/-- Settles O12, by the target and the mode in force. -/
theorem modeDescriptorsChangeMode : Obligations.ModeDescriptorsChangeMode := by
  intro s c d h hop hfmt
  refine ⟨fun hlow => ⟨fun htarget => ?_, fun htarget => ?_, fun htarget hkind => ?_⟩, fun htarget hlp hnap => ?_, fun htarget hlp hnap => ?_, fun out hpart htarget hlp hnap => ?_⟩
  · exact startMode_low hfmt (.inl htarget) hlow ▸ does_modeParked h hop htarget
  · exact startMode_low hfmt (.inr (.inl htarget)) hlow ▸ does_modeService h hop htarget
  · exact startMode_low hfmt (.inr (.inr ⟨htarget, hkind⟩)) hlow ▸ does_modeMaintenance h hop htarget
  · have hdoes : Does (.modeParked d) s (startModeParked d c) := startMode_parked hfmt hlp hnap htarget ▸ does_modeParked h hop htarget
    refine ⟨fun hmode => ?_, fun hmode => ?_, fun hmode hsurvey => ?_, fun hmode hsafe => ?_⟩
    all_goals simpa [startModeParked, *] using hdoes
  · have hdoes : Does (.modeService d) s (startModeService d c) := startMode_service hfmt hlp hnap htarget ▸ does_modeService h hop htarget
    refine ⟨fun hmode => ?_, fun hmode hsurvey => ?_, fun hmode hmap => ?_⟩
    all_goals simpa [startModeService, *] using hdoes
  · have hpart : NamesPart c d out := hpart
    have hdoes : Does (.modeMaintenance d) s (startModeMaintenance d c) :=
      startMode_maintenance hfmt hlp hnap htarget hpart.kind_lt ▸ does_modeMaintenance h hop htarget
    exact ⟨fun hmode => startModeMaintenance_of_service hpart hmode ▸ hdoes, fun hmode => startModeMaintenance_of_maintenance hpart hmode ▸ hdoes⟩

end Sys2Proof
end

/-! ### Register words: what a write keeps -/

section
open Sys2Proof Sys2Proof.Machine Claims

namespace Sys2Proof.Machine

/-- No bit that SET-UP LOCK keeps is one that a 1 clears or sets, in any register of the map. -/
theorem rwl_disjoint : ∀ r ∈ regTable, r.rwl &&& r.w1c = 0 ∧ r.rwl &&& r.w1s = 0 := by decide +kernel

theorem regFind_mem {off : Nat} {r : RegRow} {i : Nat} (h : regFind off = some (r, i)) : r ∈ regTable := by
  obtain ⟨q, hq, e⟩ := Option.map_eq_some_iff.mp h
  cases e
  exact List.mem_of_find?_eq_some hq

theorem regFind_of_regAt {off : Nat} {r : RegRow} {i : Nat} (h : regAt off = some (r, i)) : regFind off = some (r, i) := by
  unfold regAt at h
  split at h
  · next hfind =>
    split at h
    · cases h
    · cases h; exact hfind
  · cases h

/-- A write under SET-UP LOCK stores the RWL bits as they were. -/
theorem storeWord_lockWord {r : RegRow} (hclear : r.rwl &&& r.w1c = 0) (hset : r.rwl &&& r.w1s = 0) (old v : Word) :
    storeWord r old (lockWord r true old v) &&& BitVec.ofNat 32 r.rwl = old &&& BitVec.ofNat 32 r.rwl := by
  refine BitVec.eq_of_getLsbD_eq fun i hi => ?_
  have hc : (r.rwl.testBit i && r.w1c.testBit i) = false := by rw [← Nat.testBit_and, hclear, Nat.zero_testBit]
  have hs : (r.rwl.testBit i && r.w1s.testBit i) = false := by rw [← Nat.testBit_and, hset, Nat.zero_testBit]
  simp only [storeWord, lockWord, if_true, BitVec.getLsbD_and, BitVec.getLsbD_or, BitVec.getLsbD_not, BitVec.getLsbD_ofNat, Nat.testBit_or]
  generalize r.rwl.testBit i = l at *
  generalize r.w1c.testBit i = c at *
  generalize r.w1s.testBit i = w at *
  cases l
  · simp
  · simp_all

theorem State.applyReg_regAt {s : State} {x : Shep} {off : Nat} {v : Word} (sel : Word) {r : RegRow} {i : Nat} (hr : regAt off = some (r, i)) (htable : tableWin off = false)
    (hload : loadWin off = false) :
    s.applyReg x off v sel = if lockedOut r s.locked then s else
      (s.writeOwnRule x r i off (lockWord r s.locked (s.rawWord x r off) v)).getD (s.storeReg x r off (lockWord r s.locked (s.rawWord x r off) v)) := by
  simp only [State.applyReg, htable, hload, hr, Bool.false_eq_true, if_false]

/-- What is read of a bank after its word or another bank's was stored. -/
theorem State.rd_wr_and {s : State} {b bank off : Nat} {w m : Word} (hoff : off < 0x10000000) (h : w &&& m = s.rd bank off &&& m) :
    (s.wr bank off w).rd b off &&& m = s.rd b off &&& m := by
  rw [State.rd_wr _ _ _ _ _ _ hoff hoff]
  split
  · next e => rw [e.1]; exact h
  · rfl

end Sys2Proof.Machine

namespace Sys2Proof

/-- Settles O52: the word that a write under the lock carries has the RWL bits in force. -/
theorem setUpLockKeepsFields : Obligations.SetUpLockKeepsFields := by
  intro s x off v sel r k hlock hr hoff hload htable
  obtain ⟨hclear, hset⟩ := rwl_disjoint r (regFind_mem (regFind_of_regAt hr))
  rw [State.applyReg_regAt sel hr htable hload, hlock]
  refine ⟨fun hrule hscope b => ?_, fun hrwl hrw hw1c hw1s hwo => if_pos (by simp [lockedOut, hrwl, hrw, hw1c, hw1s, hwo])⟩
  split
  · rfl
  · rw [hrule, Option.getD_none]
    rcases hscope with hscope | hscope
    all_goals
      simp only [State.storeReg, State.rawWord, hscope]
      exact State.rd_wr_and hoff (storeWord_lockWord hclear hset _ _)

/-- Settles O5. -/
theorem registerWordsHold : Obligations.RegisterWordsHold := by
  intro s b o b' o' w ho ho'
  refine ⟨s.rd_wr_self b o w, fun hne => s.rd_wr_ne _ _ _ _ _ fun e => ?_, s.wr_regsWf b o w ho⟩
  obtain ⟨hb, hoff⟩ := regKey_inj _ _ _ _ ho' ho e
  exact hne.elim (absurd hb) (absurd hoff)

end Sys2Proof
end

/-! ### Steps, commands and reset -/

section
open Sys2Proof Sys2Proof.Machine Claims

namespace Sys2Proof.Machine

theorem State.rd_reset (bank off : Nat) : State.reset.rd bank off = resetWord off := rfl

/-- Every command's arm is its meaning, run under the queue. -/
theorem exec_ran (i : Instr) (s : State) : ∃ u, exec i s = s.ran u := by
  cases i <;> exact ⟨_, rfl⟩

theorem step_of_pending {s : State} (h : s.pending = []) : step s = .next (idle s) := by
  simp only [step, h]

theorem State.rd_toEdge (s : State) (e bank off : Nat) : (s.toEdge e).rd bank off = s.rd bank off := rfl

theorem State.toEdge_succ_edge (s : State) : (s.toEdge (s.edge + 1)).edge = s.edge + 1 := max_eq_right (Nat.le_succ _)

theorem State.toEdge_succ_tb0 (s : State) : (s.toEdge (s.edge + 1)).tb0 = s.tb0 + (s.rd 0 TIM_INCR).toNat := by
  show s.tb0 + (s.edge + 1 - s.edge) * (s.rd 0 TIM_INCR).toNat = _
  rw [Nat.add_sub_cancel_left, Nat.one_mul]

end Sys2Proof.Machine

namespace Sys2Proof

/-- Settles O1. -/
theorem stepRunsFrontCommand : Obligations.StepRunsFrontCommand :=
  fun _ _ _ => rfl

/-- Settles O2, by whether the clock is held. -/
theorem emptyQueueIdles : Obligations.EmptyQueueIdles := by
  intro s hpending
  rw [step_of_pending hpending]
  refine ⟨fun hheld => by rw [idle, if_pos hheld], fun hoff hreset hlast => ⟨s.toEdge (s.edge + 1), ?_, ?_⟩⟩
  · rw [idle, if_neg (by simp [hoff, hreset, hlast])]
  · exact ⟨s.toEdge_succ_edge, s.toEdge_succ_tb0, s.rd_toEdge _, hpending, rfl, rfl, rfl⟩

/-- Settles O3, over the commands. -/
theorem everyCommandIsAnswered : Obligations.EveryCommandIsAnswered := by
  intro c s
  obtain ⟨u, hu⟩ := exec_ran c s
  exact ⟨_, hu, rfl⟩

/-- Settles O4. -/
theorem resetLeavesBoot : Obligations.ResetLeavesBoot := by
  refine ⟨rfl, rfl, fun x => by cases x <;> exact ⟨rfl, rfl⟩, fun bank off r i hfind hoff hclass => ?_, fun bank off hoff => ?_,
    rfl, rfl, rfl, rfl, rfl, rfl, rfl, fun _ => rfl⟩
  · rw [State.rd_reset, resetWord, if_neg (Nat.not_le.mpr hoff), if_neg hclass, hfind]
  · rw [State.rd_reset, resetWord, if_pos hoff]

/-- Settles O6. -/
theorem resetLifeOk : Obligations.ResetLifeOk :=
  ⟨by decide, rfl⟩

end Sys2Proof
end

/-! ### Basic, POWER and list descriptors -/

section
open Sys2Proof Sys2Proof.Machine Claims

namespace Sys2Proof.Machine

theorem startSetup_of_pass {s : State} {d : Desc} (hlen : d.len % 8 = 0) (hpass : ∀ r ∈ listRecs 8 d, s.setupFail r = none) :
    startSetup d s = let w := (listRecs 8 d).foldl (fun s r => s.fwWrite (leAt r 0 4) (BitVec.ofNat 32 (leAt r 4 4))) s
      w.addJob ⟨d, .setup, 0, w.dueTick, []⟩ := by
  simp only [startSetup, hlen, ne_eq, not_true_eq_false, if_false, List.findSome?_eq_none_iff.mpr hpass]

theorem State.stopPasses_mode (s : State) : s.stopPasses.mode = s.mode := by
  have hone (x : Shep) (s : State) : (s.stopPass x).mode = s.mode := State.modSh_mode ..
  rw [State.stopPasses, both, hone, hone]

theorem State.maskBad_eq_false {s : State} {m : Nat} (h : m < 2 ^ s.part.paddocks) : s.maskBad m = false := decide_eq_false (Nat.not_le.mpr h)

/-- A list whose records pass has no failure (R340). -/
theorem listFail_eq_none {size : Nat} {d : Desc} {rsv out bad : List Byte → Bool} (h : ListOk size d rsv out bad) : listFail size d rsv out bad = none := by
  obtain ⟨hlen, hrecs⟩ := h
  have hrsv : (listRecs size d).any rsv = false := List.any_eq_false.mpr fun r hr => by simp [(hrecs r hr).1]
  have hout : (listRecs size d).any out = false := List.any_eq_false.mpr fun r hr => by simp [(hrecs r hr).2.1]
  have hbad : (listRecs size d).any bad = false := List.any_eq_false.mpr fun r hr => by simp [(hrecs r hr).2.2]
  simp [listFail, hlen, hrsv, hout, hbad]

/-- A list without a failure starts its job. -/
theorem State.startList_pass {s : State} {d : Desc} {k : JobKind} {fail : Option Nat} {nums : List Nat} (h : fail = none) :
    s.startList d k fail nums = s.addJob ⟨d, k, 0, s.dueTick, nums⟩ := by
  subst h; rfl

/-- A further check that passes does not change that a list has no failure. -/
theorem or_ite_eq_none {fail : Option Nat} {p : Prop} [Decidable p] {c : Nat} (h : fail = none) (hp : ¬p) : fail.or (if p then some c else none) = none := by
  rw [h, if_neg hp]; rfl

end Sys2Proof.Machine

namespace Sys2Proof

/-- Settles O11, descriptor by descriptor. -/
theorem basicDescriptorsComplete : Obligations.BasicDescriptorsComplete := by
  refine fun s c d => ⟨fun h hop => ?_, fun hmay hc hserves hop => ?_, fun h hop hlen hpass => ?_, fun h hop hlock => ?_, fun h hop hlock => ?_,
    fun h hop hint hsrc => ?_⟩
  · exact does_of_start rfl hop h rfl
  · refine does_of_ran rfl ?_
    rw [State.startRow, hmay, ← hc, decide_eq_true hop]
    simp [State.startWith, hserves, descFail_of_reserved hop]
  · exact does_of_start rfl hop h (startSetup_of_pass hlen hpass)
  · exact does_of_start rfl hop h (by simp [startSetupLock, hlock])
  · exact does_of_start rfl hop h (by simp [startSetupLock, hlock])
  · exact does_of_start rfl hop h (if_neg (by omega))

/-- Settles O14, by the subcommand. -/
theorem powerDescriptorsAct : Obligations.PowerDescriptorsAct := by
  intro s c d h hop
  refine ⟨fun hsub hmask hmode hlp => ?_, fun hsub hmask hmode => ?_, fun hsub hmode hlp => ?_, fun hsub hmode hlp => ?_, fun hsub hlp => ?_,
    fun hsub hpdk hok => ?_, fun x hsub hx hup => ?_, fun x hsub hx => ?_⟩
  · refine does_of_start rfl ⟨hop, hsub⟩ h ?_
    simp only [startNapEnter, State.maskBad_eq_false hmask, hmode, hlp, ne_eq, not_true_eq_false, or_false, Bool.false_eq_true, if_false]
  · have hdoes : Does (.napExit d) s (startNapExit d c) := does_of_startRow rfl (decide_eq_true ⟨hop, hsub⟩) h
    simp only [startNapExit, State.maskBad_eq_false hmask, hmode, ne_eq, not_true_eq_false, Bool.false_eq_true, if_false] at hdoes
    refine ⟨fun hwake hlp => ?_, fun hwake hlp => ?_, fun hlp => ?_⟩
    · rwa [if_pos ⟨hwake, hlp⟩] at hdoes
    · rwa [if_neg (fun e => hwake e.1), if_pos (show ((c.wakePdks _).dFlag _ _).lp = .none from hlp)] at hdoes
    · rwa [if_neg (fun e => hlp e.2), if_neg (show ¬((c.wakePdks _).dFlag _ _).lp = .none from hlp)] at hdoes
  · refine does_of_start rfl ⟨hop, hsub⟩ h ?_
    simp only [startQuiesce, hmode, hlp, ne_eq, not_true_eq_false, or_false, if_false, State.stopPasses_mode]
  · refine does_of_start rfl ⟨hop, hsub⟩ h ?_
    simp only [startDeep, hmode, hlp, ne_eq, not_true_eq_false, or_false, if_false]
  · exact does_of_start rfl ⟨hop, hsub⟩ h (if_neg (not_not.mpr hlp))
  · refine does_of_start rfl ⟨hop, hsub⟩ h ?_
    simp only [startPaddockReset, Nat.not_le.mpr hpdk, hok, Bool.not_true, Bool.false_eq_true, if_false]
  · refine does_of_start rfl ⟨hop, hsub⟩ h ?_
    cases x <;> simp [startShepherdReset, hx, Shep.num, hup]
  · refine does_of_start rfl ⟨hop, hsub⟩ h ?_
    cases x <;> simp [startSoftReset, hx, Shep.num]

/-- Settles O15: no check of a list fails where its records pass. -/
theorem channelListsStart : Obligations.ChannelListsStart := by
  refine ⟨fun s c d h => ⟨fun hop hlist => ?_, fun hop haction hlist => ?_, fun hop haction hlist => ?_, fun hop hlist => ?_⟩,
    fun s c d h => ⟨fun hop hlist => ?_, fun hop hlist hroom => ?_, fun hop hlist => ?_, fun hop hlist => ?_, fun hop hlist => ?_, fun hop hlist => ?_⟩⟩
  · exact does_of_start rfl hop h (State.startList_pass (listFail_eq_none hlist))
  · exact does_of_start rfl ⟨hop, haction⟩ h (State.startList_pass (or_ite_eq_none (listFail_eq_none hlist) (by omega)))
  · exact does_of_start rfl ⟨hop, haction⟩ h (State.startList_pass (or_ite_eq_none (listFail_eq_none hlist) (by omega)))
  · exact does_of_start rfl hop h (State.startList_pass (listFail_eq_none hlist))
  · exact does_of_start rfl hop h (State.startList_pass (listFail_eq_none hlist))
  · exact does_of_start rfl hop h (State.startList_pass (or_ite_eq_none (listFail_eq_none hlist) hroom))
  · exact does_of_start rfl hop h (State.startList_pass (listFail_eq_none hlist))
  · exact does_of_start rfl hop h (State.startList_pass (listFail_eq_none hlist))
  · exact does_of_start rfl hop h (State.startList_pass (listFail_eq_none hlist))
  · exact does_of_start rfl hop h (State.startList_pass (listFail_eq_none hlist))

/-- Settles O16. -/
theorem compensationDescriptorsStart : Obligations.CompensationDescriptorsStart := by
  refine fun s c d h => ⟨fun hop hlist => ?_, fun rs hop hlen hrecs hpass => ?_, fun hop hlist hmu hupd hen => ?_, fun hop hen => ?_, fun hop hfits => ?_,
    fun hop hheld hwhole => ?_⟩
  · exact does_of_start rfl hop h (State.startList_pass (listFail_eq_none hlist))
  · have hchan : rs.any (fun e => decide (c.part.chans ≤ e.1)) = false := List.any_eq_false.mpr fun e he => by simpa using (hpass e he).1
    have hcount : rs.any (fun e => decide (512 < e.2.1)) = false := List.any_eq_false.mpr fun e he => by simpa using (hpass e he).2
    have hfail : startSetXtalk d c = c.startList d .setXtalk none (c.xtalkPairs rs) := by simp [startSetXtalk, hrecs, hlen, hchan, hcount]
    exact does_of_start rfl hop h hfail
  · exact does_of_start rfl hop h (State.startList_pass (or_ite_eq_none (listFail_eq_none hlist) (by omega)))
  · exact does_of_start rfl hop h (if_neg (by omega))
  · exact does_of_start rfl hop h (if_neg (by simp only [ne_eq, not_and, not_not]; exact fun hnone => hfits.resolve_right (not_not.mpr hnone)))
  · refine does_of_start rfl hop h ?_
    simp only [startFitLogFree, Nat.not_lt.mpr hheld, hwhole, ne_eq, not_true_eq_false, if_false]

end Sys2Proof
end

/-! ### Maps and plans -/

section
open Sys2Proof Sys2Proof.Machine Claims

namespace Sys2Proof.Machine

theorem mem_insN {x y : Nat} {l : List Nat} : x ∈ insN y l ↔ x = y ∨ x ∈ l := by
  induction l with
  | nil => simp [insN]
  | cons z l ih =>
    rw [insN]
    split
    · simp
    · simp only [List.mem_cons, ih, or_left_comm]

theorem mem_sortN {x : Nat} {l : List Nat} : x ∈ sortN l ↔ x ∈ l := by
  induction l with
  | nil => rfl
  | cons y l ih => rw [sortN, mem_insN, ih, List.mem_cons]

/-! The drover's queue (R218). -/

theorem droverN_of_busy {s : State} (h : s.drover ≠ none) (n : Nat) : droverN n s = s := by
  cases n with
  | zero => rfl
  | succ n => exact if_pos (.inl h)

theorem droverN_of_no_job {s : State} (h : s.job? .planRoute = none) (n : Nat) : droverN n s = s := by
  cases n with
  | zero => rfl
  | succ n =>
    rw [droverN, h]
    exact ite_self _

/-- The descriptor's command is the only one in the drover's queue. -/
def OnlyPlan (s : State) (d : Desc) : Prop := ∀ j ∈ s.jobs, j.kind = .planRoute → j.d = d

theorem State.planEnd_jobs (s : State) (d : Desc) (code : Nat) (result : List Byte) :
    (s.planEnd d code result).jobs = s.jobs.filter fun j => decide (j.d ≠ d ∨ j.kind ≠ .planRoute) := by
  have hboth : (both (fun x s => s.pPut x DRO_ROUTE_STATUS fDRO_ROUTE_STATUS_LAST_CODE code) s).jobs = s.jobs :=
    State.jobs_of_quiet (both_quiet _ _ fun _ _ => State.pPut_quiet ..)
  rw [State.planEnd, State.jobs_of_quiet (State.complete_quiet ..)]
  exact congrArg (List.filter _) hboth

/-- Behind the only plan command the drover's queue is empty. -/
theorem State.planEnd_no_job {s : State} {d : Desc} (h : OnlyPlan s d) (code : Nat) (result : List Byte) : (s.planEnd d code result).job? .planRoute = none := by
  rw [State.job?, State.planEnd_jobs, List.find?_eq_none]
  intro j hj hkind
  rw [List.mem_filter, decide_eq_true_eq] at hj
  rw [decide_eq_true_eq] at hkind
  exact hj.2.elim (absurd (h j hj.1 hkind)) (absurd hkind)

theorem OnlyPlan.of_jobs {s t : State} {d : Desc} (h : OnlyPlan s d) (hjobs : t.jobs = s.jobs) : OnlyPlan t d := by
  unfold OnlyPlan
  rwa [hjobs]

/-- The state of an idle drover in which a plan command has joined the queue. -/
def State.joined (s : State) (d : Desc) : State := s.addJob ⟨d, .planRoute, 0, 0, []⟩

section Idle
variable {c : State} {d : Desc} (hidle : DroverIdle c)
include hidle

theorem onlyPlan_joined : OnlyPlan (c.joined d) d := by
  intro j hj hkind
  rcases List.mem_append.mp hj with hj | hj
  · exact absurd hkind (hidle.2.2 j hj)
  · rw [List.mem_singleton.mp hj]

theorem job?_joined : (c.joined d).job? .planRoute = some ⟨d, .planRoute, 0, 0, []⟩ := by
  have hnone : c.jobs.find? (fun j => decide (j.kind = .planRoute)) = none := List.find?_eq_none.mpr fun j hj => by simpa using hidle.2.2 j hj
  show (c.jobs ++ [_]).find? _ = _
  rw [List.find?_append, hnone]
  rfl

theorem busyWith_joined : (c.joined d).busyWith .mapLoad = false := by
  have hmap : c.jobs.any (fun j => decide (j.kind = .mapLoad)) = false := hidle.2.1
  show (c.jobs ++ [_]).any _ = false
  rw [List.any_append, hmap]
  rfl

/-- A plan command that finds the drover idle begins at once. -/
theorem startPlan_idle (hroom : d.op = 0x30 → c.part.recBytes ≤ d.len) :
    startPlan d c = droverN c.jobs.length (if 0x28 ≤ d.op ∧ d.op ≤ 0x2A then (c.joined d).beginRequest d else (c.joined d).beginOther d) := by
  have hfree : ¬((c.joined d).drover ≠ none ∨ (c.joined d).busyWith .mapLoad = true) := by
    rw [busyWith_joined hidle]
    simpa [State.joined, State.addJob] using hidle.1
  have hlen : (c.joined d).jobs.length = c.jobs.length + 1 := List.length_append
  rw [startPlan, if_neg (fun e => absurd (hroom e.1) (Nat.not_le.mpr e.2))]
  show droverN (c.joined d).jobs.length (c.joined d) = _
  rw [hlen, droverN, if_neg hfree, job?_joined hidle]

theorem startPlan_build (hroom : d.op = 0x30 → c.part.recBytes ≤ d.len) {t : State}
    (ht : (if 0x28 ≤ d.op ∧ d.op ≤ 0x2A then (c.joined d).beginRequest d else (c.joined d).beginOther d) = t) (hbusy : t.drover ≠ none) : startPlan d c = t := by
  rw [startPlan_idle hidle hroom, ht, droverN_of_busy hbusy]

theorem startPlan_end (hroom : d.op = 0x30 → c.part.recBytes ≤ d.len) (hop : 0x2A < d.op) {u : State} {code : Nat} {result : List Byte}
    (ht : (c.joined d).beginOther d = u.planEnd d code result) (hjobs : u.jobs = (c.joined d).jobs) : startPlan d c = u.planEnd d code result := by
  rw [startPlan_idle hidle hroom, if_neg (fun e => absurd e.2 (Nat.not_le.mpr hop)), ht,
    droverN_of_no_job (State.planEnd_no_job ((onlyPlan_joined hidle).of_jobs hjobs) ..)]

end Idle

theorem State.putRecord_jobs (s : State) (slot : Nat) (id : Option Nat) (p : Plan) : (s.putRecord slot id p).jobs = s.jobs := by
  cases id <;> simp [State.putRecord, State.foldRecord, both, State.libPut]

theorem State.writeOut_jobs (s : State) (addr : Nat) (bytes : List Byte) : (s.writeOut addr bytes).jobs = s.jobs :=
  State.jobs_of_quiet (State.writeOut_quiet ..)

/-- A request that passes goes to the routing: its slot reads BUILDING where it is not a dry run (R190, R198). -/
theorem State.beginRequest_route {s : State} {d : Desc} {dr : DomRec} (hcode : planCode s d.op d.pay = 0) (hdom : s.dom? (planReq d.pay).dom = some dr) (hop : d.op ≠ 0x2A) :
    ∃ w, s.beginRequest d = { (if (planReq d.pay).dryRun then s else s.reserve (planReq d.pay).slot) with drover := some w } ∧ w.phase = 1 ∧ w.d = d ∧
      w.slot = (planReq d.pay).slot ∧
      w.plan.perm = (if d.op = 0x28 then numsAt (planReq d.pay).body 0 2 dr.ports else []) ∧
      w.plan.cells = (if d.op = 0x29 then (List.range dr.cells).filter fun k => decide (cellAt (planReq d.pay).body k = 1) else []) ∧
      (w.refCells, w.refPerm) = (if (planReq d.pay).dryRun then s else s.reserve (planReq d.pay).slot).refPlan (planReq d.pay) dr.ports := by
  simp only [State.beginRequest, hcode, hdom, hop, ne_eq, not_true_eq_false, if_false]
  exact ⟨_, rfl, rfl, rfl, rfl, rfl, rfl, rfl⟩

/-- A plan-direct request that passes goes to its build (R206). -/
theorem State.beginRequest_direct {s : State} {d : Desc} {dr : DomRec} (hcode : planCode s d.op d.pay = 0) (hdom : s.dom? (planReq d.pay).dom = some dr) (hop : d.op = 0x2A)
    (hdry : (planReq d.pay).dryRun = false) (hfull : (planReq d.pay).store = true → s.libFull (planReq d.pay).planId = false) :
    ∃ w, s.beginRequest d = { s.reserve (planReq d.pay).slot with drover := some w } ∧ w.phase = 2 ∧ w.d = d ∧ w.slot = (planReq d.pay).slot ∧
      w.plan.targets = (planReq d.pay).targets 0x2A dr ∧ ∀ e ∈ w.plan.image, e.ch ∈ s.domChans (planReq d.pay).dom := by
  have hroom : ¬((planReq d.pay).store = true ∧ s.libFull (planReq d.pay).planId = true) := fun h => by simp [hfull h.1] at h
  simp only [State.beginRequest, hop ▸ hcode, hdom, hop, hdry, hroom, ne_eq, not_true_eq_false, if_false, if_true, Bool.false_eq_true]
  refine ⟨_, rfl, rfl, rfl, rfl, rfl, fun e he => ?_⟩
  obtain ⟨ch, hch, rfl⟩ := List.mem_map.mp he
  exact mem_sortN.mp hch

end Sys2Proof.Machine

namespace Sys2Proof

/-- Settles O18. -/
theorem mapCommandsRun : Obligations.MapCommandsRun := by
  refine fun s => ⟨fun j m hjob hphase hmode hvalid => ?_, fun j k i hjob hphase hmode hvalid => ?_, fun j m hjob hphase hedge hdue hidle hmode hvalid => ?_⟩
  · refine does_of_ran rfl ?_
    simp only [doMapValidationDone, hjob, hphase, hmode, hvalid, ne_eq, not_true_eq_false, Bool.not_true, Bool.false_eq_true, if_false]
  · refine does_of_ran rfl ?_
    simp only [doMapValidationDone, hjob, hphase, hmode, hvalid, ne_eq, not_true_eq_false, Bool.not_true, Bool.false_eq_true, if_false]
  · refine does_of_ran rfl ?_
    simp only [doMapTakesEffect, hjob, hphase, hedge, hdue, hidle, hmode, hvalid, and_self, Bool.not_true, Bool.false_eq_true, if_true, if_false]

/-- Settles O19: requests through the routing or the build, the other commands through their end or their build. -/
theorem plansBeginAndAct : Obligations.PlansBeginAndAct := by
  refine ⟨fun s c d dr h hidle hcode hdom => ?_, fun s c d h hidle hmode => ?_⟩
  · have hdry (u : State) (w : Drover) (hu : u = { (if (planReq d.pay).dryRun then c.joined d else (c.joined d).reserve (planReq d.pay).slot) with drover := some w }) :
        u.drover = some w ∧ u.slots = (if (planReq d.pay).dryRun then c.slots else (c.reserve (planReq d.pay).slot).slots) ∧
          u.jobs = c.jobs ++ [⟨d, .planRoute, 0, 0, []⟩] := by
      subst hu
      split <;> exact ⟨rfl, rfl, rfl⟩
    have href : (if (planReq d.pay).dryRun then c.joined d else (c.joined d).reserve (planReq d.pay).slot).refPlan (planReq d.pay) dr.ports =
        (if (planReq d.pay).dryRun then c else c.reserve (planReq d.pay).slot).refPlan (planReq d.pay) dr.ports := by
      split <;> rfl
    refine ⟨fun hop => ?_, fun hop => ?_, fun hop hlive hfull => ?_⟩
    · obtain ⟨w, hbegin, hphase, hd, hslot, hperm, -, hrefs⟩ := State.beginRequest_route (s := c.joined d) hcode hdom (by omega)
      obtain ⟨hdrover, hslots, hjobs⟩ := hdry _ w hbegin
      have hstart := startPlan_build (d := d) hidle (by omega) ((if_pos (by omega)).trans rfl) (by rw [hdrover]; exact Option.some_ne_none w)
      exact ⟨_, does_of_start rfl hop h hstart, w, hdrover, hphase, hd, hslot, hperm.trans (if_pos hop), hrefs.trans href, hslots, hjobs⟩
    · obtain ⟨w, hbegin, hphase, hd, hslot, -, hcells, -⟩ := State.beginRequest_route (s := c.joined d) hcode hdom (by omega)
      obtain ⟨hdrover, hslots, hjobs⟩ := hdry _ w hbegin
      have hstart := startPlan_build (d := d) hidle (by omega) ((if_pos (by omega)).trans rfl) (by rw [hdrover]; exact Option.some_ne_none w)
      exact ⟨_, does_of_start rfl hop h hstart, w, hdrover, hphase, hd, hslot, hcells.trans (if_pos hop), hslots, hjobs⟩
    · obtain ⟨w, hbegin, hphase, hd, hslot, htargets, himage⟩ := State.beginRequest_direct (s := c.joined d) hcode hdom hop hlive hfull
      obtain ⟨hdrover, hslots, hjobs⟩ := hdry _ w (hbegin.trans (by rw [hlive]; rfl))
      have hstart := startPlan_build (d := d) hidle (by omega) ((if_pos (by omega)).trans rfl) (by rw [hdrover]; exact Option.some_ne_none w)
      exact ⟨_, does_of_start rfl hop h hstart, w, hdrover, hphase, hd, hslot, htargets, himage, hslots, hjobs⟩
  · have hroute : (c.joined d).routeModeOk d.op = true := hmode
    refine ⟨fun hop hbusy => ?_, fun p hop hplan hstate hrefresh => ?_, fun p hop hplan hstate hfull => ?_, fun p dr hop hread hdom hbusy hid himage => ?_,
      fun p hop hlen hrsv5 hrsv20 hperm htargets hp hdom hfull hid => ?_, fun p hop hlen hread => ?_, fun hop hget => ?_⟩
    · have hbegin : (c.joined d).beginOther d = ((c.joined d).setSlot (d.in1 32) {}).planEnd d 0 [] := by
        have hbusy : (c.joined d).slotBusy (d.in1 32) = false := hbusy
        simp [State.beginOther, hop ▸ hroute, hop, hbusy]
      exact does_of_start rfl hop h (startPlan_end (d := d) hidle (by omega) (by omega) hbegin rfl)
    · have hbegin : (c.joined d).beginOther d = ((c.joined d).modSlot (d.in1 32) fun k => { k with refresh := true }).beginBuild d (d.in1 32) p [] [] := by
        have hplan : ((c.joined d).slot (d.in1 32)).plan = some p := hplan
        have hstate : ¬((c.joined d).slot (d.in1 32)).state < 2 := Nat.not_lt.mpr hstate
        have hrefresh : ((c.joined d).slot (d.in1 32)).refresh = false := hrefresh
        simp [State.beginOther, hop ▸ hroute, hop, hplan, hstate, hrefresh]
      exact does_of_start rfl hop h (startPlan_build (d := d) hidle (by omega) ((if_neg (by omega)).trans hbegin) (Option.some_ne_none _))
    · have hbegin : (c.joined d).beginOther d = ((c.joined d).putRecord (d.in1 32) (some (d.in4 36)) { p with planId := d.in4 36 }).planEnd d 0 [] := by
        have hplan : ((c.joined d).slot (d.in1 32)).plan = some p := hplan
        have hstate : ¬((c.joined d).slot (d.in1 32)).state < 2 := Nat.not_lt.mpr hstate
        have hfull : (c.joined d).libFull (d.in4 36) = false := hfull
        simp [State.beginOther, hop ▸ hroute, hop, hplan, hstate, hfull]
      exact does_of_start rfl hop h (startPlan_end (d := d) hidle (by omega) (by omega) hbegin (State.putRecord_jobs ..))
    · have hbegin : (c.joined d).beginOther d = ((c.joined d).reserve (d.in1 32)).foldRecord.beginBuild d (d.in1 32) p [] [] := by
        have hread : (c.joined d).libRead (d.in4 36) = some p := hread
        have hdom : (c.joined d).dom? p.dom = some dr := hdom
        have hbusy : (c.joined d).slotBusy (d.in1 32) = false := hbusy
        have hid : p.mapId = ((c.joined d).map.map fun m => m.id).getD 0 := hid
        have himage : p.image.map (fun e => e.ch) = sortN ((c.joined d).domChans dr.dom) := himage
        simp [State.beginOther, hop ▸ hroute, hop, hread, hdom, hbusy, hid, himage]
      exact does_of_start rfl hop h (startPlan_build (d := d) hidle (by omega) ((if_neg (by omega)).trans hbegin) (Option.some_ne_none _))
    · have hbegin : (c.joined d).beginOther d = ((c.joined d).putRecord 0 (some p.planId) p).planEnd d 0 [] := by
        have hp : planOf (sortN ((c.joined d).domChans (leAt d.pay 4 1))) d.pay = p := hp.symm
        have hlen : d.len = (c.joined d).part.recBytes := hlen
        have hfull : (c.joined d).libFull p.planId = false := hfull
        have hid : p.mapId = ((c.joined d).map.map fun m => m.id).getD 0 := hid
        obtain ⟨dr, hdr⟩ := Option.ne_none_iff_exists'.mp (show (c.joined d).dom? p.dom ≠ none from hdom)
        simp [State.beginOther, hop ▸ hroute, hop, hp, ← hlen, hrsv5, hrsv20, Nat.not_lt.mpr hperm, Nat.not_lt.mpr htargets, hdr, hfull, ← hid]
      exact does_of_start rfl hop h (startPlan_end (d := d) hidle (by omega) (by omega) hbegin (State.putRecord_jobs ..))
    · have hbegin : (c.joined d).beginOther d =
          ((c.joined d).writeOut d.outAddr (planBytes c.part p)).planEnd d 0 (leBytes 4 c.part.recBytes ++ leBytes 4 1) := by
        have hread : (c.joined d).libRead (d.in4 36) = some p := hread
        rw [show c.part = (c.joined d).part from rfl]
        simp [State.beginOther, hop ▸ hroute, hop, hread]
      exact does_of_start rfl hop h (startPlan_end hidle (fun _ => hlen) (by omega) hbegin (State.writeOut_jobs ..))
    · have hbegin : (c.joined d).beginOther d = ((c.joined d).libPut (d.in4 36) none).planEnd d 0 [] := by
        have hget : (c.joined d).libGet (d.in4 36) ≠ none := hget
        simp [State.beginOther, hop ▸ hroute, hop, hget]
      exact does_of_start rfl hop h (startPlan_end (d := d) hidle (by omega) (by omega) hbegin rfl)

end Sys2Proof
end

/-! ### Turnouts, rotations and the sequencer -/

section
open Sys2Proof Sys2Proof.Machine Claims

namespace Sys2Proof.Machine

/-! The checks that come before the instants are judged (R235, R245). -/

theorem EntriesPass.any_bad {s : State} {dom : Nat} {es : List TurnEnt} (h : EntriesPass s dom es) :
    es.any (fun e => !e.ok) = false ∧ es.any (fun e => decide (e.dom ≠ dom)) = false ∧ es.any (fun e => !s.slotReady e.slot dom) = false := by
  obtain ⟨-, -, -, hents⟩ := h
  refine ⟨?_, ?_, ?_⟩ <;> refine List.any_eq_false.mpr fun e he => ?_
  · simp [(hents e he).1]
  · simp [(hents e he).2.1]
  · simp [(hents e he).2.2]

section Turnouts
variable {s : State} {d : Desc} {dom : Nat} {es : List TurnEnt} {cs : List Commit} (hpass : EntriesPass s dom es) (hrise : rising (cs.map fun k => k.instant) = true)
include hpass hrise

/-- An ADD whose instants stand schedules its entries beside those that wait (R235, R237). -/
theorem evalTurnouts_add (hassign : assignInstants s dom es [] = (cs, false))
    (hspace : crowded (((s.domCommits dom).filter fun k => decide (k.src = 0)).map fun k => k.instant) (cs.map fun k => k.instant) = false)
    (hroom : s.poolUsed + cs.length ≤ 4096) : evalTurnouts d dom none es true s = scheduled s d cs [] := by
  obtain ⟨hok, hdoms, hready⟩ := EntriesPass.any_bad hpass
  obtain ⟨hmode, hdom, hrot, -⟩ := hpass
  simp only [evalTurnouts, hmode, hok, hdom, hdoms, hready, hrot, hassign, hrise, hspace, Option.map_none, List.not_mem_nil, not_false_eq_true, and_true, decide_true, List.filter_true,
    Nat.not_lt.mpr hroom, Bool.not_true, Bool.or_self, Bool.false_eq_true, or_self, ne_eq, not_true_eq_false, if_false]
  rfl

/-- A REPLACE schedules its entries in place of those that its takeover displaces (R235, R237). -/
theorem evalTurnouts_replace {k t : Nat} {removed : List Commit} (ht : t = if s.future k = true then k else s.now)
    (hremoved : removed = (s.domCommits dom).filter fun c => decide (c.src = 0 ∧ (c.instant + 2 ^ 32 - t) % 2 ^ 32 < 2 ^ 31) && !s.frozen c)
    (hassign : assignInstants { s with commits := s.commits.filter fun c => decide (c ∉ removed) } dom es [] = (cs, false))
    (hafter : ∀ c ∈ cs, (c.instant + 2 ^ 32 - t) % 2 ^ 32 < 2 ^ 31)
    (hspace : crowded (((s.domCommits dom).filter fun c => decide (c.src = 0 ∧ c ∉ removed)).map fun k => k.instant) (cs.map fun k => k.instant) = false)
    (hroom : State.poolUsed { s with commits := s.commits.filter fun c => decide (c ∉ removed) } + cs.length ≤ 4096) :
    evalTurnouts d dom (some k) es true s = scheduled s d cs removed := by
  obtain ⟨hok, hdoms, hready⟩ := EntriesPass.any_bad hpass
  obtain ⟨hmode, hdom, hrot, -⟩ := hpass
  have hbefore : (cs.map fun c => c.instant).any (fun i => decide (2 ^ 31 ≤ (i + 2 ^ 32 - t) % 2 ^ 32)) = false := by
    refine List.any_eq_false.mpr fun i hi => ?_
    obtain ⟨c, hc, rfl⟩ := List.mem_map.mp hi
    simpa using hafter c hc
  simp only [evalTurnouts, hmode, hok, hdom, hdoms, hready, hrot, Option.map_some, ← ht, ← hremoved, hassign, hrise, hbefore, hspace,
    Nat.not_lt.mpr hroom, Bool.not_true, Bool.or_self, Bool.false_eq_true, or_self, ne_eq, not_true_eq_false, if_false]
  rfl

end Turnouts

theorem startTurnoutList_of_length {s : State} {d : Desc} {n mode : Nat} (hmode : d.payByte 1 = mode) (hn : leAt d.pay 2 2 = n) (hle : mode ≤ 1)
    (hcount : n ≠ 0 ∨ mode = 1) (hmax : n ≤ 4096) (hrsv : leAt d.pay 8 8 = 0) (hlen : d.pay.length = 16 + 16 * n) :
    startTurnoutList d s = evalTurnouts d (leAt d.pay 0 1) (if mode = 1 then some (leAt d.pay 4 4) else none)
      ((List.range n).map fun i => turnEnt (d.pay.drop (16 + 16 * i))) true s := by
  have hfmt : 16 ≤ d.pay.length ∧ mode ≤ 1 ∧ n ≤ 4096 ∧ (n ≠ 0 ∨ mode = 1) ∧ leAt d.pay 8 8 = 0 ∧ d.pay.length = 16 + 16 * n :=
    ⟨by omega, hle, hmax, hcount, hrsv, hlen⟩
  have hmode : leAt d.pay 1 1 = mode := hmode
  simp only [startTurnoutList, hmode, hn, decide_eq_true hfmt, if_true]

/-- A rotation list that starts where none runs (R242). -/
theorem loadRotation_first {d : Desc} {dom base cycle takeover : Nat} {ents : List (Nat × Nat)} {s : State} (hrot : s.rotOf dom = none) (hents : ents ≠ []) :
    loadRotation d dom base cycle takeover ents s =
      (let first := firstBoundary base cycle (2 * s.now + 5 * s.leadEdges) (s.future base)
       ((s.setRot dom (some ⟨⟨first, cycle, ents⟩, s.unwrapped + (s.ahead first : Int), 0, none, 0⟩)).rotNext dom).complete d 3 0 (rotResult first true)) := by
  simp only [loadRotation, hrot, hents, if_false]

theorem loadRotation_stop {d : Desc} {dom base cycle takeover : Nat} {s : State} (hrot : s.rotOf dom = none) :
    loadRotation d dom base cycle takeover [] s = s.complete d 3 0 (rotResult 0 false) := by
  simp only [loadRotation, hrot, if_true]

theorem serving_of_mode {m : Mode} (h : m = .service ∨ m = .maintenance) : ¬(m ≠ .service ∧ m ≠ .maintenance) := fun hn => h.elim hn.1 hn.2

/-! What the control links carry is no part of the schedule. -/

/-- The state without the control links and their numbers. -/
def State.unlinked (s : State) : State := { s with links := [], ctlSeq := [] }

theorem foldl_unlinked {α : Type} {f : State → α → State} (h : ∀ s a, (f s a).unlinked = s.unlinked) (l : List α) (s : State) :
    (l.foldl f s).unlinked = s.unlinked := by
  induction l generalizing s with
  | nil => rfl
  | cons a l ih => exact (ih _).trans (h s a)

theorem State.sendCtl_unlinked (s : State) (p : Nat) (f : CtlFrame) : (s.sendCtl p f).unlinked = s.unlinked := by
  unfold State.sendCtl both
  dsimp only
  split <;> split <;> rfl

theorem State.edge_of_unlinked {s t : State} (h : t.unlinked = s.unlinked) : t.edge = s.edge := by have e := congrArg State.edge h; exact e
theorem State.stageSeq_of_unlinked {s t : State} (h : t.unlinked = s.unlinked) : t.stageSeq = s.stageSeq := by have e := congrArg State.stageSeq h; exact e
theorem State.stagings_of_unlinked {s t : State} (h : t.unlinked = s.unlinked) : t.stagings = s.stagings := by have e := congrArg State.stagings h; exact e
theorem State.commits_of_unlinked {s t : State} (h : t.unlinked = s.unlinked) : t.commits = s.commits := by have e := congrArg State.commits h; exact e

/-- The schedule after the staging of a commit has started at an edge (R230). -/
def State.staged (s : State) (e : Nat) (c : Commit) : State :=
  let s := s.toEdge e
  { s with
    stageSeq := (s.stageSeq + 1) % 2 ^ 32
    slots := s.slots.map fun k => if k.2.plan.map (fun q => q.dom) = some c.dom then (k.1, { k.2 with staged := false }) else k
    stagings := s.stagings ++ [⟨s.stageSeq, c.dom, c.slot, (s.stagingLinks c.dom).map fun l => (l.1, s.edge + l.2)⟩]
    commits := s.commits.map fun k => if k = c then { k with stage := 1, seq := s.stageSeq } else k }

theorem doStagingStart_unlinked {s : State} {e : Nat} {c : Commit} {p : Plan} (hpick : pickStage s s.eligible = some (e, c)) (hplan : (s.slot c.slot).plan = some p) :
    (doStagingStart s).unlinked = (s.staged e c).unlinked := by
  simp only [doStagingStart, hpick, hplan]
  exact foldl_unlinked (fun s _ => foldl_unlinked (fun s _ => s.sendCtl_unlinked _ _) _ s) _ (s.staged e c)

/-- A staging completes: its commit is armed and its frames are sent (R228, R231). -/
theorem doStagingComplete_arms {s : State} {d : Nat} {r : Staging} {c : Commit} (hstaging : (s.stagings.find? fun t => decide (t.dom = d)) = some r)
    (hready : s.slotReady r.slot d = true) (hcommit : (s.commits.find? fun c => decide (c.seq = r.seq ∧ c.stage = 1)) = some c) :
    doStagingComplete d s =
      (let n := State.modSlot { s with stagings := s.stagings.erase r } r.slot fun k => { k with staged := true }
       let c' := if c.src = 2 ∧ c.fire < s.edge + edges100ns then { c with stage := 2, fire := s.edge + edges100ns, late := true, fixed := true } else { c with stage := 2 }
       (State.sendCommit { n with commits := sortCommits (n.commits.map fun k => if k = c then c' else k) } .commit c').refire d) := by
  have hready : State.slotReady { s with stagings := s.stagings.erase r } r.slot d = true := hready
  have hcommit : (State.modSlot { s with stagings := s.stagings.erase r } r.slot fun k => { k with staged := true }).commits.find?
      (fun c => decide (c.seq = r.seq ∧ c.stage = 1)) = some c := hcommit
  simp only [doStagingComplete, hstaging, hready, if_true, hcommit]
  rfl

/-- What the seeding at the boundary behind a commit does for one entry of the plan (R146, R191). -/
def State.seedEntry (s : State) (d : Nat) (p : Plan) (fire : Nat) (u : State) (e : ImgEntry) : State :=
  if u.loopState u.lead e.ch = 0 ∨ pdkOf e.ch ∈ (s.domSeqOf d).split then u
  else
    let u := both (fun x s => s.setDir x e.ch (e.falling, e.tp)) u
    match u.targetOf p e.ch with
    | some t => u.commitLoop e.ch e.ff (spAction t.action) t.sp fire
    | none => u.commitLoop e.ch e.ff .keep 0 fire

/-- The rotation of a domain with a pending list at its boundary (R243). -/
theorem doRotationTakeover_due {s : State} {d : Nat} {r : Rot} {q : RotList} (hrot : s.rotOf d = some r) (hpend : r.pend = some q) {off : Nat}
    (hoff : off = if q.ents = [] then r.takeOff else r.pendOff q)
    (hdue : (off : Int) ≤ s.unwrapped - r.org ∨ s.edgeOf (r.instantAt off) < (s.tick + 1) * 400) :
    doRotationTakeover d s = if q.ents = [] then (s.toEdge (s.edgeOf (r.instantAt off))).setRot d none
      else (s.toEdge (s.edgeOf (r.instantAt off))).setRot d (some { run := q, org := r.org + off, off := r.off - off, pend := none, takeOff := 0 }) := by
  have hnow : ¬(s.unwrapped - r.org < off ∧ (s.tick + 1) * 400 ≤ s.edgeOf (r.instantAt off)) := by omega
  simp only [doRotationTakeover, hrot, hpend, ← hoff, hnow, if_false]

end Sys2Proof.Machine

namespace Sys2Proof

/-- Settles O20, command by command. -/
theorem scheduleDescriptorsAct : Obligations.ScheduleDescriptorsAct := by
  refine ⟨fun s c d h => ⟨fun cs hop hpass hassign hrise hspace hroom => ?_, fun cs n hop hmode hn hpos hmax hrsv hlen hpass hassign hrise hspace hroom => ?_,
    fun cs n hop hmode hn hmax hrsv hlen hpass hassign hrise hafter hspace hroom => ?_⟩,
    fun s c d h hserve => ⟨fun hop hall hdom => ?_, fun n dr hop hn hpos hmax hlen hrsv1 hrsv16 hrsv24 hents hmode hdom hbell hsrc hready hdur hcycle hlong => ?_,
      fun dr hop hdom hbell => ?_⟩⟩
  · exact does_of_start rfl hop h (evalTurnouts_add hpass hrise hassign hspace hroom)
  · exact does_of_start rfl ⟨hop, hmode⟩ h
      ((startTurnoutList_of_length hmode hn (by omega) (.inl (by omega)) hmax hrsv hlen).trans (evalTurnouts_add hpass hrise hassign hspace hroom))
  · exact does_of_start rfl ⟨hop, hmode⟩ h
      ((startTurnoutList_of_length hmode hn le_rfl (.inr rfl) hmax hrsv hlen).trans (evalTurnouts_replace hpass hrise rfl rfl hassign hafter hspace hroom))
  · refine does_of_start rfl hop h ?_
    simp only [startTurnoutCancel, serving_of_mode hserve, Nat.not_lt.mpr hall, hdom, if_false]
  · refine ⟨does_of_start rfl hop h ?_, fun hrot => loadRotation_first hrot fun hnil => ?_⟩
    · have hfmt : (32 ≤ d.pay.length ∧ leAt d.pay 1 1 = 0 ∧ n ≤ 1024 ∧ leAt d.pay 16 8 = 0 ∧ leAt d.pay 24 8 = 0 ∧ d.pay.length = 32 + 8 * n) :=
        ⟨by omega, hrsv1, hmax, hrsv16, hrsv24, hlen⟩
      have hzero : (List.range n).all (fun i => decide (leAt d.pay (32 + 8 * i + 1) 3 = 0)) = true :=
        List.all_eq_true.mpr fun i hi => decide_eq_true (hents i (List.mem_range.mp hi))
      have hslots : ((List.range n).map fun i => (leAt d.pay (32 + 8 * i) 1, leAt d.pay (32 + 8 * i + 4) 4)).any (fun e => !c.slotReady e.1 (leAt d.pay 0 1)) = false :=
        List.any_eq_false.mpr fun e he => by simp [hready e he]
      have hlist : (c.domCommits (leAt d.pay 0 1)).any (fun k => decide (k.src = 0)) = false := List.any_eq_false.mpr fun k hk => by simpa using hsrc k hk
      have hlong' : ((List.range n).map fun i => (leAt d.pay (32 + 8 * i) 1, leAt d.pay (32 + 8 * i + 4) 4)).any
          (fun e => decide (e.2 < 2000 ∨ 2 * e.2 < 5 * c.leadEdges)) = false :=
        List.any_eq_false.mpr fun e he => by simpa using hdur e he
      have hsum : ¬(n ≠ 0 ∧ (leAt d.pay 8 4 ≠ (((List.range n).map fun i => (leAt d.pay (32 + 8 * i) 1, leAt d.pay (32 + 8 * i + 4) 4)).map
          fun (e : Nat × Nat) => e.2).foldl (· + ·) 0 ∨ 2 ^ 30 < leAt d.pay 8 4)) := fun e => e.2.elim (absurd hcycle) (absurd hlong ∘ Nat.not_le.mpr)
      simp only [startRotationList, hn, hmode, hdom, decide_eq_true hfmt, hzero, hslots, hbell, hlist, hlong', hsum, Bool.and_self, Bool.not_true, Bool.false_eq_true, and_false,
        or_self, if_false]
    · have hcount := congrArg List.length hnil
      simp at hcount
      omega
  · refine ⟨does_of_start rfl hop h ?_, loadRotation_stop⟩
    simp only [startRotationStop, serving_of_mode hserve, hdom, hbell, Bool.not_true, Bool.false_eq_true, if_false]

/-- Settles O21. -/
theorem stagingsRun : Obligations.StagingsRun := by
  refine fun s => ⟨fun e c p hpick hplan => ?_, fun d r c hstaging hready hcommit hintime => ?_, fun d r c hstaging hready hcommit hsrc hlate => ?_,
    fun d c hlate => ⟨fun hsrc => ?_, fun hsrc hflag => ?_, fun hsrc hflag => ?_⟩⟩
  · have hkeeps := doStagingStart_unlinked hpick hplan
    exact ⟨_, does_of_ran rfl rfl, State.edge_of_unlinked hkeeps, State.stageSeq_of_unlinked hkeeps, State.stagings_of_unlinked hkeeps, State.commits_of_unlinked hkeeps⟩
  · exact does_of_ran rfl ((doStagingComplete_arms hstaging hready hcommit).trans (by rw [if_neg (by omega)]))
  · exact does_of_ran rfl ((doStagingComplete_arms hstaging hready hcommit).trans (by rw [if_pos ⟨hsrc, hlate⟩]))
  · refine does_of_ran rfl ?_
    simp only [doLateStage, hlate, hsrc, if_true]
  · refine does_of_ran rfl ?_
    simp only [doLateStage, hlate, hsrc, hflag, if_true, if_false]
  · refine does_of_ran rfl ?_
    simp only [doLateStage, hlate, hsrc, hflag, Bool.false_eq_true, if_false]

/-- Settles O22: a paddock without the complete staging splits the commit. -/
theorem commitsFire : Obligations.CommitsFire := by
  intro s d c rest hdom hfire hskip hstage hsrc e r reported done
  have hrun (n : State) (outcome : Nat) (hn : n = if r.2 = [] then r.1.makeLive d c.slot else both (fun x s => s.pFlag x DRO_ROUTE_STATUS fDRO_ROUTE_STATUS_SPLIT_SEEN) reported)
      (ho : outcome = if r.2 ≠ [] then 8 else if e.domForced d = true ∧ (e.mode = .service ∨ e.mode = .maintenance) then 9 else if c.late then 2 else 1) :
      doCommitFire d s = done n outcome := by
    unfold doCommitFire
    rw [hdom]
    dsimp -zeta only
    rw [if_neg (Nat.not_le.mpr hfire), hskip, if_neg Bool.false_ne_true, if_neg (not_not.mpr hstage)]
    extract_lets cleared flagged live outcome' q dur m k excluded told
    have hdur : dur = none := if_neg hsrc
    have hlive : live = n := by
      by_cases hall : r.2 = []
      · simp only [live, flagged, reported, hn, hall, if_true, List.foldl_nil]
      · simp only [live, flagged, hn, hall, if_false]
    have houtcome : outcome' = outcome := by simp only [outcome', cleared, ho, Bool.and_eq_true, decide_eq_true_eq]
    rw [if_pos hsrc]
    clear_value dur live outcome'
    subst hdur hlive houtcome
    rfl
  refine ⟨fun hall => does_of_ran rfl (hrun _ _ (if_pos hall).symm ?_), fun hsplit => does_of_ran rfl (hrun _ _ (if_neg hsplit).symm (if_pos hsplit).symm)⟩
  rw [if_neg (not_not.mpr hall)]

/-- Settles O23. -/
theorem sequencerFollowsUp : Obligations.SequencerFollowsUp := by
  refine fun s => ⟨fun d fire p hseed hedge hfire hplan => ?_, fun d r q hrot hpend => ?_, fun k hstep => ?_⟩
  · refine ⟨State.seedEntry s d p fire, ?_, fun u e hskip => if_pos hskip, fun u e t hloop hpdk htarget => ?_⟩
    · refine does_of_ran rfl ?_
      simp only [doCommitLoopSeed, hseed, hedge, Nat.not_le.mpr hfire, ne_eq, not_true_eq_false, or_self, if_false]
      rw [show ((s.setDomSeq d _).slot _).plan = some p from hplan]
      rfl
    · rw [State.seedEntry, if_neg (by simp [hloop, hpdk])]
      simp only [htarget]
  · intro off hdue e
    have htake := doRotationTakeover_due hrot hpend rfl hdue
    exact ⟨fun hents => does_of_ran rfl (htake.trans (if_pos hents)), fun hents => does_of_ran rfl (htake.trans (if_neg hents))⟩
  · refine does_of_ran rfl ?_
    simp only [doSequencerStep, hstep]

end Sys2Proof
end

/-! ### Surveys, the pair, the recorder, the march and alarms -/

section
open Sys2Proof Sys2Proof.Machine Claims

namespace Sys2Proof.Machine

/-- A request that may be taken begins, or wakes the paddocks first (R254, R278). -/
theorem startSurvey_of_ok {c : State} {d : Desc} (hlen : d.len = 32) (h : SurveyOk c d.pay) :
    startSurvey d c =
      (let flags := leAt d.pay 2 2
       let v : Survey :=
         { d := some d, conv := bitAt flags 0, sweeps := bitAt flags 1, reuse := bitAt flags 2, noWrite := bitAt flags 3,
           prior := if bitAt flags 4 = true then some (priorRecs (d.pay.drop 32)) else none, phase := 0, pass := 0,
           els := (if bitAt flags 1 = true ∨ bitAt flags 2 = true then c.srvScope (leAt d.pay 0 1) (leAt d.pay 4 4) else []).map c.newEl, todo := [], cur := none,
           ranges := c.mons.map fun m => (m.sense, c.rangeOf m.sense), abort := false, waits := decide (c.napMask ≠ 0), pdks := [] }
       let u := { c with survey := some v, tb2 := 0 }
       if c.napMask = 0 then u.surveyBegin else u.wakePdks u.allPdks) := by
  obtain ⟨hfree, hmode, hscope, hrsv, hflags, hzero, hsome, hreuse, hconv, hmap, hmask, hprior, hresults⟩ := h
  have hmodeOk : ¬(c.survey ≠ none ∨ (c.mode ≠ .parked ∧ c.mode ≠ .maintenance) ∨ (c.mode = .maintenance ∧ (bitAt (leAt d.pay 2 2) 0 = true ∨ leAt d.pay 0 1 = 0))) := by
    rcases hmode with hmode | ⟨hmode, hno, hsc, -⟩
    · simp [hfree, hmode]
    · simp [hfree, hmode, hno, hsc]
  have hformOk : ¬(leAt d.pay 1 1 ≠ 0 ∨ 32 ≤ leAt d.pay 2 2 ∨ (d.pay.drop 20).take 12 ≠ zeros 12 ∨ 2 < leAt d.pay 0 1 ∨
      (bitAt (leAt d.pay 2 2) 0 = false ∧ bitAt (leAt d.pay 2 2) 1 = false ∧ bitAt (leAt d.pay 2 2) 2 = false) ∨
      (bitAt (leAt d.pay 2 2) 2 = true ∧ (bitAt (leAt d.pay 2 2) 0 = true ∨ bitAt (leAt d.pay 2 2) 1 = true)) ∨ (bitAt (leAt d.pay 2 2) 0 = true ∧ leAt d.pay 0 1 ≠ 0)) := by
    rintro (hbad | hbad | hbad | hbad | ⟨h0, h1, h2⟩ | ⟨h2, h01⟩ | ⟨h0, hbad⟩)
    · exact hbad hrsv
    · exact absurd hflags (Nat.not_lt.mpr hbad)
    · exact hbad hzero
    · exact absurd hscope (Nat.not_le.mpr hbad)
    · simp [h0, h1, h2] at hsome
    · simp [hreuse h2] at h01
    · exact hbad (hconv h0)
  have hmapOk : ¬((bitAt (leAt d.pay 2 2) 1 = true ∨ bitAt (leAt d.pay 2 2) 2 = true) ∧ c.map = none) := fun e => hmap e.1 e.2
  have hmaskOk : ¬(c.srvMaskBad (leAt d.pay 0 1) (leAt d.pay 4 4) = true ∨ (c.mode = .maintenance ∧ leAt d.pay 4 4 ≠ c.partMask (leAt d.pay 0 1))) := by
    rintro (hbad | ⟨hmaint, hbad⟩)
    · simp [hmask] at hbad
    · rcases hmode with hmode | ⟨-, -, -, hpart⟩
      · simp [hmode] at hmaint
      · exact hbad hpart
  have hpriorOk : ¬((bitAt (leAt d.pay 2 2) 4 = true ∧ ((d.pay.drop 32).length ≠ leAt d.pay 16 4 ∨ priorOk ((c.map.map fun m => m.id).getD 0) (d.pay.drop 32) = false)) ∨
      (bitAt (leAt d.pay 2 2) 2 = true ∧ bitAt (leAt d.pay 2 2) 4 = false ∧ c.results = [])) := by
    rintro (⟨h4, hbad⟩ | ⟨h2, h4, hbad⟩)
    · obtain ⟨hlen, hok⟩ := hprior h4
      exact hbad.elim (absurd hlen) (by simp [hok])
    · exact hresults h2 h4 hbad
  unfold startSurvey
  extract_lets q scope flags mask prior conv sweeps reuse mapId fail els napped ranges v u flags' v' u'
  rw [if_neg (not_not.mpr hlen), if_neg hmodeOk, if_neg hformOk, if_neg hmapOk, if_neg hmaskOk, if_neg hpriorOk]
  have hv : v = v' := by
    simp only [v, v', els, Bool.or_eq_true]
    rfl
  have hu : u = u' := congrArg (fun v => { c with survey := some v, tb2 := 0 }) hv
  by_cases hnap : c.napMask = 0
  · rw [if_pos hnap, if_neg (by simp [napped, hnap]), hu]
  · rw [if_neg hnap, if_pos (by simp [napped, hnap]), hu]

end Sys2Proof.Machine

namespace Sys2Proof

/-- Settles O24. -/
theorem surveysRun : Obligations.SurveysRun := by
  refine ⟨fun s c d h => ⟨fun hop hlen hok => ?_, fun hop hnone => ?_, fun hop hsome => ?_, ?_⟩, fun s v hv hedge => ⟨fun b hb hend => ⟨fun hspoiled => ?_, fun hspoiled => ?_⟩,
    fun cals darks hconv hwaits hlo hhi => ?_⟩⟩
  · exact does_of_start rfl hop h (startSurvey_of_ok hlen hok)
  · exact does_of_start rfl hop h (if_pos hnone)
  · exact does_of_start rfl hop h (if_neg hsome)
  · intro hop img hlen
    exact does_of_start rfl hop h (if_neg (Nat.not_lt.mpr hlen))
  · refine does_of_ran rfl ?_
    simp only [doSurveyPointDone, hv, hb, hedge, Nat.not_le.mpr hend, hspoiled, ne_eq, not_true_eq_false, or_self, if_false, if_true]
  · intro n
    refine ⟨fun pt hpt => does_of_ran rfl ?_, fun hlast => does_of_ran rfl ?_⟩
    · simp only [doSurveyPointDone, hv, hb, hedge, Nat.not_le.mpr hend, hspoiled, ne_eq, not_true_eq_false, or_self, if_false, Bool.false_eq_true, hpt]
      rfl
    · simp only [doSurveyPointDone, hv, hb, hedge, Nat.not_le.mpr hend, hspoiled, ne_eq, not_true_eq_false, or_self, if_false, Bool.false_eq_true, hlast]
      rfl
  · refine does_of_ran rfl ?_
    have hphase : ¬(v.phase = 0 ∨ 6 ≤ v.phase) := by omega
    simp only [doConverterCalDone, hv, hconv, hwaits, hphase, hedge, Bool.not_true, Bool.or_self, decide_false, ne_eq, not_true_eq_false, Bool.false_eq_true, if_false]

/-- Settles O25. -/
theorem pairDescriptorsStart : Obligations.PairDescriptorsStart := by
  refine fun s c d h => ⟨fun hop hstandby => ?_, fun hop hrole hhalt hsync => ?_⟩
  · exact does_of_start rfl hop h (if_neg hstandby)
  · refine does_of_start rfl hop h ?_
    simp only [startResync, hrole, hhalt, and_self, if_true, hsync]

/-- Settles O26. -/
theorem recorderAndMarchRun : Obligations.RecorderAndMarchRun := by
  refine ⟨⟨fun s c d h hout => ⟨fun n hop hn hcount hlen hrsv hrec hgroups hover hrate => ?_, fun hop hact hstate => ?_, fun hop hact hstate => ?_, fun hop hact => ?_,
    fun hop hlen => ?_⟩, fun s => ⟨fun j hjob hedge hmult hdue => ?_, fun x hstate hpost => ?_⟩⟩,
    fun s c d h hop hout hopts hlen hpart hmode hrange hfirst hlast hparked hlp hmap => ?_, fun s a b j hjob => ?_⟩
  · refine does_of_start rfl hop h ?_
    have hzero : ((List.range 15).any fun i => decide (leAt d.pay (1 + i) 1 ≠ 0)) = false :=
      List.any_eq_false.mpr fun i hi => by simp [hrsv i (List.mem_range.mp hi)]
    have hzero' : ((List.range n).any fun i => decide (leAt d.pay (22 + 8 * i) 2 ≠ 0)) = false :=
      List.any_eq_false.mpr fun i hi => by simp [hrec i (List.mem_range.mp hi)]
    have hbad : (recGroups d.pay).any (RecGroup.bad c.part) = false := List.any_eq_false.mpr fun g hg => by simp [hgroups g hg]
    simp only [startRecConfig, hn, hlen, hzero, hzero', hout, hbad, hover, Nat.not_lt.mpr hcount, Nat.not_lt.mpr hrate, Bool.or_self, Bool.false_eq_true, ne_eq, not_true_eq_false,
      or_self, if_false]
  · refine does_of_start rfl ⟨hop, hact⟩ h ?_
    simp [startRecControl, hout, hact, startRecFreeze, hstate]
  · refine does_of_start rfl ⟨hop, hact⟩ h ?_
    simp [startRecControl, hout, hact, startRecResume, hstate]
  · refine does_of_start rfl ⟨hop, hact⟩ h ?_
    simp [startRecControl, hout, hact, startRecStop]
  · refine does_of_start rfl hop h ?_
    simp only [startRecRead, hout, Nat.not_lt.mpr hlen, ne_eq, not_true_eq_false, if_false, apply_ite d.in8]
  · refine does_of_ran rfl ?_
    simp [doRecorderConfigEffect, hjob, hedge, hmult, hdue]
  · refine does_of_ran rfl ?_
    exact if_pos ⟨hstate, hpost⟩
  · refine does_of_start rfl hop h ?_
    have hrangeOk : ¬(1 < d.in1 48 ∨ 3 < d.in1 49 ∨ d.in1 52 < 4 ∨ 128 < d.in1 52 + d.in1 53) := by omega
    have hstateOk : ¬(c.mode ≠ .parked ∨ c.lp ≠ .none ∨ (d.in1 48 = 0 ∧ c.map ≠ none)) := by
      simpa [hparked, hlp] using hmap
    simp only [startMarch, hout, Nat.not_le.mpr hopts, Nat.not_lt.mpr hlen, hpart, hrangeOk, hstateOk, ne_eq, not_true_eq_false, or_self, if_false]
  · refine ⟨fun x => (((if x = .A then a else b).filter fun f => decide (j.d.in1 52 ≤ f.bank ∧ f.bank < j.d.in1 52 + j.d.in1 53)).map
      fun f => { f with repaired := f.repaired && bitAt (j.d.in1 50) 1 }), fun x f => ?_, ?_⟩
    · simp only [List.mem_map, List.mem_filter, decide_eq_true_eq, and_assoc, eq_comm (a := f)]
    · refine does_of_ran rfl ?_
      simp only [doMarchDone, hjob, apply_ite j.d.in8]

/-- Settles O27. -/
theorem alarmsRun : Obligations.AlarmsRun := by
  refine ⟨fun s c d h => ⟨fun hop hact hlen hrsv37 hrsv38 hrsv40 hrsv35 hrecs hwin hcov hlock => ?_, fun hop hact hdom hrsv32 hrsv34 hlen => ?_⟩,
    fun s => ⟨fun w hw hend => ?_, fun r rest hclosed => ?_, fun hedge => ?_⟩⟩
  · refine does_of_start rfl ⟨hop, hact⟩ h ?_
    have hzero : ((alarmRecs d.pay).any fun r => decide (r.2.2.2 ≠ 0)) = false := List.any_eq_false.mpr fun r hr => by simp [(hrecs r hr).1]
    have hvals : ((alarmRecs d.pay).any fun r => !alarmCode r.1 || decide (3 < r.2.1 ∨ 1 < r.2.2.1)) = false :=
      List.any_eq_false.mpr fun r hr => by
        obtain ⟨-, hcode, hclass, hfault⟩ := hrecs r hr
        simp [hcode, hclass, hfault]
    have hfields : ¬(1024 < d.in2 32 ∨ (d.in1 34 ≠ 0 ∧ (d.in1 34 < 50 ∨ 100 < d.in1 34))) := by omega
    simp only [startAlarmCfg, hact, startAlarmConfig, hlen, hrsv37, hrsv38, hrsv40, hrsv35, hzero, hvals, hfields, hlock, ne_eq, not_true_eq_false, Bool.false_eq_true, or_self,
      if_false]
  · refine does_of_start rfl ⟨hop, hact⟩ h ?_
    have hfields : ¬(2 ≤ d.in1 37 ∨ d.in2 32 ≠ 0 ∨ d.in2 34 ≠ 0 ∨ d.len ≠ 0) := by omega
    simp only [startAlarmCfg, hact, startAlarmRelease, hfields, if_false]
  · simp only [State.musterBoundary, hw, hend, if_true]
  · refine does_of_ran rfl ?_
    simp only [doMusterWindowClose, hclosed]
    rfl
  · refine does_of_ran rfl ?_
    have hlater (e : Nat × Report) : (!decide (e.1 ≤ s.tick)) = decide (s.tick < e.1) := by simp only [← decide_not, Nat.not_le]
    simp only [doFaultReaction, hedge, ne_eq, not_true_eq_false, if_false, hlater]

/-- Settles O28, by the kind and the phase of the job. -/
theorem commandsEndAtBoundaries : Obligations.CommandsEndAtBoundaries := by
  refine fun s j => ⟨fun hdue => ?_, fun hjob hstandby => ⟨fun hphase hrepair => ?_, fun hphase hdue hgrant => ?_⟩, fun v hv habort hjob => ?_⟩
  · have hdue := Nat.not_lt.mpr hdue
    refine ⟨fun hkind hphase => ?_, fun hkind hphase => ?_, fun hkind hphase => ?_, fun hkind hphase hdark => ?_, fun n hkind hphase hnums hqueue => ?_,
      fun hkind hphase hdrain => ?_, fun hkind hdrain => ?_, fun hkind => ?_, fun hjob => ?_, fun hjob => ?_⟩
    · simp only [State.stepList, hdue, if_false, hkind, hphase]
    · simp only [State.stepList, hdue, if_false, hkind, hphase]
    · simp only [State.stepList, hdue, if_false, hkind, State.stepSetSense, hphase, if_true]
    · have hall : (j.nums.all fun m => decide (s.dGet (SNS_CH_CTRL m) fSNS_CH_CTRL_DARK_VALID = 1)) = true :=
        List.all_eq_true.mpr fun m hm => decide_eq_true (hdark m hm)
      simp only [State.stepList, hdue, if_false, hkind, State.stepSetSense, hphase, hall, Nat.one_ne_zero, if_true]
    · simp only [State.stepList, hdue, if_false, hkind, State.stepXtalk, hphase, hqueue, hnums, if_true]
    · simp only [State.stepList, hdue, if_false, hkind, State.stepXtalk, hphase, Nat.not_le.mpr hdrain, Nat.one_ne_zero, and_false]
    · have hgo : ¬(j.phase = 1 ∧ s.xtDrains ≤ j.nums.headD 0) := fun e => absurd (hdrain e.1) (Nat.not_lt.mpr e.2)
      exact ⟨fun hnone => by simp only [State.stepList, hdue, if_false, hkind, State.stepRevert, hgo, hnone, if_true],
        fun hsome => by simp only [State.stepList, hdue, if_false, hkind, State.stepRevert, hgo, hsome]⟩
    · simp only [State.stepList, hdue, if_false, hkind, State.stepSetFit]
    · simp only [State.lockBoundary, hjob, hdue, if_false]
    · exact ⟨fun hphase => by simp only [State.padResetBoundary, hjob, hdue, if_false, hphase],
        fun hphase hok => by simp only [State.padResetBoundary, hjob, hdue, if_false, hphase, hok, if_true],
        fun hphase hready => by simp only [State.padResetBoundary, hjob, hdue, if_false, hphase, hready, if_true],
        fun hphase => by simp only [State.padResetBoundary, hjob, hdue, if_false, hphase]⟩
  · simp only [State.handoverBoundary, hjob, hstandby, hphase, hrepair, if_false, if_true]
  · simp only [State.handoverBoundary, hjob, hstandby, hphase, Nat.not_lt.mpr hdue, hgrant, Nat.one_ne_zero, if_false, if_true]
  · simp only [State.surveyBoundary, hv, habort, hjob, if_true]

end Sys2Proof
end

/-! ### Time, traffic, keys and firmware -/

section
open Sys2Proof Sys2Proof.Machine Claims

namespace Sys2Proof.Machine

/-- The header of slot 0, and that of slot 1 behind it (R499). -/
def State.fwHead (s : State) (i o : Nat) : List Byte :=
  match s.slotImage i with
  | some img => (img ++ zeros 512).take 512
  | none => ((leBytes 1088 (s.draw 8704).1.toNat).drop o).take 512

theorem State.fwHead_of_image {s : State} {i : Nat} {img : List Byte} (h : s.slotImage i = some img) (o : Nat) : s.fwHead i o = (img ++ zeros 512).take 512 := by
  rw [State.fwHead, h]

theorem State.fwHead_length (s : State) {i o : Nat} (h : o ≤ 512) : (s.fwHead i o).length = 512 := by
  unfold State.fwHead
  split
  · rw [List.length_take, List.length_append, zeros, List.length_replicate]
    omega
  · rw [List.length_take, List.length_drop, length_leBytes]
    omega

theorem State.fwInfo_eq (s : State) : ∃ rest, s.fwInfo.1 = s.fwHead 0 0 ++ s.fwHead 1 512 ++ rest := ⟨_, rfl⟩

theorem State.fwInfo_slot0 {s : State} {img : List Byte} (h : s.store.slot0 = some img) : s.fwInfo.1.take 512 = (img ++ zeros 512).take 512 := by
  obtain ⟨rest, hbytes⟩ := s.fwInfo_eq
  rw [hbytes, List.append_assoc, List.take_left' (s.fwHead_length (by omega)), State.fwHead_of_image (i := 0) h]

theorem State.fwInfo_slot1 {s : State} {img : List Byte} (h : s.store.slot1 = some img) : (s.fwInfo.1.drop 512).take 512 = (img ++ zeros 512).take 512 := by
  obtain ⟨rest, hbytes⟩ := s.fwInfo_eq
  rw [hbytes, List.append_assoc, List.drop_left' (s.fwHead_length (by omega)), List.take_left' (s.fwHead_length le_rfl), State.fwHead_of_image (i := 1) h]

end Sys2Proof.Machine

namespace Sys2Proof

/-- Settles O29. -/
theorem timeAndTrafficDescriptorsAct : Obligations.TimeAndTrafficDescriptorsAct := by
  refine ⟨⟨fun s c d h hop => ⟨fun hsub => ?_, fun hsub => ?_, fun hsub hlen hrec => ?_, fun hsub hport hptp hhsr htlm hspeed => ?_⟩, fun s rtt j hjob => ?_⟩,
    fun s c d h => ⟨fun n hop hn hmax hlen hport hrsv1 hrsv12 hrsv => ?_, ?_⟩⟩
  · refine does_of_start rfl ⟨hop, hsub⟩ h ?_
    simp only [startTime, hsub, startTimeRead]
  · refine does_of_start rfl ⟨hop, hsub⟩ h ?_
    simp only [startTime, hsub, startTimeSet, State.setTime]
  · refine does_of_start rfl ⟨hop, hsub⟩ h ?_
    simp only [startTime, hsub, startPtpConfig, hlen, hrec, ne_eq, not_true_eq_false, Bool.not_true, Bool.false_eq_true, if_false]
  · refine does_of_start rfl ⟨hop, hsub⟩ h ?_
    have htlm : ¬(2 ≤ d.in1 33 ∧ c.dGet (ETH_PAIR_CFG 1) fETH_PAIR_CFG_TLM_EN = 1) := fun e => htlm e.1 e.2
    simp only [startTime, hsub, startPortMeasure, Nat.not_lt.mpr hport, hptp, hhsr, htlm, hspeed, Bool.false_eq_true, or_self, if_false]
  · refine does_of_ran rfl ?_
    simp only [doPortMeasureDone, hjob]
  · intro ents cycle hsum hlong hdur t
    refine does_of_start rfl hop h ?_
    have hzero : ((List.range n).any fun j => decide (leAt d.pay (16 + 8 * j + 1) 3 ≠ 0)) = false :=
      List.any_eq_false.mpr fun j hj => by simp [hrsv j (List.mem_range.mp hj)]
    have hshort : ((gateEnts (d.pay.drop 16) n).any fun e => decide (e.2 < 100)) = false :=
      List.any_eq_false.mpr fun e he => by simpa using hdur e he
    have hform : ¬(d.len < 16 ∨ d.len ≠ 16 + 8 * n ∨
        (decide (leAt d.pay 1 1 ≠ 0 ∨ leAt d.pay 12 4 ≠ 0) || (List.range n).any fun j => decide (leAt d.pay (16 + 8 * j + 1) 3 ≠ 0)) = true) := by
      rw [hzero]
      simp only [hrsv1, hrsv12, ne_eq, not_true_eq_false, or_self, decide_false, Bool.or_self, Bool.false_eq_true, or_false]
      omega
    have hvals : ¬(3 < leAt d.pay 0 1 ∨ 256 < n ∨ leAt d.pay 8 4 ≠ ((gateEnts (d.pay.drop 16) n).map fun e => e.2).foldl (· + ·) 0 ∨ 2 ^ 30 < leAt d.pay 8 4 ∨
        ((gateEnts (d.pay.drop 16) n).any fun e => decide (e.2 < 100)) = true) := by
      rintro (hbad | hbad | hbad | hbad | hbad)
      · omega
      · omega
      · exact hbad hsum
      · exact absurd hlong (Nat.not_le.mpr hbad)
      · simp [hshort] at hbad
    subst hn
    exact (if_neg hform).trans (if_neg hvals)
  · intro rs hop hlen hrecs
    refine ⟨_, does_of_start rfl hop h ?_, fun u r => rfl⟩
    have hpass : ((records 24 d.pay (d.len / 24)).map streamFail).find? (fun c => decide (c ≠ 0)) = none := by
      refine List.find?_eq_none.mpr fun c hc => ?_
      obtain ⟨r, hr, rfl⟩ := List.mem_map.mp hc
      simp [hrecs r hr]
    simp only [startPolicer, hlen, hpass, ne_eq, not_true_eq_false, if_false]
    rfl

/-- Settles O30. -/
theorem keyDescriptorsAct : Obligations.KeyDescriptorsAct := by
  refine fun s c d h => ⟨fun signer hop htrans hmode hlp hdue => ⟨fun htoken hlen => ?_, fun htoken hlen hform hpurpose hkey => ?_⟩, fun hop hlen hform hpurpose => ?_,
    fun hop hkind hopen hslot hform => ?_, fun hop hkind hlife hslot hform hcurve hlock => ?_, fun hop hkind hopen hslot hform hdbg => ?_,
    fun hop hkind hopen hslot hform hval hlock => ?_⟩
  · refine does_of_start rfl hop h ?_
    simp only [startLifecycle, htrans, hmode, hlp, hdue, htoken, hlen, ne_eq, not_true_eq_false, or_self, Bool.false_eq_true, if_false, if_true]
  · intro r
    refine does_of_start rfl hop h ?_
    simp only [startLifecycle, htrans, hmode, hlp, hdue, htoken, hlen, hform, hpurpose, hkey, and_self, decide_true, ne_eq, not_true_eq_false, or_self, if_false,
      if_true, Bool.true_eq_false]
    by_cases hok : r.1 = true
    · rw [if_pos hok, if_neg (show ¬(c.present d.pay true).1 = false by rw [show (c.present d.pay true).1 = true from hok]; decide)]
    · rw [if_neg hok, if_pos (show (c.present d.pay true).1 = false from Bool.not_eq_true _ ▸ hok)]
  · intro r
    refine does_of_start rfl hop h ?_
    have hknown : ¬(d.len ≠ 104 ∨ tokenForm d.pay = false ∨ (leAt d.pay 1 1 ≠ 1 ∧ leAt d.pay 1 1 ≠ 2 ∧ (leAt d.pay 1 1 < 0x10 ∨ 0x14 < leAt d.pay 1 1))) := by
      simp only [hlen, hform, Bool.true_eq_false, ne_eq, not_true_eq_false, false_or]
      omega
    have hlevel : ¬0x10 ≤ leAt d.pay 1 1 := by omega
    simp only [startDebugToken, hknown, hlevel, if_false]
    rfl
  · intro n
    refine does_of_start rfl ⟨hop, hkind⟩ h ?_
    simp only [startKeyProvision, show keyKind d = 1 from hkind, startControlKey, hopen, Nat.not_le.mpr hslot, hform, Bool.not_true, decide_false, Bool.or_self, Bool.false_eq_true, if_false]
    rfl
  · refine does_of_start rfl ⟨hop, hkind⟩ h ?_
    simp only [startKeyProvision, show keyKind d = 2 from hkind, startOwnerDebugKey, hlife, hslot, hform, hcurve, hlock, Bool.true_eq_false, Bool.not_true, ne_eq, not_true_eq_false,
      or_self, Bool.false_eq_true, if_false]
  · refine ⟨decide (keySlot d = 0) && decide ((c.draw 1).1 = 1), fun hone => by simp [hone], does_of_start rfl ⟨hop, hkind⟩ h ?_⟩
    simp only [startKeyProvision, show keyKind d = 3 from hkind, startKeyErase, Nat.not_le.mpr hslot, hform, Bool.not_true, decide_false,
      Bool.false_eq_true, if_false]
    have hopen : (c.draw 1).2.keysOpen = true := hopen
    by_cases hzero : keySlot d = 0
    · have hlife : (c.draw 1).2.fuses.life = 1 := (hdbg hzero).1
      have hlock : (c.draw 1).2.locked = false := (hdbg hzero).2
      simp [hopen, hlife, hlock]
    · simp [hopen, hzero]
  · refine does_of_start rfl ⟨hop, hkind⟩ h ?_
    have hbit : bitN (decide (leAt d.pay 4 1 = 1)) = leAt d.pay 4 1 := by
      interval_cases leAt d.pay 4 1 <;> rfl
    simp only [startKeyProvision, show keyKind d = 4 from hkind, startRecorderKeep, hopen, hslot, hform, Nat.not_lt.mpr hval, hlock, hbit, Bool.true_eq_false, Bool.not_true, ne_eq,
      not_true_eq_false, decide_false, or_self, Bool.or_self, Bool.false_eq_true, if_false]

/-- Settles O31. -/
theorem firmwareAndDebugAct : Obligations.FirmwareAndDebugAct := by
  refine ⟨fun s c d h hop hlife => ⟨fun hsub hboot hslot hmin hmax => ?_, fun hsub hlen => ?_, fun hsub hslot => ?_, fun svn hsub ha hb => ?_⟩,
    fun s => ⟨fun j hjob => ⟨fun hslot => ?_, fun hslot => ?_, ?_⟩, fun t hoff => ⟨fun signer hpurpose htrans hmode hlp hdue => ⟨fun htoken hform hlock => ?_, fun htoken hkey => ?_⟩,
      fun hpurpose => ?_⟩, fun x hset hrole => ?_, fun x hset => ?_, fun x hset hrole => ?_⟩⟩
  · intro e
    refine does_of_start rfl ⟨hop, hsub⟩ h ?_
    have hlen : ¬(2 ≤ d.in1 33 ∨ d.len < 512 ∨ 33554432 < d.len) := by omega
    simp only [startFwWrite, hlife, hboot, hlen, Bool.false_eq_true, or_self, if_false]
    by_cases hsound : c.imageErr d.pay = 0
    · simp [e, hsound]
    · by_cases hold : c.imageErr d.pay = 3 <;> simp [e, hsound, hold]
  · refine ⟨_, rfl, fun img himg => State.fwInfo_slot0 himg, fun img himg => State.fwInfo_slot1 himg, does_of_start rfl ⟨hop, hsub⟩ h ?_⟩
    simp only [startFwInfo, hlife, Nat.not_lt.mpr hlen, if_false]
  · refine does_of_start rfl ⟨hop, hsub⟩ h ?_
    by_cases hsound : c.slotErr (d.in1 33) = 0
    · simp only [startFwSelect, hlife, Nat.not_le.mpr hslot, hsound, ne_eq, not_true_eq_false, Bool.not_true, Bool.false_eq_true, if_false, if_true]
    · simp only [startFwSelect, hlife, Nat.not_le.mpr hslot, hsound, ne_eq, not_false_eq_true, if_false, if_true]
  · refine does_of_start rfl ⟨hop, hsub⟩ h ?_
    simp only [startFwRaise, hlife, ha, hb, ne_eq, not_true_eq_false, or_self, Bool.not_true, Bool.false_eq_true, if_false]
  · refine does_of_ran rfl ?_
    simp only [doFwStoreDone, hjob, hslot, if_true]
    rfl
  · refine does_of_ran rfl ?_
    simp only [doFwStoreDone, hjob, hslot, if_true]
    rfl
  · refine does_of_ran rfl ?_
    simp only [doFwStoreDone, hjob, Bool.false_eq_true, if_false]
  · refine does_of_ran rfl ?_
    simp only [doJtagToken, hoff, hpurpose, htrans, htoken, hmode, hlp, hdue, hform, hlock, decide_true, Bool.not_false, Bool.and_self, if_false, if_true]
  · intro r
    refine does_of_ran rfl ?_
    simp only [doJtagToken, hoff, hpurpose, htrans, htoken, hmode, hlp, hdue, hkey, decide_true, Bool.not_true, Bool.false_and, Bool.and_true, Bool.false_eq_true, if_false, if_true]
    rfl
  · intro r
    refine does_of_ran rfl ?_
    simp only [doJtagToken, hoff, Nat.not_le.mpr hpurpose, if_false]
    rfl
  · refine does_of_ran rfl ?_
    simp only [doCoreHalt, hset, ne_eq, not_true_eq_false, if_false]
    exact if_pos (.inr hrole)
  · refine does_of_ran rfl ?_
    exact if_pos hset
  · refine does_of_ran rfl ?_
    simp only [doCoreHalt, hset, ne_eq, not_true_eq_false, if_false]
    refine if_neg ?_
    have hrole : (s.sh x).role = .active ∨ (s.sh x).role = .standby := hrole
    rcases hrole with hrole | hrole <;> simp [hrole]

end Sys2Proof
end

/-! ### Resets, rails and the boot -/

section
open Sys2Proof Sys2Proof.Machine Claims

namespace Sys2Proof.Machine

/-! What a reset of the device leaves (R484, R489), built up over the steps of the reset. -/

theorem deviceReset_cleared (s : State) : DeviceReset s s.cleared :=
  ⟨rfl, rfl, rfl, rfl, rfl, rfl, rfl, rfl, rfl, rfl, fun x => by cases x <;> exact ⟨rfl, rfl, rfl⟩, rfl, rfl, rfl⟩

theorem deviceReset_wr {s t : State} (h : DeviceReset s t) (b o : Nat) (w : Word) : DeviceReset s (t.wr b o w) := h

theorem deviceReset_both {s : State} {f : Shep → State → State} (hf : ∀ x t, DeviceReset s t → DeviceReset s (f x t)) {t : State} (h : DeviceReset s t) :
    DeviceReset s (both f t) :=
  hf _ _ (hf _ _ h)

theorem deviceReset_modSh {s t : State} (h : DeviceReset s t) (x : Shep) {f : ShepSt → ShepSt} (hf : ∀ k, (f k).role = k.role ∧ (f k).halted = k.halted ∧ (f k).fold = k.fold) :
    DeviceReset s (t.modSh x f) := by
  obtain ⟨hmode, hlp, hmap, hjobs, hwrites, hcommits, hrots, hslots, hsurvey, hchans, hsheps, hfuses, hstore, hpart⟩ := h
  refine ⟨by simpa, by simpa, by simpa, by simpa, by simpa, by simpa, by simpa, by simpa, by simpa, by simpa, fun y => ?_, by simpa, by simpa, by simpa⟩
  obtain ⟨hrole, hhalted, hfold⟩ := hsheps y
  by_cases hy : y = x
  · subst hy
    obtain ⟨hr, hh, hd⟩ := hf (t.sh y)
    simp only [State.role, State.sh_modSh_self]
    exact ⟨hr.trans hrole, hh.trans hhalted, hd.trans hfold⟩
  · simp only [State.role, State.sh_modSh_ne _ _ _ _ hy]
    exact ⟨hrole, hhalted, hfold⟩

theorem deviceReset_newKeys {s t : State} (h : DeviceReset s t) (x : Shep) (keep : Bool) : DeviceReset s (t.newKeys x keep) :=
  deviceReset_modSh (t := { t with fresh := t.fresh + 2 }) h x fun _ => ⟨rfl, rfl, rfl⟩

theorem deviceReset_cause {s t : State} (h : DeviceReset s t) (f : Fld) : DeviceReset s (t.cause f) :=
  deviceReset_both (fun _ _ h => deviceReset_wr h ..) h

theorem deviceReset_doPor (s : State) : DeviceReset s (doPor s) := by
  have h := deviceReset_both (f := fun x s => (s.modSh x fun h => { h with porBoot := true }).newKeys x false)
    (fun x _ h => deviceReset_newKeys (deviceReset_modSh h x (f := fun h => { h with porBoot := true }) fun _ => ⟨rfl, rfl, rfl⟩) x false) (deviceReset_cleared s)
  exact deviceReset_both (f := fun x s => s.wr x.bank RST_CAUSE (fRST_CAUSE_POR.put 0 1)) (fun _ _ h => deviceReset_wr h ..) h

theorem deviceReset_resetDevice (s : State) (f : Fld) (keep lol : Bool) : DeviceReset s (s.resetDevice f keep lol) := by
  have h : DeviceReset s { s.cleared with edge := s.edge, epoch := s.epoch } := deviceReset_cleared s
  have h := deviceReset_modSh h .A (f := fun h => { h with porBoot := false, recorder := keptRec keep s.shA.recorder }) fun _ => ⟨rfl, rfl, rfl⟩
  have h := deviceReset_modSh h .B (f := fun h => { h with porBoot := false, recorder := keptRec keep s.shB.recorder }) fun _ => ⟨rfl, rfl, rfl⟩
  have h := deviceReset_both (f := fun x n => n.newKeys x keep) (fun x _ h => deviceReset_newKeys h x keep) h
  have h := deviceReset_wr h 0 SHP_CNT_SWITCH (s.rd 0 SHP_CNT_SWITCH)
  have h := deviceReset_both (f := fun x n => (n.wr x.bank RST_CAUSE (s.rd x.bank RST_CAUSE)).wr x.bank BNK_REPAIR (s.rd x.bank BNK_REPAIR))
    (fun _ _ h => deviceReset_wr (deviceReset_wr h ..) ..) h
  exact deviceReset_cause (deviceReset_wr h ..) f

/-! The registers that a reset of the device keeps (R489, R491). -/

/-- Both shepherds' copies of a word, written from a value for each. -/
theorem State.rd_both_wr (s : State) {o : Nat} (ho : o < 0x10000000) (w : Shep → Word) (x : Shep) : (both (fun y s => s.wr y.bank o (w y)) s).rd x.bank o = w x := by
  cases x
  · exact ((s.wr 1 o (w .A)).rd_wr_bank 2 o 1 o (w .B) ho ho (by decide)).trans (State.rd_wr_self ..)
  · exact State.rd_wr_self ..

theorem State.rd_cause (s : State) (f : Fld) (x : Shep) : (s.cause f).rd x.bank RST_CAUSE = f.put (s.rd x.bank RST_CAUSE) 1 := by
  cases x
  · exact ((s.pFlag .A RST_CAUSE f).rd_wr_bank 2 RST_CAUSE 1 RST_CAUSE _ (by decide) (by decide) (by decide)).trans (State.rd_wr_self ..)
  · refine (State.rd_wr_self ..).trans ?_
    exact congrArg (f.put · 1) (s.rd_wr_bank 1 RST_CAUSE 2 RST_CAUSE _ (by decide) (by decide) (by decide))

theorem State.rd_cause_off (s : State) (f : Fld) {b o : Nat} (ho : o < 0x10000000) (hne : o ≠ RST_CAUSE) : (s.cause f).rd b o = s.rd b o :=
  ((s.pFlag .A RST_CAUSE f).rd_wr_off _ _ _ _ _ (by decide) ho hne).trans (s.rd_wr_off _ _ _ _ _ (by decide) ho hne)

/-- The registers of a device before its cause is noted. -/
theorem State.rd_resetDevice_cause (s : State) (f : Fld) (keep lol : Bool) (x : Shep) :
    (s.resetDevice f keep lol).rd x.bank RST_CAUSE = f.put (s.rd x.bank RST_CAUSE) 1 := by
  rw [State.resetDevice, State.rd_cause, State.dPut, State.rd_wr_off _ _ _ _ _ _ (by decide) (by decide) (by decide)]
  cases x <;> simp [both, Shep.bank, State.rd_wr, RST_CAUSE, BNK_REPAIR]

theorem State.rd_resetDevice_switch (s : State) (f : Fld) (keep lol : Bool) : (s.resetDevice f keep lol).rd 0 SHP_CNT_SWITCH = s.rd 0 SHP_CNT_SWITCH := by
  rw [State.resetDevice, State.rd_cause_off _ _ (by decide) (by decide), State.dPut, State.rd_wr_off _ _ _ _ _ _ (by decide) (by decide) (by decide)]
  simp [both, Shep.bank, State.rd_wr, RST_CAUSE, BNK_REPAIR, SHP_CNT_SWITCH]

theorem State.dGet_resetDevice_lol (s : State) (f : Fld) (keep : Bool) : (s.resetDevice f keep true).dGet CLK_STATUS fCLK_STATUS_LOL_SEEN = 1 := by
  rw [State.dGet, State.resetDevice, State.rd_cause_off _ _ (by decide) (by decide)]
  exact State.dGet_dPut_self _ _ _ _ (by decide) (by decide)

theorem State.resetDevice_edge (s : State) (f : Fld) (keep lol : Bool) : (s.resetDevice f keep lol).edge = s.edge := by
  simp [State.resetDevice, State.cause, State.pFlag, State.pPut, State.dPut, both, State.newKeys]

theorem State.resetDevice_epoch (s : State) (f : Fld) (keep lol : Bool) : (s.resetDevice f keep lol).epoch = s.epoch := by
  simp [State.resetDevice, State.cause, State.pFlag, State.pPut, State.dPut, both, State.newKeys]

/-! A reset of one shepherd that is not a lone one (R487). -/

theorem State.wipeShep_mode {s : State} {x : Shep} (f : Fld) (keep : Bool) (hsyncing : s.syncing ≠ some x) (hsync : s.sync = none) : (s.wipeShep x f keep).mode = s.mode := by
  simp [State.wipeShep, hsyncing, hsync, State.dropRegs, State.newKeys, State.pFlag, State.pPut, State.dPut]

theorem State.sh_wipeShep {s : State} {x : Shep} (f : Fld) (keep : Bool) (hsyncing : s.syncing ≠ some x) (hsync : s.sync = none) :
    ((s.wipeShep x f keep).sh x).halted = true ∧ ((s.wipeShep x f keep).sh x).fold = [] ∧
      ((s.wipeShep x f keep).sh x).msix = if f = fRST_CAUSE_SHP ∨ f = fRST_CAUSE_WATCHDOG then (s.sh x).msix else {} := by
  have hfail : ¬(s.syncing = some x ∨ (s.sync ≠ none ∧ s.active = some x)) := by simp [hsyncing, hsync]
  simp only [State.wipeShep, if_neg hfail]
  cases x <;> exact ⟨rfl, rfl, rfl⟩

/-! The reset kinds of the device that keep the epoch, the edge count and the causes. -/

/-- What such a reset leaves, of whatever kind. -/
def ResetKept (s : State) (f : Fld) (t : State) : Prop :=
  DeviceReset s t ∧ t.edge = s.edge ∧ t.epoch = s.epoch ∧ t.rd 0 SHP_CNT_SWITCH = s.rd 0 SHP_CNT_SWITCH ∧ ∀ x : Shep, t.rd x.bank RST_CAUSE = f.put (s.rd x.bank RST_CAUSE) 1

theorem resetKept_resetDevice (s : State) (f : Fld) (keep lol : Bool) : ResetKept s f (s.resetDevice f keep lol) :=
  ⟨deviceReset_resetDevice .., State.resetDevice_edge .., State.resetDevice_epoch .., State.rd_resetDevice_switch .., fun x => State.rd_resetDevice_cause s f keep lol x⟩

theorem resetKept_straps {s t : State} {f : Fld} (h : ResetKept s f t) (w : Word) (kept : Bool) : ResetKept s f { t.wr 0 RST_STRAPS w with strapsKept := kept } := by
  obtain ⟨hreset, hedge, hepoch, hswitch, hcause⟩ := h
  exact ⟨hreset, hedge, hepoch, (State.rd_wr_off _ _ _ _ _ _ (by decide) (by decide) (by decide)).trans hswitch,
    fun x => (State.rd_wr_off _ _ _ _ _ _ (by decide) (by decide) (by decide)).trans (hcause x)⟩

theorem State.rd_straps_kept (t : State) (w : Word) (kept : Bool) : State.rd { t.wr 0 RST_STRAPS w with strapsKept := kept } 0 RST_STRAPS = w :=
  State.rd_wr_self ..

theorem exists_next_of_resetKept {i : Instr} {s u : State} {f : Fld} (hdoes : Does i s u) (h : ResetKept s f u)
    (hlol : i = .pllLossOfLock → u.dGet CLK_STATUS fCLK_STATUS_LOL_SEEN = 1) (hstraps : i = .lifecycleReset → u.rd 0 RST_STRAPS = s.rd 0 RST_STRAPS) :
    ∃ t, exec i s = .next t ∧ DeviceReset s t ∧ t.edge = s.edge ∧ t.epoch = s.epoch ∧ t.rd 0 SHP_CNT_SWITCH = s.rd 0 SHP_CNT_SWITCH ∧
      (∀ x : Shep, t.rd x.bank RST_CAUSE = f.put (s.rd x.bank RST_CAUSE) 1) ∧
      (i = .pllLossOfLock → t.dGet CLK_STATUS fCLK_STATUS_LOL_SEEN = 1) ∧ (i = .lifecycleReset → t.rd 0 RST_STRAPS = s.rd 0 RST_STRAPS) := by
  obtain ⟨hreset, hedge, hepoch, hswitch, hcause⟩ := h
  exact ⟨_, hdoes, hreset, hedge, hepoch, hswitch, hcause, hlol, hstraps⟩

theorem doLifecycleReset_due {s : State} {e : Nat} {l : Nat} (hdue : s.fuses.due = some (e, l)) (hpast : e ≤ s.edge) :
    doLifecycleReset s = { (s.resetDevice fRST_CAUSE_LC false false).wr 0 RST_STRAPS (s.rd 0 RST_STRAPS) with strapsKept := true } := by
  simp only [doLifecycleReset, hdue, Nat.not_lt.mpr hpast, if_false]

theorem doPor_edge (s : State) : (doPor s).edge = 0 := rfl

theorem doPor_epoch (s : State) : (doPor s).epoch = 0 := rfl

theorem rd_doPor_cause (s : State) (x : Shep) : (doPor s).rd x.bank RST_CAUSE = fRST_CAUSE_POR.put 0 1 :=
  State.rd_both_wr (o := RST_CAUSE) _ (by decide) (fun _ => fRST_CAUSE_POR.put 0 1) x

theorem exists_next_of_reset {i : Instr} {s u : State} (hdoes : Does i s u) (h : DeviceReset s u) (hedge : u.edge = 0) (hepoch : u.epoch = 0) {w : Word}
    (hcause : ∀ x : Shep, u.rd x.bank RST_CAUSE = w) :
    ∃ t, exec i s = .next t ∧ DeviceReset s t ∧ t.edge = 0 ∧ t.epoch = 0 ∧ ∀ x : Shep, t.rd x.bank RST_CAUSE = w :=
  ⟨_, hdoes, h, hedge, hepoch, hcause⟩

end Sys2Proof.Machine

namespace Sys2Proof

/-- Settles O32. -/
theorem devicesAndShepherdsReset : Obligations.DevicesAndShepherdsReset := by
  refine ⟨fun s => ⟨exists_next_of_reset (does_of_ran rfl rfl) (deviceReset_doPor s) (doPor_edge s) (doPor_epoch s) (rd_doPor_cause s), fun i f hreset => ?_, fun straps hmode => ?_⟩,
    fun s x => ⟨does_of_ran rfl rfl, does_of_ran rfl rfl, does_of_ran rfl rfl, does_of_ran rfl rfl, fun hen hperst hrail => ?_, fun f keep hoff hreset hboot hother hsyncing hsync => ?_⟩⟩
  · rcases hreset with ⟨rfl, rfl⟩ | ⟨rfl, rfl⟩ | ⟨⟨e, l, hdue, hpast⟩, rfl, rfl⟩
    · exact exists_next_of_resetKept (does_of_ran rfl rfl) (resetKept_resetDevice s _ s.recKeep false) nofun nofun
    · exact exists_next_of_resetKept (does_of_ran rfl rfl) (resetKept_resetDevice s _ s.recKeep true) (fun _ => State.dGet_resetDevice_lol ..) nofun
    · exact exists_next_of_resetKept (does_of_ran rfl (doLifecycleReset_due hdue hpast)) (resetKept_straps (resetKept_resetDevice s _ false false) _ true) nofun
        fun _ => State.rd_straps_kept (s.resetDevice fRST_CAUSE_LC false false) _ true
  · intro n
    refine does_of_ran rfl ?_
    simp only [doResetEnd, hmode, ne_eq, not_true_eq_false, if_false]
    rfl
  · refine does_of_ran rfl ?_
    exact if_pos ⟨hen, hperst, hrail⟩
  · intro n
    have hn : n = s.wipeShep x f (keep && s.recKeep) := by
      simp [n, State.shepReset, hoff, hreset, hother, State.wipeShep_mode _ _ hsyncing hsync, hboot]
    exact ⟨hn, hn ▸ State.sh_wipeShep f _ hsyncing hsync⟩

/-- Settles O33, rail by rail. -/
theorem railsFallAndReturn : Obligations.RailsFallAndReturn := by
  refine fun s => ⟨does_of_ran rfl rfl, fun x => by cases x <;> exact does_of_ran rfl rfl, does_of_ran rfl rfl, does_of_ran rfl rfl, fun p hp => ?_, fun x => by cases x <;> exact does_of_ran rfl rfl,
    does_of_ran rfl rfl, fun p => does_of_ran rfl rfl, fun p hlow => ?_, fun p hmode hrail => ?_, fun p hmode => ?_, fun p refv hp hmode href hsrc => ?_⟩
  · have hp := Nat.not_le.mpr hp
    refine ⟨does_of_ran rfl (if_neg hp), ⟨does_of_ran rfl (if_neg hp), does_of_ran rfl (if_neg hp)⟩, fun high => ⟨does_of_ran rfl (if_neg hp), ?_⟩, does_of_ran rfl (if_neg hp), does_of_ran rfl (if_neg hp)⟩
    rintro rfl
    exact does_of_ran rfl (if_neg hp)
  · exact does_of_ran rfl (if_pos hlow)
  · refine does_of_ran rfl ?_
    exact if_pos ⟨hmode, hrail⟩
  · exact does_of_ran rfl (if_pos hmode)
  · have hgo : ¬(s.part.paddocks ≤ p ∨ ((s.pdk p).mode ≠ .run ∧ (s.pdk p).mode ≠ .reload) ∨ refState refv = 0 ∨ s.dGet (SRV_PDK_CAL p) fSRV_PDK_CAL_REF_SRC = 1) := by
      rintro (hbad | ⟨hrun, hreload⟩ | hbad | hbad)
      · exact absurd hp (Nat.not_lt.mpr hbad)
      · exact hmode.elim hrun hreload
      · exact href hbad
      · exact hsrc hbad
    exact does_of_ran rfl (if_neg hgo)

/-- Settles O34, by the steps of the boot. -/
theorem bootsAndClaims : Obligations.BootsAndClaims := by
  refine fun s x => ⟨fun b hhalted hperst hrail hcore hactive hstandby hoff hreset => ?_, fun t rest hclaims hnone hdue => ?_, fun hbusy => ?_⟩
  · intro march m
    have hgo : ¬((s.sh x).halted = false ∨ (s.sh x).perst = true ∨ (s.sh x).railLow = true ∨ (s.sh x).coreHalt = true ∨ (s.sh x).role = .active ∨ (s.sh x).role = .standby ∨
        s.mode = .off ∨ s.mode = .reset) := by
      simp [hhalted, hperst, hrail, hcore, hoff, hreset]
      exact ⟨hactive, hstandby⟩
    have hrun : doBootComplete x b s = if (b.unrepaired && march) = true then (m.modSh x fun h => { h with unrepaired := true, bootStep := 3 }).pFlag x BNK_STATUS fBNK_STATUS_UNREPAIRED else m.bootSteps x b :=
      if_neg hgo
    refine ⟨fun hun hm => does_of_ran rfl (hrun.trans (if_pos (by rw [hun, hm]; rfl))), fun hrep n => ?_⟩
    have hrun := hrun.trans (if_neg (by simp [hrep]))
    refine ⟨fun hbad => does_of_ran rfl (hrun.trans ?_), fun hgood => ?_⟩
    · simp only [State.bootSteps, hbad, if_true]
    · intro k
      refine ⟨fun hpop => does_of_ran rfl (hrun.trans ?_), fun hpop => ?_⟩
      · simp only [State.bootSteps, hgood, hpop, ne_eq, not_false_eq_true, if_true, Bool.true_eq_false, if_false]
        rfl
      · intro f g
        refine does_of_ran rfl (hrun.trans ?_)
        simp only [State.bootSteps, hgood, hpop, ne_eq, not_true_eq_false, Bool.true_eq_false, if_false]
        rfl
  · refine does_of_ran rfl ?_
    simp only [doClaimExpiry, hclaims, hnone, hdue, and_self, if_true]
  · intro img n
    refine does_of_ran rfl ?_
    simp only [doLoadCheck, hbusy, Bool.not_true, Bool.false_eq_true, if_false]
    rfl

end Sys2Proof
end

/-! ### Tick boundaries, pins, outputs and senses -/

section
open Sys2Proof Sys2Proof.Machine Claims

namespace Sys2Proof.Machine

theorem State.fireStrays_none {s : State} {upTo : Nat} (h : s.strays upTo = []) : s.fireStrays upTo = s := by
  rw [State.fireStrays, h]
  rfl

theorem State.edge_lt_nextTick (s : State) : s.edge < (s.tick + 1) * 400 := by
  rw [State.tick]
  omega

/-- The clock stands at the boundary that it ran to. -/
theorem State.toEdge_nextTick (s : State) : (s.toEdge ((s.tick + 1) * 400)).edge = (s.tick + 1) * 400 ∧ (s.toEdge ((s.tick + 1) * 400)).tick = s.tick + 1 := by
  have hedge : (s.toEdge ((s.tick + 1) * 400)).edge = (s.tick + 1) * 400 := max_eq_right s.edge_lt_nextTick.le
  exact ⟨hedge, by rw [State.tick, hedge, Nat.mul_div_cancel _ (by decide)]⟩

theorem State.writeOrder_one (s : State) (w : PendWrite) : s.writeOrder [w] = [w] := by
  by_cases hlock : w.off = LCS_LOCK <;> simp [State.writeOrder, State.placeWrite, hlock]

theorem State.applyDue_one {s : State} {w : PendWrite} (hw : s.writes = [w]) (hdue : w.due ≤ s.tick) (hfree : s.heldByFence w = false) :
    s.applyDue = State.applyReg { s with writes := [] } w.sh w.off w.val w.sel := by
  simp [State.applyDue, hw, hdue, hfree, State.writeOrder_one]

theorem State.applyDue_early {s : State} {w : PendWrite} (hw : s.writes = [w]) (hdue : s.tick < w.due) : s.applyDue = s := by
  have hrest : State.applyDue s = { s with writes := [w] } := by
    simp [State.applyDue, hw, Nat.not_le.mpr hdue, State.writeOrder]
  rw [hrest, ← hw]

theorem State.standbyTakes_of_missed {s was : State} {x : Shep} (hx : s.standby = some x) (hmiss : 0 < (s.sh x).copyMiss) : s.standbyTakes was = s.deferShared was x := by
  simp only [State.standbyTakes, hx, hmiss, if_true]

theorem State.standbyTakes_of_copied {s was : State} {x : Shep} (hx : s.standby = some x) (hmiss : (s.sh x).copyMiss = 0) : s.standbyTakes was = s := by
  simp only [State.standbyTakes, hx, hmiss, Nat.lt_irrefl, if_false]

end Sys2Proof.Machine

namespace Sys2Proof

/-- Settles O35. -/
theorem tickBoundaries : Obligations.TickBoundaries := by
  refine fun s i => ⟨fun hoff => does_of_ran rfl (if_pos hoff), fun hoff hreset => ?_, fun w hw => State.applyDue_one hw, fun w hw => State.applyDue_early hw⟩
  intro f e n m
  refine ⟨does_of_ran rfl (if_neg (not_or.mpr ⟨hoff, hreset⟩)), fun hnone => ?_, fun x => State.standbyTakes_of_missed, fun x => State.standbyTakes_of_copied⟩
  have hf : f = s := State.fireStrays_none hnone
  have he : e = s.toEdge ((s.tick + 1) * 400) := congrArg (State.toEdge · ((s.tick + 1) * 400)) hf
  rw [he]
  exact State.toEdge_nextTick s

/-- Settles O36, pin by pin. -/
theorem pinsAndClocksAct : Obligations.PinsAndClocksAct := by
  refine fun s => ⟨fun x mask hpos hlt hoff hreset hperst hrail => ?_, fun x periods hst hhold => ?_, fun hnap => ?_, fun hnap hlp => ?_, does_of_ran rfl rfl,
    fun hhold hlow hedge => ?_, fun pin falling hpin => does_of_ran rfl (if_pos hpin), does_of_ran rfl rfl, fun hwaking hexit => ?_, fun cause hexit hlp => ?_, does_of_ran rfl rfl,
    fun i up hi hoff hreset hspeed => ?_⟩
  · intro n m
    refine does_of_ran rfl ?_
    have hmask : mask % 2 ^ 32 = mask := Nat.mod_eq_of_lt hlt
    have hm : (m.sh x).stretched = (s.sh x).stretched := by simp only [m, State.sh_modSh_self]; rfl
    rw [← hm]
    unfold doDroopTrip
    rw [hmask]
    exact if_neg (by simp [hpos.ne', hoff, hreset, hperst, hrail])
  · refine does_of_ran rfl ?_
    exact if_pos ⟨hst, hhold⟩
  · refine does_of_ran rfl ?_
    have h : State.napMask { s with clearLow := true, clearHold := true, clearFell := true } = 0 := hnap
    unfold doClearLow
    extract_lets a b
    exact congrArg State.settleAll (if_pos (.inl h))
  · intro n w
    refine does_of_ran rfl ?_
    have hn : ¬(n.napMask = 0 ∨ n.lp = .deep) := by
      rintro (h | h)
      · exact hnap h
      · cases hlp.symm.trans h
    have hw : w.lp = .none := hlp
    exact congrArg State.settleAll ((if_neg hn).trans (if_pos hw))
  · refine does_of_ran rfl ?_
    exact if_pos (by simp [hhold, hlow, hedge])
  · intro r
    refine does_of_ran rfl ?_
    have hgo : ¬(s.waking = [] ∧ s.lpExit = none) := fun h => hwaking h.1
    unfold doLowPowerExit
    rw [if_neg hgo]
    simp only [hexit, if_true]
    rfl
  · intro n r
    refine does_of_ran rfl ?_
    unfold doLowPowerExit
    rcases hlp with hlp | hlp
    · simp [n, r, hlp, hexit]
    · simp [n, r, hlp, hexit]
  · refine does_of_ran rfl ?_
    exact if_neg (by simp [Nat.not_le.mpr hi, hoff, hreset, hspeed])

/-- Settles O37: the outputs, and the senses. -/
theorem outputsAndSensesWork : Obligations.OutputsAndSensesWork := by
  refine ⟨fun s c => ?_, fun s => ⟨fun x p hrole hp => ⟨fun noise g f hmode hnap hget hheard htick => ?_, fun hmode hnap => ?_, fun hsilent => ?_⟩, fun m hm hover hrep => ?_,
    fun m hvoid => does_of_ran rfl (if_pos hvoid), fun m sum t hmeas ht hmode => ?_⟩⟩
  · intro from_
    refine ⟨fun hphase => does_of_ran rfl (if_pos hphase), fun hphase => ⟨fun hoe hdis => ?_, fun hoe => ?_⟩, fun hphase => does_of_ran rfl (if_pos hphase), fun hphase => ?_,
      fun hc => ⟨fun hcur => ?_, does_of_ran rfl (if_pos hc)⟩⟩
    · refine does_of_ran rfl ((if_pos hphase).trans (if_pos ?_))
      rw [hoe, hdis]
      rfl
    · refine does_of_ran rfl ((if_pos hphase).trans (if_neg ?_))
      simp [hoe]
    · intro n
      refine ⟨fun hon => ?_, fun hon => does_of_ran rfl ((if_pos hphase).trans (if_neg (ne_true_of_eq_false hon)))⟩
      intro k
      refine does_of_ran rfl ((if_pos hphase).trans ((if_pos hon).trans ?_))
      exact if_congr Iff.rfl rfl (apply_ite (k.setDac c) _ _ _).symm
    · refine does_of_ran rfl (if_pos ?_)
      simp [hcur, hc]
  · have hloud : s.silent p = false := by simp [State.silent, hmode, hnap]
    have hrcv : s.senseHeard x p noise = some f := by
      have hgo : ¬((s.sh x).role = .off ∨ s.part.paddocks ≤ p) := not_or.mpr ⟨hrole, Nat.not_le.mpr hp⟩
      simp only [State.senseHeard, if_neg hgo, hget, Option.bind_some, hheard, Option.filter_some, htick, decide_true, if_true]
    refine does_of_ran rfl ?_
    simp only [doSenseFrame, hloud, Bool.false_eq_true, if_false, hrcv]
  · have hloud : s.silent p = false := by simp [State.silent, hmode, hnap]
    have hgo : ¬((s.sh x).role = .off ∨ s.part.paddocks ≤ p) := not_or.mpr ⟨hrole, Nat.not_le.mpr hp⟩
    refine does_of_ran rfl ((if_neg hgo).trans ?_)
    exact if_neg (by simp [hloud])
  · have hquiet : s.silent p = true := by rcases hsilent with h | h <;> simp [State.silent, h]
    have hgo : ¬((s.sh x).role = .off ∨ s.part.paddocks ≤ p) := not_or.mpr ⟨hrole, Nat.not_le.mpr hp⟩
    exact does_of_ran rfl ((if_neg hgo).trans (if_pos hquiet))
  · refine does_of_ran rfl ((if_pos hm).trans ?_)
    exact if_pos ⟨hover, hrep⟩
  · intro n
    refine does_of_ran rfl ?_
    simp only [doDarkDone, hmeas, ht, hmode, and_self, if_true]
    rfl

end Sys2Proof
end

/-! ### Windows, loops, routes and builds -/

section
open Sys2Proof Sys2Proof.Machine Claims

namespace Sys2Proof.Machine

/-! The window of a monitor, judged for one element that reads it (R111, R113). -/

/-- Element `c`'s gradient of the window of `w` ticks that monitor `m` ends. -/
def judgeWindow (x : Shep) (m w : Nat) (s : State) (c : Nat) : State :=
  if s.demodMon c = m then
    let d := (s.sh x).dm c
    let bad := decide (d.n ≠ w) || d.spoiled (s.tick - w) s.tick
    let s := s.modDemod x c fun d => { d with sum := 0, n := 0, g := if bad then none else some (d.sum * (64 / w : Nat)), noRes := bad }
    s.dPut (SNS_DITHER c) fSNS_DITHER_VOID_LAST (bitN bad)
  else s

theorem doWindowResult_ended {x : Shep} {m : Nat} {s : State} (htick : 0 < s.tick) (hend : s.tick % s.winEnded m = 0) :
    doWindowResult x m s = (s.infl m).foldl (judgeWindow x m (s.winEnded m)) s :=
  if_neg (not_or.mpr ⟨htick.ne', not_not.mpr hend⟩)

theorem judgeWindow_other {x : Shep} {m w c : Nat} {s : State} (h : s.demodMon c ≠ m) : judgeWindow x m w s c = s := if_neg h

theorem judgeWindow_whole {x : Shep} {m w c : Nat} {s : State} (h : s.demodMon c = m) (hn : ((s.sh x).dm c).n = w) (hclean : ((s.sh x).dm c).spoiled (s.tick - w) s.tick = false) :
    judgeWindow x m w s c = (s.modDemod x c fun k => { k with sum := 0, n := 0, g := some (k.sum * (64 / w : Nat)), noRes := false }).dPut (SNS_DITHER c) fSNS_DITHER_VOID_LAST 0 := by
  have hbad : (decide (((s.sh x).dm c).n ≠ w) || ((s.sh x).dm c).spoiled (s.tick - w) s.tick) = false := by simp [hn, hclean]
  refine (if_pos h).trans ?_
  simp only [hbad]
  rfl

theorem judgeWindow_bad {x : Shep} {m w c : Nat} {s : State} (h : s.demodMon c = m) (hspoiled : ((s.sh x).dm c).n ≠ w ∨ ((s.sh x).dm c).spoiled (s.tick - w) s.tick = true) :
    judgeWindow x m w s c = (s.modDemod x c fun k => { k with sum := 0, n := 0, g := none, noRes := true }).dPut (SNS_DITHER c) fSNS_DITHER_VOID_LAST 1 := by
  have hbad : (decide (((s.sh x).dm c).n ≠ w) || ((s.sh x).dm c).spoiled (s.tick - w) s.tick) = true := by simpa using hspoiled
  refine (if_pos h).trans ?_
  simp only [hbad]
  rfl

/-! The end of an element's settling (R147). -/

/-- Shepherd `x`'s copy of the settling of `c`. -/
def endSettling (c : Nat) (x : Shep) (s : State) : State :=
  match (s.dynOf x c).settle with
  | some t => if settleOver s.tick t then s.modDyn x c fun d => { d with settle := none } else s
  | none => s

theorem doSettlingEnd_both (c : Nat) (s : State) : doSettlingEnd c s = both (endSettling c) s := rfl

theorem endSettling_none {c : Nat} {x : Shep} {s : State} (h : (s.dynOf x c).settle = none) : endSettling c x s = s := by
  simp only [endSettling, h]

theorem endSettling_some {c : Nat} {x : Shep} {s : State} {t : Settle} (h : (s.dynOf x c).settle = some t) :
    endSettling c x s = if settleOver s.tick t then s.modDyn x c fun d => { d with settle := none } else s := by
  simp only [endSettling, h]

/-! The code that a route ends with (R199 to R205, R217). -/

theorem unmet_iff {l : List Nat} {outer : Nat → Prop} [DecidablePred outer] {strict : Bool} :
    (l.any (fun c => decide (outer c)) || (strict && decide (l ≠ []))) = true ↔ (∃ c ∈ l, outer c) ∨ (strict = true ∧ l ≠ []) := by
  simp [List.any_eq_true]

/-- The first code that applies, by what was found against the route. -/
def routeCode (unmet hit collateral full : Prop) [Decidable unmet] [Decidable hit] [Decidable collateral] [Decidable full] : Nat :=
  if unmet then 0x09 else if hit then 0x0A else if collateral then 0x0B else if full then 0x0C else 0

/-- How a route ends with a code. -/
def State.routeEnd (s : State) (w : Drover) (r : PlanReq) (code : Nat) (result report : List Byte) (plan : Plan) : State :=
  if code ≠ 0 then ((((if r.dryRun then s else s.unreserve r.slot).writeReport w.d report).planEnd w.d code result)).droverNext
  else if r.dryRun then ((s.writeReport w.d report).planEnd w.d 0 result).droverNext
  else s.beginBuild w.d w.slot plan result report

theorem State.routeEnd_rejected (s : State) (w : Drover) (r : PlanReq) {code : Nat} (result report : List Byte) (plan : Plan) (h : code ≠ 0) :
    s.routeEnd w r code result report plan = (((if r.dryRun then s else s.unreserve r.slot).writeReport w.d report).planEnd w.d code result).droverNext :=
  if_pos h

theorem State.routeEnd_passed (s : State) (w : Drover) (r : PlanReq) (result report : List Byte) (plan : Plan) :
    s.routeEnd w r 0 result report plan = if r.dryRun = true then ((s.writeReport w.d report).planEnd w.d 0 result).droverNext else s.beginBuild w.d w.slot plan result report :=
  if_neg (not_not.mpr rfl)

/-! The record of a build (R207 to R209). -/

theorem State.writeReport_out {s : State} {d : Desc} {bs : List Byte} (hbs : bs ≠ []) (hring : d.ring ≠ 16) (haddr : d.outAddr ≠ 0) : s.writeReport d bs = s.writeOut d.outAddr bs :=
  if_neg (not_or.mpr ⟨hring, not_or.mpr ⟨haddr, hbs⟩⟩)

/-- The end of a build that is not a refresh. -/
theorem doImageBuildDone_built {s : State} {w : Drover} (hw : s.drover = some w) (hphase : w.phase = 2) (hop : w.d.op ≠ 0x2C) :
    doImageBuildDone s = (((((s.modSlot w.slot fun k => { k with state := 2, was := 0, plan := some { w.plan with image := s.buildAll w } }).putRecord w.slot
      (if 0x28 ≤ w.d.op ∧ w.d.op ≤ 0x2A ∧ (planReq w.d.pay).store = true then some (planReq w.d.pay).planId else none)
      { w.plan with image := s.buildAll w }).writeReport w.d w.report).planEnd w.d 0 w.result)).droverNext := by
  simp only [doImageBuildDone, hw, hphase, ne_eq, not_true_eq_false, if_false, hop]

/-! The position of one element (R193). -/

/-- Element `c`'s position follows its loop. -/
def trackPos (s : State) (c : Nat) : State :=
  match s.elem? c with
  | none => s
  | some e =>
    match (s.liveSlot e.dom).bind fun i => (s.slot i).plan with
    | none => s
    | some p =>
      let st := s.rd s.lead.bank (LOOP_STAT c)
      if e.cell = 0xFFFF ∨ c ∈ s.posWr ∨ s.loopState s.lead c ≠ 4 ∨ fLOOP_STAT_WINNER.get st ≠ 0 ∨
          fLOOP_STAT_SAT_HI.get st = 1 ∨ fLOOP_STAT_SAT_LO.get st = 1 then s
      else
        let pos := posOf (s.loopPol s.lead c) (s.demand s.lead c) / 64
        s.sPut (DRO_POS c) (if e.cell ∈ p.cells then fDRO_POS_CROSS_POS else fDRO_POS_BAR_POS) pos

theorem doPositionTrack_tracked {s : State} (hedge : s.edge % 400 = 0) (htick : s.tick % 1024 = 0) (htrack : s.sGet DRO_ROUTE_CFG fDRO_ROUTE_CFG_TRACK = 1) :
    doPositionTrack s = s.mapped.foldl trackPos s :=
  if_neg (not_or.mpr ⟨not_not.mpr hedge, not_or.mpr ⟨not_not.mpr htick, not_not.mpr htrack⟩⟩)

end Sys2Proof.Machine

namespace Sys2Proof

/-- Settles O38. -/
theorem windowsEnd : Obligations.WindowsEnd := by
  refine fun s x m hm htick hend => ⟨judgeWindow x m (s.winEnded m), does_of_ran rfl ((if_pos hm).trans (doWindowResult_ended htick hend)),
    fun u c => ⟨judgeWindow_other, fun hc => ⟨judgeWindow_whole hc, judgeWindow_bad hc⟩⟩, fun w hwas => ?_, fun hwas => ?_⟩
  · simp only [State.winEnded, hwas, if_true]
  · simp only [State.winEnded, hwas]

/-- Settles O39. -/
theorem loopsRun : Obligations.LoopsRun := by
  refine fun s => ⟨fun x cap => does_of_ran rfl rfl, fun c => ⟨endSettling c, does_of_ran rfl (doSettlingEnd_both c s), fun x u => ⟨endSettling_none, fun t ht => ?_⟩⟩,
    fun x hlim hrun => ?_, fun c hlim hrun hrep => ?_, fun c hlim hrun hrep => ?_, fun hrun hhot => ?_⟩
  · exact ⟨fun hover => (endSettling_some ht).trans (if_pos hover), fun hover => (endSettling_some ht).trans (if_neg (ne_true_of_eq_false hover))⟩
  · refine does_of_ran rfl ?_
    exact if_pos ⟨hlim, hrun⟩
  · refine does_of_ran rfl ?_
    exact if_pos ⟨hlim, hrun, hrep⟩
  · refine does_of_ran rfl ?_
    exact if_pos ⟨hlim, hrun, hrep⟩
  · refine does_of_ran rfl ?_
    exact if_pos ⟨hrun, hhot⟩

/-- Settles O40: the routes by their code, the reports, the builds and the positions. -/
theorem routesBuildsAndPositions : Obligations.RoutesBuildsAndPositions := by
  refine ⟨fun s cycles w dr hw hdr hphase => ?_, fun s d bs => State.writeReport_out, fun s => ⟨fun w hw hphase => ?_, fun hedge htick htrack => ?_⟩⟩
  · intro r k perm ctx routed rep bad result full report n u rejects
    have hbad : (routed.2.any (fun c => decide (c / (dr.ports / 2) = 0 ∨ c / (dr.ports / 2) = 2 * k - 2)) || (r.strict && decide (routed.2 ≠ []))) = true ↔ bad := unmet_iff
    have hrun : ∀ code, routeCode ((routed.2.any (fun c => decide (c / (dr.ports / 2) = 0 ∨ c / (dr.ports / 2) = 2 * k - 2)) || (r.strict && decide (routed.2 ≠ []))) = true)
        (rep.hit ≠ []) (r.noCollateral = true ∧ rep.collateral ≠ []) (r.dryRun = false ∧ r.store = true ∧ s.libFull r.planId = true) = code →
        doRouteComplete cycles s = n.routeEnd w r code result (report code) { w.plan with cells := routed.1, perm := perm } := by
      rintro code rfl
      simp only [doRouteComplete, hw, hdr, hphase, ne_eq, not_true_eq_false, if_false]
      rfl
    have hrejects : ∀ code, code ≠ 0 → routeCode ((routed.2.any (fun c => decide (c / (dr.ports / 2) = 0 ∨ c / (dr.ports / 2) = 2 * k - 2)) || (r.strict && decide (routed.2 ≠ []))) = true)
        (rep.hit ≠ []) (r.noCollateral = true ∧ rep.collateral ≠ []) (r.dryRun = false ∧ r.store = true ∧ s.libFull r.planId = true) = code → rejects code :=
      fun code hne hcode => does_of_ran rfl ((hrun code hcode).trans (State.routeEnd_rejected n w r result (report code) _ hne))
    refine ⟨fun h => hrejects _ (by decide) (if_pos (hbad.mpr h)), fun h hhit => hrejects _ (by decide) ?_, fun h hhit hno hcol => hrejects _ (by decide) ?_,
      fun h hhit hcol hfull => hrejects _ (by decide) ?_, fun h hhit hcol hfull => does_of_ran rfl ((hrun 0 ?_).trans (State.routeEnd_passed n w r result (report 0) _))⟩
    all_goals refine (if_neg (mt hbad.mp h)).trans ?_
    · exact if_pos hhit
    all_goals refine (if_neg (not_not.mpr hhit)).trans ?_
    · exact if_pos ⟨hno, hcol⟩
    all_goals refine (if_neg fun hc => hc.2 (hcol hc.1)).trans ?_
    · exact if_pos hfull
    · exact if_neg hfull
  · intro p ends scratch
    refine ⟨fun hop => ?_, fun hop => ?_⟩
    · refine does_of_ran rfl ?_
      simp only [doImageBuildDone, hw, hphase, ne_eq, not_true_eq_false, if_false, hop, if_true]
      rfl
    · intro n stored
      refine ⟨fun hst => ?_, fun hst => ?_⟩
      · refine does_of_ran rfl ((doImageBuildDone_built hw hphase hop).trans ?_)
        rw [if_pos hst]
        rfl
      · refine does_of_ran rfl ((doImageBuildDone_built hw hphase hop).trans ?_)
        rw [if_neg hst]
        rfl
  · refine ⟨trackPos, does_of_ran rfl (doPositionTrack_tracked hedge htick htrack), fun u c e p he hp => ?_⟩
    intro st still
    refine ⟨fun hstill => ?_, fun hstill => ?_⟩
    · simp only [trackPos, he, hp]
      exact if_pos hstill
    · simp only [trackPos, he, hp]
      exact if_neg hstill

end Sys2Proof
end

/-! ### The paddock links, the pair and the crosstalk passes -/

section
open Sys2Proof Sys2Proof.Machine Claims

namespace Sys2Proof.Machine

/-! A loop frame at a paddock (R291 to R298). -/

theorem LoopFrame.diverges_iff (g f : LoopFrame) (p : Nat) :
    g.diverges f p = true ↔ g.epoch = f.epoch ∧ g.overrun = false ∧ f.overrun = false ∧ g.extended = false ∧ f.extended = false ∧
      g.inputMiss = false ∧ f.inputMiss = false ∧ g.codes ≠ f.codes ∧ crc32c (g.payload p) ≠ crc32c (f.payload p) := by
  simp [LoopFrame.diverges, and_assoc]

theorem LoopFrame.heard_clean (f : LoopFrame) (p : Nat) : f.heard p [] = some (f.toPdk p) := rfl

/-- Paddock `p` takes the frame of its tick: the first is kept, a second is compared with it. -/
def State.keepFrame (s : State) (p : Nat) (f : LoopFrame) : State :=
  match (s.pdk p).frame with
  | none => s.modPdk p fun k => { k with frame := some f }
  | some g =>
    if g.tick ≠ f.tick then s.modPdk p fun k => { k with frame := some f }
    else if g.diverges f p then s.diverge p else s

section
variable {s n : State} {x : Shep} {p : Nat} {noise : Noise} {f h g : LoopFrame}

theorem State.keepFrame_first (hfirst : (s.pdk p).frame = none) : s.keepFrame p f = s.modPdk p fun k => { k with frame := some f } := by
  simp only [State.keepFrame, hfirst]

theorem State.keepFrame_second (hg : (s.pdk p).frame = some g) :
    s.keepFrame p f = if g.tick ≠ f.tick then s.modPdk p fun k => { k with frame := some f } else if g.diverges f p then s.diverge p else s := by
  simp only [State.keepFrame, hg]

theorem doLoopFrame_dropped (hf : (s.sh x).frame = some f) (htick : f.tick = s.tick % 2 ^ 48) (hpass : s.hubPasses x f.epoch = false) : doLoopFrame x p noise s = s.hubDrop := by
  simp only [doLoopFrame, hf, htick, ne_eq, not_true_eq_false, if_false, hpass, Bool.not_false, if_true]

theorem doLoopFrame_damaged (hf : (s.sh x).frame = some f) (htick : f.tick = s.tick % 2 ^ 48) (hpass : s.hubPasses x f.epoch = true) (hhears : s.pdkHears p = true)
    (hheard : f.heard p noise = none) : doLoopFrame x p noise s = s.damaged p := by
  simp only [doLoopFrame, hf, ne_eq, htick, not_true_eq_false, if_false, hpass, Bool.not_true, hhears, Bool.false_eq_true, hheard]

/-- A frame that its hub passes, and that a paddock hears: its epoch, then its tick. -/
theorem doLoopFrame_heard (hf : (s.sh x).frame = some f) (htick : f.tick = s.tick % 2 ^ 48) (hpass : s.hubPasses x f.epoch = true) (hhears : s.pdkHears p = true)
    (hheard : f.heard p noise = some h) {take : Bool} (htake : s.takeEpoch p h.epoch = (take, n)) :
    doLoopFrame x p noise s = if (!take || decide (h.tick ≠ n.tick % 2 ^ 48)) = true then n else n.keepFrame p h := by
  simp only [doLoopFrame, hf, htick, ne_eq, not_true_eq_false, if_false, hpass, Bool.not_true, hhears, Bool.false_eq_true, hheard, htake]
  rfl

end

/-! A control frame at a paddock (R291 to R298). -/

theorem CtlFrame.heard_clean {f : CtlFrame} {p : Nat} (h : f.pdk = p) : f.heard p [] = some f := if_pos h

/-- The number before a paddock's first control frame is that frame's predecessor. -/
def State.firstCtl (s : State) (p : Nat) (f : CtlFrame) : State :=
  if (s.pdk p).ctlAny then s.modPdk p fun k => { k with ctlAny := false, ctlSeq := (f.ctlSeq + 2 ^ 32 - 1) % 2 ^ 32 } else s

/-- Paddock `p` takes a control frame by its number. -/
def State.takeCtl (s : State) (p : Nat) (f : CtlFrame) : State :=
  let k := s.pdk p
  let ahead := (f.ctlSeq + 2 ^ 32 - k.ctlSeq) % 2 ^ 32
  if ahead = 0 ∨ 2 ^ 31 ≤ ahead ∨ k.held.any (fun g => decide (g.ctlSeq = f.ctlSeq)) = true then s.ctlDuplicate p f
  else if ahead = 1 then applyHeld p 8 (s.applyCtl p f)
  else if 8 ≤ k.held.length then s
  else s.setPdk p { k with held := k.held ++ [f] }

section
variable {s n : State} {kind : CtlKind} {x : Shep} {p : Nat} {noise : Noise} {f h : CtlFrame} {rest : List CtlFrame}

/-- The frame at the front of a link leaves it, and the hub looks at it. -/
theorem doCtlFrame_front (hlink : Tab.get s.links [] (linkKey p x) = f :: rest) (hkind : f.kind = kind) {u : State} (hu : u = { s with links := Tab.set s.links [] (linkKey p x) rest }) :
    doCtlFrame kind x p noise s = if !u.hubPasses x f.epoch then u.hubDrop else if !u.pdkHears p then u
      else match f.heard p noise with
      | none => u.damaged p
      | some f => if !(u.takeEpoch p f.epoch).1 then (u.takeEpoch p f.epoch).2 else ((u.takeEpoch p f.epoch).2.firstCtl p f).takeCtl p f := by
  subst hu
  simp only [doCtlFrame, hlink, hkind, ne_eq, not_true_eq_false, if_false]
  rfl

end

/-! What a resynchronisation has left. -/

theorem State.sum_left_eq_zero {l : List (Nat × Nat)} (h : ∀ e ∈ l, e.2 = 0) : (l.map fun e => e.2).sum = 0 :=
  List.sum_eq_zero fun _ hx => by obtain ⟨e, he, rfl⟩ := List.mem_map.mp hx; exact h e he

/-- One term of a pass comes into force (R165). -/
def loadTerm (x : Shep) (s : State) (e : Nat × Int × Bool) : State :=
  let s := s.pPut x (CMP_XT_TERM e.1) fCMP_XT_TERM_TERM (ofSigned 24 e.2.1)
  if e.2.2 then (s.pFlag x (CMP_CH_STAT e.1) fCMP_CH_STAT_XT_SAT).pFlag x CMP_STATUS fCMP_STATUS_XT_SAT_ANY else s

end Sys2Proof.Machine

namespace Sys2Proof

/-- Settles O41: the loop frames, the control frames and their gaps. -/
theorem loopAndControlFramesArrive : Obligations.LoopAndControlFramesArrive := by
  refine ⟨fun s x p f hf htick => ⟨fun noise hpass => does_of_ran rfl (doLoopFrame_dropped hf htick hpass), f.heard_clean p,
      fun hpass hhears noise => ⟨fun hnone => does_of_ran rfl (doLoopFrame_damaged hf htick hpass hhears hnone), fun h hheard n => ?_⟩⟩,
    fun s i kind x p noise f rest hi hlink hkind => ?_, fun s p hheld hopen => ?_⟩
  · refine ⟨fun htake => does_of_ran rfl ((doLoopFrame_heard hf htick hpass hhears hheard htake).trans (if_pos rfl)),
      fun htake hold => does_of_ran rfl ((doLoopFrame_heard hf htick hpass hhears hheard htake).trans (if_pos (by simpa using hold))), fun htake hnow => ?_⟩
    have hrun := (doLoopFrame_heard hf htick hpass hhears hheard htake).trans (if_neg (by simpa using hnow))
    refine ⟨fun hfirst => does_of_ran rfl (hrun.trans (State.keepFrame_first hfirst)), fun g hg => ?_⟩
    intro differs
    have hrun := hrun.trans (State.keepFrame_second hg)
    have hdiff := LoopFrame.diverges_iff g h p
    exact ⟨fun hne => does_of_ran rfl (hrun.trans (if_pos hne)), fun heq hd => does_of_ran rfl (hrun.trans ((if_neg (not_not.mpr heq)).trans (if_pos (hdiff.mpr hd)))),
      fun heq hd => does_of_ran rfl (hrun.trans ((if_neg (not_not.mpr heq)).trans (if_neg (mt hdiff.mp hd))))⟩
  · intro u
    have hdoes : ∀ t, doCtlFrame kind x p noise s = t → Does i s t := by
      rintro t rfl
      rcases hi with ⟨rfl, rfl⟩ | ⟨rfl, rfl⟩ | ⟨rfl, rfl⟩ | ⟨rfl, rfl⟩ <;> exact does_of_ran rfl rfl
    have hfront := doCtlFrame_front (noise := noise) hlink hkind (u := u) rfl
    refine ⟨fun hpass => hdoes _ (hfront.trans (if_pos (by rw [hpass]; rfl))), CtlFrame.heard_clean, fun hpass hhears => ?_⟩
    have hheard := hfront.trans ((if_neg (by simp [hpass])).trans (if_neg (by simp [hhears])))
    refine ⟨fun hnone => hdoes _ (hheard.trans (by simp only [hnone])), fun h hh n => ?_⟩
    simp only [hh] at hheard
    refine ⟨fun htake => hdoes _ (hheard.trans (by simp [htake])), fun htake => ?_⟩
    simp only [htake, Bool.not_true, Bool.false_eq_true, if_false] at hheard
    intro m ahead again kept
    have hrun : doCtlFrame kind x p noise s = m.takeCtl p h := hheard
    have hagain : again ↔ ahead = 0 ∨ 2 ^ 31 ≤ ahead ∨ (m.pdk p).held.any (fun g => decide (g.ctlSeq = h.ctlSeq)) = true := by
      simp [again]
    refine ⟨fun hag => ?_, fun hag h1 => hdoes _ (hrun.trans ?_), fun hag h1 hlen => hdoes _ (hrun.trans ?_), fun hag h1 hlen => hdoes _ (hrun.trans ?_)⟩
    · have hdup : doCtlFrame kind x p noise s = (match kept with | some q => if q.1 = h.epoch ∧ q.2 ≠ crc32c h.payload then m.diverge p else m | none => m) :=
        hrun.trans (if_pos (hagain.mp hag))
      refine ⟨fun q hq hepoch hcrc => hdoes _ (hdup.trans ?_), fun hsame => hdoes _ (hdup.trans ?_)⟩
      · rw [hq]
        exact if_pos ⟨hepoch, hcrc⟩
      · rcases hsame with hnone | ⟨q, hq, hsame⟩
        · rw [hnone]
        · rw [hq]
          exact if_neg fun hd => hsame.elim (absurd hd.1) hd.2
    · exact (if_neg (mt hagain.mpr hag)).trans (if_pos h1)
    · exact (if_neg (mt hagain.mpr hag)).trans ((if_neg h1).trans (if_neg (Nat.not_le.mpr hlen)))
    · exact (if_neg (mt hagain.mpr hag)).trans ((if_neg h1).trans (if_pos hlen))
  · refine does_of_ran rfl ((if_neg hheld).trans ?_)
    have hgap : s.pdkErr p fSHP_PDK_ERR_GAP.lo = s.dCount (SHP_PDK_ERR p) fSHP_PDK_ERR_GAP 1 := if_neg (ne_true_of_eq_false hopen)
    rw [hgap]

/-- Settles O42: the copy records, the role changes, and the stages of a resynchronisation. -/
theorem pairChangesAndResynchronises : Obligations.PairChangesAndResynchronises := by
  refine ⟨fun s => ⟨fun hworks hto => ?_, fun ok r hrec htick hto => ?_, fun x a hx ha hmiss halive => ?_, fun x hx hlim hrun => ?_, fun x hlost => ⟨fun hrole hother => ?_, fun hrole hother => ?_,
      fun hrole => ⟨fun y hy => ⟨fun halive hown => ?_, fun hdead hgone => ?_⟩, fun hnone => ?_⟩⟩, fun b x y hb hx hy hdue => ?_⟩,
    fun s y hsync => ⟨fun x hx => ⟨fun hstage hpages htodo => ?_, fun hstage htodo => ?_, fun hstage hagree => ?_⟩, fun htime => ?_⟩⟩
  · refine ⟨match s.sync with | some y => if y.stage = 3 then sortN (y.left ++ s.differing).dedup else s.differing | none => s.differing, fun y hy hstage => ?_, fun hstage => ?_, ?_⟩
    · simp only [hy, hstage, if_true]
    · cases hs : s.sync with
      | none => rfl
      | some y => exact if_neg fun h => hstage (by rw [hs, Option.map_some, h])
    · refine does_of_ran rfl ?_
      exact if_pos ⟨hworks, hto⟩
  · refine does_of_ran rfl ?_
    simp only [doCopyReceive, hrec]
    exact if_pos ⟨htick, hto⟩
  · intro n
    refine does_of_ran rfl ?_
    simp only [doCopyMissLimit, hx, ha]
    exact if_pos ⟨hmiss, halive⟩
  · refine does_of_ran rfl ?_
    simp only [doDivergenceLimit, hx]
    exact if_pos ⟨hlim, hrun⟩
  · refine does_of_ran rfl ?_
    simp only [doShepherdLost, hlost, Bool.not_true, Bool.false_eq_true, if_false, hrole, if_true, hother]
  · refine does_of_ran rfl ?_
    simp only [doShepherdLost, hlost, Bool.not_true, Bool.false_eq_true, if_false, hrole, if_true, hother]
  · refine does_of_ran rfl ?_
    simp only [doShepherdLost, hlost, Bool.not_true, Bool.false_eq_true, if_false, hrole, hy]
    exact if_pos ⟨halive, hown⟩
  · refine does_of_ran rfl ?_
    simp only [doShepherdLost, hlost, Bool.not_true, Bool.false_eq_true, if_false, hrole, hy, hgone, if_true]
    exact if_neg fun h => hdead h.1
  · refine does_of_ran rfl ?_
    simp only [doShepherdLost, hlost, Bool.not_true, Bool.false_eq_true, if_false, hrole, hnone]
  · intro n
    refine ⟨fun j hj hphase => does_of_ran rfl ?_, fun hnone => does_of_ran rfl ?_⟩
    · have hj : State.job? ((s.setRole x .standby).grant y 1) .handover = some j := hj
      simp only [doHandoverGrant, hb, hx, hy, hdue, if_true, hj, hphase]
      rfl
    · have hnone : State.job? ((s.setRole x .standby).grant y 1) .handover = none := hnone
      simp only [doHandoverGrant, hb, hx, hy, hdue, if_true, hnone]
      rfl
  · intro z
    have hleft : s.syncLeft y = 0 := by simp [State.syncLeft, State.sum_left_eq_zero htodo, Nat.sub_eq_zero_of_le hpages]
    have hz : s.syncLeft z = (s.recUnits.map fun e => e.2).sum := Nat.zero_add _
    refine does_of_ran rfl ?_
    simp only [doResyncBank, hsync, hx, hstage, hleft, and_self, if_true]
    exact congrArg (State.resyncStage _ 2) hz
  · intro n
    have hleft : s.syncLeft y = 0 := by simp [State.syncLeft, State.sum_left_eq_zero htodo, hstage]
    refine does_of_ran rfl ?_
    simp only [doResyncLibrary, hsync, hx]
    exact if_pos ⟨hstage, hleft⟩
  · refine does_of_ran rfl ?_
    simp only [doResyncState, hsync, hx]
    exact if_pos ⟨hstage, hagree⟩
  · refine does_of_ran rfl ?_
    simp only [doResyncTimeout, hsync]
    exact if_pos (.inl htime)

/-- Settles O43. -/
theorem crosstalkPasses : Obligations.CrosstalkPasses := by
  refine fun s x hpasses hruns => ⟨fun hedge hn0 hnext hperiod => ?_, fun hen => if_pos (by rw [hen]; decide), ?_, fun n0 hn0 => ?_, fun r hready htick => ?_⟩
  · intro n u
    refine does_of_ran rfl ?_
    exact if_pos (by simp [hpasses, hruns, hedge, hn0, hnext, hperiod])
  · intro f hen hrec hlost
    have hno : (!s.recording x || f.recLost x) = false := by rw [hrec, hlost]; rfl
    refine (if_neg (not_not.mpr hen)).trans ?_
    simp only [hrec, Bool.not_true, Bool.false_eq_true, if_false, Bool.false_or]
    exact if_neg (ne_true_of_eq_false hlost)
  · intro n m
    refine does_of_ran rfl ?_
    simp only [doPassDone, hpasses, hruns, Bool.and_self, Bool.not_true, Bool.false_eq_true, if_false, hn0]
    rfl
  · refine ⟨loadTerm x, does_of_ran rfl ?_, fun u v t => ⟨rfl, rfl⟩⟩
    simp only [doTermsInForce, hpasses, hruns, Bool.and_self, Bool.not_true, Bool.false_eq_true, if_false, hready, htick, if_true]
    rfl

end Sys2Proof
end

/-! ### The host rings, telemetry, and errors -/

section
open Sys2Proof Sys2Proof.Machine Claims

namespace Sys2Proof.Machine

/-! A withheld vector (R353). -/

theorem doHoldoffEnd_free {s : State} {x : Shep} {v : Nat} (hheld : v ∈ (s.sh x).irqHeld) (hfree : s.irqFree x v = true) : doHoldoffEnd x v s = s.irqSend x v :=
  if_pos ⟨hheld, hfree⟩

theorem State.modSh_congr (s : State) (x : Shep) {f g : ShepSt → ShepSt} (h : f (s.sh x) = g (s.sh x)) : s.modSh x f = s.modSh x g := by
  cases x
  · exact congrArg (fun k => { s with shA := k }) h
  · exact congrArg (fun k => { s with shB := k }) h

theorem State.irqSend_off {s : State} {x : Shep} {v : Nat} (hoff : (s.sh x).msix.on = false) :
    s.irqSend x v = s.modSh x fun h => { h with irqHeld := h.irqHeld.filter fun w => decide (w ≠ v) } :=
  if_pos hoff

theorem State.irqSend_masked {s : State} {x : Shep} {v : Nat} (hon : (s.sh x).msix.on = true) (hmask : (s.sh x).msix.allMasked = true ∨ v ∈ (s.sh x).msix.masked) :
    s.irqSend x v = s.modSh x fun h => { h with
      msix := { (s.sh x).msix with pbits := if v ∈ (s.sh x).msix.pbits then (s.sh x).msix.pbits else (s.sh x).msix.pbits ++ [v] }
      irqHeld := h.irqHeld.filter fun w => decide (w ≠ v) } :=
  (if_neg (ne_false_of_eq_true hon)).trans (if_pos hmask)

theorem State.irqSend_sent {s : State} {x : Shep} {v : Nat} (hon : (s.sh x).msix.on = true) (hall : (s.sh x).msix.allMasked = false) (hmask : v ∉ (s.sh x).msix.masked) :
    s.irqSend x v = (s.send (.msix x v)).modSh x fun h => { h with irqLast := Tab.set h.irqLast 0 v (s.edge + 1), irqHeld := h.irqHeld.filter fun w => decide (w ≠ v) } :=
  (if_neg (ne_false_of_eq_true hon)).trans (if_neg (by simp [hall, hmask]))

/-! An uncorrectable error of a bank (R434, R440). -/

theorem doBankEccError_double (s : State) (x : Shep) (bank word : Nat) (off : Option Nat) : doBankEccError x true bank word off s = (s.bankLatch x bank word).bankMend x bank off := rfl

theorem State.bankLatch_part (s : State) (x : Shep) (bank word : Nat) : (s.bankLatch x bank word).part = s.part :=
  State.part_of_quiet ((State.pFlag_quiet ..).trans ((State.pCount_quiet ..).trans ((State.pPut_quiet ..).trans (State.pPut_quiet ..))))

/-- The report of an uncorrectable word, with what was done about it. -/
def State.bankTold (s : State) (x : Shep) (act : Nat) : State := s.report ⟨0x0D, .shepherd, x.num, 4, none, act⟩

section
variable {s : State} {x : Shep} {bank o : Nat}

theorem State.bankMend_work (hwork : workBank s.part bank = true) : s.bankMend x bank none = s.bankTold x 0 := by
  simp only [State.bankMend, hwork, Bool.not_true, Bool.not_false, if_true, State.bankTold]

theorem State.bankMend_own (ho : sharedOff o = false) : s.bankMend x bank (some o) = s.bankTold x 0 := by
  simp only [State.bankMend, ho, Bool.not_false, if_true, State.bankTold]

theorem State.bankMend_copied (hpeer : (s.sh x.other).writes = true) (hwork : workBank s.part bank = false) : s.bankMend x bank none = s.bankTold x 1 := by
  simp only [State.bankMend, hwork, hpeer, Bool.not_false, Bool.not_true, Bool.false_eq_true, if_false, if_true, State.bankTold]

theorem State.bankMend_word_copied (hpeer : (s.sh x.other).writes = true) (ho : sharedOff o = true) :
    s.bankMend x bank (some o) = (s.bankTold x 1).wr x.bank o ((s.bankTold x 1).rd x.other.bank o) := by
  simp only [State.bankMend, ho, hpeer, Bool.not_true, Bool.false_eq_true, if_false, if_true, State.bankTold]

theorem State.bankMend_zeroed (hpeer : (s.sh x.other).writes = false) (hwork : workBank s.part bank = false) : s.bankMend x bank none = s.bankTold x 2 := by
  simp only [State.bankMend, hwork, hpeer, Bool.not_false, Bool.not_true, Bool.false_eq_true, if_false, State.bankTold]

theorem State.bankMend_word_zeroed (hpeer : (s.sh x.other).writes = false) (ho : sharedOff o = true) : s.bankMend x bank (some o) = (s.bankTold x 2).wr x.bank o 0 := by
  simp only [State.bankMend, ho, hpeer, Bool.not_true, Bool.false_eq_true, if_false, State.bankTold]

end

end Sys2Proof.Machine

namespace Sys2Proof

/-- Settles O44. -/
theorem hostRingsMove : Obligations.HostRingsMove := by
  refine fun s x => ⟨fun line hpolls hen => ?_, fun r es c ds hc hds hpolls hr hon hrun hlen hwrap hroom hfold => ?_, fun hpolls => ⟨?_, fun r hon hrun hr => ?_, fun r i => ?_⟩,
    fun hwrites hen hdue => ?_, fun v hv hfree => ?_, fun hwrites => ⟨does_of_ran rfl (if_pos hwrites), does_of_ran rfl (if_pos hwrites)⟩⟩
  · refine does_of_ran rfl ?_
    exact if_neg (by simp [hpolls, hen])
  · subst hc hds
    refine does_of_ran rfl ?_
    exact if_neg (by simp [hpolls, hr, hon, hrun, hlen, hwrap, hroom, hfold])
  · intro n
    refine does_of_ran rfl ?_
    simp only [doHostReadError, hpolls, Bool.not_true, Bool.false_eq_true, if_false]
    rfl
  · refine does_of_ran rfl ?_
    simp only [doHostReadError, hpolls, Bool.not_true, Bool.false_eq_true, if_false]
    exact if_neg (by simp [hon, hrun, hr])
  · refine does_of_ran rfl ?_
    simp only [doHostReadError, hpolls, Bool.not_true, Bool.false_eq_true, if_false]
  · intro seq l n
    refine does_of_ran rfl ?_
    exact if_neg (by simp [hwrites, hen]; rcases hdue with h | h <;> [exact fun hb => absurd hb h; exact fun _ => h])
  · intro m held
    exact ⟨fun hon hall hmask => does_of_ran rfl ((doHoldoffEnd_free hv hfree).trans ((State.irqSend_sent hon hall hmask).trans (State.modSh_congr _ _ (by rw [State.sh_send])))),
      fun hon hmask => does_of_ran rfl ((doHoldoffEnd_free hv hfree).trans ((State.irqSend_masked hon hmask).trans (State.modSh_congr _ _ rfl))),
      fun hoff => does_of_ran rfl ((doHoldoffEnd_free hv hfree).trans ((State.irqSend_off hoff).trans (State.modSh_congr _ _ rfl)))⟩

/-- Settles O45. -/
theorem telemetryIsSent : Obligations.TelemetryIsSent := by
  refine fun s => ⟨fun power headroom hactive hdue => ?_, fun n hn hsome hfull => ?_⟩
  · intro src n a b e f
    refine does_of_ran rfl ?_
    exact if_neg (not_or.mpr ⟨hactive, Nat.not_lt.mpr hdue⟩)
  · subst hn
    intro u
    have hgo : ¬(min 16 s.tlmWait.length = 0 ∨ (min 16 s.tlmWait.length < 16 ∧ s.edge < s.tlmSince + 40000)) := by
      omega
    have hrun : doTelemetryFrame s = match u.keys.ctl0 with
      | none => u.dCount ETH_CTL_STAT fETH_CTL_STAT_TLM_DROP (min 16 s.tlmWait.length)
      | some key => State.queueTx { u with netSeq := (u.netSeq + 1) % 2 ^ 64 } 1 (u.ctlFrame key (u.macOf ETH_TLM_DST_LO ETH_TLM_DST_HI) 1 3 0 u.netSeq none
        (leBytes 1 (min 16 s.tlmWait.length)) (s.tlmWait.take 16).flatten) none (min 16 s.tlmWait.length) := if_neg hgo
    refine ⟨fun hkey => does_of_ran rfl (hrun.trans ?_), fun key hkey => does_of_ran rfl (hrun.trans ?_)⟩
    · have hkey : u.keys.ctl0 = none := hkey
      rw [hkey]
    · have hkey : u.keys.ctl0 = some key := hkey
      rw [hkey]

/-- Settles O46. -/
theorem errorsAndSensorsShow : Obligations.ErrorsAndSensorsShow := by
  refine fun s x => ⟨fun u => ⟨does_of_ran rfl rfl, does_of_ran rfl rfl⟩, fun bank word off => ⟨does_of_ran rfl rfl, ?_⟩, fun m t addr beats hbad => ?_, fun m t write addr beats hrefuse hm hperst hrail hoff hreset => ?_,
    fun power hoff hreset => ?_, fun t meas ht hen hoff hreset hdue => ?_⟩
  · intro a b told
    have hb : s.bankLatch x bank word = b := rfl
    clear_value b
    subst hb
    have hpart := s.bankLatch_part x bank word
    have hrun : ∀ off t, (s.bankLatch x bank word).bankMend x bank off = t → Does (.bankEccError x true bank word off) s t :=
      fun off t h => does_of_ran rfl ((doBankEccError_double s x bank word off).trans h)
    refine ⟨fun hwork => hrun _ _ (State.bankMend_work (hpart.symm ▸ hwork)), fun o ho => hrun _ _ (State.bankMend_own ho),
      fun hpeer => ⟨fun hwork => hrun _ _ (State.bankMend_copied hpeer (hpart.symm ▸ hwork)), fun o ho => hrun _ _ (State.bankMend_word_copied hpeer ho)⟩,
      fun hpeer => ⟨fun hwork => hrun _ _ (State.bankMend_zeroed hpeer (hpart.symm ▸ hwork)), fun o ho => hrun _ _ (State.bankMend_word_zeroed hpeer ho)⟩⟩
  · have hburst : burstBad addr beats = true := by
      simp [burstBad]
      omega
    simp only [matrixRefuses, hburst, Bool.or_true]
  · intro n
    have hup : s.matrixDown x = false := by simp [State.matrixDown, hperst, hrail, hoff, hreset]
    have hrun : doMatrixRefused x m t write addr beats s = s.refuse x m t write addr := if_neg (by simp [hrefuse, hm, hup])
    refine ⟨fun hfirst => ?_, fun hlater => ?_⟩
    · intro a b
      exact does_of_ran rfl (hrun.trans (if_pos (decide_eq_true hfirst)))
    · exact does_of_ran rfl (hrun.trans (if_neg (by simpa using hlater)))
  · have hup : ¬(s.mode = .off ∨ s.mode = .reset) := not_or.mpr ⟨hoff, hreset⟩
    refine ⟨does_of_ran rfl (if_neg hup), does_of_ran rfl (if_neg hup), does_of_ran rfl (if_neg hup), fun hruns => does_of_ran rfl ((if_neg hup).trans ?_), fun ha hb => does_of_ran rfl ((if_neg hup).trans ?_)⟩
    · have hruns : ((s.sh .A).writes || (s.sh .B).writes) = true := by simpa using hruns
      simp only [hruns, if_true]
    · simp only [ha, hb, Bool.or_self, Bool.false_eq_true, if_false]
  · intro n
    have hgo : ¬(4 ≤ t ∨ s.dGet (PDK_TEC_CFG t) fPDK_TEC_CFG_EN = 0 ∨ s.mode = .off ∨ s.mode = .reset ∨ s.tick < (Tab.get s.tecs {} t).due) := by
      simp [ht, hen, hoff, hreset, hdue]
    refine ⟨fun hopen => does_of_ran rfl ((if_neg hgo).trans (if_pos hopen)), fun hshort => does_of_ran rfl ((if_neg hgo).trans ((if_neg (Nat.not_le.mpr (by omega : meas < 0xFFFF))).trans (if_pos hshort))),
      fun hlo hhi hfault => does_of_ran rfl ((if_neg hgo).trans ((if_neg (Nat.not_le.mpr hhi)).trans ((if_neg (Nat.not_lt.mpr hlo)).trans (if_neg ?_))))⟩
    simp [hfault]

end Sys2Proof
end

/-! ### Frames of the network ports, PTP and the time -/

section
open Sys2Proof Sys2Proof.Machine Claims

namespace Sys2Proof.Machine

/-! A frame that a port receives (R361 to R364, R409). -/

/-- A frame that is no duplicate is delivered, or forwarded around its ring. -/
def State.passOn (s : State) (i : Nat) (f : EthFrame) (hsr own : Bool) : State :=
  let s := if own || bitAt (leAt f.dst 0 1) 0 then s.deliver i f else s
  if hsr && !own then s.forward i f else s

/-- What is done with a frame that the policer passed. -/
def State.takePolled (s : State) (i : Nat) (f : EthFrame) (hsr : Bool) : State :=
  if f.etype = 0x8808 then s.dCount (ETH_PORT_STAT i) fETH_PORT_STAT_PAUSE 1
  else if s.hasMac (i / 2) = false ∧ f.etype ≠ 0x88F7 then s
  else if hsr && decide (f.src = s.mac (i / 2)) then s
  else
    let r := match f.red with
      | some (seq, _) => (s.seeNode (i / 2) (leNat f.src)).duplicate (i / 2) (leNat f.src) seq
      | none => (false, s)
    if r.1 then r.2 else r.2.passOn i f hsr (decide (f.dst = s.mac (i / 2)))

section
variable {s n m : State} {i : Nat} {f : EthFrame} {hsr : Bool}

theorem doFrameReceive_police (hup : s.portUp i = true) (hlen : f.len (s.hsr (i / 2)) ≤ 9216) {pass : Bool} (hpolice : s.police i f (f.len (s.hsr (i / 2))) = (pass, n)) :
    doFrameReceive i f true s = if pass = false then n else n.takePolled i f (s.hsr (i / 2)) := by
  have hgood : ¬(s.portUp i = false ∨ true = false) := by simp [hup]
  simp only [doFrameReceive, if_neg hgood, Nat.not_lt.mpr hlen, if_false, hpolice]
  rfl

theorem State.takePolled_pause (hpause : f.etype = 0x8808) : n.takePolled i f hsr = n.dCount (ETH_PORT_STAT i) fETH_PORT_STAT_PAUSE 1 := if_pos hpause

/-- A frame for the tables: neither a pause, nor without an address of the pair, nor the pair's own. -/
theorem State.takePolled_table (hpause : f.etype ≠ 0x8808) (hmac : n.hasMac (i / 2) = true ∨ f.etype = 0x88F7) (hsrc : hsr = true → f.src ≠ n.mac (i / 2)) {dup : Bool}
    (htable : (match f.red with | some (seq, _) => (n.seeNode (i / 2) (leNat f.src)).duplicate (i / 2) (leNat f.src) seq | none => (false, n)) = (dup, m)) :
    n.takePolled i f hsr = if dup = true then m else m.passOn i f hsr (decide (f.dst = n.mac (i / 2))) := by
  have hmac : ¬(n.hasMac (i / 2) = false ∧ f.etype ≠ 0x88F7) := by
    rintro ⟨hno, hother⟩
    rcases hmac with h | h
    · exact absurd (h.symm.trans hno) (by decide)
    · exact hother h
  have hown : ¬(hsr && decide (f.src = n.mac (i / 2))) = true := by simpa using hsrc
  simp only [State.takePolled, if_neg hpause, if_neg hmac, if_neg hown]
  rw [htable]

theorem State.passOn_eq (s : State) (i : Nat) (f : EthFrame) (hsr own : Bool) :
    s.passOn i f hsr own = if hsr = true ∧ own = false then (if own = true ∨ bitAt (leAt f.dst 0 1) 0 = true then s.deliver i f else s).forward i f
      else if own = true ∨ bitAt (leAt f.dst 0 1) 0 = true then s.deliver i f else s := by
  simp only [State.passOn, Bool.or_eq_true, Bool.and_eq_true, Bool.not_eq_true']

end

/-! A shepherd's offer at the hub (R295, R296, R298). -/

/-- The hub takes the frame that shepherd `x` offers. -/
def State.hubTakes (s : State) (x : Shep) (differs : Bool) (epoch : Nat) (t : TxFrame) : State :=
  if !s.hubPasses x epoch then s.hubDrop
  else match t.first with
  | none =>
    let r := s.hubSend t
    let e := (s.edge, epoch)
    let mark := fun (u : TxFrame) => if u.num = t.num then { u with first := some e } else u
    let s := { r.2 with tx := r.2.tx.map mark }
    if r.1 = false ∧ t.tlm ≠ 0 then s.dCount ETH_CTL_STAT fETH_CTL_STAT_TLM_DROP t.tlm else s
  | some e =>
    if s.edge ≤ e.1 + 25600 then
      if differs && decide (e.2 = epoch) then { s.dCount SHP_HUB_DIV fSHP_HUB_DIV_COUNT 1 with divNow := true } else s
    else s.dCount SHP_HUB_DROP fSHP_HUB_DROP_COUNT 1

section
variable {s : State} {x : Shep} {differs : Bool} {epoch : Nat} {t : TxFrame}

theorem doOffer_offered (hoffers : (s.sh x).offering = true) (hopen : bitAt (s.rd x.bank CLK_XING_FENCE).toNat 19 = false)
    (ht : (s.formReplies.tx.find? fun t => decide (t.num = (s.formReplies.sh x).offers)) = some t) :
    doOffer x differs s = ((s.formReplies.modSh x fun h => { h with offers := (h.offers + 1) % 2 ^ 32 }).hubTakes x differs
      (s.formReplies.pGet x SHP_STATUS fSHP_STATUS_EPOCH) t).forgetTx := by
  have hgo : ¬((s.sh x).offering = false ∨ bitAt (s.rd x.bank CLK_XING_FENCE).toNat 19 = true) := by simp [hoffers, hopen]
  simp only [doOffer, if_neg hgo, ht]
  rfl

theorem State.hubTakes_dropped (hpass : s.hubPasses x epoch = false) : s.hubTakes x differs epoch t = s.hubDrop := if_pos (by rw [hpass]; rfl)

theorem State.hubTakes_first (hpass : s.hubPasses x epoch = true) (hfirst : t.first = none) :
    s.hubTakes x differs epoch t = if (s.hubSend t).1 = false ∧ t.tlm ≠ 0 then
        State.dCount { (s.hubSend t).2 with tx := (s.hubSend t).2.tx.map fun (k : TxFrame) => if k.num = t.num then { k with first := some (s.edge, epoch) } else k }
          ETH_CTL_STAT fETH_CTL_STAT_TLM_DROP t.tlm
      else { (s.hubSend t).2 with tx := (s.hubSend t).2.tx.map fun (k : TxFrame) => if k.num = t.num then { k with first := some (s.edge, epoch) } else k } := by
  simp only [State.hubTakes, hpass, Bool.not_true, Bool.false_eq_true, if_false, hfirst]

theorem State.hubTakes_later {e : Nat × Nat} (hpass : s.hubPasses x epoch = true) (hlater : t.first = some e) :
    s.hubTakes x differs epoch t = if s.edge ≤ e.1 + 25600 then
        if (differs && decide (e.2 = epoch)) = true then { s.dCount SHP_HUB_DIV fSHP_HUB_DIV_COUNT 1 with divNow := true } else s
      else s.dCount SHP_HUB_DROP fSHP_HUB_DROP_COUNT 1 := by
  simp only [State.hubTakes, hpass, Bool.not_true, Bool.false_eq_true, if_false, hlater]

end

/-! A message timer (R372, R389). -/

/-- The messages of a timer that has expired are sent where the pair sends. -/
theorem doPtpTimer_expired {s : State} {k : Nat} (hk : k < 3) (hdue : (s.ptp.due[k]?).getD 0 ≤ s.edge) (hlp : s.lp = .none) (hcfg : ∀ j, k = 1 → s.job? .ptpConfig ≠ some j)
    {n : State} (hn : n = s.modPtp fun q => { q with due := s.ptp.due.set k (s.edge + edgesLog (s.ptp.log (8 + k))) }) :
    doPtpTimer k s = if (decide ((k = 2 ∧ (n.ptp.byte 2 = 1 ∨ n.ptp.state = 8 ∨ n.ptp.state = 9)) ∨ (k ≠ 2 ∧ n.ptp.state = 6)) && n.ptpSends) = true then
        (if n.hsr 0 = true then [0] else [0, 1].filter fun i => n.ptpUses i && n.ethLink i).foldl (fun s i => s.queuePtp i (if k = 2 ∧ n.ptp.byte 2 = 1 then 3 else k)) n
      else n := by
  subst hn
  have hgo : ¬(s.edge < (s.ptp.due[k]?).getD 0 ∨ s.lp ≠ .none) := by simp [hdue, hlp]
  simp only [doPtpTimer, Nat.mod_eq_of_lt hk, if_neg hgo]
  obtain rfl | rfl | rfl : k = 0 ∨ k = 1 ∨ k = 2 := by omega
  · simp
    rfl
  · simp
    rfl
  · simp
    rfl

end Sys2Proof.Machine

namespace Sys2Proof

/-- Settles O47: the frames of the ports, and the control frames by their first check that fails. -/
theorem framesAreReceived : Obligations.FramesAreReceived := by
  refine ⟨fun s n i f hi hup hlen => ⟨fun hpolice => does_of_ran rfl ((if_pos hi).trans (doFrameReceive_police hup hlen hpolice)), fun hpolice => ?_⟩, fun s j f rest hrx hactive => ?_⟩
  · have hrun : (if i < 4 then doFrameReceive i f true s else s) = n.takePolled i f (s.hsr (i / 2)) := (if_pos hi).trans (doFrameReceive_police hup hlen hpolice)
    refine ⟨fun hpause => does_of_ran rfl (hrun.trans (State.takePolled_pause hpause)), fun m hpause hmac hsrc hfirst => ?_, fun m seq y hpause hmac hsrc hred hdup => ?_⟩
    · intro own u
      have htable : (match f.red with | some (seq, _) => (n.seeNode (i / 2) (leNat f.src)).duplicate (i / 2) (leNat f.src) seq | none => (false, n)) = (false, m) := by
        rcases hfirst with ⟨hred, rfl⟩ | ⟨seq, y, hred, hnew⟩
        · rw [hred]
        · rw [hred]
          exact hnew
      exact does_of_ran rfl (hrun.trans ((State.takePolled_table hpause hmac hsrc htable).trans (State.passOn_eq ..)))
    · exact does_of_ran rfl (hrun.trans (State.takePolled_table (dup := true) hpause hmac hsrc (by rw [hred]; exact hdup)))
  · intro u slot n
    have hup : ¬u.active = none := hactive
    have hrun : doControlFrame s = match u.ctlFail j f with
      | 0 => if 256 ≤ n.netHeld then n.dCount ETH_CTL_STAT fETH_CTL_STAT_FULL 1
        else
          let k := s.netCount % 65536
          let d := descOf 16 k ((f.body.drop 16).take 64) (some ((f.body.drop 80).take (leAt f.body 2 2 - 80)))
          both (fun x s => if (s.sh x).writes then s.modSh x fun h => { h with fold := h.fold ++ [⟨d, s.edge⟩] } else s)
            { n with netCount := s.netCount + 1, netFrom := Tab.set s.netFrom none k (some ⟨f.src, f.vlan, slot⟩) }
      | 1 => u.dCount ETH_CTL_STAT fETH_CTL_STAT_FORMAT 1
      | 2 => u.dCount ETH_CTL_STAT fETH_CTL_STAT_AUTH 1
      | _ => u.dCount ETH_CTL_STAT fETH_CTL_STAT_REPLAY 1 := by
      simp only [doControlFrame, hrx]
      exact if_neg hup
    refine ⟨fun hok hfull => ?_, fun hok hroom => ?_, fun hfail => ?_, fun hfail => ?_, fun hfail => ?_⟩
    · rw [hok] at hrun
      exact does_of_ran rfl (hrun.trans (if_pos hfull))
    · rw [hok] at hrun
      intro k d m
      exact does_of_ran rfl (hrun.trans (if_neg (Nat.not_le.mpr hroom)))
    all_goals
      rw [hfail] at hrun
      exact does_of_ran rfl hrun

/-- Settles O48. -/
theorem framesAreSent : Obligations.FramesAreSent := by
  refine fun s => ⟨fun x differs t hoffers hopen => ?_, fun i late q f fs hi hup hmac hfree hq hfs => ?_, fun i hi hoper => ?_, fun i g t hi hpend ht => ?_, fun j hj hdue hmac hactive => ?_, fun j => does_of_ran rfl rfl⟩
  · intro n ht u epoch
    have hrun : ∀ differs, doOffer x differs s = (u.hubTakes x differs epoch t).forgetTx := fun differs => doOffer_offered hoffers hopen ht
    refine ⟨fun hpass => does_of_ran rfl ((hrun _).trans ?_), fun hpass hfirst => ?_, fun e hpass hlater => ⟨fun hsoon => ⟨fun hepoch => ?_, fun hepoch => ?_, ?_⟩, fun hlate => ?_⟩⟩
    · rw [State.hubTakes_dropped hpass]
    · intro r m
      refine does_of_ran rfl ((hrun _).trans ?_)
      rw [State.hubTakes_first hpass hfirst]
    all_goals refine does_of_ran rfl ((hrun _).trans ?_)
    · rw [State.hubTakes_later hpass hlater, if_pos hsoon, if_pos (by simp [hepoch])]
    · rw [State.hubTakes_later hpass hlater, if_pos hsoon, if_neg (by simp [hepoch])]
    · rw [State.hubTakes_later hpass hlater, if_pos hsoon, if_neg (by simp)]
    · rw [State.hubTakes_later hpass hlater, if_neg (Nat.not_le.mpr hlate)]
  · have hgo : ¬(s.portUp i = false ∨ s.hasMac (i / 2) = false ∨ s.edge < (s.port i).free) := by simp [hup, hmac, hfree]
    refine does_of_ran rfl ((if_pos hi).trans ((if_neg hgo).trans ?_))
    simp only [hq, hfs, Bool.and_eq_true, decide_eq_true_eq]
  · exact does_of_ran rfl (if_neg (not_or.mpr ⟨Nat.not_le.mpr hi, hoper⟩))
  · refine does_of_ran rfl ?_
    simp only [doGateTakeover, hpend]
    exact if_neg (not_or.mpr ⟨not_lt.mpr ht, Nat.not_le.mpr hi⟩)
  · intro body n
    refine does_of_ran rfl ?_
    exact if_neg (by simp [hj, hdue, hmac, hactive])

/-- Settles O49: the messages, the port, the timers, the servo and the time. -/
theorem ptpAndTimeGoOn : Obligations.PtpAndTimeGoOn := by
  refine ⟨fun s => ⟨fun port hport huses hlink hlp => ?_, fun hhsr hfix hmove => ?_, fun k hk hlp hdue hcfg => ?_⟩,
    fun s => ⟨fun x pd ofs hoff hreset hhalt hpd hlo hhi => ?_, fun x hst hhold => ?_, fun x hon hlim h0 h3 hlate => ?_, fun hwrap => ?_, fun next hnext hen hpast => ?_⟩⟩
  · have hgo : ¬(!s.ptpUses port || !s.ethLink port || decide (s.lp ≠ .none)) = true := by simp [huses, hlink, hlp]
    have hmsg : ∀ m t, doPtpMessage port m s = t → Does (.ptpMessageReceive port m) s t := fun m t h => does_of_ran rfl ((if_pos hport).trans h)
    refine ⟨hmsg _ _ (if_neg hgo), fun st => hmsg _ _ (if_neg hgo), fun d => hmsg _ _ (if_neg hgo),
      fun t1 t2 t3 t4 hsync => hmsg _ _ ((if_neg hgo).trans ?_), fun t1 t2 => ?_, fun src seq corr t4 hsends hst hbyte => hmsg _ _ ((if_neg hgo).trans ?_),
      fun src seq corr hsends hbyte => hmsg _ _ ((if_neg hgo).trans ?_)⟩
    · simp only [hsync]
    · intro u
      refine ⟨fun hmpd => hmsg _ _ ((if_neg hgo).trans ?_), fun d hmpd => ?_⟩
      · have hmpd : u.ptp.mpd = none := hmpd
        simp only [u] at hmpd
        simp only [hmpd]
        rfl
      · intro r
        refine hmsg _ _ ((if_neg hgo).trans ?_)
        have hmpd : u.ptp.mpd = some d := hmpd
        simp only [u] at hmpd
        simp only [hmpd]
        rfl
    · exact if_pos (by simp [hsends, hst, hbyte])
    · exact if_pos (by simp [hsends, hbyte])
  · refine does_of_ran rfl ?_
    exact if_pos (by simpa [hhsr, hfix] using hmove)
  · intro p n m sends ports
    have hrun : doPtpTimer k s = if (sends && n.ptpSends) = true then ports.foldl (fun s i => s.queuePtp i (if k = 2 ∧ m.byte 2 = 1 then 3 else k)) n else n :=
      doPtpTimer_expired hk hdue hlp hcfg rfl
    refine ⟨fun hno => does_of_ran rfl (hrun.trans (if_neg (by simp [hno]))), fun hyes hmac hactive => does_of_ran rfl (hrun.trans (if_pos ?_))⟩
    simp [hyes, State.ptpSends, hmac, hactive]
  · refine does_of_ran rfl ?_
    exact if_neg (by simp [hoff, hreset, hhalt]; exact ⟨hpd, hlo, hhi⟩)
  · refine does_of_ran rfl ?_
    exact if_pos ⟨hst, hhold⟩
  · intro n
    refine does_of_ran rfl ?_
    exact if_pos ⟨hon, hlim, h0, h3, hlate⟩
  · refine does_of_ran rfl ?_
    exact if_neg hwrap
  · intro width
    subst hnext
    refine does_of_ran rfl ?_
    exact if_pos ⟨hen, hpast⟩

end Sys2Proof
end

/-! ### Writes and reads of registers -/

section
open Sys2Proof Sys2Proof.Machine Claims

namespace Sys2Proof.Machine

/-! The write rows: each is a write of its register, none of the load window's nor of LCS_DBG. -/

theorem State.hostWrite_ok (s : State) (x : Shep) {ok : Prop} [Decidable ok] (h : ok) (off : Nat) (v : Word) : s.hostWrite x (decide ok) off v = s.arrive x off v :=
  if_pos (decide_eq_true h)

theorem exec_writeOf {i : Instr} {x : Shep} {off : Nat} {v : Word} (h : writeOf i = some (x, off, v)) (s : State) : exec i s = s.ran (s.arrive x off v) := by
  unfold writeOf at h
  split at h <;> simp only [Option.ite_none_right_eq_some, Option.some.injEq, Prod.mk.injEq, reduceCtorEq] at h
  case h_1 | h_2 | h_3 | h_4 | h_5 | h_6 | h_7 | h_10 | h_21 | h_22 =>
    obtain ⟨hc, rfl, rfl, rfl⟩ := h
    exact congrArg s.ran (s.hostWrite_ok _ hc _ _)
  all_goals
    obtain ⟨rfl, rfl, rfl⟩ := h
    rfl

/-- The offset of a register that is written as it stands: not in the load window, and none of three that no row names. -/
def PlainOff (off : Nat) : Prop :=
  loadWin off = false ∧ off ≠ LCS_DBG ∧ off ≠ CLK_XING_OVF ∧ off ≠ CLK_XING_BUSY

theorem plainOff_below {off : Nat} (h : off < 0x500000) (hdbg : off ≠ LCS_DBG) (hovf : off ≠ CLK_XING_OVF) (hbusy : off ≠ CLK_XING_BUSY) : PlainOff off :=
  ⟨by simp only [loadWin, decide_eq_false_iff_not]; omega, hdbg, hovf, hbusy⟩

theorem plainOff_above {off : Nat} (h : 0x600000 ≤ off) : PlainOff off := by
  refine ⟨by simp only [loadWin, decide_eq_false_iff_not]; omega, ?_, ?_, ?_⟩ <;> simp only [LCS_DBG, CLK_XING_OVF, CLK_XING_BUSY] <;> omega

theorem plainOff_between {off : Nat} (h : 0x5000 ≤ off) (hlt : off < 0x500000) : PlainOff off := by
  refine plainOff_below hlt ?_ ?_ ?_ <;> simp only [LCS_DBG, CLK_XING_OVF, CLK_XING_BUSY] <;> omega

theorem plainOff_writeOf {i : Instr} {x : Shep} {off : Nat} {v : Word} (h : writeOf i = some (x, off, v)) : PlainOff off := by
  unfold writeOf at h
  split at h <;> simp only [Option.ite_none_right_eq_some, Option.some.injEq, Prod.mk.injEq, reduceCtorEq] at h
  case h_1 | h_2 | h_3 | h_4 | h_5 | h_21 | h_22 =>
    obtain ⟨hc, rfl, rfl, rfl⟩ := h
    refine plainOff_between ?_ ?_ <;> simp only [DRV_CH_CTRL, DRV_FLOCK_STROBE, SNS_CH_CTRL, SNS_LINK_ERR, HIF_CMD_CFG, HIF_RING_CFG] <;> omega
  case h_10 =>
    obtain ⟨hc, rfl, rfl, rfl⟩ := h
    exact plainOff_between (by omega) (by omega)
  case h_6 | h_7 =>
    obtain ⟨hc, rfl, rfl, rfl⟩ := h
    exact plainOff_above (by simp only [LOOP_CTRL, LOOP_INT]; omega)
  case h_25 x k v =>
    obtain ⟨rfl, rfl, rfl⟩ := h
    cases k with
    | none => exact plainOff_between (by decide) (by decide)
    | some k => refine plainOff_between ?_ ?_ <;> simp only [releaseOff, ALM_CLEARED] <;> omega
  case h_33 x fitlog v =>
    obtain ⟨rfl, rfl, rfl⟩ := h
    cases fitlog <;> exact plainOff_between (by decide) (by decide)
  all_goals
    obtain ⟨rfl, rfl, rfl⟩ := h
    exact plainOff_below (by decide) (by decide) (by decide) (by decide)

/-! How a word arrives (R6, R286, R536, R537). -/

section
variable {s : State} {x : Shep} {off m : Nat} {v : Word} {r : RegRow} {i : Nat}

theorem State.arrive_unserved (h : s.served x off = false) : s.arrive x off v = s := if_pos (by rw [h]; rfl)

theorem State.arrive_table (h : s.served x off = true) (hload : loadWin off = false) (htable : tableWin off = true) :
    s.arrive x off v = if s.apart x then s.badCtrl x else s.queueWrite x off v s.dueTick := by
  simp only [State.arrive, h, hload, htable, Bool.not_true, Bool.false_eq_true, if_false, if_true]

theorem State.arrive_hole (h : s.served x off = true) (hload : loadWin off = false) (htable : tableWin off = false) (hreg : regAt off = none) :
    s.arrive x off v = s.pFlag x GLB_STATUS fGLB_STATUS_HOLE_WR := by
  simp only [State.arrive, h, hload, htable, hreg, Bool.not_true, Bool.false_eq_true, if_false]

theorem State.arrive_absent (h : s.served x off = true) (hload : loadWin off = false) (htable : tableWin off = false) (hreg : regAt off = some (r, i))
    (hm : s.part.absentBits r i = none) : s.arrive x off v = s.pFlag x GLB_STATUS fGLB_STATUS_ABSENT_WR := by
  simp only [State.arrive, h, hload, htable, hreg, hm, Bool.not_true, Bool.false_eq_true, if_false]

/-- The flag of bits that the part lacks. -/
def State.flagAbsent (s : State) (x : Shep) (v gone : Word) : State := if v &&& gone = 0 then s else s.pFlag x GLB_STATUS fGLB_STATUS_ABSENT_WR

/-- What arrives of a word whose register the part has, the bits that it lacks aside. -/
def State.arriveAt (s : State) (x : Shep) (r : RegRow) (off : Nat) (v : Word) : State :=
  if s.apart x then
    match s.ownPart r off v with
    | none => s.badCtrl x
    | some w => (if r.scope = .mixed ∧ v &&& 0xFFFF ≠ 0 then s.badCtrl x else s).queueWrite x off w s.dueTick
  else if off = LCS_DBG then s.writeDbg v
  else s.queueWrite x off v s.dueTick

theorem State.arrive_present (h : s.served x off = true) (hload : loadWin off = false) (htable : tableWin off = false) (hreg : regAt off = some (r, i))
    (hm : s.part.absentBits r i = some m) : s.arrive x off v = (s.flagAbsent x v (BitVec.ofNat 32 m)).arriveAt x r off (v &&& ~~~(BitVec.ofNat 32 m)) := by
  simp only [State.arrive, h, hload, htable, hreg, hm, Bool.not_true, Bool.false_eq_true, if_false]
  rfl

theorem State.flagAbsent_quiet (s : State) (x : Shep) (v gone : Word) : (s.flagAbsent x v gone).quiet = s.quiet := by
  unfold State.flagAbsent
  split
  · rfl
  · exact State.pFlag_quiet ..

theorem State.flagAbsent_dueTick (s : State) (x : Shep) (v gone : Word) : (s.flagAbsent x v gone).dueTick = s.dueTick := by
  simp only [State.dueTick, State.tick, State.edge_of_quiet (s.flagAbsent_quiet x v gone)]

theorem State.flagAbsent_apart (s : State) (x : Shep) (v gone : Word) : (s.flagAbsent x v gone).apart x = s.apart x := by
  unfold State.flagAbsent
  split
  · rfl
  · have hsh : (s.pFlag x GLB_STATUS fGLB_STATUS_ABSENT_WR).sh x = s.sh x := State.sh_wr ..
    unfold State.apart State.role
    rw [hsh]

theorem State.flagAbsent_rd (s : State) (x : Shep) (v gone : Word) (hoff : off < 0x10000000) : (s.flagAbsent x v gone).rd 0 off = s.rd 0 off := by
  unfold State.flagAbsent
  split
  · rfl
  · exact State.rd_wr_bank _ _ _ _ _ _ (by decide) hoff (by cases x <;> decide)

theorem State.arriveAt_whole (hplain : off ≠ LCS_DBG) (h : s.apart x = false ∨ r.scope = .per) : s.arriveAt x r off v = s.queueWrite x off v s.dueTick := by
  unfold State.arriveAt
  by_cases hapart : s.apart x = true
  · have hper := h.resolve_left (ne_false_of_eq_true hapart)
    simp [hapart, State.ownPart, hper]
  · simp [hapart, hplain]

theorem State.arriveAt_none (hapart : s.apart x = true) (h : r.scope = .dev ∨ r.scope = .shared) : s.arriveAt x r off v = s.badCtrl x := by
  rcases h with h | h <;> simp [State.arriveAt, hapart, State.ownPart, h]

theorem State.arriveAt_own (hapart : s.apart x = true) (h : r.scope = .mixed) (hoff : off = CLK_XING_FENCE) :
    s.arriveAt x r off v = (if v &&& 0xFFFF = 0 then s else s.badCtrl x).queueWrite x off ((v &&& 0xFFFF0000) ||| (s.rd 0 off &&& 0xFFFF)) s.dueTick := by
  simp [State.arriveAt, hapart, State.ownPart, h, hoff]

end

theorem mixed_rows : ∀ r ∈ regTable, r.scope = .mixed → r.count = 1 ∧ r.stride = 4 ∧ (r.base = CLK_XING_OVF ∨ r.base = CLK_XING_FENCE ∨ r.base = CLK_XING_BUSY) := by decide +kernel

/-- A mixed register that a row names is CLK_XING_FENCE. -/
theorem fence_of_mixed {off : Nat} {r : RegRow} {i : Nat} (hplain : PlainOff off) (hreg : regAt off = some (r, i)) (hmixed : r.scope = .mixed) : off = CLK_XING_FENCE := by
  obtain ⟨-, -, hovf, hbusy⟩ := hplain
  have hfind := regFind_of_regAt hreg
  obtain ⟨hcount, hstride, hbase⟩ := mixed_rows r (regFind_mem hfind) hmixed
  obtain ⟨q, hq, e⟩ := Option.map_eq_some_iff.mp hfind
  cases e
  have hmeets := List.find?_some hq
  simp only [decide_eq_true_eq, hcount, hstride] at hmeets
  have hoff : off = r.base := by omega
  rcases hbase with h | h | h
  · exact absurd (hoff.trans h) hovf
  · exact hoff.trans h
  · exact absurd (hoff.trans h) hbusy

/-! A request of whole words (R5, R534). -/

theorem leWords_append (v : Word) (rest : List Byte) : leWords (leBytes 4 v.toNat ++ rest) = v :: leWords rest := by
  have hword : BitVec.ofNat 32 (leNat (leBytes 4 v.toNat)) = v := by
    rw [leNat_leBytes]
    exact BitVec.eq_of_toNat_eq (by simp; exact v.isLt)
  exact congrArg (· :: leWords rest) hword

theorem leWords_four {bs : List Byte} (h : bs.length = 4) : leWords bs = [BitVec.ofNat 32 (leNat bs)] := by
  match bs, h with
  | [a, b, c, d], _ => rfl

section
variable {s : State} {x : Shep} {addr : Nat} {bs : List Byte}

/-- The function of a shepherd that takes requests. -/
def State.takes (s : State) (x : Shep) : Prop := s.mode ≠ .off ∧ s.mode ≠ .reset ∧ (s.sh x).perst = false ∧ (s.sh x).railLow = false

theorem State.takes_iff : ¬(s.mode = .off ∨ s.mode = .reset ∨ (s.sh x).perst = true ∨ (s.sh x).railLow = true) ↔ s.takes x := by
  simp [State.takes]

theorem State.writeRequest_words (h : s.takes x) (hne : bs ≠ []) (hlen : bs.length % 4 = 0) (haddr : addr % 4 = 0) :
    s.writeRequest x addr bs = State.arriveWords x addr (leWords bs) s := by
  have hpos : 0 < bs.length := List.length_pos_of_ne_nil hne
  have hgo : ¬(bs = [] ∨ s.mode = .off ∨ s.mode = .reset ∨ (s.sh x).perst = true ∨ (s.sh x).railLow = true) := not_or.mpr ⟨hne, State.takes_iff.mpr h⟩
  have hwide : ¬(addr % 4 + bs.length ≤ 3 ∨ (bs.length < 4 ∧ addr % 4 + bs.length ≤ 4)) := by omega
  exact (if_neg hgo).trans ((if_neg hwide).trans ((if_neg (not_not.mpr haddr)).trans (if_pos hlen)))

theorem State.writeRequest_narrow (h : s.takes x) (hne : bs ≠ []) (hlen : bs.length < 4) (hin : addr % 4 + bs.length ≤ 4) :
    s.writeRequest x addr bs = s.pFlag x GLB_STATUS fGLB_STATUS_NARROW_WR :=
  (if_neg (not_or.mpr ⟨hne, State.takes_iff.mpr h⟩)).trans (if_pos (.inr ⟨hlen, hin⟩))

theorem State.writeRequest_unaligned (h : s.takes x) (hlen : 4 ≤ bs.length ∨ 4 < addr % 4 + bs.length) (haddr : addr % 4 ≠ 0) :
    s.writeRequest x addr bs = s.pFlag x GLB_STATUS fGLB_STATUS_UNALIGNED := by
  have hne : bs ≠ [] := by
    rintro rfl
    simp only [List.length_nil] at hlen
    omega
  exact (if_neg (not_or.mpr ⟨hne, State.takes_iff.mpr h⟩)).trans ((if_neg (by omega)).trans (if_pos haddr))

theorem State.takes_of_served {off : Nat} (h : s.served x off = true) : s.takes x := by
  refine State.takes_iff.mp fun hbad => ?_
  rw [State.served, if_pos hbad] at h
  cases h

end

/-! A register without a rule of its own (R6). -/

theorem and_not_zero (v : Word) : v &&& ~~~(BitVec.ofNat 32 0) = v := BitVec.and_allOnes

theorem State.arrive_plain {s : State} {x : Shep} {off : Nat} {v : Word} {r : RegRow} {i : Nat} (h : s.served x off = true) (hload : loadWin off = false) (htable : tableWin off = false)
    (hreg : regAt off = some (r, i)) (hm : s.part.absentBits r i = some 0) (hapart : s.apart x = false) (hdbg : off ≠ LCS_DBG) : s.arrive x off v = s.queueWrite x off v s.dueTick := by
  have hflag : s.flagAbsent x v (BitVec.ofNat 32 0) = s := if_pos (by simp)
  rw [State.arrive_present h hload htable hreg hm, hflag, State.arriveAt_whole hdbg (.inl hapart)]
  exact congrArg (s.queueWrite x off · s.dueTick) (and_not_zero v)

theorem State.applyReg_plain {s : State} {x : Shep} {off : Nat} {v : Word} (sel : Word) {r : RegRow} {i : Nat} (hload : loadWin off = false) (htable : tableWin off = false)
    (hreg : regAt off = some (r, i)) (hrule : ∀ u w, State.writeOwnRule u x r i off w = none) (hlock : lockedOut r s.locked = false) :
    s.applyReg x off v sel = s.storeReg x r off (lockWord r s.locked (s.rawWord x r off) v) := by
  rw [State.applyReg_regAt sel hreg htable hload, if_neg (ne_true_of_eq_false hlock), hrule]
  rfl

/-! A read of TIM_NOW (R367, R535). -/

/-- The row of TIM_NOW. -/
def timNowRow : RegRow := ⟨0x6000, 1, 4, .dev, .none, 0x0, 0x0, 0x0, 0x0, 0x0, 0x0⟩

theorem regAt_timNow : regAt TIM_NOW = some (timNowRow, 0) := regAt_of (regFind_row (r := timNowRow) (i := 0) (by decide) (by decide) (by decide)) (by decide)

theorem State.readWord_timNow {s : State} {x : Shep} (h : s.served x TIM_NOW = true) : s.readWord x TIM_NOW = BitVec.ofNat 32 s.now := by
  have htable : tableWin TIM_NOW = false := by decide
  have hload : loadWin TIM_NOW = false := by decide
  have hm : s.part.absentBits timNowRow 0 = some 0 := rfl
  have hform : ∀ w, s.formWord x timNowRow 0 w = BitVec.ofNat 32 s.now := fun w => rfl
  simp only [State.readWord, h, htable, hload, regAt_timNow, hm, hform, Bool.not_true, Bool.false_eq_true, if_false, and_not_zero]
  exact and_not_zero _

/-- A read latches the time of its moment. -/
theorem doTimNowRead_served (s : State) (path : Nat) (x : Shep) (off : Nat) : (doTimNowRead path s).served x off = s.served x off := rfl

theorem readWords_timNow {s : State} {x : Shep} (path : Nat) (hnow : s.served x TIM_NOW = true) (hfrac : s.served x TIM_NOW_FRAC = true) :
    State.readWords path x 2 TIM_NOW s = (doTimNowRead path s, leBytes 4 s.now ++ leBytes 4 s.frac) := by
  have hfirst : s.readOne path x TIM_NOW = (doTimNowRead path s, BitVec.ofNat 32 s.now) := by
    rw [State.readOne, if_pos hnow, if_pos rfl, State.readWord_timNow hnow]
  have hsecond : (doTimNowRead path s).readOne path x (TIM_NOW + 4) = (doTimNowRead path s, BitVec.ofNat 32 s.frac) := by
    have hlatch : Tab.get (doTimNowRead path s).latches (0, 0) path = (s.frac, s.wraps) := Tab.get_set_self ..
    rw [State.readOne, if_pos ((doTimNowRead_served s path x (TIM_NOW + 4)).trans hfrac), if_neg (by decide), if_pos (by rfl), hlatch]
  have hlt : s.now < 2 ^ 32 := Nat.mod_lt _ (by decide)
  have hfrac : s.frac < 2 ^ 32 := (Nat.mod_lt _ (by decide)).trans (by decide : 2 ^ 24 < 2 ^ 32)
  simp only [State.readWords, hfirst, hsecond, BitVec.toNat_ofNat, Nat.mod_eq_of_lt hlt, Nat.mod_eq_of_lt hfrac, List.append_nil]

theorem State.readPath_own (s : State) (x : Shep) (addr len : Nat) :
    s.readPath x.num addr len = (s.readRequest x.num x addr len).1.send (.read x addr (s.readRequest x.num x addr len).2) := by
  cases x <;> rfl

theorem State.readRequest_timNow {s : State} {x : Shep} (path : Nat) (hnow : s.served x TIM_NOW = true) (hfrac : s.served x TIM_NOW_FRAC = true) :
    s.readRequest path x TIM_NOW 8 = (doTimNowRead path s, leBytes 4 s.now ++ leBytes 4 s.frac) := by
  have hgo : ¬(8 = 0 ∨ s.mode = .off ∨ s.mode = .reset ∨ (s.sh x).perst = true ∨ (s.sh x).railLow = true) :=
    not_or.mpr ⟨by decide, State.takes_iff.mpr (State.takes_of_served hnow)⟩
  exact (if_neg hgo).trans (readWords_timNow path hnow hfrac)

theorem State.readRequest_unaligned {s : State} {x : Shep} (path : Nat) {addr len : Nat} (h : s.served x addr = true) (haddr : addr % 4 ≠ 0) (hlen : 4 ≤ len) :
    s.readRequest path x addr len = (s.pFlag x GLB_STATUS fGLB_STATUS_UNALIGNED, zeros len) := by
  have hgo : ¬(len = 0 ∨ s.mode = .off ∨ s.mode = .reset ∨ (s.sh x).perst = true ∨ (s.sh x).railLow = true) :=
    not_or.mpr ⟨by omega, State.takes_iff.mpr (State.takes_of_served h)⟩
  exact (if_neg hgo).trans ((if_neg (by omega)).trans (if_neg fun hal => haddr hal.1))

end Sys2Proof.Machine

namespace Sys2Proof

/-- Settles O50, by how the word arrives. -/
theorem writeRowsArrive : Obligations.WriteRowsArrive := by
  intro i s x off v hi
  have hdoes : ∀ t, s.arrive x off v = t → Does i s t := fun t ht => does_of_ran (exec_writeOf hi s) ht
  have hplain := plainOff_writeOf hi
  have hload := hplain.1
  refine ⟨fun h => hdoes _ (State.arrive_unserved h), fun h htable => ?_, fun r k h htable hreg => ⟨fun hm => hdoes _ (State.arrive_absent h hload htable hreg hm), fun m hm => ?_⟩⟩
  · have hrun := State.arrive_table (v := v) h hload htable
    exact ⟨fun hapart => hdoes _ (hrun.trans (if_neg (ne_true_of_eq_false hapart))), fun hapart => hdoes _ (hrun.trans (if_pos hapart))⟩
  · intro gone u w
    have hrun : s.arrive x off v = u.arriveAt x r off w := State.arrive_present h hload htable hreg hm
    have hdue : u.dueTick = s.dueTick := s.flagAbsent_dueTick x v gone
    have hapart : u.apart x = s.apart x := s.flagAbsent_apart x v gone
    refine ⟨fun hw => hdoes _ (hrun.trans ?_), fun hap hs => hdoes _ (hrun.trans (State.arriveAt_none (hapart.trans hap) hs)), fun hap hmixed => ?_⟩
    · rw [← hdue]
      exact State.arriveAt_whole hplain.2.1 (hapart ▸ hw)
    · intro h own
      have hoff := fence_of_mixed hplain hreg hmixed
      have hrd : u.rd 0 off = s.rd 0 off := s.flagAbsent_rd x v gone (by rw [hoff]; decide)
      refine hdoes _ (hrun.trans ((State.arriveAt_own (hapart.trans hap) hmixed hoff).trans ?_))
      rw [hdue, hrd]

/-- Settles O51: the requests by their width and place, the words by their register, and the reads of the time. -/
theorem registerRequestsArrive : Obligations.RegisterRequestsArrive := by
  refine fun s => ⟨fun x addr bs jtag hoff hreset hperst hrail hjtag => ?_, fun x addr bs hset => ?_,
    fun x off v h hload htable => State.arrive_hole h hload htable,
    fun x off v r k h hload htable hreg hm hapart hdbg => ⟨State.arrive_plain h hload htable hreg hm hapart hdbg, fun hrule hlock sel => State.applyReg_plain sel hload htable hreg hrule hlock⟩, ?_⟩
  · have htakes : s.takes x := ⟨hoff, hreset, hperst, hrail⟩
    have hdoes : ∀ t, s.writeRequest x addr bs = t → Does (.registerWrite x addr bs jtag) s t := fun t ht => by
      refine does_of_ran rfl ((if_neg ?_).trans ht)
      rintro ⟨hj, hset⟩
      rcases hjtag with h | h
      · rw [h] at hj; cases hj
      · exact hset h
    refine ⟨fun hlen haddr => hdoes _ ?_, fun v rest hbs hne hrest haddr => ?_, fun hpos hlen hin => hdoes _ (State.writeRequest_narrow htakes (List.ne_nil_of_length_pos hpos) hlen hin),
      fun hlen haddr => hdoes _ (State.writeRequest_unaligned htakes hlen haddr)⟩
    · rw [State.writeRequest_words htakes (List.ne_nil_of_length_pos (by omega)) (by omega) haddr, leWords_four hlen]
      rfl
    · have hlen : bs.length % 4 = 0 := by
        rw [hbs, List.length_append, length_leBytes]
        omega
      rw [State.writeRequest_words htakes (by rw [hbs]; simp [hne]) hlen haddr, hbs, leWords_append]
      rfl
  · refine does_of_ran rfl ?_
    exact if_pos ⟨rfl, hset⟩
  · intro latched
    refine ⟨fun path addr len hpath => ?_, fun path x hpath hnow hfrac => ?_, fun path x addr len hpath h haddr hlen => ?_⟩
    · rcases hpath with h | h <;> cases h <;> exact does_of_ran rfl rfl
    · subst hpath
      refine does_of_ran rfl ?_
      rw [State.readPath_own, State.readRequest_timNow _ hnow hfrac]
      rfl
    · subst hpath
      refine does_of_ran rfl ?_
      rw [State.readPath_own, State.readRequest_unaligned _ h haddr hlen]

end Sys2Proof
end

/-! ### Writes of the outputs and senses -/

section
open Sys2Proof Sys2Proof.Machine Claims

namespace Sys2Proof.Machine

/-! The registers that are words of arrays, taken by their own rules. -/

section
variable {s : State} (x : Shep) (v sel : Word)

theorem tableWin_off {off : Nat} (h : off < 0x300000 ∨ 0x400000 ≤ off) : tableWin off = false := decide_eq_false (by omega)

theorem loadWin_off {off : Nat} (h : off < 0x500000 ∨ 0x600000 ≤ off) : loadWin off = false := decide_eq_false (by omega)

theorem State.applyReg_drv (hl : s.locked = false) {c : Nat} (hc : c < 32768) : s.applyReg x (DRV_CH_CTRL c) v sel = s.writeDrvCtrl c v :=
  State.applyReg_own sel hl (regAt_of (regFind_drv hc) (by decide)) (tableWin_off (.inl (by simp only [DRV_CH_CTRL]; omega)))
    (loadWin_off (.inl (by simp only [DRV_CH_CTRL]; omega))) (s.writeOwnRule_drv x c v)

theorem State.applyReg_sns (hl : s.locked = false) {m : Nat} (hm : m < 16384) : s.applyReg x (SNS_CH_CTRL m) v sel = s.writeSnsCtrl m v :=
  State.applyReg_own sel hl (regAt_of (regFind_sns hm) (by decide)) (tableWin_off (.inl (by simp only [SNS_CH_CTRL]; omega)))
    (loadWin_off (.inl (by simp only [SNS_CH_CTRL]; omega))) (s.writeOwnRule_sns x m v)

/-- The rows of DRV_FLOCK_STROBE and SNS_LINK_ERR. -/
def strobeRow : RegRow := ⟨0x900C, 2, 4, .dev, .flockw, 0x0, 0x0, 0x0, 0x0, 0x0, 0xFFFFFFFF⟩
def linkErrRow : RegRow := ⟨0xA040, 16, 4, .per, .pdk, 0x0, 0x0, 0x0, 0x0, 0x0, 0x80000000⟩

theorem State.applyReg_strobe (hl : s.locked = false) {w : Nat} (hw : w < 2) : s.applyReg x (DRV_FLOCK_STROBE w) v sel = s.softStrobe w v := by
  have hreg : regAt (DRV_FLOCK_STROBE w) = some (strobeRow, w) := regAt_of (regFind_row (r := strobeRow) (by decide) (by decide) hw) (by decide)
  refine State.applyReg_own sel hl hreg ?_ ?_ ?_ <;> interval_cases w <;> rfl

theorem State.applyReg_linkErr (hl : s.locked = false) {p : Nat} (hp : p < 16) : s.applyReg x (SNS_LINK_ERR p) v sel = s.writeLinkErr x p v := by
  have hreg : regAt (SNS_LINK_ERR p) = some (linkErrRow, p) := regAt_of (regFind_row (r := linkErrRow) (by decide) (by decide) hp) (by decide)
  refine State.applyReg_own sel hl hreg ?_ ?_ ?_ <;> interval_cases p <;> rfl

end

/-! DRV_CH_CTRL on a mapped channel (R69). -/

theorem State.leaveCurrent_pdk (s : State) (c span p : Nat) : (s.leaveCurrent c span).pdk p = s.pdk p := by
  unfold State.leaveCurrent
  split <;> rfl

theorem State.storeCtrl_pdk (s : State) (c : Nat) (v : Word) (oe p : Nat) : (s.storeCtrl c v oe).pdk p = s.pdk p := by
  have hquiet : (s.storeCtrl c v oe).quiet = s.quiet := (State.dPut_quiet ..).trans ((State.dPut_quiet ..).trans ((State.dPut_quiet ..).trans (State.dPut_quiet ..)))
  exact congrArg (Tab.get · {} p) (State.pdks_of_quiet hquiet)

section
variable {s n : State} {c : Nat} {v : Word}

theorem State.writeDrvCtrl_busy (h : (s.chan c).phase ≠ .idle) : s.writeDrvCtrl c v = s.drvNote fDRV_STATUS_BUSY_WR c := if_pos h

theorem State.writeDrvCtrl_bad (h : (s.chan c).phase = .idle) (hbad : fDRV_CH_CTRL_SPAN.get v = 6 ∨ (current (fDRV_CH_CTRL_SPAN.get v) = true ∧ dualMode c = false)) :
    s.writeDrvCtrl c v = s.drvNote fDRV_STATUS_BAD_SPAN c :=
  (if_neg (not_not.mpr h)).trans (if_pos hbad)

theorem State.writeDrvCtrl_unmapped (h : (s.chan c).phase = .idle) (hbad : ¬(fDRV_CH_CTRL_SPAN.get v = 6 ∨ (current (fDRV_CH_CTRL_SPAN.get v) = true ∧ dualMode c = false)))
    (helem : s.elem? c = none) :
    s.writeDrvCtrl c v = ((if fDRV_CH_CTRL_OE.get v = 1 then s.drvNote fDRV_STATUS_UNMAPPED_WR c else s).storeCtrl c v 0).leaveCurrent c (fDRV_CH_CTRL_SPAN.get v) :=
  (if_neg (not_not.mpr h)).trans ((if_neg hbad).trans (if_pos helem))

theorem State.writeDrvCtrl_mapped (h : (s.chan c).phase = .idle) (hbad : ¬(fDRV_CH_CTRL_SPAN.get v = 6 ∨ (current (fDRV_CH_CTRL_SPAN.get v) = true ∧ dualMode c = false)))
    (helem : s.elem? c ≠ none) :
    s.writeDrvCtrl c v = ((s.storeCtrl c v (fDRV_CH_CTRL_OE.get v)).leaveCurrent c (fDRV_CH_CTRL_SPAN.get v)).follow c (fDRV_CH_CTRL_SPAN.get v) (s.spanOf c) (s.on c) :=
  (if_neg (not_not.mpr h)).trans ((if_neg hbad).trans (if_neg helem))

end

/-! SNS_CH_CTRL (R102 to R104). -/

/-- The registers, the hidden state of the senses, the time and the paddocks are as they were. -/
def State.SnsKept (s t : State) : Prop := t.regs = s.regs ∧ t.senses = s.senses ∧ t.edge = s.edge ∧ t.pdks = s.pdks

theorem State.snsKept_spoilMon (s : State) (m : Nat) : s.SnsKept (s.spoilMon m) := by
  unfold State.spoilMon
  generalize s.infl m = l
  induction l generalizing s with
  | nil => exact ⟨rfl, rfl, rfl, rfl⟩
  | cons c l ih =>
    obtain ⟨hregs, hsenses, hedge, hpdks⟩ := ih (if s.demodMon c = m then s.spoil c else s)
    have hstep : s.SnsKept (if s.demodMon c = m then s.spoil c else s) := by
      split
      · exact ⟨rfl, rfl, rfl, rfl⟩
      · exact ⟨rfl, rfl, rfl, rfl⟩
    obtain ⟨hr, hs, he, hp⟩ := hstep
    exact ⟨hregs.trans hr, hsenses.trans hs, hedge.trans he, hpdks.trans hp⟩

/-- What a change of a sense's settings leaves of the state, before its input settles. -/
theorem State.newSamples_kept (s : State) (m : Nat) (any window : Bool) (was : Nat) :
    (s.newSamples m any window was).regs = s.regs ∧ (s.newSamples m any window was).edge = s.edge ∧ (s.newSamples m any window was).pdks = s.pdks ∧
      ((s.newSamples m any window was).sense m).voidUntil = (s.sense m).voidUntil ∧ ((s.newSamples m any window was).sense m).meas = (s.sense m).meas := by
  have hspoil : s.SnsKept (if any then s.spoilMon m else s) := by
    split
    · exact s.snsKept_spoilMon m
    · exact ⟨rfl, rfl, rfl, rfl⟩
  obtain ⟨hregs, hsenses, hedge, hpdks⟩ := hspoil
  have hsense : (if any then s.spoilMon m else s).sense m = s.sense m := congrArg (fun t => Tab.get t ({} : SnsHid) m) hsenses
  simp only [State.newSamples]
  generalize (if any = true then s.spoilMon m else s) = u at *
  cases window
  · exact ⟨hregs, hedge, hpdks, congrArg SnsHid.voidUntil hsense, congrArg SnsHid.meas hsense⟩
  · have hput : (u.modSense m fun h => { h with winWas := some (u.tick, was) }).sense m = { u.sense m with winWas := some (u.tick, was) } :=
      State.sense_modSense_self u m fun h => { h with winWas := some (u.tick, was) }
    refine ⟨hregs, hedge, hpdks, ?_, ?_⟩
    · exact (congrArg SnsHid.voidUntil hput).trans (by rw [hsense])
    · exact (congrArg SnsHid.meas hput).trans (by rw [hsense])

/-- The input settles: what is kept of the hidden state of the sense, and what the registers and the time keep. -/
theorem State.inputSettles_kept (s : State) (m : Nat) (range bias measure : Bool) :
    (s.inputSettles m range bias measure).regs = s.regs ∧ (s.inputSettles m range bias measure).edge = s.edge := by
  unfold State.inputSettles
  split
  · exact ⟨rfl, rfl⟩
  · dsimp only
    split <;> split <;> exact ⟨rfl, rfl⟩

theorem State.inputSettles_idle {s : State} {m : Nat} {range bias measure : Bool} (h : (s.pdk (m / 1024)).mode ≠ .run) : s.inputSettles m range bias measure = s := if_pos h

theorem State.sense_startMeasure (s : State) (m : Nat) : (s.startMeasure m).sense m = { s.sense m with meas := some (s.tick + measLen (s.rangeOf m)) } :=
  State.sense_modSense_self s m fun h => { h with meas := some (s.tick + measLen (s.rangeOf m)) }

/-- Without a new RANGE or BIAS a measurement starts where none runs. -/
theorem State.inputSettles_same {s : State} {m : Nat} {measure : Bool} (h : (s.pdk (m / 1024)).mode = .run) :
    s.inputSettles m false false measure = if measure = true ∧ (s.sense m).meas = none then s.startMeasure m else s := by
  simp [State.inputSettles, h]

/-- A new RANGE or BIAS starts the VOID period, and ends a measurement that runs. -/
def State.startVoid (s : State) (m : Nat) (range bias : Bool) : State :=
  s.modSense m fun h => { h with voidUntil := max h.voidUntil (s.tick + max (if range then rangeVoid (s.rangeOf m) else 0) (if bias then 4 else 0)), meas := none }

theorem State.inputSettles_new {s : State} {m : Nat} {range bias measure : Bool} (h : (s.pdk (m / 1024)).mode = .run) (hnew : (range || bias) = true) :
    s.inputSettles m range bias measure = if measure = true then (s.startVoid m range bias).startMeasure m else s.startVoid m range bias := by
  have hrb : range = true ∨ bias = true := by simpa using hnew
  simp [State.inputSettles, h, hrb, or_assoc]
  rfl

theorem State.sense_startVoid (s : State) (m : Nat) (range bias : Bool) :
    (s.startVoid m range bias).sense m = { s.sense m with
      voidUntil := max (s.sense m).voidUntil (s.tick + max (if range then rangeVoid (s.rangeOf m) else 0) (if bias then 4 else 0)), meas := none } :=
  State.sense_modSense_self s m fun h => { h with
    voidUntil := max h.voidUntil (s.tick + max (if range then rangeVoid (s.rangeOf m) else 0) (if bias then 4 else 0)), meas := none }

theorem Fld.get_lt (f : Fld) (w : Word) : f.get w < 2 ^ f.width := Nat.mod_lt _ (Nat.two_pow_pos _)

/-- The five fields that a write of SNS_CH_CTRL may change, in the word that it leaves. -/
def snsWord (w v : Word) (input dark : Bool) : Word :=
  let u := fSNS_CH_CTRL_WINDOW.put (fSNS_CH_CTRL_DARK_OFFSET.put (fSNS_CH_CTRL_BIAS.put (fSNS_CH_CTRL_RANGE.put w (fSNS_CH_CTRL_RANGE.get v)) (fSNS_CH_CTRL_BIAS.get v))
    (fSNS_CH_CTRL_DARK_OFFSET.get v)) (fSNS_CH_CTRL_WINDOW.get v)
  if input then fSNS_CH_CTRL_DARK_VALID.put u 0 else if dark then fSNS_CH_CTRL_DARK_VALID.put u 1 else u

theorem State.rd_storeSns_newDark (s : State) (m : Nat) (v : Word) (input dark : Bool) :
    ((s.storeSns m v).newDark m input dark).rd 0 (SNS_CH_CTRL m) = snsWord (s.rd 0 (SNS_CH_CTRL m)) v input dark := by
  cases input <;> cases dark <;> simp [State.storeSns, State.newDark, snsWord, State.dPut]

theorem Fld.get_put_get (f : Fld) (w v : Word) (h : f.lo ≤ f.hi) (h32 : f.hi < 32) : f.get (f.put w (f.get v)) = f.get v := by
  rw [Fld.get_put_self f w _ h h32, Nat.mod_eq_of_lt (f.get_lt v)]

theorem get_snsWord (w v : Word) (input dark : Bool) :
    ∀ f ∈ [fSNS_CH_CTRL_RANGE, fSNS_CH_CTRL_BIAS, fSNS_CH_CTRL_DARK_OFFSET, fSNS_CH_CTRL_WINDOW], f.get (snsWord w v input dark) = f.get v := by
  intro f hf
  simp only [List.mem_cons, List.not_mem_nil, or_false] at hf
  rcases hf with rfl | rfl | rfl | rfl <;> cases input <;> cases dark <;>
    simp (disch := decide) only [snsWord, Fld.get_put_ne, Fld.get_put_get, if_true, Bool.false_eq_true, if_false]

theorem dark_snsWord (w v : Word) (input dark : Bool) :
    fSNS_CH_CTRL_DARK_VALID.get (snsWord w v input dark) = if input then 0 else if dark then 1 else fSNS_CH_CTRL_DARK_VALID.get w := by
  cases input <;> cases dark <;> simp (disch := decide) only [snsWord, Fld.get_put_ne, Fld.get_put_self, if_true, Bool.false_eq_true, if_false] <;> rfl

section
variable {s : State} {m : Nat} {v : Word}

theorem State.writeSnsCtrl_bad (h : 240 < fSNS_CH_CTRL_BIAS.get v ∨ fSNS_CH_CTRL_WINDOW.get v = 3) :
    s.writeSnsCtrl m v = if fSNS_CH_CTRL_WINDOW.get v = 3
      then (if 240 < fSNS_CH_CTRL_BIAS.get v then s.dFlag SNS_STATUS fSNS_STATUS_BAD_BIAS else s).dFlag SNS_STATUS fSNS_STATUS_BAD_WINDOW
      else if 240 < fSNS_CH_CTRL_BIAS.get v then s.dFlag SNS_STATUS fSNS_STATUS_BAD_BIAS else s :=
  if_pos h

/-- What a good write of SNS_CH_CTRL leaves before its input settles: its word, with the hidden state and the time as they were. -/
def State.SnsStored (s n : State) (m : Nat) (w : Word) : Prop :=
  n.rd 0 (SNS_CH_CTRL m) = w ∧ n.edge = s.edge ∧ n.pdks = s.pdks ∧ (n.sense m).voidUntil = (s.sense m).voidUntil ∧ (n.sense m).meas = (s.sense m).meas

/-- A write with a good BIAS and WINDOW, by what of the input differs. -/
theorem State.writeSnsCtrl_good (hbias : ¬240 < fSNS_CH_CTRL_BIAS.get v) (hwin : ¬fSNS_CH_CTRL_WINDOW.get v = 3) {range bias dark : Bool}
    (hrange : range = decide (fSNS_CH_CTRL_RANGE.get (s.rd 0 (SNS_CH_CTRL m)) ≠ fSNS_CH_CTRL_RANGE.get v))
    (hnew : bias = decide (fSNS_CH_CTRL_BIAS.get (s.rd 0 (SNS_CH_CTRL m)) ≠ fSNS_CH_CTRL_BIAS.get v))
    (hdark : dark = decide (fSNS_CH_CTRL_DARK_OFFSET.get (s.rd 0 (SNS_CH_CTRL m)) ≠ fSNS_CH_CTRL_DARK_OFFSET.get v)) :
    ∃ n : State, s.SnsStored n m (snsWord (s.rd 0 (SNS_CH_CTRL m)) v (range || bias) dark) ∧
      s.writeSnsCtrl m v = n.inputSettles m range bias (decide (fSNS_CH_CTRL_MEASURE.get v = 1)) := by
  subst hrange hnew hdark
  refine ⟨_, ?_, if_neg (not_or.mpr ⟨hbias, hwin⟩)⟩
  obtain ⟨hregs, hedge, hpdks, hvoid, hmeas⟩ := State.newSamples_kept ((s.storeSns m v).newDark m _ _) m _ _ _
  have hquiet : ∀ input dark, ((s.storeSns m v).newDark m input dark).quiet = s.quiet := by
    intro input dark
    have hstore : (s.storeSns m v).quiet = s.quiet := (State.dPut_quiet ..).trans ((State.dPut_quiet ..).trans ((State.dPut_quiet ..).trans (State.dPut_quiet ..)))
    cases input <;> cases dark
    · exact hstore
    all_goals exact (State.dPut_quiet ..).trans hstore
  have hsense : ∀ input dark, ((s.storeSns m v).newDark m input dark).sense m = s.sense m := fun input dark =>
    congrArg (fun t => Tab.get t ({} : SnsHid) m) (State.senses_of_quiet (hquiet input dark))
  exact ⟨(State.rd_congr _ _ _ _ hregs).trans (State.rd_storeSns_newDark ..), hedge.trans (State.edge_of_quiet (hquiet ..)), hpdks.trans (State.pdks_of_quiet (hquiet ..)),
    hvoid.trans (congrArg SnsHid.voidUntil (hsense ..)), hmeas.trans (congrArg SnsHid.meas (hsense ..))⟩

end

/-! What stays of the hidden state of a sense, by whether its input is new. -/

section
variable {n : State} {m : Nat} {measure : Bool}

theorem State.voidUntil_inputSettles_same : ((n.inputSettles m false false measure).sense m).voidUntil = (n.sense m).voidUntil := by
  by_cases hrun : (n.pdk (m / 1024)).mode = .run
  · rw [State.inputSettles_same hrun]
    split
    · rw [State.sense_startMeasure]
    · rfl
  · rw [State.inputSettles_idle hrun]

theorem State.meas_inputSettles_same (h : (n.pdk (m / 1024)).mode ≠ .run ∨ measure = false ∨ (n.sense m).meas ≠ none) :
    ((n.inputSettles m false false measure).sense m).meas = (n.sense m).meas := by
  by_cases hrun : (n.pdk (m / 1024)).mode = .run
  · rw [State.inputSettles_same hrun, if_neg]
    rintro ⟨hmeasure, hnone⟩
    rcases h with h | h | h
    · exact h hrun
    · exact absurd (h.symm.trans hmeasure) Bool.false_ne_true
    · exact h hnone
  · rw [State.inputSettles_idle hrun]

theorem State.meas_inputSettles_start (hrun : (n.pdk (m / 1024)).mode = .run) (hnone : (n.sense m).meas = none) :
    ((n.inputSettles m false false true).sense m).meas = some (n.tick + measLen (n.rangeOf m)) := by
  rw [State.inputSettles_same hrun, if_pos ⟨rfl, hnone⟩, State.sense_startMeasure]

variable {range bias : Bool}

theorem State.voidUntil_inputSettles_new (hrun : (n.pdk (m / 1024)).mode = .run) (hnew : (range || bias) = true) :
    ((n.inputSettles m range bias measure).sense m).voidUntil =
      max (n.sense m).voidUntil (n.tick + max (if range then rangeVoid (n.rangeOf m) else 0) (if bias then 4 else 0)) := by
  rw [State.inputSettles_new hrun hnew]
  split
  · rw [State.sense_startMeasure, State.sense_startVoid]
  · rw [State.sense_startVoid]

theorem State.meas_inputSettles_new (hrun : (n.pdk (m / 1024)).mode = .run) (hnew : (range || bias) = true) :
    ((n.inputSettles m range bias measure).sense m).meas = if measure = true then some (n.tick + measLen (n.rangeOf m)) else none := by
  rw [State.inputSettles_new hrun hnew]
  split
  · rw [State.sense_startMeasure]
    rfl
  · rw [State.sense_startVoid]

end

/-- A good write of SNS_CH_CTRL, as it shows in its fields and in the hidden state of its sense. -/
theorem snsCtrl_good {s : State} {m : Nat} {v : Word} (hbias : ¬240 < fSNS_CH_CTRL_BIAS.get v) (hwin : ¬fSNS_CH_CTRL_WINDOW.get v = 3) :
    let t := s.writeSnsCtrl m v
    let diff := fun (f : Fld) => f.get (s.rd 0 (SNS_CH_CTRL m)) ≠ f.get v
    let run := (s.pdk (m / 1024)).mode = .run
    (∀ f ∈ [fSNS_CH_CTRL_RANGE, fSNS_CH_CTRL_BIAS, fSNS_CH_CTRL_DARK_OFFSET, fSNS_CH_CTRL_WINDOW], t.dGet (SNS_CH_CTRL m) f = f.get v) ∧
    (diff fSNS_CH_CTRL_RANGE ∨ diff fSNS_CH_CTRL_BIAS → t.dGet (SNS_CH_CTRL m) fSNS_CH_CTRL_DARK_VALID = 0) ∧
    (¬diff fSNS_CH_CTRL_RANGE → ¬diff fSNS_CH_CTRL_BIAS →
      (diff fSNS_CH_CTRL_DARK_OFFSET → t.dGet (SNS_CH_CTRL m) fSNS_CH_CTRL_DARK_VALID = 1) ∧
      (¬diff fSNS_CH_CTRL_DARK_OFFSET → t.dGet (SNS_CH_CTRL m) fSNS_CH_CTRL_DARK_VALID = s.dGet (SNS_CH_CTRL m) fSNS_CH_CTRL_DARK_VALID) ∧
      (t.sense m).voidUntil = (s.sense m).voidUntil ∧
      (run → fSNS_CH_CTRL_MEASURE.get v = 1 → (s.sense m).meas = none → (t.sense m).meas = some (t.tick + measLen (t.rangeOf m))) ∧
      (¬run ∨ fSNS_CH_CTRL_MEASURE.get v = 0 ∨ (s.sense m).meas ≠ none → (t.sense m).meas = (s.sense m).meas)) ∧
    (run → diff fSNS_CH_CTRL_RANGE ∨ diff fSNS_CH_CTRL_BIAS →
      (diff fSNS_CH_CTRL_BIAS → s.tick + 4 ≤ (t.sense m).voidUntil) ∧
      (diff fSNS_CH_CTRL_RANGE → s.tick + rangeVoid (t.rangeOf m) ≤ (t.sense m).voidUntil) ∧
      (fSNS_CH_CTRL_MEASURE.get v = 0 → (t.sense m).meas = none) ∧
      (fSNS_CH_CTRL_MEASURE.get v = 1 → (t.sense m).meas = some (t.tick + measLen (t.rangeOf m)))) := by
  intro t diff run
  obtain ⟨n, ⟨hword, hedge, hpdks, hvoid, hmeas⟩, ht⟩ := State.writeSnsCtrl_good (s := s) (m := m) (v := v) hbias hwin rfl rfl rfl
  generalize hr : decide (fSNS_CH_CTRL_RANGE.get (s.rd 0 (SNS_CH_CTRL m)) ≠ fSNS_CH_CTRL_RANGE.get v) = range at hword ht
  generalize hb : decide (fSNS_CH_CTRL_BIAS.get (s.rd 0 (SNS_CH_CTRL m)) ≠ fSNS_CH_CTRL_BIAS.get v) = bias at hword ht
  generalize hd : decide (fSNS_CH_CTRL_DARK_OFFSET.get (s.rd 0 (SNS_CH_CTRL m)) ≠ fSNS_CH_CTRL_DARK_OFFSET.get v) = dark at hword ht
  have ht : t = n.inputSettles m range bias (decide (fSNS_CH_CTRL_MEASURE.get v = 1)) := ht
  obtain ⟨hkregs, hkedge⟩ := n.inputSettles_kept m range bias (decide (fSNS_CH_CTRL_MEASURE.get v = 1))
  rw [← ht] at hkregs hkedge
  have hrd : t.rd 0 (SNS_CH_CTRL m) = snsWord (s.rd 0 (SNS_CH_CTRL m)) v (range || bias) dark := (State.rd_congr _ _ _ _ hkregs).trans hword
  have htick : t.tick = n.tick := congrArg (· / 400) hkedge
  have hntick : n.tick = s.tick := congrArg (· / 400) hedge
  have hrange : t.rangeOf m = n.rangeOf m := congrArg fSNS_CH_CTRL_RANGE.get (State.rd_congr _ _ _ _ hkregs)
  have hrun : (n.pdk (m / 1024)).mode = (s.pdk (m / 1024)).mode := congrArg (fun t => (Tab.get t ({} : Pdk) (m / 1024)).mode) hpdks
  have hnew : diff fSNS_CH_CTRL_RANGE ∨ diff fSNS_CH_CTRL_BIAS → (range || bias) = true := by
    rintro (h | h)
    · rw [← hr, decide_eq_true h]; rfl
    · rw [← hb, decide_eq_true h, Bool.or_true]
  clear_value t
  refine ⟨fun f hf => ?_, fun h => ?_, fun hr0 hb0 => ?_, fun hgo h => ?_⟩
  · rw [State.dGet, hrd]
    exact get_snsWord _ _ _ _ f hf
  · rw [State.dGet, hrd, dark_snsWord, hnew h, if_pos rfl]
  · obtain rfl : range = false := by rw [← hr]; exact decide_eq_false hr0
    obtain rfl : bias = false := by rw [← hb]; exact decide_eq_false hb0
    refine ⟨fun h => ?_, fun h => ?_, ?_, fun hgo hme hnone => ?_, fun h => ?_⟩
    · rw [State.dGet, hrd, dark_snsWord, ← hd, decide_eq_true h]
      rfl
    · rw [State.dGet, hrd, dark_snsWord, ← hd, decide_eq_false h]
      rfl
    · rw [ht, State.voidUntil_inputSettles_same, hvoid]
    · rw [htick, hrange, ht, decide_eq_true hme]
      exact State.meas_inputSettles_start (hrun.trans hgo) (hmeas.trans hnone)
    · rw [ht, State.meas_inputSettles_same, hmeas]
      rcases h with h | h | h
      · exact .inl fun e => h (hrun.symm.trans e)
      · exact .inr (.inl (by rw [h]; rfl))
      · exact .inr (.inr (hmeas ▸ h))
  · have hvu := State.voidUntil_inputSettles_new (measure := decide (fSNS_CH_CTRL_MEASURE.get v = 1)) (hrun.trans hgo) (hnew h)
    have hme := State.meas_inputSettles_new (measure := decide (fSNS_CH_CTRL_MEASURE.get v = 1)) (hrun.trans hgo) (hnew h)
    rw [← ht] at hvu hme
    rw [hvu, hme, htick, hrange, hntick]
    refine ⟨fun h => ?_, fun h => ?_, fun h => if_neg (by rw [h]; decide), fun h => if_pos (by rw [h]; rfl)⟩
    · rw [← hb, decide_eq_true h]
      simp
    · rw [← hr, decide_eq_true h]
      simp

/-- One flock of a software strobe word (R84). -/
def softStrobeFlock (w : Nat) (s : State) (i : Nat) : State :=
  if s.part.flocks ≤ 32 * w + i then s
  else if s.flockSrc (32 * w + i) = 6 then s.strobeFlock (32 * w + i)
  else s.dFlag DRV_STATUS fDRV_STATUS_SW_STB_IGNORED

end Sys2Proof.Machine

namespace Sys2Proof

/-- Settles O53: the outputs, the strobes, the senses and the link errors. -/
theorem driveAndSenseWritesAct : Obligations.DriveAndSenseWritesAct := by
  refine fun s x v sel hl => ⟨fun c hc => ?_, fun w hw => ?_, fun m hm => ?_, fun p hp => ?_⟩
  · rw [State.applyReg_drv x v sel hl hc]
    intro span bad kept
    have hkept : ∀ u, u.leaveCurrent c span = kept u := fun _ => rfl
    refine ⟨State.writeDrvCtrl_busy, State.writeDrvCtrl_bad, fun hidle hgood helem => ?_, fun hidle hgood helem => ?_⟩
    · have hrun := State.writeDrvCtrl_unmapped hidle hgood helem
      refine ⟨fun hoe => hrun.trans ?_, fun hoe => hrun.trans ?_⟩
      · rw [if_neg (by rw [hoe]; decide)]
        exact hkept _
      · rw [if_pos hoe]
        exact hkept _
    · intro n
      have hrun : s.writeDrvCtrl c v = n.follow c span (s.spanOf c) (s.on c) := State.writeDrvCtrl_mapped hidle hgood helem
      have hpdk : (n.pdk (pdkOf c)).mode = (s.pdk (pdkOf c)).mode := congrArg Pdk.mode ((State.leaveCurrent_pdk ..).trans (State.storeCtrl_pdk ..))
      refine ⟨fun hoff => hrun.trans (if_pos (hpdk ▸ hoff)), fun hmode hspan => ?_⟩
      have hrun := hrun.trans (if_neg (not_or.mpr ⟨not_not.mpr (hpdk.trans hmode), hspan⟩))
      refine ⟨fun hwas => hrun.trans (if_pos hwas), fun hwas hnew => hrun.trans ((if_neg hwas).trans (if_pos hnew)), fun hsame hon hwas => ?_, fun hsame hkept => ?_⟩
      all_goals
        have hrun := hrun.trans ((if_neg (hsame ▸ hspan)).trans (if_neg (not_not.mpr hsame)))
      · exact hrun.trans (if_pos (by simp [hon, hwas]))
      · exact hrun.trans (if_neg (by simpa [imp_iff_not_or] using hkept))
  · refine ⟨softStrobeFlock w, State.applyReg_strobe x v sel hl hw, fun u i => ⟨fun h => if_pos h, fun h hsrc => ?_, fun h hsrc => ?_⟩⟩
    · exact (if_neg (Nat.not_le.mpr h)).trans (if_pos hsrc)
    · exact (if_neg (Nat.not_le.mpr h)).trans (if_neg hsrc)
  · rw [State.applyReg_sns x v sel hl hm]
    intro t badBias badWin diff run
    refine ⟨fun hb hw => ?_, fun hb hw => ?_, fun hb hw => ?_, snsCtrl_good⟩
    · exact (State.writeSnsCtrl_bad (.inl hb)).trans ((if_neg hw).trans (if_pos hb))
    · exact (State.writeSnsCtrl_bad (.inr hw)).trans ((if_pos hw).trans (by rw [if_neg hb]))
    · exact (State.writeSnsCtrl_bad (.inr hw)).trans ((if_pos hw).trans (by rw [if_pos hb]))
  · rw [State.applyReg_linkErr x _ sel hl hp]
    exact if_pos (by decide)

end Sys2Proof
end

/-! ### Writes of the loops and the compensation -/

section
open Sys2Proof Sys2Proof.Machine Claims

namespace Sys2Proof.Machine

theorem State.pPut_rd_bank (s : State) {x : Shep} {o b off : Nat} (f : Fld) (v : Nat) (ho : o < 0x10000000) (hoff : off < 0x10000000) (hb : b ≠ x.bank) :
    (s.pPut x o f v).rd b off = s.rd b off := State.rd_wr_bank _ _ _ _ _ _ ho hoff hb

theorem State.pPut_rd_off (s : State) {x : Shep} {o b off : Nat} (f : Fld) (v : Nat) (ho : o < 0x10000000) (hoff : off < 0x10000000) (hne : off ≠ o) :
    (s.pPut x o f v).rd b off = s.rd b off := State.rd_wr_off _ _ _ _ _ _ ho hoff hne

theorem State.rd_fitExclude (s : State) (x : Shep) (c b off : Nat) : (s.fitExclude x c).rd b off = s.rd b off := by
  unfold State.fitExclude
  split
  · exact State.rd_modSh ..
  · rfl

/-! A word of LOOP_CTRL taken in one copy (R142). -/

theorem slotsNamed_lt {v : Word} {k : Nat} (h : k ∈ slotsNamed v) : k < 65540 := by
  obtain ⟨i, hi, rfl⟩ := List.mem_map.mp h
  have hcount : fLOOP_CTRL_COMP_COUNT.get v < 2 ^ 2 := Fld.get_lt _ v
  have hbase : fLOOP_CTRL_COMP_BASE.get v < 2 ^ 16 := Fld.get_lt _ v
  have hi := List.mem_range.mp hi
  omega

theorem State.slotsOf_lt {s : State} {x : Shep} {c k : Nat} (h : k ∈ s.slotsOf x c) : k < 65540 := by
  obtain ⟨i, hi, rfl⟩ := List.mem_map.mp h
  have hcount : fLOOP_CTRL_COMP_COUNT.get (s.rd x.bank (LOOP_CTRL c)) < 2 ^ 2 := Fld.get_lt _ _
  have hbase : fLOOP_CTRL_COMP_BASE.get (s.rd x.bank (LOOP_CTRL c)) < 2 ^ 16 := Fld.get_lt _ _
  have hi : i < fLOOP_CTRL_COMP_COUNT.get (s.rd x.bank (LOOP_CTRL c)) := List.mem_range.mp hi
  have hk : s.pGet x (LOOP_CTRL c) fLOOP_CTRL_COMP_BASE = fLOOP_CTRL_COMP_BASE.get (s.rd x.bank (LOOP_CTRL c)) := rfl
  omega

/-- A word that no competitor's register holds, or one of another bank than `x`'s. -/
def OffSlots (x : Shep) (b off : Nat) : Prop := off < 0x10000000 ∧ (b ≠ x.bank ∨ off < 0xA00000)

section
variable {x : Shep} {b off : Nat} (hoff : OffSlots x b off)
include hoff

theorem State.rd_leaveSlots {ks : List Nat} (hks : ∀ k ∈ ks, k < 65540) (s : State) : (s.leaveSlots x ks).rd b off = s.rd b off := by
  obtain ⟨hlt, hb⟩ := hoff
  unfold State.leaveSlots
  induction ks generalizing s with
  | nil => rfl
  | cons k ks ih =>
    have hk : LOOP_CMP_STAT k < 0x10000000 := by
      have := hks k List.mem_cons_self
      unfold LOOP_CMP_STAT
      omega
    refine (ih (fun k hk => hks k (List.mem_cons_of_mem _ hk)) _).trans ?_
    rcases hb with hb | hb
    · exact State.pPut_rd_bank _ _ _ hk hlt hb
    · exact State.pPut_rd_off _ _ _ hk hlt (by unfold LOOP_CMP_STAT; omega)

theorem State.rd_joinSlots {ks : List Nat} (hks : ∀ k ∈ ks, k < 65540) (s : State) (c : Nat) : (s.joinSlots x c ks).rd b off = s.rd b off := by
  obtain ⟨hlt, hb⟩ := hoff
  unfold State.joinSlots
  induction ks generalizing s with
  | nil => rfl
  | cons k ks ih =>
    have hk := hks k List.mem_cons_self
    have hstat : LOOP_CMP_STAT k < 0x10000000 := by unfold LOOP_CMP_STAT; omega
    have hint : LOOP_CMP_INT k < 0x10000000 := by unfold LOOP_CMP_INT; omega
    refine (ih (fun k hk => hks k (List.mem_cons_of_mem _ hk)) _).trans ?_
    have hput : (s.pPut x (LOOP_CMP_STAT k) fLOOP_CMP_STAT_OWNER c).rd b off = s.rd b off := by
      rcases hb with hb | hb
      · exact State.pPut_rd_bank _ _ _ hstat hlt hb
      · exact State.pPut_rd_off _ _ _ hstat hlt (by unfold LOOP_CMP_STAT; omega)
    dsimp only
    split
    · refine (State.rd_modSh ..).trans (Eq.trans ?_ hput)
      rcases hb with hb | hb
      · exact State.rd_wr_bank _ _ _ _ _ _ hint hlt hb
      · exact State.rd_wr_off _ _ _ _ _ _ hint hlt (by unfold LOOP_CMP_INT; omega)
    · exact hput

end

theorem State.rd_freshLoop_bank (s : State) {x : Shep} {c b off : Nat} (hc : c < 32768) (hlt : off < 0x10000000) (hb : b ≠ x.bank) : (s.freshLoop x c).rd b off = s.rd b off := by
  refine (State.rd_fitExclude ..).trans ((State.pPut_rd_bank _ _ _ ?_ hlt hb).trans (State.pPut_rd_bank _ _ _ ?_ hlt hb)) <;>
    simp only [LOOP_ERR, LOOP_SP_NOW] <;> omega

theorem State.rd_freshLoop_ctrl (s : State) (x : Shep) {c : Nat} (b : Nat) (hc : c < 32768) : (s.freshLoop x c).rd b (LOOP_CTRL c) = s.rd b (LOOP_CTRL c) := by
  refine (State.rd_fitExclude ..).trans ((State.pPut_rd_off _ _ _ ?_ ?_ ?_).trans (State.pPut_rd_off _ _ _ ?_ ?_ ?_)) <;>
    simp only [LOOP_ERR, LOOP_SP_NOW, LOOP_CTRL] <;> omega

theorem State.errLast_freshLoop (s : State) (x : Shep) (c : Nat) : (s.freshLoop x c).pGet x (LOOP_ERR c) fLOOP_ERR_E_LAST = 0 := by
  have hrd : (s.freshLoop x c).rd x.bank (LOOP_ERR c) = ((s.pPut x (LOOP_SP_NOW c) fLOOP_SP_NOW_SP_NOW (s.pGet x (LOOP_SP c) fLOOP_SP_TARGET)).pPut x (LOOP_ERR c) fLOOP_ERR_E_LAST 0).rd
      x.bank (LOOP_ERR c) := State.rd_fitExclude ..
  exact (congrArg fLOOP_ERR_E_LAST.get hrd).trans (State.pGet_pPut_self _ _ _ _ _ (by decide) (by decide))

/-- The slots that a copy leaves and joins with a new word. -/
def State.takeSlots (s : State) (x : Shep) (c : Nat) (was : List Nat) (v : Word) : State :=
  ((s.wr x.bank (LOOP_CTRL c) (v &&& 0xFFFFFCE7)).leaveSlots x (was.filter fun k => decide (k ∉ slotsNamed v))).joinSlots x c ((slotsNamed v).filter fun k => decide (k ∉ was))

theorem State.takeLoop_eq (s : State) (x : Shep) (c : Nat) (v : Word) :
    s.takeLoop x c v = if s.pGet x (LOOP_CTRL c) fLOOP_CTRL_KIND ≠ fLOOP_CTRL_KIND.get v then (s.takeSlots x c (s.slotsOf x c) v).freshLoop x c else s.takeSlots x c (s.slotsOf x c) v := by
  simp only [State.takeLoop, State.takeSlots, decide_eq_true_eq]

section
variable (s : State) (x : Shep) {c : Nat} (v : Word)

theorem State.rd_takeSlots {b off : Nat} (hoff : OffSlots x b off) : (s.takeSlots x c (s.slotsOf x c) v).rd b off = (s.wr x.bank (LOOP_CTRL c) (v &&& 0xFFFFFCE7)).rd b off :=
  (State.rd_joinSlots hoff (fun _ hk => slotsNamed_lt (List.mem_of_mem_filter hk)) _ _).trans (State.rd_leaveSlots hoff (fun _ hk => State.slotsOf_lt (List.mem_of_mem_filter hk)) _)

variable (hc : c < 32768)
include hc

theorem State.rd_takeLoop_bank {b off : Nat} (hlt : off < 0x10000000) (hb : b ≠ x.bank) : (s.takeLoop x c v).rd b off = s.rd b off := by
  have hslots : (s.takeSlots x c (s.slotsOf x c) v).rd b off = s.rd b off :=
    (s.rd_takeSlots x v ⟨hlt, .inl hb⟩).trans (State.rd_wr_bank _ _ _ _ _ _ (by simp only [LOOP_CTRL]; omega) hlt hb)
  rw [State.takeLoop_eq]
  split
  · exact (State.rd_freshLoop_bank _ hc hlt hb).trans hslots
  · exact hslots

theorem State.rd_takeLoop_ctrl : (s.takeLoop x c v).rd x.bank (LOOP_CTRL c) = v &&& 0xFFFFFCE7 := by
  have hslots : (s.takeSlots x c (s.slotsOf x c) v).rd x.bank (LOOP_CTRL c) = v &&& 0xFFFFFCE7 := by
    refine (s.rd_takeSlots x v ⟨?_, .inr ?_⟩).trans (State.rd_wr_self ..) <;> simp only [LOOP_CTRL] <;> omega
  rw [State.takeLoop_eq]
  split
  · exact (State.rd_freshLoop_ctrl _ _ _ hc).trans hslots
  · exact hslots

omit hc in
theorem State.errLast_takeLoop (hkind : s.pGet x (LOOP_CTRL c) fLOOP_CTRL_KIND ≠ fLOOP_CTRL_KIND.get v) : (s.takeLoop x c v).pGet x (LOOP_ERR c) fLOOP_ERR_E_LAST = 0 := by
  rw [State.takeLoop_eq, if_pos hkind]
  exact State.errLast_freshLoop ..

/-- Both copies take the word. -/
theorem State.takeLoop_both (y : Shep) : (both (fun x s => s.takeLoop x c v) s).rd y.bank (LOOP_CTRL c) = v &&& 0xFFFFFCE7 ∧
    (s.pGet y (LOOP_CTRL c) fLOOP_CTRL_KIND ≠ fLOOP_CTRL_KIND.get v → (both (fun x s => s.takeLoop x c v) s).pGet y (LOOP_ERR c) fLOOP_ERR_E_LAST = 0) := by
  have hctrl : LOOP_CTRL c < 0x10000000 := by simp only [LOOP_CTRL]; omega
  have herr : LOOP_ERR c < 0x10000000 := by simp only [LOOP_ERR]; omega
  cases y
  · refine ⟨(State.rd_takeLoop_bank _ .B v hc hctrl (by decide)).trans (s.rd_takeLoop_ctrl .A v hc), fun h => ?_⟩
    exact (congrArg fLOOP_ERR_E_LAST.get (State.rd_takeLoop_bank (s.takeLoop .A c v) .B v hc herr (b := 1) (by decide))).trans (s.errLast_takeLoop .A v h)
  · refine ⟨State.rd_takeLoop_ctrl _ .B v hc, fun h => State.errLast_takeLoop _ .B v ?_⟩
    exact (congrArg fLOOP_CTRL_KIND.get (s.rd_takeLoop_bank .A v hc hctrl (b := 2) (by decide))).trans_ne h

end

/-! LOOP_CTRL and LOOP_INT. -/

section
variable {s : State} (x : Shep) (v sel : Word)

theorem State.applyReg_loop (hl : s.locked = false) {c : Nat} (hc : c < 32768) : s.applyReg x (LOOP_CTRL c) v sel = s.writeLoopCtrl c v :=
  State.applyReg_own sel hl (regAt_of (regFind_loop hc) (by decide)) (tableWin_off (.inr (by simp only [LOOP_CTRL]; omega)))
    (loadWin_off (.inr (by simp only [LOOP_CTRL]; omega))) (s.writeOwnRule_loop x c v)

theorem State.applyReg_int (hl : s.locked = false) {c : Nat} (hc : c < 32768) : s.applyReg x (LOOP_INT c) v sel = s.storeReg x intRow (LOOP_INT c) v :=
  State.applyReg_store sel hl (regAt_of (regFind_int hc) (by decide)) (tableWin_off (.inr (by simp only [LOOP_INT]; omega)))
    (loadWin_off (.inr (by simp only [LOOP_INT]; omega))) (s.writeOwnRule_int x c v)

/-- LOOP_INT is writable whole. -/
theorem storeWord_int (old : Word) : storeWord intRow old v = v := by
  have hkeep : BitVec.ofNat 32 (intRow.rw ||| intRow.rwl) = BitVec.allOnes 32 := rfl
  have hw1c : BitVec.ofNat 32 intRow.w1c = 0#32 := rfl
  have hw1s : BitVec.ofNat 32 intRow.w1s = 0#32 := rfl
  simp only [storeWord, hkeep, hw1c, hw1s, BitVec.not_allOnes, BitVec.and_zero, BitVec.zero_and, BitVec.zero_or, BitVec.or_zero, BitVec.and_allOnes, BitVec.not_zero]

/-- The rows of the four registers of the loops and the compensation that have rules of their own, one word each. -/
def loopStatusRow : RegRow := ⟨0xB004, 1, 4, .per, .none, 0x0, 0x0, 0x0, 0xF, 0x0, 0x20⟩
def cmpCfgRow : RegRow := ⟨0xC000, 1, 4, .shared, .none, 0x20, 0x7FF, 0x0, 0x0, 0x0, 0x0⟩
def winSelRow : RegRow := ⟨0xC004, 1, 4, .per, .none, 0x0, 0xF000003F, 0x0, 0x0, 0x0, 0x0⟩
def stageRow : RegRow := ⟨0xC008, 1, 4, .shared, .none, 0x0, 0xF00FFFF, 0x0, 0x0, 0x0, 0x80000000⟩

/-- A row of one word, found in the map. -/
theorem regAt_one {r : RegRow} (hr : regTable.find? r.meets = some r) (hs : 0 < r.stride) (hcount : 0 < r.count) (hk : r.kind ≠ .pin) : regAt r.base = some (r, 0) :=
  regAt_of (regFind_row (i := 0) hr hs hcount) hk

theorem State.applyReg_loopStatus (hl : s.locked = false) : s.applyReg x LOOP_STATUS v sel = s.writeLoopStatus x loopStatusRow v :=
  State.applyReg_own sel hl (regAt_one (r := loopStatusRow) (by decide) (by decide) (by decide) (by decide)) (by decide) (by decide) rfl

theorem State.applyReg_cmpCfg (hl : s.locked = false) : s.applyReg x CMP_CFG v sel = s.writeCmpPeriod v :=
  State.applyReg_own sel hl (regAt_one (r := cmpCfgRow) (by decide) (by decide) (by decide) (by decide)) (by decide) (by decide) rfl

theorem State.applyReg_winSel (hl : s.locked = false) : s.applyReg x CMP_WIN_SEL v sel = s.writeWinSel x v :=
  State.applyReg_own sel hl (regAt_one (r := winSelRow) (by decide) (by decide) (by decide) (by decide)) (by decide) (by decide) rfl

theorem State.applyReg_stage (hl : s.locked = false) : s.applyReg x CMP_STAGE_CTRL v sel = s.writeStageCtrl v :=
  State.applyReg_own sel hl (regAt_one (r := stageRow) (by decide) (by decide) (by decide) (by decide)) (by decide) (by decide) rfl

/-- A word of the table window is written through its selection, also under SET-UP LOCK. -/
theorem State.applyReg_table {w : Nat} (hw : w < 262144) : s.applyReg x (0x300000 + 4 * w) v sel = s.writeTable sel x w v := by
  have htable : tableWin (0x300000 + 4 * w) = true := decide_eq_true (by omega)
  have hword : (0x300000 + 4 * w - 0x300000) / 4 = w := by omega
  exact (if_pos htable).trans (by rw [hword])

end

/-- A word of LOOP_CTRL that fails a check. -/
theorem State.writeLoopCtrl_bad {s : State} {c : Nat} {v : Word}
    (h : 4 < fLOOP_CTRL_KIND.get v ∨ (fLOOP_CTRL_DIV.get v ≠ 0 ∧ s.isHeater c = false) ∨ s.slotsBad c v = true) :
    s.writeLoopCtrl c v =
      let k := if 4 < fLOOP_CTRL_KIND.get v then s.loopNote fLOOP_STATUS_BAD_KIND c else s
      let d := if fLOOP_CTRL_DIV.get v ≠ 0 ∧ s.isHeater c = false then k.loopNote fLOOP_STATUS_BAD_DIV c else k
      if s.slotsBad c v = true then d.loopNote fLOOP_STATUS_BAD_SLOTS c else d := by
  have hbad : (decide (4 < fLOOP_CTRL_KIND.get v) || decide (fLOOP_CTRL_DIV.get v ≠ 0) && !s.isHeater c || s.slotsBad c v) = true := by simpa [or_assoc] using h
  refine (if_pos hbad).trans ?_
  simp only [Bool.and_eq_true, decide_eq_true_eq, Bool.not_eq_true']

/-- A word of LOOP_CTRL that passes is taken in both copies. -/
theorem State.regs_writeLoopCtrl_good {s : State} {c : Nat} {v : Word} (hkind : ¬4 < fLOOP_CTRL_KIND.get v) (hdiv : ¬(fLOOP_CTRL_DIV.get v ≠ 0 ∧ s.isHeater c = false))
    (hslots : ¬s.slotsBad c v = true) : (s.writeLoopCtrl c v).regs = (both (fun x s => s.takeLoop x c v) s).regs := by
  have hgood : ¬(decide (4 < fLOOP_CTRL_KIND.get v) || decide (fLOOP_CTRL_DIV.get v ≠ 0) && !s.isHeater c || s.slotsBad c v) = true := by
    simp only [Bool.or_eq_true, Bool.and_eq_true, decide_eq_true_eq, Bool.not_eq_true']
    exact not_or.mpr ⟨not_or.mpr ⟨hkind, hdiv⟩, hslots⟩
  unfold State.writeLoopCtrl
  extract_lets badK badD badS oldDiv u
  rw [if_neg hgood]
  split
  · rfl
  · rfl

theorem State.rd_tlmCleared (s : State) (f : State → State) (b off : Nat) : (s.tlmCleared f).rd b off = (f s).rd b off := rfl

/-- CLR_CNT sets both overrun counters to 0 (R155). -/
theorem State.rd_clrCnt (s : State) (x : Shep) (r : RegRow) (v : Word) :
    (s.writeLoopStatus x r (fLOOP_STATUS_CLR_CNT.put v 1)).rd x.bank LOOP_OVR_TICKS = 0 ∧ (s.writeLoopStatus x r (fLOOP_STATUS_CLR_CNT.put v 1)).rd x.bank LOOP_OVR_SKIPS = 0 := by
  have hclr : fLOOP_STATUS_CLR_CNT.get (fLOOP_STATUS_CLR_CNT.put v 1) = 1 := Fld.get_put_self _ _ _ (by decide) (by decide)
  unfold State.writeLoopStatus
  dsimp only
  rw [if_pos hclr]
  rw [State.rd_tlmCleared, State.rd_tlmCleared]
  exact ⟨(State.rd_wr_off _ _ _ _ _ _ (by decide) (by decide) (by decide)).trans (State.rd_wr_self ..), State.rd_wr_self ..⟩

/-! The selection and the words of the compensation window (R169, R171). -/

/-- The pages of a table. -/
def winPages (p : Part) (table : Nat) : Nat :=
  if table = 0 then p.paddocks / 2 else if table = 1 then max 1 (p.paddocks / 8) else 4 * p.paddocks

theorem State.writeWinSel_known {s : State} (x : Shep) {v : Word} (h : fCMP_WIN_SEL_TABLE.get v ≤ 2) :
    s.writeWinSel x v = ((if winPages s.part (fCMP_WIN_SEL_TABLE.get v) ≤ fCMP_WIN_SEL_PAGE.get v then s.pFlag x CMP_STATUS fCMP_STATUS_BAD_WIN else s).pPut x CMP_WIN_SEL
      fCMP_WIN_SEL_TABLE (fCMP_WIN_SEL_TABLE.get v)).pPut x CMP_WIN_SEL fCMP_WIN_SEL_PAGE (fCMP_WIN_SEL_PAGE.get v) := by
  unfold State.writeWinSel
  generalize fCMP_WIN_SEL_TABLE.get v = t at *
  obtain rfl | rfl | rfl : t = 0 ∨ t = 1 ∨ t = 2 := by omega
  all_goals rfl

theorem State.writeWinSel_unknown {s : State} (x : Shep) {v : Word} (h : 2 < fCMP_WIN_SEL_TABLE.get v) : s.writeWinSel x v = s.pFlag x CMP_STATUS fCMP_STATUS_BAD_WIN := by
  unfold State.writeWinSel
  generalize fCMP_WIN_SEL_TABLE.get v = t at *
  match t, h with
  | t + 3, h => exact (if_pos h).trans (if_pos (Nat.zero_le _))

theorem Part.chans_le (p : Part) : p.chans ≤ 32768 := by cases p <;> decide

/-- A word of a channel's tables reads as it was written, in both copies. -/
theorem State.rd_cmpWord (s : State) {c off : Nat} (v : Word) (hoff : off < 0x10000000) (y : Shep) : (s.cmpWord c off v).rd y.bank off = v := by
  have hput : (s.sWr off v).rd y.bank off = v := by
    cases y
    · exact (State.rd_wr_bank _ _ _ _ _ _ hoff hoff (by decide)).trans (State.rd_wr_self ..)
    · exact State.rd_wr_self ..
  unfold State.cmpWord
  dsimp only
  split
  · exact hput
  · exact (State.rd_fitExclude ..).trans ((State.rd_fitExclude ..).trans hput)

/-- A coefficient joins one shepherd's queue, where that has room (R171). -/
def joinQueue (e coef : Nat) (x : Shep) (s : State) : State :=
  if s.queueFull x then s.pFlag x CMP_STATUS fCMP_STATUS_XT_QFULL
  else s.modSh x fun h => { h with xt := { h.xt with queue := h.xt.queue ++ [⟨false, e, coef⟩] } }

theorem State.queueCoef_eq (s : State) (e coef : Nat) :
    s.queueCoef e coef = if s.queueFull s.lead = true then (both (joinQueue e coef) s).notice CMP_STATUS fCMP_STATUS_XT_QFULL.lo 0xFFFF [e % 65536, e / 65536]
      else both (joinQueue e coef) s := rfl

theorem State.writeTable_absent {s : State} {sel : Word} {x : Shep} {w : Nat} {v : Word} (h : (winWord sel w).present s.part = false) :
    s.writeTable sel x w v = s.pFlag x CMP_STATUS fCMP_STATUS_BAD_WIN := if_pos (by rw [h]; rfl)

/-- What a word of the window writes, by its table (R169, R171). -/
def State.writeWin (s : State) (v : Word) : WinWord → State
  | .hys c k => s.cmpWord c (HYS_WORD c k) v
  | .rip c k => s.cmpWord c (RIP_WORD c k) v
  | .xt e => s.queueCoef e (v.toNat / 65536)

theorem State.writeTable_present {s : State} {sel : Word} {x : Shep} {w : Nat} {v : Word} {d : WinWord} (h : (winWord sel w).present s.part = true) (hd : winWord sel w = d) :
    s.writeTable sel x w v = s.writeWin v d := by
  subst hd
  exact if_neg (by rw [h]; decide)

/-- The words of the tables lie below 2^28. -/
theorem winWord_lt {sel : Word} {w c k : Nat} (p : Part) (h : (winWord sel w).present p = true) :
    (winWord sel w = .hys c k → HYS_WORD c k < 0x10000000) ∧ (winWord sel w = .rip c k → RIP_WORD c k < 0x10000000) := by
  have hp := p.chans_le
  refine ⟨fun hd => ?_, fun hd => ?_⟩
  · rw [hd] at h
    have hc : c < p.chans := of_decide_eq_true h
    have hk : k < 64 := by
      unfold winWord at hd
      split at hd
      · cases hd; omega
      · cases hd
      · cases hd
    simp only [HYS_WORD]
    omega
  · rw [hd] at h
    have hc : c < p.chans := of_decide_eq_true h
    have hk : k < 16 := by
      unfold winWord at hd
      split at hd
      · cases hd
      · cases hd; omega
      · cases hd
    simp only [RIP_WORD]
    omega

end Sys2Proof.Machine

namespace Sys2Proof

/-- Settles O54: the loops, the counters, the window's selection and words, the staging word and the period. -/
theorem loopWritesAct : Obligations.LoopWritesAct := by
  refine fun s x v sel hl => ⟨fun c hc => ?_, ?_, ?_, fun w hw => ?_, ?_, ?_⟩
  · rw [State.applyReg_loop x v sel hl hc, State.applyReg_int x v sel hl hc]
    intro badKind badDiv badSlots t kindNoted divNoted slotsNoted
    refine ⟨fun hbad => State.writeLoopCtrl_bad hbad, fun hkind hdiv hslots y => ?_, fun y => ?_⟩
    · have hregs : t.regs = (both (fun x s => s.takeLoop x c v) s).regs := State.regs_writeLoopCtrl_good hkind hdiv hslots
      obtain ⟨hctrl, herr⟩ := s.takeLoop_both v hc y
      exact ⟨(State.rd_congr _ _ _ _ hregs).trans hctrl, fun h => (congrArg fLOOP_ERR_E_LAST.get (State.rd_congr _ _ _ _ hregs)).trans (herr h)⟩
    · have hint : LOOP_INT c < 0x10000000 := by simp only [LOOP_INT]; omega
      have hstore := storeWord_int v
      cases y
      · exact (State.rd_wr_bank _ _ _ _ _ _ hint hint (by decide)).trans ((State.rd_wr_self ..).trans (hstore _))
      · exact (State.rd_wr_self ..).trans (hstore _)
  · rw [State.applyReg_loopStatus x _ sel hl]
    exact s.rd_clrCnt x _ v
  · rw [State.applyReg_winSel x v sel hl]
    intro table page pages flagged selected
    have hpages : pages = winPages s.part table := rfl
    refine ⟨State.writeWinSel_unknown x, fun htable hpage => ?_, fun htable hpage => ?_⟩
    · rw [State.writeWinSel_known x htable, if_pos (hpages ▸ hpage)]
    · rw [State.writeWinSel_known x htable, if_neg (Nat.not_le.mpr (hpages ▸ hpage))]
  · rw [State.applyReg_table x v sel hw]
    intro t
    refine ⟨State.writeTable_absent, fun hp => ⟨fun c k hd y => ?_, fun c k hd y => ?_, fun e hd => ?_⟩⟩
    · exact (congrArg (State.rd · y.bank _) (State.writeTable_present hp hd)).trans (s.rd_cmpWord v ((winWord_lt s.part hp).1 hd) y)
    · exact (congrArg (State.rd · y.bank _) (State.writeTable_present hp hd)).trans (s.rd_cmpWord v ((winWord_lt s.part hp).2 hd) y)
    · refine ⟨joinQueue e (v.toNat / 65536), (State.writeTable_present hp hd).trans (s.queueCoef_eq _ _), fun y u => ⟨fun hroom => ?_, fun hfull => ?_⟩⟩
      · exact if_neg (by simpa [State.queueFull] using hroom)
      · exact if_pos (decide_eq_true hfull)
  · intro w
    rw [State.applyReg_stage x _ sel hl]
    refine if_pos (decide_eq_true ?_)
    exact Fld.get_put_self _ _ _ (by decide) (by decide)
  · rw [State.applyReg_cmpCfg x v sel hl]
    exact ⟨fun h => if_pos h, fun hlo hhi => if_neg (by omega)⟩

end Sys2Proof
end

/-! ### Writes of the sequencer, the pair, the host rings, the time, the alarms, power and security -/

section
open Sys2Proof Sys2Proof.Machine Claims

namespace Sys2Proof.Machine

/-! The rows of the registers with rules of their own. -/

def seqArmRow : RegRow := ⟨0xE024, 1, 4, .shared, .none, 0x0, 0xFF000F, 0x0, 0x0, 0x0, 0xC0000000⟩
def seqCfgRow : RegRow := ⟨0xE000, 1, 4, .shared, .none, 0x78, 0xFFFF, 0x0, 0x0, 0x0, 0x0⟩
def shpCtrlRow : RegRow := ⟨0x10004, 1, 4, .per, .none, 0x0, 0x0, 0x0, 0x0, 0x0, 0xF0000000⟩
def hostDivRow : RegRow := ⟨0x10018, 1, 4, .per, .none, 0x0, 0x0, 0x0, 0x0, 0x0, 0x80000000⟩
def cmdCfgRow : RegRow := ⟨0x5180, 16, 4, .shared, .none, 0x0, 0x8007000F, 0x0, 0x0, 0x0, 0x0⟩
def ringCfgRow : RegRow := ⟨0x5050, 3, 4, .per, .none, 0x0, 0x8000000F, 0x0, 0x0, 0x0, 0x0⟩
def timIncrRow : RegRow := ⟨0x600C, 1, 4, .dev, .none, 0x2800000, 0xFFFFFFFF, 0x0, 0x0, 0x0, 0x0⟩
def injectRow : RegRow := ⟨0x1401C, 1, 4, .shared, .none, 0x0, 0x0, 0x0, 0x0, 0x0, 0xE000FFFF⟩
def parkedRow : RegRow := ⟨0x14010, 1, 4, .shared, .none, 0x0, 0x0, 0x0, 0x1FFFF, 0x0, 0x0⟩
def clearedRow : RegRow := ⟨0x14014, 2, 4, .shared, .flockw, 0x0, 0x0, 0x0, 0xFFFFFFFF, 0x0, 0x0⟩
def wakeRow : RegRow := ⟨0x2004, 1, 4, .dev, .none, 0x1, 0x0, 0x0, 0x2, 0x0, 0x80000000⟩
def rstCtrlRow : RegRow := ⟨0x3000, 1, 4, .dev, .none, 0x0, 0x10F0000, 0x0, 0x0, 0x0, 0xE0000000⟩
def lockRow : RegRow := ⟨0x4008, 1, 4, .dev, .none, 0x0, 0x0, 0x0, 0x0, 0x1, 0x0⟩
def loadCtrlRow : RegRow := ⟨0x20, 1, 4, .per, .none, 0x0, 0x3FFFFFF, 0x0, 0x0, 0x0, 0x80000000⟩
def fenceRow : RegRow := ⟨0x101C, 1, 4, .mixed, .none, 0x0, 0x1FFFFF, 0x0, 0x0, 0x0, 0x0⟩
def libCfgRow : RegRow := ⟨0x11004, 1, 4, .shared, .none, 0x1000, 0x0, 0x1FFFF, 0x0, 0x0, 0x0⟩
def fitlogCfgRow : RegRow := ⟨0x11008, 1, 4, .shared, .none, 0x40, 0x0, 0x7FF, 0x0, 0x0, 0x0⟩

/-- A row that the map holds below its windows, and that is found by its own offsets. -/
def RegRow.found (r : RegRow) : Bool :=
  decide (regTable.find? r.meets = some r ∧ 0 < r.stride ∧ r.kind ≠ .pin ∧ r.base + r.stride * r.count ≤ 0x300000)

theorem RegRow.regAt_found {r : RegRow} (h : r.found = true) {i : Nat} (hi : i < r.count) :
    regAt (r.base + r.stride * i) = some (r, i) ∧ tableWin (r.base + r.stride * i) = false ∧ loadWin (r.base + r.stride * i) = false := by
  obtain ⟨hfind, hstride, hkind, hlt⟩ := of_decide_eq_true h
  have hin : r.stride * i < r.stride * r.count := Nat.mul_lt_mul_of_pos_left hi hstride
  exact ⟨regAt_of (regFind_row hfind hstride hi) hkind, tableWin_off (.inl (by omega)), loadWin_off (.inl (by omega))⟩

/-- A register with a rule of its own takes its word by that rule. -/
theorem State.applyReg_found {s t : State} {x : Shep} {v : Word} (sel : Word) (hl : s.locked = false) {r : RegRow} (h : r.found = true) {i off : Nat} (hi : i < r.count)
    (hoff : off = r.base + r.stride * i) (hw : s.writeOwnRule x r i off v = some t) : s.applyReg x off v sel = t := by
  subst hoff
  obtain ⟨hreg, htable, hload⟩ := RegRow.regAt_found h hi
  exact State.applyReg_own sel hl hreg htable hload hw

/-! Each register's rule. -/

section
variable {s : State} (x : Shep) (v sel : Word) (hl : s.locked = false)
include hl

theorem State.applyReg_seqArm : s.applyReg x SEQ_ARM_CTRL v sel = s.writeArm v :=
  State.applyReg_found sel hl (r := seqArmRow) (i := 0) (by decide) (by decide) rfl rfl

theorem State.applyReg_seqCfg : s.applyReg x SEQ_CFG v sel = s.writeMargin v :=
  State.applyReg_found sel hl (r := seqCfgRow) (i := 0) (by decide) (by decide) rfl rfl

theorem State.applyReg_shpCtrl : s.applyReg x SHP_CTRL v sel = s.writeShpCtrl x v :=
  State.applyReg_found sel hl (r := shpCtrlRow) (i := 0) (by decide) (by decide) rfl rfl

theorem State.applyReg_hostDiv : s.applyReg x SHP_HOST_DIV v sel = s.writeHostDiv x v :=
  State.applyReg_found sel hl (r := hostDivRow) (i := 0) (by decide) (by decide) rfl rfl

theorem State.applyReg_cmdCfg {r : Nat} (hr : r < 16) : s.applyReg x (HIF_CMD_CFG r) v sel = s.writeCmdCfg x r v := by
  have hreg : regAt (HIF_CMD_CFG r) = some (cmdCfgRow, r) := by interval_cases r <;> rfl
  refine State.applyReg_own sel hl hreg ?_ ?_ ?_ <;> interval_cases r <;> rfl

theorem State.applyReg_ringCfg {k : Nat} (hk : k < 3) : s.applyReg x (HIF_RING_CFG k) v sel = s.writeRingCfg x k v := by
  refine State.applyReg_found sel hl (r := ringCfgRow) (i := k) (by decide) hk rfl ?_
  interval_cases k <;> rfl

theorem State.applyReg_timIncr : s.applyReg x TIM_INCR v sel = s.writeIncr v :=
  State.applyReg_found sel hl (r := timIncrRow) (i := 0) (by decide) (by decide) rfl rfl

theorem State.applyReg_inject : s.applyReg x ALM_INJECT v sel = s.writeInject v :=
  State.applyReg_found sel hl (r := injectRow) (i := 0) (by decide) (by decide) rfl rfl

theorem State.applyReg_parked : s.applyReg x ALM_PARKED v sel = s.writeAlmParked v :=
  State.applyReg_found sel hl (r := parkedRow) (i := 0) (by decide) (by decide) rfl rfl

theorem State.applyReg_cleared {k : Nat} (hk : k < 2) : s.applyReg x (ALM_CLEARED k) v sel = s.releaseFlocks k v.toNat := by
  refine State.applyReg_found sel hl (r := clearedRow) (i := k) (by decide) hk rfl ?_
  interval_cases k <;> rfl

theorem State.applyReg_wake : s.applyReg x PWR_WAKE v sel = s.writeWake v :=
  State.applyReg_found sel hl (r := wakeRow) (i := 0) (by decide) (by decide) rfl rfl

theorem State.applyReg_rstCtrl : s.applyReg x RST_CTRL v sel = s.writeRstCtrl x v :=
  State.applyReg_found sel hl (r := rstCtrlRow) (i := 0) (by decide) (by decide) rfl rfl

theorem State.applyReg_lock : s.applyReg x LCS_LOCK v sel = if fLCS_LOCK_SET.get v = 1 then s.setLock else s :=
  State.applyReg_found sel hl (r := lockRow) (i := 0) (by decide) (by decide) rfl rfl

theorem State.applyReg_loadCtrl : s.applyReg x GLB_LOAD_CTRL v sel = s.writeLoadCtrl x v :=
  State.applyReg_found sel hl (r := loadCtrlRow) (i := 0) (by decide) (by decide) rfl rfl

theorem State.applyReg_fence : s.applyReg x CLK_XING_FENCE v sel = s.writeFence x v :=
  State.applyReg_found sel hl (r := fenceRow) (i := 0) (by decide) (by decide) rfl rfl

theorem State.applyReg_layout {off : Nat} (hoff : off = FLD_LIB_CFG ∨ off = FLD_FITLOG_CFG) : s.applyReg x off v sel = s.writeLayout off v := by
  rcases hoff with rfl | rfl
  · exact State.applyReg_found sel hl (r := libCfgRow) (i := 0) (by decide) (by decide) rfl rfl
  · exact State.applyReg_found sel hl (r := fitlogCfgRow) (i := 0) (by decide) (by decide) rfl rfl

end

/-! SHP_CTRL (R309, R312, R315, R321). -/

section
variable {s : State} {x : Shep} {v : Word}

theorem State.writeShpCtrl_refused (h : (v.toNat / 2 ^ 29 ≠ 0 ∧ v.toNat / 2 ^ 29 ≠ 1 ∧ v.toNat / 2 ^ 29 ≠ 2 ∧ v.toNat / 2 ^ 29 ≠ 4) ∨ (v.toNat / 2 ^ 29 ≠ 0 ∧ s.role x ≠ .active)) :
    s.writeShpCtrl x v = s.badCtrl x := if_pos h

/-- One of the actions, through the ACTIVE and without CLR_CNT. -/
theorem State.writeShpCtrl_taken {bits : Nat} (hbits : v.toNat / 2 ^ 29 = bits) (hone : bits = 1 ∨ bits = 2 ∨ bits = 4) (hactive : s.role x = .active) (hclr : fSHP_CTRL_CLR_CNT.get v = 0) :
    s.writeShpCtrl x v = if bits = 4 then s.handoverWrite x
      else if bits = 2 then if s.role x.other = .detached ∧ (s.sh x.other).halted = false then s.startSync x.other else s.badCtrl x
      else if bits = 1 then
        let s := if s.role x.other = .syncing then { s with sync := none }.resyncStage 0 0 else s
        if s.role x.other = .off then s else (s.fence x.other).repairPending false
      else s := by
  subst hbits
  have hgo : ¬((v.toNat / 2 ^ 29 ≠ 0 ∧ v.toNat / 2 ^ 29 ≠ 1 ∧ v.toNat / 2 ^ 29 ≠ 2 ∧ v.toNat / 2 ^ 29 ≠ 4) ∨ (v.toNat / 2 ^ 29 ≠ 0 ∧ s.role x ≠ .active)) := by
    rintro (h | h)
    · omega
    · exact h.2 hactive
  refine (if_neg hgo).trans ?_
  simp only [hclr, Nat.zero_ne_one, if_false]

theorem State.writeShpCtrl_clear (hclr : fSHP_CTRL_CLR_CNT.get v = 1) (hbits : v.toNat / 2 ^ 29 = 0) : s.writeShpCtrl x v = s.clearCounts x := by
  have hgo : ¬((v.toNat / 2 ^ 29 ≠ 0 ∧ v.toNat / 2 ^ 29 ≠ 1 ∧ v.toNat / 2 ^ 29 ≠ 2 ∧ v.toNat / 2 ^ 29 ≠ 4) ∨ (v.toNat / 2 ^ 29 ≠ 0 ∧ s.role x ≠ .active)) := by
    rintro (h | h)
    · exact h.1 hbits
    · exact h.1 hbits
  refine (if_neg hgo).trans ?_
  simp only [hclr, hbits, if_true]
  rfl

theorem State.role_resyncStage (s : State) (stage left : Nat) (x : Shep) : (s.resyncStage stage left).role x = s.role x := by
  have hquiet : ∀ (y : Shep) (s : State), ((s.pPut y SHP_RESYNC fSHP_RESYNC_STAGE stage).pPut y SHP_RESYNC fSHP_RESYNC_LEFT left).quiet = s.quiet := fun y s =>
    (State.pPut_quiet ..).trans (State.pPut_quiet ..)
  exact State.role_of_quiet ((hquiet .B _).trans (hquiet .A s)) x

/-- What CLR_CNT leaves of the counters (R321). -/
theorem State.rd_clearPdkErr (ps : List Nat) (hps : ∀ p ∈ ps, p < 16) (s : State) {b off : Nat} (hlt : off < 0x10000000) (hoff : b ≠ 0 ∨ off < 0x10040) :
    (ps.foldl (fun s p => s.wr 0 (SHP_PDK_ERR p) 0) s).rd b off = s.rd b off := by
  induction ps generalizing s with
  | nil => rfl
  | cons p ps ih =>
    have hp := hps p List.mem_cons_self
    have herr : SHP_PDK_ERR p < 0x10000000 := by simp only [SHP_PDK_ERR]; omega
    refine (ih (fun q hq => hps q (List.mem_cons_of_mem _ hq)) _).trans ?_
    rcases hoff with h | h
    · exact State.rd_wr_bank _ _ _ _ _ _ herr hlt h
    · exact State.rd_wr_off _ _ _ _ _ _ herr hlt (by simp only [SHP_PDK_ERR]; omega)

theorem State.rd_clearPdkErr_zero (n : Nat) (hn : n ≤ 16) (s : State) {p : Nat} (hp : p < n) : ((List.range n).foldl (fun s p => s.wr 0 (SHP_PDK_ERR p) 0) s).rd 0 (SHP_PDK_ERR p) = 0 := by
  induction n with
  | zero => exact absurd hp (Nat.not_lt_zero p)
  | succ n ih =>
    rw [List.range_succ, List.foldl_append, List.foldl_cons, List.foldl_nil]
    by_cases h : p = n
    · subst h
      generalize (List.range p).foldl _ s = u
      rw [State.rd_wr_self]
    · refine (State.rd_wr_off _ _ _ _ _ _ ?_ ?_ ?_).trans (ih (by omega) (by omega)) <;> simp only [SHP_PDK_ERR] <;> omega

/-- The shepherd's own counters at 0. -/
def State.clearOwn (s : State) (x : Shep) : State :=
  (((s.wr x.bank SHP_CNT_DIVERGE 0).wr x.bank SHP_CNT_UNSEALED 0).wr x.bank SHP_CNT_REPAIR 0).pPut x SHP_HOST_DIV fSHP_HOST_DIV_COUNT 0

theorem State.clearCounts_eq (s : State) (x : Shep) : s.clearCounts x = (List.range 16).foldl (fun s p => s.wr 0 (SHP_PDK_ERR p) 0) (s.clearOwn x) := rfl

theorem State.rd_clearCounts (s : State) (x : Shep) {off : Nat} (hlt : off < 0x10000000) : (s.clearCounts x).rd x.bank off = (s.clearOwn x).rd x.bank off := by
  rw [State.clearCounts_eq]
  exact State.rd_clearPdkErr _ (fun p hp => List.mem_range.mp hp) _ hlt (.inl (by cases x <;> decide))

theorem State.clearCounts_cleared (s : State) (x : Shep) :
    (s.clearCounts x).rd x.bank SHP_CNT_DIVERGE = 0 ∧ (s.clearCounts x).rd x.bank SHP_CNT_UNSEALED = 0 ∧ (s.clearCounts x).rd x.bank SHP_CNT_REPAIR = 0 ∧
      (s.clearCounts x).pGet x SHP_HOST_DIV fSHP_HOST_DIV_COUNT = 0 ∧ (∀ p, p < 16 → (s.clearCounts x).rd 0 (SHP_PDK_ERR p) = 0) := by
  refine ⟨?_, ?_, ?_, ?_, fun p hp => ?_⟩
  · rw [State.rd_clearCounts s x (by decide)]
    simp [State.clearOwn, State.pPut, State.rd_wr, SHP_HOST_DIV, SHP_CNT_DIVERGE, SHP_CNT_UNSEALED, SHP_CNT_REPAIR]
  · rw [State.rd_clearCounts s x (by decide)]
    simp [State.clearOwn, State.pPut, State.rd_wr, SHP_HOST_DIV, SHP_CNT_DIVERGE, SHP_CNT_UNSEALED, SHP_CNT_REPAIR]
  · rw [State.rd_clearCounts s x (by decide)]
    simp [State.clearOwn, State.pPut, State.rd_wr, SHP_HOST_DIV, SHP_CNT_DIVERGE, SHP_CNT_UNSEALED, SHP_CNT_REPAIR]
  · rw [State.pGet, State.rd_clearCounts s x (by decide)]
    exact State.pGet_pPut_self _ _ _ _ _ (by decide) (by decide)
  · rw [State.clearCounts_eq]
    exact State.rd_clearPdkErr_zero 16 (Nat.le_refl _) _ hp

end

end Sys2Proof.Machine

namespace Sys2Proof

/-- Settles O55. -/
theorem sequencerAndPairWritesAct : Obligations.SequencerAndPairWritesAct := by
  refine fun s x v sel hl => ⟨?_, ?_, fun hactive hclr => ?_, fun hrole hbits => ?_, fun hclr hbits => ?_, fun hreport => ?_⟩
  · rw [State.applyReg_seqArm x v sel hl]
    intro n cancelled
    refine ⟨fun hcancel hgo => ?_, fun hcancel hgo => ?_⟩
    · simp only [State.writeArm, hcancel, hgo, if_true, Bool.false_eq_true, if_false]
      rfl
    · intro dom slot instant c free
      have hrun : s.writeArm v = n.armGo dom slot instant := by
        simp only [State.writeArm, hcancel, hgo, if_true, Bool.false_eq_true, if_false]
        rfl
      have hfree : free ↔ (n.seqModeBad dom || (decide (n.rotOf dom ≠ none) || (n.domCommits dom).any fun c => decide (c.src = 0)) || !n.slotReady slot dom) = false := by
        simp [free, and_assoc]
      refine ⟨fun h => hrun.trans (if_pos ?_), fun h => hrun.trans (if_neg ?_)⟩
      · exact Bool.eq_true_of_not_eq_false (mt hfree.mpr h)
      · exact ne_true_of_eq_false (hfree.mp h)
  · rw [State.applyReg_seqCfg x v sel hl]
    exact ⟨fun h => if_pos h, fun hlo hhi => if_neg (by omega)⟩
  · rw [State.applyReg_shpCtrl x v sel hl]
    refine ⟨fun h => (State.writeShpCtrl_taken h (.inr (.inr rfl)) hactive hclr).trans (if_pos rfl), fun h hdet hrun => ?_, fun h hother => ?_, fun h hother => ?_, fun h => ?_⟩
    · refine (State.writeShpCtrl_taken h (.inr (.inl rfl)) hactive hclr).trans ((if_neg (by decide)).trans ((if_pos rfl).trans ?_))
      exact if_pos ⟨hdet, hrun⟩
    · refine (State.writeShpCtrl_taken h (.inl rfl) hactive hclr).trans ?_
      rcases hother with hother | hother <;> simp [hother]
    · refine (State.writeShpCtrl_taken h (.inl rfl) hactive hclr).trans ?_
      have hrole : (State.resyncStage { s with sync := none } 0 0).role x.other = s.role x.other := State.role_resyncStage _ 0 0 _
      have hup : ¬(State.resyncStage { s with sync := none } 0 0).role x.other = .off := by rw [hrole, hother]; decide
      refine (if_neg (by decide)).trans ((if_neg (by decide)).trans ((if_pos rfl).trans ?_))
      simp only [hother, if_true]
      exact if_neg hup
    · exact State.writeShpCtrl_refused (.inl (by omega))
  · rw [State.applyReg_shpCtrl x v sel hl]
    exact State.writeShpCtrl_refused (.inr ⟨hbits, hrole⟩)
  · rw [State.applyReg_shpCtrl x v sel hl, State.writeShpCtrl_clear hclr hbits]
    exact s.clearCounts_cleared x
  · rw [State.applyReg_hostDiv x v sel hl]
    exact if_pos hreport

end Sys2Proof
end

/-! ### Writes of the host rings, the time, the alarms, power and security -/

section
open Sys2Proof Sys2Proof.Machine Claims

namespace Sys2Proof.Machine

section
variable {s : State} (x : Shep) {v : Word}

/-! The command rings (R330). -/

/-- A command ring that was off takes its priority, its size and EN = 1, and starts anew. -/
theorem State.writeCmdCfg_on {r : Nat} (hsize : fHIF_CMD_CFG_SIZE.get v < 10) (hoff : s.cmdOn r = false) (hen : fHIF_CMD_CFG_EN.get v = 1) :
    s.writeCmdCfg x r v = both (fun y s => (s.pPut y (HIF_CMD_STAT r) fHIF_CMD_STAT_CONS 0).modSh y fun h => { h with
      cmdProd := Tab.set h.cmdProd 0 r 0, stopped := h.stopped.filter fun q => decide (q ≠ r) })
      (((s.sPut (HIF_CMD_CFG r) fHIF_CMD_CFG_PRIO (fHIF_CMD_CFG_PRIO.get v)).sPut (HIF_CMD_CFG r) fHIF_CMD_CFG_SIZE (fHIF_CMD_CFG_SIZE.get v)).sPut
        (HIF_CMD_CFG r) fHIF_CMD_CFG_EN 1) := by
  simp only [State.writeCmdCfg, hoff, hen, Nat.not_le.mpr hsize, decide_false, decide_true, Bool.false_and, Bool.or_self, Bool.not_false, Bool.and_self,
    Bool.false_eq_true, if_false, if_true]

/-- A command ring that is on takes EN alone, and notes another size or priority. -/
theorem State.writeCmdCfg_off {r : Nat} (hsize : fHIF_CMD_CFG_SIZE.get v < 10) (hon : s.cmdOn r = true) :
    s.writeCmdCfg x r v = (if fHIF_CMD_CFG_SIZE.get v ≠ s.sGet (HIF_CMD_CFG r) fHIF_CMD_CFG_SIZE ∨ fHIF_CMD_CFG_PRIO.get v ≠ s.cmdPrio r then s.hifBad x else s).sPut
      (HIF_CMD_CFG r) fHIF_CMD_CFG_EN (fHIF_CMD_CFG_EN.get v) := by
  simp only [State.writeCmdCfg, hon, Nat.not_le.mpr hsize, decide_false, Bool.true_and, Bool.or_false, Bool.not_true, Bool.false_and,
    Bool.false_eq_true, if_false, if_true, decide_eq_true_eq]

/-- A ring that its function has for itself takes its size, its EN, and starts where EN turns it on (R343). -/
theorem State.writeRingCfg_sized {k : Nat} (hsize : fHIF_RING_CFG_SIZE.get v < 10) :
    s.writeRingCfg x k v =
      let n := (s.pPut x (HIF_RING_CFG k) fHIF_RING_CFG_SIZE (fHIF_RING_CFG_SIZE.get v)).pPut x (HIF_RING_CFG k) fHIF_RING_CFG_EN (fHIF_RING_CFG_EN.get v)
      if s.pGet x (HIF_RING_CFG k) fHIF_RING_CFG_EN = 0 ∧ fHIF_RING_CFG_EN.get v = 1 then n.modRing x k fun _ => {} else n := by
  simp only [State.writeRingCfg, Nat.not_le.mpr hsize, if_false]

/-! RST_CTRL (R484 to R486). -/

/-- Another word than one of the resets, or none, is refused. -/
theorem State.writeRstCtrl_refused (h : v.toNat / 2 ^ 29 = 3 ∨ 5 ≤ v.toNat / 2 ^ 29) : s.writeRstCtrl x v = s.rstBad x := by
  unfold State.writeRstCtrl
  split
  · omega
  · omega
  · omega
  · omega
  · rfl

/-- One of the resets: its fields are stored, and what it names is reset. -/
theorem State.writeRstCtrl_shp (h : v.toNat / 2 ^ 29 = 4) :
    s.writeRstCtrl x v = ((s.dPut RST_CTRL fRST_CTRL_SHEPHERD (fRST_CTRL_SHEPHERD.get v)).dPut RST_CTRL fRST_CTRL_PADDOCK (fRST_CTRL_PADDOCK.get v)).shpReset (ctrlShep v) := by
  have hrow : s.writeRstCtrl x v = s.writeRstShp x v := by
    simp only [State.writeRstCtrl, h]
  exact hrow.trans (if_neg (not_not.mpr h))

theorem State.writeRstCtrl_soft (h : v.toNat / 2 ^ 29 = 2) :
    s.writeRstCtrl x v = ((s.dPut RST_CTRL fRST_CTRL_SHEPHERD (fRST_CTRL_SHEPHERD.get v)).dPut RST_CTRL fRST_CTRL_PADDOCK (fRST_CTRL_PADDOCK.get v)).softReset (ctrlShep v) := by
  have hrow : s.writeRstCtrl x v = s.writeRstSoft x v := by
    simp only [State.writeRstCtrl, h]
  exact hrow.trans (if_neg (not_not.mpr h))

theorem State.writeRstCtrl_pdk (h : v.toNat / 2 ^ 29 = 1) :
    s.writeRstCtrl x v = if s.pdkResetOk (fRST_CTRL_PADDOCK.get v) = false then s.rstBad x
      else ((s.dPut RST_CTRL fRST_CTRL_SHEPHERD (fRST_CTRL_SHEPHERD.get v)).dPut RST_CTRL fRST_CTRL_PADDOCK (fRST_CTRL_PADDOCK.get v)).padReset (fRST_CTRL_PADDOCK.get v) := by
  have hrow : s.writeRstCtrl x v = s.writeRstPdk x v := by
    simp only [State.writeRstCtrl, h]
  refine hrow.trans (if_congr ⟨fun h' => h'.resolve_left fun hne => hne h, .inr⟩ rfl rfl)

/-! RELOCK (R506). -/

def dbgRow : RegRow := ⟨0x4004, 1, 4, .dev, .none, 0x0, 0x0, 0x0, 0x0, 0x0, 0x80000000⟩

theorem State.writeDbg_relock (s : State) : s.writeDbg (fLCS_DBG_RELOCK.put 0 1) = s.setLevel 0 := if_pos (by decide)

/-- RELOCK through a function that serves the whole map. -/
theorem State.arrive_relock (hserved : s.served x LCS_DBG = true) (hapart : s.apart x = false) : s.arrive x LCS_DBG (fLCS_DBG_RELOCK.put 0 1) = s.setLevel 0 := by
  obtain ⟨hreg, htable, hload⟩ := RegRow.regAt_found (r := dbgRow) (by decide) (i := 0) (by decide)
  have hbits : s.part.absentBits dbgRow 0 = some 0 := rfl
  calc
    s.arrive x LCS_DBG (fLCS_DBG_RELOCK.put 0 1)
      = (s.flagAbsent x (fLCS_DBG_RELOCK.put 0 1) 0).arriveAt x dbgRow LCS_DBG (fLCS_DBG_RELOCK.put 0 1 &&& ~~~0) := State.arrive_present hserved hload htable hreg hbits
    _ = s.arriveAt x dbgRow LCS_DBG (fLCS_DBG_RELOCK.put 0 1) := by rw [State.flagAbsent, if_pos (by decide)]; rfl
    _ = s.writeDbg (fLCS_DBG_RELOCK.put 0 1) := by simp [State.arriveAt, hapart]
    _ = s.setLevel 0 := s.writeDbg_relock

/-! GLB_LOAD_CTRL (R541). -/

theorem State.writeLoadCtrl_start (hstart : fGLB_LOAD_CTRL_START.get v = 1) (hbusy : s.loadBusy x = false) :
    s.writeLoadCtrl x v = if fGLB_LOAD_CTRL_LENGTH.get v = 0 ∨ s.part.loadBytes < fGLB_LOAD_CTRL_LENGTH.get v then s.badLoad x
      else (s.pPut x GLB_LOAD_CTRL fGLB_LOAD_CTRL_LENGTH (fGLB_LOAD_CTRL_LENGTH.get v)).pPut x GLB_LOAD_CTRL fGLB_LOAD_CTRL_BUSY 1 := by
  simp only [State.writeLoadCtrl, hstart, hbusy, decide_true, Bool.true_and, Bool.false_or, decide_eq_true_eq, if_true]

/-! The layouts of the fold (R422). -/

/-- The size that a layout register asks for is one that it may have. -/
def layoutFits (off : Nat) (f : Fld) (v : Word) : Prop :=
  (off = FLD_LIB_CFG ∧ f = fFLD_LIB_CFG_RECORDS ∧ f.get v ≤ 65536) ∨ (off = FLD_FITLOG_CFG ∧ f = fFLD_FITLOG_CFG_SIZE ∧ 16 ≤ f.get v ∧ f.get v ≤ 1024)

theorem layoutFits.reg {off : Nat} {f : Fld} (h : layoutFits off f v) : off = FLD_LIB_CFG ∨ off = FLD_FITLOG_CFG := h.imp And.left And.left

/-- Nothing holds the regions of the fold: the recorder is stopped, the library and the fit log are empty. -/
def State.foldIdle (s : State) : Bool := decide ((s.sh s.lead).recorder.state = 0) && s.library.isEmpty && decide ((s.sh s.lead).fit.log = [])

theorem State.foldIdle_iff (s : State) : s.foldIdle = true ↔ (s.sh s.lead).recorder.state = 0 ∧ s.library = [] ∧ (s.sh s.lead).fit.log = [] := by
  simp [State.foldIdle, and_assoc]

theorem ite_eq_zero_eq (k : BitVec 1) (kept : List RecFrame) : (if k = 0 then [] else kept) = if decide (k ≠ 0) = true then kept else [] := by
  by_cases h : k = 0 <;> simp [h]

/-- A layout that may be, taken where nothing holds the regions; the recorder's ring keeps what fits, or nothing. -/
theorem State.writeLayout_fits {off : Nat} {f : Fld} (h : layoutFits off f v) :
    s.writeLayout off v = if s.foldIdle then
        both (fun y u => u.modRec y fun r => { r with
          ring := if decide (((s.sPut off f (f.get v)).draw 1).1 ≠ 0) = true then (newestFit (u.ringBytes y) r.ring.reverse).reverse else [] })
          ((s.sPut off f (f.get v)).draw 1).2
      else both (fun y s => s.pFlag y FLD_STATUS fFLD_STATUS_BAD_CFG) s := by
  rcases h with ⟨rfl, rfl, hle⟩ | ⟨rfl, rfl, hlo, hhi⟩
  · simp only [State.writeLayout, State.foldIdle, hle, decide_true, if_true, Bool.true_and, ite_eq_zero_eq]
    rfl
  · have hoff : ¬FLD_FITLOG_CFG = FLD_LIB_CFG := by decide
    simp only [State.writeLayout, State.foldIdle, hoff, hlo, hhi, decide_false, decide_true, Bool.false_eq_true, if_false, and_self, Bool.true_and, ite_eq_zero_eq]
    rfl

end

end Sys2Proof.Machine

namespace Sys2Proof

/-- Settles O56. -/
theorem hostTimeAlarmWritesAct : Obligations.HostTimeAlarmWritesAct := by
  refine fun s x v sel hl => ⟨fun r hr hsize => ?_, fun k hk hsize => ?_, fun h => ?_, fun hservo hlo hhi => ?_, fun k kind hkind hk => ?_, ?_, fun k hk => ?_⟩
  · rw [State.applyReg_cmdCfg x v sel hl hr]
    refine ⟨State.writeCmdCfg_on x hsize, fun hon hs hp => (State.writeCmdCfg_off x hsize hon).trans ?_, fun hon h => (State.writeCmdCfg_off x hsize hon).trans ?_⟩
    · rw [if_neg (by simp [hs, hp])]
    · rw [if_pos h]
  · rw [State.applyReg_ringCfg x v sel hl hk, State.writeRingCfg_sized x hsize]
    exact ⟨fun hwas hen => if_pos ⟨hwas, hen⟩, fun h => if_neg fun h' => h.elim (fun h => h h'.1) fun h => h h'.2⟩
  · rw [State.applyReg_timIncr x v sel hl]
    exact if_pos h
  · rw [State.applyReg_timIncr x v sel hl]
    refine if_neg ?_
    rintro (h | h | h)
    · simp [hservo] at h
    · omega
    · omega
  · rw [State.applyReg_inject x v sel hl]
    simp only [List.mem_cons, Prod.mk.injEq, List.not_mem_nil, or_false] at hkind
    rcases hkind with ⟨rfl, rfl⟩ | ⟨rfl, rfl⟩ | ⟨rfl, rfl⟩ | ⟨rfl, rfl⟩ | ⟨rfl, rfl⟩ | ⟨rfl, rfl⟩ <;> simp only [State.writeInject, hk]
  · rw [State.applyReg_parked x v sel hl]
    exact ⟨fun h => if_pos h, fun h => if_neg (by omega)⟩
  · rw [State.applyReg_cleared x v sel hl hk]
    rfl

/-- Settles O57. -/
theorem powerAndSecurityWritesAct : Obligations.PowerAndSecurityWritesAct := by
  refine fun s x v sel hl => ⟨fun hwake hseen => ?_, ?_, ?_, fun hserved hapart => ?_, fun hoff hreset => ?_, fun hstart hbusy => ?_, ?_, fun off f hoff => ?_⟩
  · rw [State.applyReg_wake x v sel hl]
    simp only [State.writeWake, hwake, hseen, Nat.zero_ne_one, if_false, if_true]
  · rw [State.applyReg_rstCtrl x v sel hl]
    exact ⟨State.writeRstCtrl_shp x, State.writeRstCtrl_soft x, fun h hok => (State.writeRstCtrl_pdk x h).trans (if_neg (ne_false_of_eq_true hok)),
      fun h hok => (State.writeRstCtrl_pdk x h).trans (if_pos hok), State.writeRstCtrl_refused x⟩
  · rw [State.applyReg_lock x _ sel hl]
    exact ⟨if_pos (by decide), decide_eq_true (State.dGet_dPut_self _ _ _ _ (by decide) (by decide))⟩
  · exact does_of_ran rfl (State.arrive_relock x hserved hapart)
  · refine does_of_ran rfl ?_
    exact (if_neg (by simp [hoff, hreset])).trans s.writeDbg_relock
  · rw [State.applyReg_loadCtrl x v sel hl, State.writeLoadCtrl_start x hstart hbusy]
    exact ⟨fun hpos hle => if_neg (by omega), fun h => if_pos h⟩
  · rw [State.applyReg_fence x v sel hl]
    intro was pads n opens m
    refine congrArg (fun m => List.foldl State.xingOpen m _) (if_congr ?_ rfl rfl)
    simp [opens, n, pads, and_assoc]
  · rw [State.applyReg_layout x v sel hl (layoutFits.reg hoff), State.writeLayout_fits hoff]
    refine ⟨fun hbusy => if_neg (mt s.foldIdle_iff.mp hbusy), fun hidle => ⟨decide (((s.sPut off f (f.get v)).draw 1).1 ≠ 0), if_pos (s.foldIdle_iff.mpr hidle)⟩⟩

end Sys2Proof
end
